-- ==== Sys2Proof/Word.lean ====
section
/-!
DEFINITION. The byte and the native word of the XS-6400 (spec 00_scope.md R4, R10).
-/

namespace Sys2Proof

/-- One byte of a message, a record or memory (R4). -/
abbrev Byte := BitVec 8

/-- The native 40-bit word: samples, NCO frequencies, taps, internal addresses (R10). -/
abbrev Word40 := BitVec 40

end Sys2Proof
end

