-- ==== Sys2Proof/Syntax.lean ====
section
/-!
DEFINITION. The commands of the XS-6400: one constructor of `Instr` per row of spec/opcode_table.json, with the operands
its rule gives it. Every command's first operand `dt` is the time since the command before it, in REFCLK periods of
10 ns (LPO periods while the always-on domain runs on the LPO, R41); 0 is the same edge. What the device cannot know by
itself (a measured value, a check done on a secret, the outcome of an analogue process) is an operand of the command
that reports it.
-/

namespace Sys2Proof

/-- Who writes a parameter: port 0 Mainland, 1 FIELD (R595), and the session handle 0-3, 0xFF none (R566). -/
structure Who where
  port : Nat
  ses : Nat
  deriving DecidableEq, Repr

/-- An operation record's frame: the port, SESSION and REQ_ID or FIELD transfer number (R493, R566, R574). -/
structure Req where
  port : Nat
  ses : Nat
  id : Nat
  deriving DecidableEq, Repr

/-- One item of an operation record (R567). -/
structure Item where
  index : Nat
  sub : Nat
  first : Nat
  span : Nat
  value : List Byte
  deriving DecidableEq, Repr

/-- What a message's header and checks say (R475, R477, R502): the port it came in on (0 Mainland, 1-4 S0-S3), its
virtual channel, RESPONSE flag, ISLAND, SEQ and whether its CRC-32C holds. LENGTH is the length of the body. [Log: 79 DEDUCED] -/
structure Hdr where
  port : Nat
  vc : Nat
  resp : Bool
  island : Nat
  seq : Nat
  crcOk : Bool
  deriving DecidableEq, Repr

/-- The result of the error check of a read of package memory (R150, R151). -/
inductive Ecc where
  | ok
  | corrected
  | uncorrectable
  deriving DecidableEq, Repr

/-- That result with the burst it was worst at: of an entry 0 to 3, of the sentinel ring its number from the ring's start. -/
structure BurstEcc where
  ecc : Ecc
  burst : Nat
  deriving DecidableEq, Repr

/-- The entry a write-back reads, and how the read went. -/
structure EntryRead where
  catnum : Nat
  read : BurstEcc
  deriving DecidableEq, Repr

/-- The end of a CATALOGUE_OP: the time since the command before, and the addresses of uncorrectable bursts its reads met. -/
structure CatDone where
  dt : Nat
  bad : List Nat
  deriving DecidableEq, Repr

/-- The reads of an ATTACH: snapshots with an uncorrectable burst, and the entry. -/
structure AttachReads where
  unreadable : List Nat
  entry : BurstEcc
  deriving DecidableEq, Repr

/-- The boot ROM's check of one image under reasons 1-5 of R624 (R637). -/
structure ImageCheck where
  comp : Nat
  slot : Nat
  ok : Bool
  deriving DecidableEq, Repr

/-- What a boot finds: the image checks, the inputs found open (R386), the rows of R601 whose check code fails (R604)
and the schema of the stored settings (R632). -/
structure BootIn where
  images : List ImageCheck
  openWires : Nat
  fuseBad : List Nat
  schema : Nat
  keyBad : Nat := 0
  deriving DecidableEq, Repr

/-- The samples of one REFRESH placement in the slot that ends: each the bin samples of the 64 paths (R183, R214).
[Log: 16 DEDUCED] -/
structure RefreshIn where
  group : Nat
  cat : Nat
  samples : List (List Nat)
  deriving DecidableEq, Repr

/-- The snapshots of one HOLD item in the slot that ends, in the order of R206: each the bin samples of the 64 paths.
[Log: 16 DEDUCED] -/
structure HoldIn where
  group : Nat
  item : Nat
  snaps : List (List Nat)
  deriving DecidableEq, Repr

/-- What the slot that ends produced. -/
structure SlotIn where
  refresh : List RefreshIn
  hold : List HoldIn
  deriving DecidableEq, Repr

/-- The samples of one UL_DATA message: for each word from OFFSET on the bin samples of the 64 paths it is formed from (R183, R203,
R204), for RAW the band output itself (R205). [Log: 16 DEDUCED] -/
structure UlSeg where
  slot : Nat
  group : Nat
  kind : Nat
  offset : Nat
  words : List (List Nat)
  deriving DecidableEq, Repr

/-- What a Collimation run measured (R331, R344, R350, R351). -/
structure CollimResult where
  groups : Nat
  figures : List Nat
  corr : List Nat
  bridge : List Nat
  temp : List Int
  unmeasured : Nat
  bridgeIncomplete : Bool
  deriving DecidableEq, Repr

/-- What the media-access layer takes of a TIME message (R426): the ps from the command's instant to the instant the frame marker
passed, and the bit offset of the message's first header byte from that marker, inserted bits counted. -/
structure MacStamp where
  mark : Int
  bit : Nat
  deriving DecidableEq, Repr

/-- A time inside a PTP message (R422): 48-bit seconds, ns, and correctionField in units of 2^-16 ns. -/
structure PtpTime where
  secs : Nat
  ns : Nat
  corr : Int
  deriving DecidableEq, Repr

/-- A PTP Sync: sequence number, domain, twoStepFlag, logSyncInterval, its ingress stamp and its correctionField in units of
2^-16 ns. -/
structure PtpSync where
  seqId : Nat
  domain : Nat
  twoStep : Bool
  logInt : Int
  t2 : MacStamp
  corr : Int
  deriving DecidableEq, Repr

/-- A PTP Announce: the data set compared by the best-master algorithm, and the UTC offset with its leap flags. -/
structure PtpAnnounce where
  domain : Nat
  identity : Nat
  portId : Nat
  prio1 : Nat
  cls : Nat
  accuracy : Nat
  variance : Nat
  prio2 : Nat
  steps : Nat
  utcOffset : Int
  leap : Bool
  deriving DecidableEq, Repr

/-- What the calibration of a freed core found (R86), in thousandths of the units of the rule: DC offset of I and Q and integral
non-linearity in LSB, gain in dB, phase in degrees and timing skew in ps relative to the serving core. [Log: 16 DESIGN CHOICE] -/
structure CoreResult where
  offsetI : Int
  offsetQ : Int
  gain : Int
  phase : Int
  skew : Int
  inl : Int
  deriving DecidableEq, Repr

/-- A complete time exchange on a Strait port: whether this island is the child, its sequence number, this island's stamps of the
Sync and of the Delay_Req, and, as the child, what the parent sends of its own (R428): t1 in Follow_Up, t4 in Delay_Resp, each
corrected by the parent, and the parent's error estimate in ps where known (R414). -/
structure StraitExchange where
  port : Nat
  child : Bool
  seqId : Nat
  sync : MacStamp
  req : MacStamp
  t1 : PtpTime
  t4 : PtpTime
  parentErr : Option Nat
  deriving DecidableEq, Repr

/-- The commands, in the order of spec/opcode_table.json. -/
inductive Instr where
  /-- POWER_ON_RESET (R36). VDD_AON rises into limits or browns out, causing a power-on reset that loses time, the Ephemeris, the retention area and package memory. -/
  | powerOnReset (dt : Nat) (brownout : Bool) (retained : Bool)
  /-- PWR_OK_RISE (R31). PWR_OK rises; if RESET_N is already high this edge is the instant of reset release and the boot ROM starts. -/
  | pwrOkRise (dt : Nat)
  /-- PWR_OK_FALL (R29). PWR_OK falls: bias outputs park within 5 µs, TX is disabled, no new MRAM write is accepted, started writes complete, and the device holds itself in reset. -/
  | pwrOkFall (dt : Nat)
  /-- RESET_N_ASSERT (R32). RESET_N held low for at least 2 µs causes a RESET_N-class reset. -/
  | resetNAssert (dt : Nat)
  /-- RESET_N_RELEASE (R31). A rising edge of RESET_N while PWR_OK is high releases reset and the boot ROM starts on the always-on clock. -/
  | resetNRelease (dt : Nat)
  /-- CHART_PINS_SAMPLE (R34). 100 µs after reset release the device samples CHART0, CHART1 and ROOT_N and reports them in ChartPinsSampled. -/
  | chartPinsSample (dt : Nat) (chart : Nat) (rootLow : Bool)
  /-- BOOT_COMPLETE (R33). Images are verified and running and the Chart is loaded; the device raises EV0 and enters the state named by PwrBootState. -/
  | bootComplete (dt : Nat) (b : BootIn)
  /-- BOOT_RETRY (R637). With no usable image, the device retries the boot every 10 s while holding bias parked and TX off. -/
  | bootRetry (dt : Nat) (images : List ImageCheck)
  /-- PACKAGE_MEMORY_INIT_DONE (R141). Package memory initialisation completes with every Catalogue entry EMPTY and MemState 0, or fails with MemState 2 and EV10. -/
  | packageMemoryInitDone (dt : Nat) (ok : Bool)
  /-- BIAS_PARK_LOAD (R360). Within 2 ms of PWR_OK rising, BiasRange and BiasPark are loaded from MRAM and outputs move from CLAMPED to PARKED, or a group stays CLAMPED with EV62. -/
  | biasParkLoad (dt : Nat) (stored : List Bool) (headroom : List Bool)
  /-- BIAS_CLAMP_ENGAGE (R361). 20 µs after PWR_OK falls the clamp engages on every bias output. -/
  | biasClampEngage (dt : Nat)
  /-- RAIL_FAULT (R30). A rail other than VDD_AON or VDD_CORE leaves its limits: bias parks, TX is disabled, EV9 is raised and the device goes to DEEP. -/
  | railFault (dt : Nat) (rail : Nat)
  /-- CORE_BROWNOUT (R30). VDD_CORE leaves its limits, causing a RESET_N-class reset reported with EV1 at the next boot. -/
  | coreBrownout (dt : Nat)
  /-- RAIL_RECOVERED (R30). A faulted rail has been within limits for 10 ms, allowing a later wake cause to take the device out of DEEP. -/
  | railRecovered (dt : Nat) (rail : Nat)
  /-- WATCHDOG_EXPIRY (R36). WatchdogPeriod passes without a CURATOR service: all bias outputs park and a warm watchdog reset begins. -/
  | watchdogExpiry (dt : Nat)
  /-- RESET_COMMAND (R38). A write of 0xA5 to ResetCommand is acknowledged and starts a command reset; other values are refused. -/
  | resetCommand (dt : Nat) (who : Who) (value : Nat)
  /-- REFCLK_LOST (R44). REFCLK edge count per LPO period leaves 3,020–3,083: the always-on domain moves to the LPO, EV3 is raised, DEEP is entered and the Ephemeris suspended. -/
  | refclkLost (dt : Nat)
  /-- REFCLK_RESTORED (R45). REFCLK has qualified for 10 ms: the always-on domain returns to REFCLK, LPO clears, HOLDOVER sets, EV4 is raised and passed entries are handled. -/
  | refclkRestored (dt : Nat)
  /-- PLL_UNLOCK (R47). Loss of lock of the core or converter PLL is declared, with tagging, drops, plan discards and abandonments as the PLL requires. -/
  | pllUnlock (dt : Nat) (conv : Bool)
  /-- PLL_RELOCK (R47). A relock attempt of the core or converter PLL completes; chains restart from zero history and pending Ephemeris actions are handled. -/
  | pllRelock (dt : Nat) (conv : Bool)
  /-- PLL_RELOCK_FAIL (R47). A relock attempt fails; it is repeated up to twice, and after the third failure EV5 is raised and a command reset performed. -/
  | pllRelockFail (dt : Nat) (conv : Bool)
  /-- SYNC_EDGE (R48). A rising edge on SYNC_P/N staying high for two REFCLK periods is accepted, time-stamped and acted on per SyncAction. -/
  | syncEdge (dt : Nat)
  /-- SYNCO_FORWARD (R48). Three REFCLK periods after the sampling edge the accepted SYNC edge is driven on SYNCO when SyncoEnable is set. -/
  | syncoForward (dt : Nat)
  /-- SYNC_MISSING (R51). No SYNC edge is accepted within SyncExpectPeriod plus 1 µs, raising EV8 with the count of missed periods. -/
  | syncMissing (dt : Nat)
  /-- SYNCHRONISING_RESET (R131). On the converter sample 100 ns after an accepted SYNC edge every running chain zeroes its history, resets NCO phase and decimation, with EV27. -/
  | synchronisingReset (dt : Nat)
  /-- PWR_REQUEST_STATE (R68). A write of 0–2 to PwrRequestState requests DEEP, WATCH or READY at once. -/
  | pwrRequestState (dt : Nat) (who : Who) (value : Nat)
  /-- PWR_IDLE_TIMEOUT (R58). No unit ACTIVE, no plan queued and no Ephemeris action running for PwrIdleTimeout: the device enters PwrIdleState. -/
  | pwrIdleTimeout (dt : Nat)
  /-- WAKE_ML0_SIGNAL (R59). Signal on ML0 for 10 µs continuously in DEEP is a wake cause toward READY. -/
  | wakeMl0Signal (dt : Nat)
  /-- WAKE_FIELD_FRAME (R60). A FIELD frame addressed to the island received without error in DEEP wakes the device to READY and is discarded. -/
  | wakeFieldFrame (dt : Nat) (island : Nat)
  /-- TRIG_IN_EDGE (R59). An edge on TRIG_IN acts as wake cause, Transit condition and injected-conversion trigger where configured. -/
  | trigInEdge (dt : Nat) (rising : Bool) (finePs : Nat)
  /-- STATE_ENTERED (R67). A power-state transition completes and EV6 is raised with the new PwrState and PwrActiveMask. -/
  | stateEntered (dt : Nat)
  /-- UNIT_ACTIVATION_START (R55). The device begins bringing a carrier group or TX quadrant into ACTIVE at its slot or request instant less the transition maximum, or at plan acceptance. -/
  | unitActivationStart (dt : Nat) (unit : Nat)
  /-- CORE_TAKEOVER (R82). At a rotation step boundary the pre-aligned core hitlessly takes over the target role and the freed core takes the spare role. -/
  | coreTakeover (dt : Nat) (quad : Nat)
  /-- CORE_CALIBRATION_DONE (R87). Calibration of a freed core ends; on pass pre-alignment starts, on failure it repeats and after three failures the core is retired. -/
  | coreCalibrationDone (dt : Nat) (quad : Nat) (result : CoreResult)
  /-- PREALIGN_RESUME (R85). At the end of the SETTLE interval or LO settling the abandoned pre-alignment is repeated in full. -/
  | prealignResume (dt : Nat) (quad : Nat)
  /-- RX_RETIRED_MASK_CLEAR (R88). A maker write clearing a bit of RxRetiredMask returns the retired core to the spare role at the quad's next step. -/
  | rxRetiredMaskClear (dt : Nat) (who : Who) (value : Nat)
  /-- TRIM_STORE (R90). Every ConvTrimStorePeriod seconds the trims of every core are stored to MRAM as an A/B record. -/
  | trimStore (dt : Nat)
  /-- INTERLEAVE_SKEW_LIMIT (R95). In wide mode the estimated interleave skew of a path exceeds InterleaveSkewLimit, raising EV21 at most once per path per second. -/
  | interleaveSkewLimit (dt : Nat) (path : Nat) (skew : Nat)
  /-- RX_CLIP (R96). A converter sample reaches full scale: CLIP is set, the clip count incremented and EV16 or EV17 raised at most once per chain per 1 ms. -/
  | rxClip (dt : Nat) (group : Nat) (path : Nat) (samples : Nat)
  /-- RX_BLOCKER (R97). Detected RF input power exceeds RxBlockerThreshold, raising EV31 at most once per path per 1 ms. -/
  | rxBlocker (dt : Nat) (path : Nat) (power : Nat)
  /-- RX_PATH_DISABLE (R98). Clearing a bit of a path enable mask makes the chain contribute zero from the next slot boundary, or at once when the group is not ACTIVE, with EV30. -/
  | rxPathDisable (dt : Nat) (who : Who) (group : Nat) (mask : Nat)
  /-- RX_PATH_ENABLE (R99). Setting a bit of a path enable mask starts the chain's core; the path contributes from the first slot boundary after its settle count. -/
  | rxPathEnable (dt : Nat) (who : Who) (group : Nat) (mask : Nat)
  /-- FIR_CROSSFADE_DONE (R116). After 256 cross-faded band outputs the new bank is ACTIVE, the old IDLE, and EV24 is raised. -/
  | firCrossfadeDone (dt : Nat) (group : Nat)
  /-- CHANNELIZER_OVERFLOW (R122). A bin sample saturates, carrying CLIP, counted, with EV26 at most once per group per 1 ms. -/
  | channelizerOverflow (dt : Nat) (group : Nat) (path : Nat) (samples : Nat)
  /-- SETTLE_DONE (R130). A group reaches its first bin instant with no SETTLE on any enabled path after a start or synchronising reset, raising EV18. -/
  | settleDone (dt : Nat) (group : Nat)
  /-- THRESH_BLOCK_DONE (R133). A block of 2^k band outputs completes and its mean power updates the threshold states of the chain. -/
  | threshBlockDone (dt : Nat) (group : Nat) (path : Nat) (power : Nat) (tagged : Bool)
  /-- THRESH_EVENT_WINDOW_END (R135). At the end of a 1 ms event hold-off, a threshold whose state differs from the last reported raises one event with the present state. -/
  | threshEventWindowEnd (dt : Nat) (group : Nat) (path : Nat) (thr : Nat)
  /-- CATALOGUE_FETCH (R149). A Catalogue entry named by a placement is read once per slot and group before the slot's first bin sample is combined. -/
  | catalogueFetch (dt : Nat) (group : Nat) (catnum : Nat) (ecc : BurstEcc)
  /-- SCRUB_BURST (R153). Scrub reads the next burst of package memory at its pace, writing back corrections and zeroing uncorrectable bursts outside the Catalogue. -/
  | scrubBurst (dt : Nat) (ecc : Ecc)
  /-- CATGEN_MRAM_COPY (R165). Every 10 s while it is changing, and at entry to DEEP, CatGeneration is copied to MRAM. -/
  | catgenMramCopy (dt : Nat)
  /-- CATALOGUE_OP_WRITE (R171). A CATALOGUE_OP WRITE stores up to 64 entry images with new GEN values after the whole operation is checked. -/
  | catalogueOpWrite (dt : Nat) (hdr : Hdr) (body : List Byte)
  /-- CATALOGUE_OP_CLEAR (R171). A CATALOGUE_OP CLEAR writes up to 65,536 entries as EMPTY. -/
  | catalogueOpClear (dt : Nat) (hdr : Hdr) (body : List Byte)
  /-- CATALOGUE_OP_READ (R171). A CATALOGUE_OP READ returns up to 64 stored entries in a response on VC3. -/
  | catalogueOpRead (dt : Nat) (hdr : Hdr) (body : List Byte)
  /-- CATALOGUE_OP_SET_STATE (R171). A CATALOGUE_OP SET_STATE moves entries between ATTACHED and LOCKED, leaving EMPTY, STALE and unchanged entries alone. -/
  | catalogueOpSetState (dt : Nat) (hdr : Hdr) (body : List Byte)
  /-- CATALOGUE_OP_QUERY (R171). A CATALOGUE_OP QUERY returns CatGeneration and the entry counts per state. -/
  | catalogueOpQuery (dt : Nat) (hdr : Hdr) (body : List Byte)
  /-- CATALOGUE_OP_COMPLETE (R172). A CATALOGUE_OP completes after its metered traffic and its response leaves on VC1 with status and CatGeneration. -/
  | catalogueOpComplete (done : CatDone)
  /-- SLOT_PLAN (R193). A SLOT_PLAN segment arrives on VC1, is checked against its layout and, when the plan becomes complete, the plan is judged. -/
  | slotPlan (dt : Nat) (hdr : Hdr) (body : List Byte)
  /-- SLOT_PLAN_DEADLINE (R194). 200 µs before a slot starts, an incomplete plan for it is late and discarded whole with EV32. -/
  | slotPlanDeadline (dt : Nat) (group : Nat) (slot : Nat)
  /-- SLOT_BOUNDARY (R175). A slot of the device-wide length starts at a whole multiple of the slot length in Meridian time. -/
  | slotBoundary (dt : Nat) (inp : SlotIn)
  /-- UL_DATA_SEND (R486). A UL_DATA message of a slot block leaves on VC3 when credit allows. -/
  | ulDataSend (dt : Nat) (seg : UlSeg)
  /-- ATTACH (R209). An ATTACH request names a catalogue number, slot and bins whose HOLD snapshots yield a new signature. -/
  | attach (dt : Nat) (hdr : Hdr) (body : List Byte)
  /-- ATTACH_COMPLETE (R213). An ATTACH completes, writing the entry or failing with a reason, and its response leaves on VC1. -/
  | attachComplete (dt : Nat) (reads : AttachReads)
  /-- REFRESH_WRITEBACK (R216). A refresh write-back commits within 100 µs after the slot's last bin sample, or is discarded when GEN differs or the entry is LOCKED. -/
  | refreshWriteback (dt : Nat) (group : Nat) (entry : EntryRead)
  /-- AP_GROUP_DISABLE (R217). Clearing a group's bit in ApGroupEnable lets the slot complete, then discards its queued plans. -/
  | apGroupDisable (dt : Nat) (who : Who) (value : Nat)
  /-- AP_MODE_DISABLE (R217). Clearing a mode bit in ApModeEnable lets the slot complete, then discards queued plans using that mode. -/
  | apModeDisable (dt : Nat) (who : Who) (group : Nat) (value : Nat)
  /-- SENTINEL_DETECTION (R228). The sentinel trigger condition is met on a band output and a detection is declared with EV41. -/
  | sentinelDetection (dt : Nat) (seqs : List Nat) (num : List Nat) (den : List Nat) (back : Nat)
  /-- SENTINEL_HOLDOFF_END (R229). SentinelHoldoff after a detection expires and further detections may be declared. -/
  | sentinelHoldoffEnd (dt : Nat)
  /-- SENTINEL_REPLAY_SEND (R242). A SENTINEL_REPLAY message leaves on VC3 when no other UL_DATA is waiting. -/
  | sentinelReplaySend (dt : Nat) (n : Nat) (ecc : BurstEcc)
  /-- DL_PLAN (R258). A DL_PLAN segment arrives on VC1 and the complete plan is checked and accepted or refused. -/
  | dlPlan (dt : Nat) (hdr : Hdr) (body : List Byte)
  /-- DL_PLAN_DEADLINE (R259). At DlPlanDeadline before a slot, an incomplete DL_PLAN is late and discarded whole with EV44. -/
  | dlPlanDeadline (dt : Nat) (group : Nat) (slot : Nat)
  /-- DL_DATA (R267). A DL_DATA message is accepted into the group buffer or discarded as orphan, early or late. -/
  | dlData (dt : Nat) (hdr : Hdr) (body : List Byte)
  /-- DL_CONSUME (R268). At the consumption instant of a DL bin instant, missing words are taken as zero and counted. -/
  | dlConsume (dt : Nat) (group : Nat) (slot : Nat) (instant : Nat)
  /-- DL_CEILING_SCALE (R274). Before c_0 of each slot the worst path load against its ceiling sets the scaling factor, with EV63 when scaled. -/
  | dlCeilingScale (dt : Nat) (group : Nat) (slot : Nat)
  /-- BURST_START (R277). At a burst's first sample time the TX paths' readiness and the grant are checked and the burst sent or dropped whole. -/
  | burstStart (dt : Nat) (quadrant : Nat)
  /-- RAMP_START (R295). TxRampTime before a planned burst end the paths enter RAMP and the output ramps to zero. -/
  | rampStart (dt : Nat) (quadrant : Nat)
  /-- BURST_END (R276). A burst ends at the end of its last slot and the paths return to READY. -/
  | burstEnd (dt : Nat) (quadrant : Nat)
  /-- DL_GROUP_DISABLE (R281). Clearing a group's bit in DlGroupEnable lets the slot complete, then discards its queued DL_PLANs. -/
  | dlGroupDisable (dt : Nat) (who : Who) (value : Nat)
  /-- SYNTH_LOCK (R286). A synthesiser whose channel changed declares lock within 120 µs and raises EV48. -/
  | synthLock (dt : Nat) (synth : Nat)
  /-- SYNTH_CAL_FAIL (R288). A synthesiser calibration attempt fails; after the third failure it enters FAILED with EV50. -/
  | synthCalFail (dt : Nat) (synth : Nat)
  /-- SYNTH_UNLOCK (R289). A locked synthesiser loses lock: EV49 is raised, the unlock counted and recalibration begins. -/
  | synthUnlock (dt : Nat) (synth : Nat)
  /-- TX_REQUEST_INSTANT (R294). At request instant r the TX paths are checked; edges are issued at their times or held until READY. -/
  | txRequestInstant (dt : Nat) (quadrant : Nat)
  /-- RFCTL_EDGE (R298). An RFCTL output asserts or deasserts at its source interval edge plus LEAD or LAG. -/
  | rfctlEdge (dt : Nat) (output : Nat) (assert : Bool)
  /-- COEX_REQ_EDGE (R306). COEX_REQ asserts CoexLeadTime before a burst, or deasserts at its TX interval end, with COEX_PRI. -/
  | coexReqEdge (dt : Nat) (assert : Bool)
  /-- COEX_GRANT_WITHDRAWN (R308). COEX_GNT at its inactive level for 50 ns during a burst stops every quadrant in ON within 1 µs with EV53. -/
  | coexGrantWithdrawn (dt : Nat)
  /-- DPD_VISIT (R315). Per 2.0 ms of burst time the ORX visits the next eligible path and starts a capture. -/
  | dpdVisit (dt : Nat) (quadrant : Nat)
  /-- DPD_CAPTURE_DONE (R317). A capture completes and is skipped when clipped or too weak, otherwise handed to the model computation. -/
  | dpdCaptureDone (dt : Nat) (path : Nat) (clipped : Bool) (power : Nat)
  /-- DPD_COMPUTE_DONE (R320). Within 1.5 ms of the capture the new model and quality figures are ready, with EV56 when NMSE is poor. -/
  | dpdComputeDone (dt : Nat) (path : Nat) (nmse : Int) (aclr : Nat) (incs : List (Int × Int))
  /-- DPD_WARM_STORE (R327). A path's updated model is stored into its warm-start record pair after DpdStorePeriod or at entry to DEEP. -/
  | dpdWarmStore (dt : Nat) (path : Nat)
  /-- COLLIM_REQUEST (R335). A write of 1 to CollimRequest sets cause 4 of Collimation due. -/
  | collimRequest (dt : Nat) (who : Who) (value : Nat)
  /-- COLLIM_RELEASE (R354). A run reaches Release: the new record comes into force, the delay walk and store begin, and EV58 is raised. -/
  | collimRelease (dt : Nat) (res : CollimResult)
  /-- COLLIM_WINDOW_END (R339). A Collimation window closes and units without a plan leave ACTIVE and the prior state returns. -/
  | collimWindowEnd (dt : Nat)
  /-- COLLIM_DELAY_WALK_STEP (R334). Every 1,024 samples the applied delay of a path moves one step toward its target. -/
  | collimDelayWalkStep (dt : Nat) (group : Nat) (path : Nat)
  /-- BIAS_PARK_COMMAND (R362). A write of group bits to BiasParkCommand parks the named groups with cause 5 and EV60. -/
  | biasParkCommand (dt : Nat) (who : Who) (value : Nat)
  /-- BIAS_WRITE (R364). An immediate write to BiasWrite sets active and shadow codes and drives the output within 2 µs. -/
  | biasWrite (dt : Nat) (who : Who) (output : Nat) (value : Nat)
  /-- BIAS_RANGE_CHANGE (R367). A write to a group's BiasRange runs the park, clamp, switch and re-drive sequence ending with EV61. -/
  | biasRangeChange (dt : Nat) (who : Who) (group : Nat) (value : Nat)
  /-- BIAS_PARK_WRITE (R358). A write to BiasPark moves a PARKED output to the new value within 2 µs. -/
  | biasParkWrite (dt : Nat) (who : Who) (output : Nat) (value : Nat)
  /-- BIAS_CURRENT_LIMIT (R357). A bias output exceeds its 20 mA drive, is current-limited and raises EV62 cause 1. -/
  | biasCurrentLimit (dt : Nat) (output : Nat)
  /-- HK_FRAME (R387). A 1 ms housekeeping frame converts the die sensors and supply monitors and forms the junction value. -/
  | hkFrame (dt : Nat) (temps : List Int) (supplies : List Nat)
  /-- HK_SCAN_CONVERSION (R377). A scan entry is converted, its result stored and its limit states updated. -/
  | hkScanConversion (dt : Nat) (code : Nat)
  /-- HK_LIMIT_WINDOW_END (R377). At the end of a 10 ms hold-off a limit state differing from the last reported is raised. -/
  | hkLimitWindowEnd (dt : Nat) (entry : Nat) (high : Bool)
  /-- HK_CHECK_CONVERSION (R385). After each scan pass the check DAC is converted on the next checked input, setting or clearing its fail bit with EV75. -/
  | hkCheckConversion (dt : Nat) (code : Nat)
  /-- HK_SCAN_START (R374). A write of 1 to HkScanStart starts one scan pass in mode 1. -/
  | hkScanStart (dt : Nat) (who : Who) (value : Nat)
  /-- HK_INJECT_ARM (R380). Writing 1 to a bit of HkInjectArm arms injected slot i. -/
  | hkInjectArm (dt : Nat) (who : Who) (value : Nat)
  /-- HK_INJECT_DISARM (R380). Writing 0 to a bit of HkInjectArm disarms injected slot i. -/
  | hkInjectDisarm (dt : Nat) (who : Who) (value : Nat)
  /-- HK_INJECT_CONVERSION (R381). A triggered slot converts at the next slot boundary, stores result and instant, and re-arms or goes IDLE. -/
  | hkInjectConversion (dt : Nat) (code : Nat)
  /-- HK_CAL_REQUEST (R383). A write of 1 to HkCalRequest requests a self-calibration. -/
  | hkCalRequest (dt : Nat) (who : Who) (value : Nat)
  /-- HK_CAL_PERIODIC (R383). HkCalPeriod seconds of converter running time pass and a self-calibration is requested. -/
  | hkCalPeriodic (dt : Nat)
  /-- HK_CAL_START (R383). A waiting self-calibration starts once armed injected slots have converted or been disarmed. -/
  | hkCalStart (dt : Nat)
  /-- HK_CAL_DONE (R384). Self-calibration ends after 200 µs with EV77, keeping old trims on failure. -/
  | hkCalDone (dt : Nat) (ok : Bool)
  /-- TSA_READING (R388). The always-on sensor is read every 1 ms and checked against warning and shutdown levels, including the thermal wake. -/
  | tsaReading (dt : Nat) (temp : Int)
  /-- SUBSTITUTE_HOLD_END (R397). 10 s after a substituted sensor failed, TxThrottleSteps may fall below its value at the failure. -/
  | substituteHoldEnd (dt : Nat)
  /-- THERM_RESTART (R401). A write of 0x5A to ThermRestart after the TSA condition holds leaves shutdown as a command reset. -/
  | thermRestart (dt : Nat) (who : Who) (value : Nat)
  /-- RESTRICTED_SERVICE_START (R402). During shutdown a FIELD frame addressed to the island starts CURATOR alone in restricted service. -/
  | restrictedServiceStart (dt : Nat) (island : Nat)
  /-- RESTRICTED_SERVICE_TIMEOUT (R402). 60 s without a FIELD frame ends the restricted service and full shutdown resumes. -/
  | restrictedServiceTimeout (dt : Nat)
  /-- PTP_SYNC (R419). A two-step PTP Sync message is received in a TIME message and its ingress stamp taken. -/
  | ptpSync (dt : Nat) (sync : PtpSync)
  /-- PTP_FOLLOW_UP (R419). A PTP Follow_Up carrying the master's precise Sync egress time is received. -/
  | ptpFollowUp (dt : Nat) (seqId : Nat) (t1 : PtpTime)
  /-- PTP_DELAY_RESP (R428). A PTP Delay_Resp completes an exchange from which the path delay and offset are computed. -/
  | ptpDelayResp (dt : Nat) (seqId : Nat) (t4 : PtpTime) (logInterval : Int)
  /-- PTP_ANNOUNCE (R423). A PTP Announce feeds best-master selection and the UTC offset, with EV84 on a master change and EV93 on an offset change. -/
  | ptpAnnounce (dt : Nat) (ann : PtpAnnounce)
  /-- PTP_UNSUPPORTED_MESSAGE (R419). A peer-delay, Signaling, Management or one-step Sync message is discarded and counted. -/
  | ptpUnsupportedMessage (dt : Nat)
  /-- DELAY_REQ_SEND (R421). At a random interval the device sends a PTP Delay_Req. -/
  | delayReqSend (dt : Nat) (t3 : MacStamp)
  /-- TIME_SOURCE_LOST (R418). A source times out or goes down after time was set, entering HOLDOVER with EV81. -/
  | timeSourceLost (dt : Nat) (cause : Nat)
  /-- STEPPED_CLEAR (R413). 1 s after a step the STEPPED flag clears. -/
  | steppedClear (dt : Nat)
  /-- TIME_SET_TIME (R417). A write to TimeSetTime under source 4 sets the time, VALID and STEPPED, clears HOLDOVER and raises EV86. -/
  | timeSetTime (dt : Nat) (who : Who) (seconds : Nat) (fraction : Nat)
  /-- TIME_PPS_NEXT_SECONDS (R424). A write to TimePpsNextSeconds names the seconds of the first PPS_IN edge at least 1 ms later. -/
  | timePpsNextSeconds (dt : Nat) (who : Who) (value : Nat)
  /-- PPS_IN_EDGE (R424). A PPS_IN rising edge within the window of a whole second is time-stamped and used as a measurement. -/
  | ppsInEdge (dt : Nat) (finePs : Nat)
  /-- PPS_MISSING (R424). No PPS_IN edge falls within the window of a whole second; the miss is counted with EV83. -/
  | ppsMissing (dt : Nat)
  /-- PPS_OUT_EDGE (R425). PpsOutDelay before each whole Meridian second a rising edge is driven on PPS_OUT. -/
  | ppsOutEdge (dt : Nat)
  /-- PPS_OUT_PULSE_END (R425). PpsOutWidth after the edge PPS_OUT returns low. -/
  | ppsOutPulseEnd (dt : Nat)
  /-- STRAIT_TIME_EXCHANGE (R429). A time exchange with the time parent or child runs on the pinned Strait port at StraitTimeLog2Rate. -/
  | straitTimeExchange (dt : Nat) (exch : StraitExchange)
  /-- EPH_WRITE (R437). A write to EphWrite with ACTION 1–11 stores or replaces an entry as PENDING, or inserts at the lowest FREE entry. -/
  | ephWrite (dt : Nat) (who : Who) (body : List Byte)
  /-- EPH_CANCEL (R437). A write to EphWrite with ACTION 0 cancels the PENDING entry at INDEX. -/
  | ephCancel (dt : Nat) (who : Who) (index : Nat)
  /-- EPH_PREPARE (R435). An entry's preparation begins, locking it: 2 µs before a HANDOVER or at the transition start of WAKE, COLLIMATE or FIRMWARE_ACTIVATE. -/
  | ephPrepare (dt : Nat) (index : Nat)
  /-- EPH_WAKE (R65). A WAKE entry's transition brings the device to its target state by the entry time. -/
  | ephWake (dt : Nat) (index : Nat)
  /-- EPH_SLEEP (R445). A SLEEP entry fires and waits for every unit to leave ACTIVE. -/
  | ephSleep (dt : Nat) (index : Nat)
  /-- SLEEP_TAKE_EFFECT (R445). Once every unit has left ACTIVE the queued plans are discarded and the transition to the SLEEP target runs. -/
  | sleepTakeEffect (dt : Nat)
  /-- EPH_HANDOVER (R447). A HANDOVER commits every shadow value of the named units on one instant and raises EV92. -/
  | ephHandover (dt : Nat) (index : Nat)
  /-- EPH_CHART (R436). A CHART entry fires and selects a Chart for loading. -/
  | ephChart (dt : Nat) (index : Nat)
  /-- EPH_COLLIMATE (R339). A COLLIMATE entry fires and opens a Collimation window, or extends one already open. -/
  | ephCollimate (dt : Nat) (index : Nat)
  /-- EPH_SYNC_RESET (R131). A SYNC_RESET entry performs a synchronising reset on the first converter sample at or after its time. -/
  | ephSyncReset (dt : Nat) (index : Nat)
  /-- EPH_TRANSIT_ARM (R555). A TRANSIT_ARM entry with code 0 arms Transit. -/
  | ephTransitArm (dt : Nat) (index : Nat)
  /-- EPH_TRANSIT_CONDITION (R556). A TRANSIT_ARM entry with code 1 is an occurrence of sequencer condition 5. -/
  | ephTransitCondition (dt : Nat) (index : Nat) (instants : Nat)
  /-- EPH_TRANSIT_CLOSE (R561). A TRANSIT_ARM entry with code 2 closes the Transit record early. -/
  | ephTransitClose (dt : Nat) (index : Nat) (instants : Nat)
  /-- EPH_HK_INJECT (R379). An HK_INJECT entry triggers the named injected slot. -/
  | ephHkInject (dt : Nat) (index : Nat)
  /-- EPH_TX_ENABLE (R446). A TX_ENABLE entry lifts the hold on the named quadrants. -/
  | ephTxEnable (dt : Nat) (index : Nat)
  /-- EPH_TX_DISABLE (R446). A TX_DISABLE entry holds the named quadrants out of ACTIVE, stopping bursts in progress. -/
  | ephTxDisable (dt : Nat) (index : Nat)
  /-- EPH_FIRMWARE_ACTIVATE (R626). A FIRMWARE_ACTIVATE entry fires and starts activation when the package is VERIFIED and matches, otherwise fails. -/
  | ephFirmwareActivate (dt : Nat) (index : Nat)
  /-- LANE_DETECT_STEP (R460). Every 1 ms in DETECT the transmitter sends a common-mode step to detect the partner's termination. -/
  | laneDetectStep (dt : Nat) (lane : Nat)
  /-- LANE_TERMINATION_FOUND (R460). The partner's receiver termination is detected and the lane enters TRAIN. -/
  | laneTerminationFound (dt : Nat) (lane : Nat)
  /-- LANE_TRAIN_DONE (R460). Bit lock is held and both ends show RX_DONE, and the lane enters LOCK. -/
  | laneTrainDone (dt : Nat) (lane : Nat)
  /-- LANE_LOCK_DONE (R460). Four consecutive markers with good HCRC are found and the lane enters CAPS. -/
  | laneLockDone (dt : Nat) (lane : Nat)
  /-- LANE_CAPS_DONE (R466). Four valid CAPS records are received and the lane enters ACTIVE. -/
  | laneCapsDone (dt : Nat) (lane : Nat) (record : List Byte)
  /-- LANE_STAGE_TIMEOUT (R461). A TRAIN, LOCK or CAPS stage limit expires; the lane retries, lowers its rate or enters WAIT. -/
  | laneStageTimeout (dt : Nat) (lane : Nat)
  /-- LANE_WAIT_END (R460). 1 s in WAIT elapses and the lane returns to DETECT at its top rate. -/
  | laneWaitEnd (dt : Nat) (lane : Nat)
  /-- LANE_LOSS_OF_SIGNAL (R462). Loss of signal for 2 µs returns the lane to DETECT, starting a new cycle when it was ACTIVE. -/
  | laneLossOfSignal (dt : Nat) (lane : Nat)
  /-- LANE_MARKER_LOSS (R462). Four consecutive missing markers in ACTIVE start a new cycle at the top rate. -/
  | laneMarkerLoss (dt : Nat) (lane : Nat)
  /-- LANE_FRAME (R457). A lane frame is received and discarded when its HCRC fails or it has a stuffing violation. -/
  | laneFrame (dt : Nat) (lane : Nat) (bits : List Bool)
  /-- LANE_ERROR_SECOND (R457). At the end of each calendar second header errors, stuffing and CRC failures above their limits raise EV107 or EV108. -/
  | laneErrorSecond (dt : Nat)
  /-- LANE_MAX_RATE_WRITE (R461). A write lowering MlMaxRate or StMaxRate starts a new cycle on lanes above it; raising applies at the next cycle. -/
  | laneMaxRateWrite (dt : Nat) (who : Who) (port : Nat) (value : Nat)
  /-- LANE_MARGIN_SCAN (R471). A write of bit i to LaneMarginScan starts a margin scan of lane i. -/
  | laneMarginScan (dt : Nat) (who : Who) (value : Nat)
  /-- LANE_MARGIN_SCAN_DONE (R471). Within 10 ms the scan writes eye width and height and clears its bit. -/
  | laneMarginScanDone (dt : Nat) (lane : Nat) (width : Nat) (height : Nat)
  /-- CREDIT_RECEIVE (R480). A CREDIT unit is received and the sender's LIMIT for its virtual channel is updated. -/
  | creditReceive (dt : Nat) (port : Nat) (unit : List Byte)
  /-- CREDIT_SEND (R481). A CREDIT unit is sent when LIMIT advanced by 16 units or 10 µs passed. -/
  | creditSend (dt : Nat) (port : Nat) (vc : Nat)
  /-- HEARTBEAT_RECEIVE (R483). A HEARTBEAT is received and lost credit units are recovered from the sender's CONSUMED values. -/
  | heartbeatReceive (dt : Nat) (hdr : Hdr) (body : List Byte)
  /-- HEARTBEAT_SEND (R496). Every heartbeat period while the width is above 0 a HEARTBEAT is sent. -/
  | heartbeatSend (dt : Nat) (port : Nat)
  /-- PARTNER_SILENT (R496). No message has arrived for 8 heartbeat periods and the partner is shown as silent. -/
  | partnerSilent (dt : Nat)
  /-- EVENT_SEND (R494). An EVENT message carrying queued unmasked event records leaves on VC2. -/
  | eventSend (dt : Nat) (count : Nat)
  /-- TELEMETRY_SEND (R495). Within 10 ms after each whole second a TELEMETRY message is sent. -/
  | telemetrySend (dt : Nat)
  /-- CAPTURE_DATA_SEND (R498). A CAPTURE_DATA message of a record being sent leaves on VC3 when nothing of higher class waits. -/
  | captureDataSend (dt : Nat)
  /-- MAINLAND_TRUST_CLEAR (R485). Clearing MainlandTrust discards later data-plane messages and, at the slot's end, the accepted plans for later slots. -/
  | mainlandTrustClear (dt : Nat) (who : Who)
  /-- DISCOVER_REQUEST (R507). A DISCOVER request received on a port is answered with a report. -/
  | discoverRequest (dt : Nat) (hdr : Hdr)
  /-- DISCOVER_REPORT (R507). The root receives a DISCOVER report, numbers new islands and recomputes routes. -/
  | discoverReport (dt : Nat) (hdr : Hdr) (body : List Byte)
  /-- ASSIGN (R508). An island receives an ASSIGN for its chip identity and holds it until SWITCH. -/
  | assign (dt : Nat) (hdr : Hdr) (body : List Byte)
  /-- ASSIGN_APPLY (R508). At the first slot boundary at or after SWITCH the new assignment and EPOCH apply, with EV102. -/
  | assignApply (dt : Nat)
  /-- ROUTED_FORWARD (R504). A message addressed to another island is forwarded on its route port within 3 µs when credit allows, or discarded. -/
  | routedForward (dt : Nat) (hdr : Hdr) (msgType : Nat) (hops : Nat) (body : List Byte)
  /-- PLAN_VERDICT (R514). A member receives the collector's verdict on a group plan and accepts or silently removes it. -/
  | planVerdict (dt : Nat) (hdr : Hdr) (body : List Byte)
  /-- VERDICT_DEADLINE (R514). 100 µs before a slot a forwarded plan without a verdict is treated as late. -/
  | verdictDeadline (dt : Nat) (group : Nat) (slot : Nat) (dl : Bool)
  /-- REDUCE (R521). REDUCE partial words from a child are received and added in lockstep, or a VOID marks the subtree missing. -/
  | reduce (dt : Nat) (hdr : Hdr) (body : List Byte)
  /-- REDUCTION_WINDOW_CLOSE (R522). RedWindow × HEIGHT after E, undelivered child words are added as zero tagged PARTIAL and late words discarded. -/
  | reductionWindowClose (dt : Nat) (group : Nat) (slot : Nat)
  /-- SYNC_STAMP (R501). A SYNC_STAMP from the upstream island updates this island's hop delay and SYNC delay. -/
  | syncStamp (dt : Nat) (hdr : Hdr) (body : List Byte) (upDelay : Nat)
  /-- DMA_START (R538). A write of a descriptor address to DmaStartAddr starts an IDLE, TAIL_WAIT or HALTED channel. -/
  | dmaStart (dt : Nat) (who : Who) (channel : Nat) (addr : Nat)
  /-- DMA_ABORT (R538). Writing a bit of DmaAbort takes the channel to IDLE, reporting aborted for a bulk descriptor in progress. -/
  | dmaAbort (dt : Nat) (who : Who) (mask : Nat)
  /-- DMA_CONTINUE (R543). Writing a bit of DmaContinue re-reads the tail in TAIL_WAIT or latches in RUNNING. -/
  | dmaContinue (dt : Nat) (who : Who) (mask : Nat)
  /-- DMA_DISABLE (R544). Clearing a DmaEnable bit suspends the channel at the next beat boundary. -/
  | dmaDisable (dt : Nat) (who : Who) (mask : Nat) (beats : List Nat)
  /-- DMA_ENABLE (R544). Setting a DmaEnable bit resumes a SUSPENDED descriptor or allows a pending fetch. -/
  | dmaEnable (dt : Nat) (who : Who) (mask : Nat)
  /-- DMA_QUEUE_TURN (R540). A queued bulk channel reaches the front of the request queue and its descriptor is read and checked. -/
  | dmaQueueTurn (dt : Nat)
  /-- DMA_DESCRIPTOR_DONE (R541). A descriptor ends done, mismatch or error; the chain follows NEXT, parks or halts, with events or pulses. -/
  | dmaDescriptorDone (dt : Nat) (channel : Nat) (badAt : Option Nat)
  /-- TRANSIT_ARM (R555). A write of 1 to TransitArm in OFF or HELD arms Transit and starts the sequencer. -/
  | transitArm (dt : Nat) (who : Who) (value : Nat)
  /-- TRANSIT_FORCE (R558). A write of 1 to TransitForce in ARMED declares the trigger. -/
  | transitForce (dt : Nat) (who : Who) (value : Nat) (instants : Nat)
  /-- TRANSIT_SEND_RECORD (R562). A write of the held record number to TransitSendRecord starts sending it as CAPTURE_DATA. -/
  | transitSendRecord (dt : Nat) (who : Who) (value : Nat)
  /-- TRANSIT_ENABLE_CLEAR (R561). Clearing TransitEnable closes an open record early. -/
  | transitEnableClear (dt : Nat) (who : Who) (instants : Nat)
  /-- TRANSIT_COND_OCCURRENCE (R557). An occurrence of the present sequencer state's condition counts toward its limit. -/
  | transitCondOccurrence (dt : Nat) (cond : Nat) (arg : Nat) (instants : Nat) (backPs : Nat)
  /-- TRANSIT_STATE_TIMEOUT (R557). A sequencer state's timer expires and TIMEOUT_NEXT is entered. -/
  | transitStateTimeout (dt : Nat)
  /-- TRANSIT_RECORD_COMPLETE (R561). POST instants after the trigger are written; the header is written, EV121 raised and HELD or REARM entered. -/
  | transitRecordComplete (dt : Nat) (phase : Nat) (data : List Nat)
  /-- TRANSIT_REARM_END (R560). REARM ends in ARMED, with EV122 for occurrences ignored. -/
  | transitRearmEnd (dt : Nat)
  /-- TRIG_OUT_PULSE_END (R559). TransitTrigOutWidth after its start TRIG_OUT returns low. -/
  | trigOutPulseEnd (dt : Nat)
  /-- ALMANAC_READ (R568). A READ operation returns one parameter value. -/
  | almanacRead (dt : Nat) (req : Req) (item : Item)
  /-- ALMANAC_WRITE (R570). A WRITE operation changes one parameter that has no row of its own, after all checks. -/
  | almanacWrite (dt : Nat) (req : Req) (item : Item)
  /-- ALMANAC_READ_BLOCK (R570). A READ_BLOCK samples up to 64 items within one 10 µs interval. -/
  | almanacReadBlock (dt : Nat) (req : Req) (items : List Item)
  /-- ALMANAC_WRITE_BLOCK (R570). A WRITE_BLOCK checks all items against their joint result and applies all on one REFCLK edge or none. -/
  | almanacWriteBlock (dt : Nat) (req : Req) (items : List Item)
  /-- SURVEY (R588). A SURVEY returns the 2,048-byte state record, or its reduced form without a session. -/
  | survey (dt : Nat) (req : Req)
  /-- SESSION_OPEN (R595). A SESSION_OPEN reserves a handle and returns a 48-byte challenge. -/
  | sessionOpen (dt : Nat) (req : Req) (item : Item)
  /-- SESSION_PROVE (R596). A SESSION_PROVE carrying key and signature opens the session or fails and frees the handle. -/
  | sessionProve (dt : Nat) (req : Req) (item : Item) (pubHash : List Byte) (sigOk : Bool)
  /-- SESSION_CLOSE (R598). A SESSION_CLOSE closes the session. -/
  | sessionClose (dt : Nat) (req : Req)
  /-- STORE_CHART (R580). A STORE_CHART begins copying the running configuration into the active Chart. -/
  | storeChart (dt : Nat) (req : Req)
  /-- STORE_CHART_DONE (R581). The new Chart record's CRC is written and STORE_CHART responds. -/
  | storeChartDone (dt : Nat)
  /-- CHART_SELECT (R582). A write of 0–3 to ChartSelect selects a Chart for loading. -/
  | chartSelect (dt : Nat) (who : Who) (value : Nat)
  /-- CHART_LOAD_DONE (R585). A Chart load completes with fallback for invalid Charts, EV13 and EV12, and values applied or waiting. -/
  | chartLoadDone (dt : Nat)
  /-- CHART_DEFERRED_APPLY (R585). When a state refusal lifts, waiting Chart values are applied together or dropped with EV13. -/
  | chartDeferredApply (dt : Nat)
  /-- FIELD_REQUEST_SEGMENT (R575). A FIELD REQUEST segment is received; the completed transfer is executed and the response segments sent. -/
  | fieldRequestSegment (dt : Nat) (island : Nat) (transfer : Nat) (segment : Nat) (data : List Byte)
  /-- FIELD_ABORT (R574). A FIELD ABORT frame discards the named transfer. -/
  | fieldAbort (dt : Nat) (island : Nat) (transfer : Nat)
  /-- FIELD_SEGMENT_TIMEOUT (R576). More than 100 ms between two segments aborts the transfer with reason 2. -/
  | fieldSegmentTimeout (dt : Nat)
  /-- FIELD_HEARTBEAT_RECEIVE (R577). A tool's FIELD HEARTBEAT is accepted with no action beyond a wake. -/
  | fieldHeartbeatReceive (dt : Nat) (island : Nat)
  /-- FIELD_HEARTBEAT_SEND (R577). Every 1 s in WATCH, READY and ACTIVE a FIELD HEARTBEAT frame is sent. -/
  | fieldHeartbeatSend (dt : Nat)
  /-- FIELD_EVENT_SEND (R578). An unmasked event is sent as a FIELD EVENT frame. -/
  | fieldEventSend (dt : Nat)
  /-- FIELD_BUS_OFF (R578). The FIELD controller enters bus-off, raising EV109 and recovering automatically. -/
  | fieldBusOff (dt : Nat) (tec : Nat) (rec : Nat)
  /-- FIELD_ERROR_PASSIVE (R578). The FIELD controller enters error-passive, raising EV110. -/
  | fieldErrorPassive (dt : Nat) (tec : Nat) (rec : Nat)
  /-- SESSION_CHALLENGE_TIMEOUT (R596). A challenge not proved within 10 s frees its handle with EV123 kind 3. -/
  | sessionChallengeTimeout (dt : Nat) (handle : Nat)
  /-- SESSION_IDLE_TIMEOUT (R598). 15 minutes without an operation carrying the handle closes the session with EV123 kind 3. -/
  | sessionIdleTimeout (dt : Nat) (handle : Nat)
  /-- SESSION_LOCKOUT_END (R599). 60 s after a lockout began, SESSION_OPEN is accepted again on that port. -/
  | sessionLockoutEnd (dt : Nat) (port : Nat)
  /-- FUSE_KEY_PROGRAM (R602). A write to FuseKeyProgram programs an unprogrammed O or I key slot and reads it back. -/
  | fuseKeyProgram (dt : Nat) (who : Who) (value : List Byte) (readback : List Byte)
  /-- FUSE_KEY_REVOKE (R602). A write to FuseKeyRevoke revokes a key slot for good, closing its sessions. -/
  | fuseKeyRevoke (dt : Nat) (who : Who) (value : Nat)
  /-- LIFECYCLE_ADVANCE (R603). A write to LifecycleAdvance moves the lifecycle one step, burning fuses as the step requires. -/
  | lifecycleAdvance (dt : Nat) (who : Who) (value : Nat)
  /-- DEBUG_UNLOCK_TOKEN (R606). A valid maker unlock token opens debug access until the next reset with EV123 kind 5. -/
  | debugUnlockToken (dt : Nat) (who : Who) (token : List Byte) (pubHash : List Byte) (sigOk : Bool)
  /-- AUDIT_READ_FROM (R611). A write to AuditReadFrom fills AuditWindow with 64 entries from that sequence number. -/
  | auditReadFrom (dt : Nat) (who : Who) (value : Nat)
  /-- UPD_BEGIN (R621). BEGIN discards any earlier package, erases inactive slots, clears the bitmap and enters DOWNLOAD. -/
  | updBegin (dt : Nat) (who : Who)
  /-- UPD_CHUNK (R622). A write to UpdChunk programs a chunk into the inactive slots, reads it back and sets its bitmap bit. -/
  | updChunk (dt : Nat) (who : Who) (chunk : Nat) (data : List Byte)
  /-- UPD_VERIFY (R624). VERIFY with every chunk present starts verification of the package images. -/
  | updVerify (dt : Nat) (who : Who)
  /-- UPD_VERIFY_DONE (R624). Verification ends within 2 s in VERIFIED with an update order, or back in DOWNLOAD with a reason. -/
  | updVerifyDone (dt : Nat) (crypto : List Nat) (keyOk : Bool)
  /-- UPD_ABANDON (R625). ABANDON discards the package and returns the stage to 0. -/
  | updAbandon (dt : Nat) (who : Who)
  /-- UPD_CONFIRM (R635). CONFIRM runs confirmation: settings copied, anti-rollback burned and new slots confirmed with EV125 kind 8. -/
  | updConfirm (dt : Nat) (who : Who)
  /-- UPD_REVERT (R634). REVERT restores the old slots, discards trial settings and performs a command reset. -/
  | updRevert (dt : Nat) (who : Who)
  /-- ACTIVATION_START (R627). Once the device has reached READY with units out of ACTIVE, activation begins and the update record enters ACTIVATING. -/
  | activationStart (dt : Nat)
  /-- ACTIVATION_STEP_DONE (R628). A component's processor restarts with its new image and passes the handshake, or activation rolls back. -/
  | activationStepDone (dt : Nat) (ok : Bool)
  /-- UPD_AUTO_CONFIRM (R633). The health window elapses with no generation mismatch and the device confirms automatically. -/
  | updAutoConfirm (dt : Nat)
  /-- EVENT_PENDING_CLEAR (R643). A write to EventPendingClear clears the named pending bits, releasing ALERT_N when none remain. -/
  | eventPendingClear (dt : Nat) (who : Who) (value : List Byte)
  /-- EVENT_LOG_READ_FROM (R644). A write to EventLogReadFrom fills EventLogWindow with 64 log entries. -/
  | eventLogReadFrom (dt : Nat) (who : Who) (value : Nat)
  /-- BG_STARVED (R647). A background activity meets its starvation condition, raising EV127. -/
  | bgStarved (dt : Nat) (activity : Nat)
  /-- BG_RECOVERED (R647). A starved background activity recovers, raising EV127 with the starved time. -/
  | bgRecovered (dt : Nat) (activity : Nat)
  /-- RIPTIDE_START (R649). A write of 1 to RiptideEnable starts a Riptide run with EV126. -/
  | riptideStart (dt : Nat) (who : Who)
  /-- RIPTIDE_STOP (R649). A write of 0 to RiptideEnable ends the run, releasing held messages. -/
  | riptideStop (dt : Nat) (who : Who)
  /-- RIPTIDE_EXPIRE (R649). RiptideDuration elapses and the run ends with EV126. -/
  | riptideExpire (dt : Nat)
  /-- RIPTIDE_LANE_DOWN (R652). A write to RiptideLaneDown forces lanes DOWN during a run or returns them to DETECT. -/
  | riptideLaneDown (dt : Nat) (who : Who) (value : Nat)
  /-- RIPTIDE_REORDER_RELEASE (R651). A held message is released after W − 1 later messages or 100 µs. -/
  | riptideReorderRelease (dt : Nat)
  /-- COEX_GNT_EDGE (R308). COEX_GNT changes level outside a burst, and after standing 50 ns at its new level it makes the grant present or absent for later first-sample checks. -/
  | coexGntEdge (dt : Nat) (level : Bool)
  /-- FIELD_BUS_OFF_RECOVERY (R578). The FIELD controller recovers from bus-off automatically under ISO 11898-1 and FieldState leaves bus-off. -/
  | fieldBusOffRecovery (dt : Nat)
  /-- FIELD_ERROR_ACTIVE (R578). The FIELD error counters fall below the error-passive limit and FieldState returns from error passive to error active. -/
  | fieldErrorActive (dt : Nat) (tec : Nat) (rec : Nat)
  /-- HOLDOVER_BOUND_GROWTH (R414). In HOLDOVER the error estimate grows by TimeHoldoverDrift per second, so BOUND rises and EV94 is raised at most once per second when BOUND has changed by 2 or more. -/
  | holdoverBoundGrowth (dt : Nat)
  deriving DecidableEq, Repr

end Sys2Proof
end

