-- ==== Sys2Proof/Decode.lean ====
section
/-!
DEFINITION. The command a table word spells. spec/opcode_table.json gives no row any bits (every command comes in on a
port, a bus or a pin, 01_overview.md), so no word spells one.
-/

namespace Sys2Proof

/-- The command that `nbits` bits `w` spell by the table: no row has bits. [Log: 13 DESIGN CHOICE] -/
def decodeTableWord (_nbits _w : Nat) : Option Instr := none

end Sys2Proof
end

