-- ==== Sys2Proof/Config.lean ====
section
/-!
DEFINITION. The free values: constants without a body, for what the spec leaves open. Nothing in Lean can evaluate
one of them, so a statement about them holds whatever they are. Each is named in a row of notes/assumptions/.
-/

namespace Sys2Proof.Config

/-- Elapsed picoseconds of `n` LPO periods, by the free counter: the LPO's frequency lies anywhere in its
tolerance, differs between parts and with temperature (R41). [Log: 3 DESIGN CHOICE; 76 DESIGN CHOICE] -/
opaque lpoSpan (free n : Nat) : Nat

/-- What a counter that no rule calls saturating holds after it passes its width, by key (log entry 10).
[Log: 10 DESIGN CHOICE] -/
opaque counterOverflow (key : Nat) : Nat

/-- The built-in FIR coefficient of R114, `entry` places from either end of a bank: the spec gives its response, not its values.
[Log: 77 DESIGN CHOICE] -/
opaque firBuiltIn (entry : Nat) : Nat

/-- A tap of a fixed half-band stage at an odd offset from its centre, in units of 2^-60: stage 0 HB0, 1 HB1, 2 HB2, 3 HBT. The spec
gives their lengths (R102, R105, R248), not their taps. [Log: 91 DEDUCED] -/
opaque halfBandTap (stage off : Nat) : Int

/-- Tap `m` from either end of the prototype for `n` bins (R121), in units of 2^-60. [Log: 91 DEDUCED] -/
opaque prototypeTap (n m : Nat) : Int

/-- Tap `m` of the interpolation of a band rate code to 400 MS/s, in units of 2^-60 (R248). [Log: 91 DEDUCED] -/
opaque interpTap (code m : Nat) : Int

/-- How many taps there are: half of those of the interpolation of a band rate code, (taps - 3) / 4 of HBT
(R248). [Log: 91 DEDUCED] -/
opaque interpLen (code : Nat) : Nat
opaque hbtLen : Nat

/-- Tap `m` of the fractional-delay filter for `part` 1/64 samples, in units of 2^-60 (R334). [Log: 91 DEDUCED] -/
opaque delayTap (part m : Nat) : Int

/-- What the antenna brings to the sentinel ring (R231): I and Q in bits [39:4] and CLIP in bit [1] of the word of a path in a record, by
the zero-history point of the chains, the record and the path. [Log: 41 DEDUCED] -/
opaque ringWord (zero record path : Nat) : Nat

/-- A byte of the sentinel ring that an earlier run of the chains left there (R233), by the number of runs and the address.
[Log: 25 DESIGN CHOICE] -/
opaque ringByte (runs addr : Nat) : Byte

/-- Byte `i` of the 48 random bytes of a challenge (R595), by the free counter. [Log: 3 DESIGN CHOICE; 15 DEDUCED] -/
opaque challenge (free i : Nat) : Byte

/-- The leading 4 bytes of a SHA-384 over a byte string (R608), as a number. [Log: 15 DEDUCED] -/
opaque sha384Head (bytes : List Byte) : Nat

/-- A byte of MRAM whose layout the spec does not give (R138), by what the device has stored there (parameters, and the numbers of the
records) and address. [Log: 25 DESIGN CHOICE] -/
opaque mramByte (vals : List (Nat × Nat)) (recs : List Nat) (addr : Nat) : Byte

/-- A byte read where the spec says it is not defined, by the free counter and address.
[Log: 3 DESIGN CHOICE; 25 DESIGN CHOICE] -/
opaque freeByte (free addr : Nat) : Byte

/-- A value the spec leaves open, by the free counter and a tag of the place it is used at. [Log: 3 DESIGN CHOICE] -/
opaque freeValue (free tag : Nat) : Nat

/-- One draw of the Riptide generator (R650) from its seed and the number of draws before it: the spec names the
seed and leaves the generator open. [Log: 63 DEDUCED] -/
opaque riptideDraw (seed n : Nat) : Nat

/-- The servo's new frequency correction (R411): the spec gives the loop's bandwidth, not its coefficients.
[Log: 77 DESIGN CHOICE] -/
opaque servo (f : Int) (theta : Int) (bandwidth : Nat) : Int

end Sys2Proof.Config
end

