-- ==== Sys2Proof/Machine/Bits.lean ====
section
/-!
DEFINITION. Bit-field, byte-order, sign, rounding and checksum helpers that every chapter uses
(spec 00_scope.md R4, R14; 17_mainland_port.md R474, R475; 16_lanes.md R452).
-/

namespace Sys2Proof.Machine

/-- Bits [hi:lo] of a value. -/
def bits (v hi lo : Nat) : Nat := v / 2 ^ lo % 2 ^ (hi + 1 - lo)

/-- Bit [n] of a value. -/
def bit (v n : Nat) : Bool := v / 2 ^ n % 2 == 1

/-- The number of a flag. -/
def b2n (b : Bool) : Nat := if b then 1 else 0

/-- A value with bit [n] set or cleared. -/
def putBit (v n : Nat) (b : Bool) : Nat :=
  if bit v n then (if b then v else v - 2 ^ n) else (if b then v + 2 ^ n else v)

/-- A value of `w` bits read as two's complement. -/
def sx (w v : Nat) : Int := if v % 2 ^ w < 2 ^ (w - 1) then (v % 2 ^ w : Nat) else ((v % 2 ^ w : Nat) : Int) - 2 ^ w

/-- An integer as `w` bits of two's complement. -/
def ux (w : Nat) (i : Int) : Nat := (i % (2 ^ w : Nat)).toNat

/-- The number of set bits among bits [n - 1:0]. -/
def popc : Nat → Nat → Nat
  | 0, _ => 0
  | n + 1, v => popc n v + b2n (bit v n)

/-- The set bits among [n - 1:0], lowest first. -/
def bitList (n v : Nat) : List Nat := (List.range n).filter (bit v)

/-- The value whose set bits are the listed positions below `n`. -/
def maskOf (n : Nat) (p : Nat → Bool) : Nat :=
  (List.range n).foldl (fun acc i => if p i then acc + 2 ^ i else acc) 0

/-- The mask `v` without the bits of `w`, over the low `n` bits. -/
def maskSub (n v w : Nat) : Nat := maskOf n (fun i => bit v i && !bit w i)

/-- Bitwise OR of two masks of `n` bits. -/
def maskOr (n v w : Nat) : Nat := maskOf n (fun i => bit v i || bit w i)

/-- Bitwise AND of two masks of `n` bits. -/
def maskAnd (n v w : Nat) : Nat := maskOf n (fun i => bit v i && bit w i)

/-- Little-endian value of a byte string (R4). -/
def leNat : List Byte → Nat
  | [] => 0
  | b :: bs => b.toNat + 256 * leNat bs

/-- The `n` little-endian bytes of a value (R4). -/
def leBytes : Nat → Nat → List Byte
  | 0, _ => []
  | n + 1, v => BitVec.ofNat 8 (v % 256) :: leBytes n (v / 256)

/-- Bytes [off, off + n) of a byte string; bytes past its end are absent. -/
def slice (bs : List Byte) (off n : Nat) : List Byte := (bs.drop off).take n

/-- Little-endian field of `n` bytes at offset `off`. -/
def field (bs : List Byte) (off n : Nat) : Nat := leNat (slice bs off n)

/-- `n` zero bytes. -/
def zeros (n : Nat) : List Byte := List.replicate n 0#8

/-- A byte string padded with zeros, or cut, to exactly `n` bytes. -/
def padTo (n : Nat) (bs : List Byte) : List Byte := (bs ++ zeros n).take n

/-- Ceiling of a quotient. -/
def cdiv (a b : Nat) : Nat := (a + b - 1) / b

/-- The smallest `n` with `v <= 2 ^ n`, searched up to `fuel`. -/
def clog2Aux : Nat → Nat → Nat → Nat
  | 0, n, _ => n
  | f + 1, n, v => if v ≤ 2 ^ n then n else clog2Aux f (n + 1) v

/-- ceil(log2 v), at most 255. -/
def clog2 (v : Nat) : Nat := clog2Aux 255 0 v

/-- Clamp to a saturating maximum. -/
def sat (mx v : Nat) : Nat := if v ≤ mx then v else mx

/-- Clamp an integer into a range. -/
def clampI (lo hi v : Int) : Int := if v < lo then lo else if hi < v then hi else v

/-- Quotient rounded to nearest, ties to even (R14). -/
def rhe (a : Int) (b : Nat) : Int :=
  let q := a.fdiv b
  let r := a - q * b
  if 2 * r < b then q else if (b : Int) < 2 * r then q + 1 else if q % 2 = 0 then q else q + 1

/-- Quotient rounded to nearest, ties away from zero upward. -/
def rnear (a : Int) (b : Nat) : Int := (2 * a + b).fdiv (2 * b)

/-- Integer square root by bisection on `fuel` bits. -/
def isqrtAux (v : Nat) : Nat → Nat → Nat
  | 0, r => r
  | f + 1, r => let c := r + 2 ^ f; isqrtAux v f (if c * c ≤ v then c else r)

/-- floor of the square root of a value below 2^256. -/
def isqrt (v : Nat) : Nat := isqrtAux v 128 0

/-- A pair of integers: a complex number, or cosine and sine. -/
abbrev CPair := Int × Int

/-- One message bit into the CRC-16 of R474. -/
def crc16Bit (c : Nat) (b : Bool) : Nat :=
  let top := bit c 15
  let c' := (c * 2) % 65536
  if top != b then c' ^^^ 0x1021 else c'

/-- One byte, most significant bit first, into the CRC-16 of R474. -/
def crc16Byte (c : Nat) (x : Byte) : Nat :=
  [7, 6, 5, 4, 3, 2, 1, 0].foldl (fun acc i => crc16Bit acc (bit x.toNat i)) c

/-- The CRC-16 of R474: x^16 + x^12 + x^5 + 1, initial 0xFFFF, not reflected, no final XOR. -/
def crc16 (bs : List Byte) : Nat := bs.foldl crc16Byte 0xFFFF

/-- One shift of the reflected CRC-32C of R475. -/
def crc32cShift (c : Nat) : Nat := if c % 2 = 1 then (c / 2) ^^^ 0x82F63B78 else c / 2

/-- One byte into the CRC-32C of R475. -/
def crc32cByte (c : Nat) (x : Byte) : Nat :=
  [0, 1, 2, 3, 4, 5, 6, 7].foldl (fun acc _ => crc32cShift acc) (c ^^^ x.toNat)

/-- The CRC-32C of R475 (RFC 3720): reflected, initial and final XOR 0xFFFF_FFFF. -/
def crc32c (bs : List Byte) : Nat := bs.foldl crc32cByte 0xFFFFFFFF ^^^ 0xFFFFFFFF

/-- Insert into a list sorted by ascending key, after equal keys. -/
def insertBy {α : Type} (key : α → Nat) (x : α) : List α → List α
  | [] => [x]
  | y :: ys => if key x < key y then x :: y :: ys else y :: insertBy key x ys

/-- The first `n` entries replaced by nothing: keep the newest `n` entries of a list. -/
def keepLast {α : Type} (n : Nat) (l : List α) : List α := l.drop (l.length - n)

/-- Change the entry at an index, where it exists. -/
def modAt {α : Type} (l : List α) (i : Nat) (f : α → α) : List α :=
  match l, i with
  | [], _ => []
  | x :: xs, 0 => f x :: xs
  | x :: xs, n + 1 => x :: modAt xs n f

end Sys2Proof.Machine
end

