-- ==== Sys2Proof/Machine/Params.lean ====
section
/-!
DEFINITION. The Almanac's parameter table: one row per row of the spec's tables headed "Almanac parameters"
(21_almanac.md R564, R565 and the tables R68 to R653), and a name for the key of each parameter. The rows
come from those tables: index, type, default, access entry, storage class and the range the Meaning column states.
-/

namespace Sys2Proof.Machine

/-- The types of R564. `table` entries are 5 bytes, `octets` and `text` entries one byte. -/
inductive PTy where
  | bool
  | uint (bytes : Nat)
  | time
  | octets (n : Nat)
  | text (n : Nat)
  | table (n : Nat)
  deriving DecidableEq, Repr

/-- The storage classes of R9. -/
inductive PCls where
  | C
  | N
  | V
  | F
  deriving DecidableEq, Repr

/-- A default: one value for every entry, a list of first entries (the rest 0), or a value a rule computes. -/
inductive Dflt where
  | k (v : Nat)
  | l (vs : List Nat)
  | fn (rule : Nat)
  deriving DecidableEq, Repr

/-- The values a write may carry (R690): any value of the type, an interval, a list, a mask whose other bits are
reserved and so ignored (R5), or a check a rule of the chapter gives. -/
inductive PRange where
  | any
  | between (lo hi : Nat)
  | oneOf (vs : List Nat)
  | mask (m : Nat)
  | special
  deriving DecidableEq, Repr

/-- One row of a parameter table. `lo` is 256 * index + subindex of its first member, `step` and `n` the members of a
row that names a run of parameters; `rd` and `wr` are role masks ([0] O, [1] I, [2] M, 8 any reader or
owned by hardware, 16 never written). -/
structure PRow where
  lo : Nat
  step : Nat
  n : Nat
  ty : PTy
  rd : Nat
  wr : Nat
  cls : PCls
  dflt : Dflt
  range : PRange
  deriving DecidableEq, Repr

/-- The rows of indexes 0x1000 to 0x10FF. -/
def rows10 : List PRow := [
  ⟨1048577, 1, 1, .octets 8, 8, 16, .F, (.k 0), .any⟩,
  ⟨1048578, 1, 1, .text 16, 8, 16, .F, (.l [88, 83, 45, 54, 52, 48, 48]), .any⟩,
  ⟨1048579, 1, 1, .uint 1, 8, 16, .F, (.k 0), .any⟩,
  ⟨1048580, 1, 1, .uint 1, 8, 16, .F, (.k 0), .any⟩,
  ⟨1052673, 1, 1, .uint 1, 7, 8, .V, (.k 0), .any⟩,
  ⟨1052674, 1, 1, .uint 1, 0, 3, .V, (.k 0), (.between 0 3)⟩,
  ⟨1052675, 1, 1, .bool, 7, 2, .N, (.k 0), .any⟩,
  ⟨1052676, 1, 1, .uint 1, 7, 8, .N, (.k 0), .any⟩,
  ⟨1052677, 1, 1, .uint 1, 7, 8, .V, (.k 0), .any⟩,
  ⟨1052678, 1, 1, .uint 1, 7, 8, .V, (.k 0), .any⟩,
  ⟨1052679, 1, 1, .uint 2, 7, 8, .V, (.k 0), .any⟩,
  ⟨1052680, 1, 1, .uint 1, 7, 8, .V, (.k 0), .any⟩,
  ⟨1052681, 1, 1, .uint 4, 7, 8, .V, (.k 0), .any⟩,
  ⟨1052682, 1, 1, .table 4, 7, 8, .V, (.k 0), .any⟩,
  ⟨1052929, 1, 1, .table 20, 7, 8, .V, (.k 0), .any⟩,
  ⟨1052930, 1, 1, .uint 4, 7, 8, .V, (.k 0), .any⟩,
  ⟨1056769, 1, 1, .uint 1, 7, 2, .N, (.k 0), (.between 0 1)⟩,
  ⟨1056770, 1, 1, .uint 1, 7, 2, .N, (.k 1), (.between 0 4)⟩,
  ⟨1056771, 1, 1, .bool, 7, 2, .N, (.k 1), .any⟩,
  ⟨1056772, 1, 1, .uint 1, 7, 8, .V, (.k 0), .any⟩,
  ⟨1056773, 1, 1, .uint 4, 7, 8, .V, (.k 0), .any⟩,
  ⟨1056774, 1, 1, .uint 4, 7, 8, .V, (.k 0), .any⟩,
  ⟨1056775, 1, 1, .uint 4, 7, 8, .V, (.k 0), .any⟩,
  ⟨1057025, 1, 1, .uint 4, 7, 8, .V, (.k 0), .any⟩,
  ⟨1057026, 1, 1, .uint 4, 7, 8, .V, (.k 0), .any⟩,
  ⟨1060865, 1, 1, .table 4, 7, 8, .V, (.k 0), .any⟩]

/-- The rows of indexes 0x2000 to 0x20FF. -/
def rows20 : List PRow := [
  ⟨2097153, 1, 1, .uint 1, 7, 8, .V, (.k 0), .any⟩,
  ⟨2097154, 1, 1, .uint 1, 7, 8, .V, (.k 0), .any⟩,
  ⟨2097409, 1, 1, .uint 1, 7, 1, .V, (.k 2), (.between 0 2)⟩,
  ⟨2097665, 1, 1, .uint 1, 7, 2, .C, (.k 2), (.between 0 2)⟩,
  ⟨2097921, 1, 1, .uint 4, 7, 1, .C, (.k 0), .any⟩,
  ⟨2097922, 1, 1, .uint 1, 7, 1, .C, (.k 1), (.between 0 1)⟩,
  ⟨2098177, 1, 1, .uint 1, 7, 2, .C, (.k 63), (.mask 63)⟩,
  ⟨2098433, 1, 1, .uint 1, 7, 8, .V, (.k 255), .any⟩,
  ⟨2098689, 1, 1, .uint 1, 7, 8, .V, (.k 0), .any⟩,
  ⟨2098690, 1, 1, .uint 4, 7, 8, .N, (.k 0), .any⟩,
  ⟨2098945, 1, 1, .uint 1, 0, 3, .V, (.k 0), (.oneOf [165])⟩,
  ⟨2098946, 1, 1, .uint 4, 7, 2, .C, (.k 1000), (.between 100 10000)⟩,
  ⟨2099201, 1, 1, .uint 4, 7, 8, .V, (.k 0), .any⟩,
  ⟨2099457, 1, 1, .uint 1, 7, 8, .V, (.k 0), .any⟩,
  ⟨2099458, 1, 1, .uint 4, 7, 8, .N, (.k 0), .any⟩,
  ⟨2099713, 1, 1, .bool, 7, 2, .C, (.k 1), .any⟩,
  ⟨2099969, 1, 1, .uint 1, 7, 2, .C, (.k 1), (.between 0 1)⟩,
  ⟨2099970, 1, 1, .uint 4, 7, 2, .C, (.k 0), .any⟩,
  ⟨2099971, 1, 1, .bool, 7, 2, .C, (.k 1), .any⟩,
  ⟨2100481, 1, 1, .uint 1, 7, 8, .V, (.k 0), .any⟩]

/-- The rows of indexes 0x3000 to 0x30FF. -/
def rows30 : List PRow := [
  ⟨3145729, 1, 1, .bool, 7, 2, .C, (.k 0), .any⟩,
  ⟨3145985, 1, 1, .uint 8, 7, 3, .C, (.k 18446744073709551615), .any⟩,
  ⟨3145986, 1, 1, .uint 8, 7, 3, .C, (.k 18446744073709551615), .any⟩,
  ⟨3146241, 1, 1, .table 64, 7, 3, .C, (.k 40), (.between 0 60)⟩,
  ⟨3146242, 1, 1, .table 64, 7, 3, .C, (.k 40), (.between 0 60)⟩,
  ⟨3146497, 1, 1, .table 64, 7, 8, .V, (.k 40), .any⟩,
  ⟨3146498, 1, 1, .table 64, 7, 8, .V, (.k 40), .any⟩,
  ⟨3146753, 1, 1, .uint 1, 7, 2, .C, (.k 3), (.between 0 3)⟩,
  ⟨3146754, 1, 1, .uint 1, 7, 2, .C, (.k 3), (.between 0 3)⟩,
  ⟨3146755, 1, 1, .uint 1, 7, 8, .V, (.k 3), .any⟩,
  ⟨3146756, 1, 1, .uint 1, 7, 8, .V, (.k 3), .any⟩,
  ⟨3147009, 1, 1, .table 64, 7, 8, .V, (.k 0), .any⟩,
  ⟨3147010, 1, 1, .table 64, 7, 8, .V, (.k 0), .any⟩,
  ⟨3147265, 1, 1, .table 16, 7, 8, .V, (.fn 5), .any⟩,
  ⟨3147266, 1, 1, .table 16, 7, 8, .V, (.k 1), .any⟩,
  ⟨3147521, 1, 1, .table 16, 7, 8, .N, (.k 0), .any⟩,
  ⟨3147777, 1, 1, .uint 2, 7, 2, .C, (.k 20), (.between 1 2047)⟩,
  ⟨3148033, 1, 1, .uint 1, 7, 2, .C, (.k 60), .any⟩,
  ⟨3148289, 1, 1, .uint 4, 7, 2, .C, (.k 600), (.between 60 86400)⟩,
  ⟨3148545, 1, 1, .uint 4, 7, 8, .V, (.k 0), .any⟩,
  ⟨3148801, 1, 1, .uint 2, 7, 4, .N, (.k 0), .any⟩]

/-- The rows of indexes 0x3400 to 0x34FF. -/
def rows34 : List PRow := [
  ⟨3407873, 1, 1, .uint 1, 7, 2, .C, (.k 3), (.between 0 4)⟩,
  ⟨3407874, 1, 1, .uint 1, 7, 2, .C, (.k 3), (.between 0 4)⟩,
  ⟨3408129, 1, 1, .uint 1, 7, 2, .C, (.k 12), (.between 8 15)⟩,
  ⟨3408130, 1, 1, .uint 1, 7, 2, .C, (.k 12), (.between 8 15)⟩,
  ⟨3408385, 1, 1, .uint 1, 7, 2, .C, (.k 1), (.between 1 2)⟩,
  ⟨3408386, 1, 1, .uint 1, 7, 2, .C, (.k 1), (.between 1 2)⟩,
  ⟨3408641, 1, 1, .uint 1, 7, 2, .C, (.k 12), (.between 0 15)⟩,
  ⟨3408642, 1, 1, .uint 1, 7, 2, .C, (.k 12), (.between 0 15)⟩,
  ⟨3408897, 1, 1, .table 4, 7, 3, .C, (.k 0), .any⟩,
  ⟨3408898, 1, 1, .table 4, 7, 3, .C, (.k 0), .any⟩,
  ⟨3409153, 1, 1, .table 4, 7, 8, .V, (.k 0), .any⟩,
  ⟨3409154, 1, 1, .table 4, 7, 8, .V, (.k 0), .any⟩,
  ⟨3411969, 256, 4, .table 96, 7, 2, .C, (.fn 1), .special⟩,
  ⟨3412993, 1, 1, .table 4, 7, 2, .C, (.k 96), (.oneOf [32, 64, 96])⟩,
  ⟨3412994, 1, 1, .table 4, 7, 2, .C, (.k 96), (.oneOf [32, 64, 96])⟩,
  ⟨3413249, 1, 1, .table 4, 7, 8, .V, (.l [1, 0, 0, 0]), .any⟩,
  ⟨3413250, 1, 1, .table 4, 7, 8, .V, (.l [1, 0, 0, 0]), .any⟩,
  ⟨3413505, 1, 1, .uint 1, 7, 3, .C, (.k 0), (.between 0 3)⟩,
  ⟨3413506, 1, 1, .uint 1, 7, 3, .C, (.k 0), (.between 0 3)⟩,
  ⟨3413761, 1, 1, .uint 1, 7, 8, .V, (.k 0), .any⟩,
  ⟨3413762, 1, 1, .uint 1, 7, 8, .V, (.k 0), .any⟩,
  ⟨3414017, 256, 4, .table 96, 7, 2, .C, (.fn 1), .special⟩,
  ⟨3416065, 1, 1, .uint 1, 7, 2, .C, (.k 10), (.between 4 20)⟩,
  ⟨3416066, 1, 1, .uint 1, 7, 2, .C, (.k 10), (.between 4 20)⟩,
  ⟨3416321, 1, 1, .table 2, 7, 2, .C, (.l [100, 300]), .any⟩,
  ⟨3416322, 1, 1, .table 2, 7, 2, .C, (.l [100, 300]), .any⟩,
  ⟨3416577, 1, 1, .table 2, 7, 2, .C, (.l [130, 330]), .any⟩,
  ⟨3416578, 1, 1, .table 2, 7, 2, .C, (.l [130, 330]), .any⟩,
  ⟨3416833, 1, 1, .uint 8, 7, 8, .V, (.k 0), .any⟩,
  ⟨3416834, 1, 1, .uint 8, 7, 8, .V, (.k 0), .any⟩,
  ⟨3416835, 1, 1, .uint 8, 7, 8, .V, (.k 0), .any⟩,
  ⟨3416836, 1, 1, .uint 8, 7, 8, .V, (.k 0), .any⟩,
  ⟨3424257, 1, 1, .uint 5, 7, 8, .V, (.k 0), .any⟩,
  ⟨3424258, 1, 1, .uint 5, 7, 8, .V, (.k 0), .any⟩,
  ⟨3424513, 1, 1, .uint 5, 7, 8, .V, (.k 0), .any⟩,
  ⟨3424514, 1, 1, .uint 5, 7, 8, .V, (.k 0), .any⟩,
  ⟨3424769, 1, 1, .uint 2, 7, 8, .V, (.k 0), .any⟩,
  ⟨3424770, 1, 1, .uint 2, 7, 8, .V, (.k 0), .any⟩,
  ⟨3425025, 1, 1, .uint 2, 7, 8, .V, (.k 0), .any⟩,
  ⟨3425026, 1, 1, .uint 2, 7, 8, .V, (.k 0), .any⟩,
  ⟨3425281, 1, 1, .uint 4, 7, 8, .V, (.k 0), .any⟩,
  ⟨3425282, 1, 1, .uint 4, 7, 8, .V, (.k 0), .any⟩,
  ⟨3425537, 1, 1, .uint 4, 7, 8, .V, (.k 0), .any⟩]

/-- The rows of indexes 0x4000 to 0x40FF. -/
def rows40 : List PRow := [
  ⟨4194305, 1, 1, .uint 1, 7, 8, .V, (.k 0), .any⟩,
  ⟨4194561, 1, 1, .uint 4, 7, 2, .C, (.k 14400), (.between 900 86400)⟩,
  ⟨4194562, 1, 1, .uint 5, 7, 8, .V, (.k 0), .any⟩,
  ⟨4194563, 1, 1, .uint 4, 7, 8, .V, (.k 0), .any⟩,
  ⟨4194817, 1, 1, .uint 4, 7, 8, .V, (.k 0), .any⟩,
  ⟨4194818, 1, 1, .uint 4, 7, 8, .N, (.k 0), .any⟩,
  ⟨4195073, 1, 1, .uint 5, 7, 8, .V, (.k 0), .any⟩,
  ⟨4195074, 1, 1, .uint 4, 7, 8, .V, (.k 4294967295), .any⟩,
  ⟨4198401, 1, 1, .uint 4, 7, 2, .C, (.k 65536), (.between 0 65536)⟩,
  ⟨4198402, 1, 1, .uint 4, 7, 2, .C, (.k 0), (.between 0 65536)⟩,
  ⟨4198657, 1, 1, .uint 4, 7, 2, .C, (.k 4096), (.between 0 65536)⟩,
  ⟨4198658, 1, 1, .uint 4, 7, 2, .C, (.k 0), (.between 0 65536)⟩,
  ⟨4198913, 1, 1, .uint 4, 7, 2, .C, (.k 0), (.between 0 200000)⟩,
  ⟨4198914, 1, 1, .uint 4, 7, 2, .C, (.k 0), (.between 0 200000)⟩,
  ⟨4199169, 1, 1, .uint 4, 7, 2, .C, (.k 1000), (.between 0 32000)⟩,
  ⟨4199170, 1, 1, .uint 4, 7, 2, .C, (.k 2000), (.between 100 32000)⟩,
  ⟨4199425, 1, 1, .table 11, 7, 8, .V, (.k 0), .any⟩,
  ⟨4199426, 1, 1, .uint 4, 7, 8, .V, (.k 0), .any⟩,
  ⟨4199427, 1, 1, .uint 4, 7, 8, .V, (.k 0), .any⟩,
  ⟨4199681, 1, 1, .table 7, 7, 8, .V, (.k 0), .any⟩,
  ⟨4202497, 1, 1, .uint 8, 7, 8, .N, (.k 0), .any⟩,
  ⟨4202753, 1, 1, .uint 4, 7, 8, .V, (.k 0), .any⟩,
  ⟨4202754, 1, 1, .uint 4, 7, 8, .V, (.k 0), .any⟩,
  ⟨4202755, 1, 1, .table 4, 7, 8, .V, (.l [8388608, 0, 0, 0]), .any⟩,
  ⟨4203009, 1, 1, .uint 4, 7, 8, .V, (.k 0), .any⟩,
  ⟨4203010, 1, 1, .uint 4, 7, 8, .V, (.k 0), .any⟩]

/-- The rows of indexes 0x4400 to 0x44FF. -/
def rows44 : List PRow := [
  ⟨4456449, 1, 1, .uint 1, 7, 3, .C, (.k 3), (.mask 3)⟩,
  ⟨4456705, 1, 1, .uint 1, 7, 3, .C, (.k 15), (.mask 15)⟩,
  ⟨4456706, 1, 1, .uint 1, 7, 3, .C, (.k 15), (.mask 15)⟩,
  ⟨4456961, 1, 1, .uint 1, 7, 2, .C, (.k 0), (.between 0 1)⟩,
  ⟨4456962, 1, 1, .uint 1, 7, 2, .C, (.k 0), (.between 0 1)⟩,
  ⟨4457217, 1, 1, .uint 1, 7, 2, .C, (.k 0), .special⟩,
  ⟨4457218, 1, 1, .uint 1, 7, 2, .C, (.k 0), .special⟩,
  ⟨4457473, 1, 1, .table 64, 7, 2, .C, (.fn 2), .special⟩,
  ⟨4457474, 1, 1, .table 64, 7, 2, .C, (.fn 2), .special⟩,
  ⟨4457729, 1, 1, .table 4096, 7, 2, .C, (.k 0), .special⟩,
  ⟨4457730, 1, 1, .table 4096, 7, 2, .C, (.k 0), .special⟩,
  ⟨4460545, 1, 1, .uint 1, 7, 2, .C, (.k 2), .special⟩,
  ⟨4460546, 1, 1, .uint 4, 7, 8, .V, (.k 65536), .any⟩,
  ⟨4460801, 1, 1, .uint 1, 7, 8, .V, (.k 0), .any⟩,
  ⟨4460802, 1, 1, .uint 1, 7, 8, .V, (.k 0), .any⟩,
  ⟨4464641, 1, 1, .uint 2, 7, 2, .C, (.k 0), .any⟩,
  ⟨4464642, 1, 1, .uint 2, 7, 2, .C, (.k 0), (.between 0 32768)⟩,
  ⟨4464643, 1, 1, .bool, 7, 2, .C, (.k 0), .any⟩,
  ⟨4468737, 1, 1, .uint 1, 7, 2, .C, (.k 8), (.between 1 8)⟩,
  ⟨4468738, 1, 1, .uint 2, 7, 2, .C, (.k 200), (.between 0 600)⟩,
  ⟨4468993, 1, 1, .uint 1, 7, 2, .C, (.k 192), .any⟩,
  ⟨4468994, 1, 1, .uint 1, 7, 2, .C, (.k 10), .any⟩,
  ⟨4468995, 1, 1, .uint 2, 7, 2, .C, (.k 4), (.between 1 1024)⟩,
  ⟨4472833, 1, 1, .uint 4, 7, 8, .V, (.k 0), .any⟩,
  ⟨4472834, 1, 1, .uint 4, 7, 8, .V, (.k 0), .any⟩,
  ⟨4472835, 1, 1, .uint 4, 7, 8, .V, (.k 0), .any⟩,
  ⟨4472836, 1, 1, .uint 4, 7, 8, .V, (.k 0), .any⟩,
  ⟨4472837, 1, 1, .uint 4, 7, 8, .V, (.k 0), .any⟩,
  ⟨4473089, 1, 1, .uint 4, 7, 8, .V, (.k 0), .any⟩,
  ⟨4473090, 1, 1, .uint 4, 7, 8, .V, (.k 0), .any⟩,
  ⟨4473345, 1, 1, .uint 4, 7, 8, .V, (.k 0), .any⟩,
  ⟨4473346, 1, 1, .uint 4, 7, 8, .V, (.k 0), .any⟩,
  ⟨4473601, 1, 1, .uint 5, 7, 8, .V, (.k 0), .any⟩,
  ⟨4473857, 1, 1, .uint 5, 7, 8, .V, (.k 0), .any⟩]

/-- The rows of indexes 0x4800 to 0x48FF. -/
def rows48 : List PRow := [
  ⟨4718593, 1, 1, .bool, 7, 2, .C, (.k 0), .any⟩,
  ⟨4718594, 1, 1, .uint 8, 7, 2, .C, (.k 9295464832981794945), .any⟩,
  ⟨4718595, 1, 1, .uint 1, 7, 8, .V, (.k 0), .any⟩,
  ⟨4718849, 1, 1, .uint 1, 7, 2, .C, (.k 0), (.between 0 2)⟩,
  ⟨4718850, 1, 1, .uint 1, 7, 2, .C, (.k 1), (.between 1 16)⟩,
  ⟨4718851, 1, 1, .uint 2, 7, 2, .C, (.k 300), (.between 1 1023)⟩,
  ⟨4718852, 1, 1, .uint 4, 7, 2, .C, (.k 1000), (.between 0 1000000)⟩,
  ⟨4719105, 1, 1, .uint 1, 7, 2, .C, (.k 0), (.mask 15)⟩,
  ⟨4719106, 1, 1, .table 4, 7, 2, .C, (.k 256), (.between 16 4096)⟩,
  ⟨4722689, 256, 4, .table 4096, 7, 2, .C, (.k 0), .special⟩,
  ⟨4726785, 1, 1, .uint 2, 7, 2, .C, (.k 16), (.between 1 1024)⟩,
  ⟨4726786, 1, 1, .bool, 7, 2, .C, (.k 1), .any⟩,
  ⟨4726787, 1, 1, .uint 4, 7, 2, .C, (.k 2000), (.between 0 268435)⟩,
  ⟨4726788, 1, 1, .uint 1, 7, 2, .C, (.k 3), (.between 0 3)⟩,
  ⟨4730881, 1, 1, .uint 5, 7, 8, .V, (.k 0), .any⟩,
  ⟨4730882, 1, 1, .uint 5, 7, 8, .V, (.k 0), .any⟩,
  ⟨4734977, 1, 1, .uint 4, 7, 8, .V, (.k 0), .any⟩,
  ⟨4734978, 1, 1, .uint 4, 7, 8, .V, (.k 0), .any⟩,
  ⟨4734979, 1, 1, .uint 5, 7, 8, .V, (.k 0), .any⟩,
  ⟨4734980, 1, 1, .time, 7, 8, .V, (.k 0), .any⟩,
  ⟨4734981, 1, 1, .uint 2, 7, 8, .V, (.k 0), .any⟩]

/-- The rows of indexes 0x5000 to 0x50FF. -/
def rows50 : List PRow := [
  ⟨5242881, 1, 1, .uint 1, 7, 3, .C, (.k 3), (.mask 3)⟩,
  ⟨5243137, 1, 1, .uint 8, 7, 3, .C, (.k 18446744073709551615), .any⟩,
  ⟨5243393, 1, 1, .table 4, 7, 3, .C, (.k 0), .any⟩,
  ⟨5243394, 1, 1, .table 4, 7, 3, .C, (.k 0), .any⟩,
  ⟨5243649, 1, 1, .table 4, 7, 8, .V, (.k 0), .any⟩,
  ⟨5243650, 1, 1, .table 4, 7, 8, .V, (.k 0), .any⟩,
  ⟨5243905, 1, 1, .table 64, 7, 2, .C, (.k 0), (.between 0 600)⟩,
  ⟨5243906, 1, 1, .table 64, 7, 2, .C, (.k 0), (.between 0 600)⟩,
  ⟨5244161, 1, 1, .uint 4, 7, 8, .V, (.k 16384), .any⟩,
  ⟨5244417, 1, 1, .uint 5, 7, 8, .V, (.k 0), .any⟩,
  ⟨5244418, 1, 1, .uint 5, 7, 8, .V, (.k 0), .any⟩,
  ⟨5244673, 1, 1, .uint 5, 7, 8, .V, (.k 0), .any⟩,
  ⟨5244674, 1, 1, .uint 5, 7, 8, .V, (.k 0), .any⟩,
  ⟨5246977, 1, 1, .uint 2, 7, 8, .V, (.k 0), .any⟩,
  ⟨5246978, 1, 1, .uint 2, 7, 8, .V, (.k 0), .any⟩,
  ⟨5259265, 1, 1, .uint 4, 7, 8, .V, (.k 0), .any⟩,
  ⟨5259266, 1, 1, .uint 4, 7, 8, .V, (.k 0), .any⟩,
  ⟨5259267, 1, 1, .uint 4, 7, 8, .V, (.k 0), .any⟩,
  ⟨5259268, 1, 1, .uint 4, 7, 8, .V, (.k 0), .any⟩,
  ⟨5259269, 1, 1, .uint 4, 7, 8, .V, (.k 0), .any⟩,
  ⟨5259521, 1, 1, .uint 5, 7, 8, .V, (.k 0), .any⟩,
  ⟨5259522, 1, 1, .uint 4, 7, 8, .V, (.k 0), .any⟩,
  ⟨5259523, 1, 1, .uint 4, 7, 8, .V, (.k 0), .any⟩,
  ⟨5259524, 1, 1, .table 64, 7, 8, .V, (.k 0), .any⟩,
  ⟨5259525, 1, 1, .uint 4, 7, 8, .V, (.k 0), .any⟩,
  ⟨5259526, 1, 1, .table 4, 7, 8, .V, (.k 0), .any⟩]

/-- The rows of indexes 0x5400 to 0x54FF. -/
def rows54 : List PRow := [
  ⟨5505025, 1, 1, .table 4, 7, 3, .C, (.k 256000000000), .special⟩,
  ⟨5505026, 1, 1, .table 4, 7, 3, .C, (.k 256000000000), .special⟩,
  ⟨5505281, 1, 1, .table 4, 7, 8, .V, (.k 0), .any⟩,
  ⟨5505282, 1, 1, .table 4, 7, 8, .V, (.k 0), .any⟩,
  ⟨5505537, 1, 1, .table 4, 7, 3, .C, (.k 256000000000), .special⟩,
  ⟨5505793, 1, 1, .table 4, 7, 8, .V, (.k 0), .any⟩,
  ⟨5506049, 1, 1, .table 12, 7, 8, .V, (.k 0), .any⟩,
  ⟨5506050, 1, 1, .table 12, 7, 8, .V, (.k 0), .any⟩,
  ⟨5506051, 1, 1, .table 12, 7, 8, .V, (.k 0), .any⟩,
  ⟨5506052, 1, 1, .uint 2, 7, 8, .V, (.k 0), .any⟩,
  ⟨5506305, 1, 1, .table 64, 7, 8, .V, (.k 0), .any⟩,
  ⟨5506561, 1, 1, .uint 2, 7, 2, .C, (.k 250), (.between 100 1000)⟩,
  ⟨5509121, 1, 1, .table 32, 7, 2, .C, (.k 0), .special⟩,
  ⟨5509377, 1, 1, .uint 4, 7, 8, .V, (.k 0), .any⟩,
  ⟨5509378, 1, 1, .uint 4, 7, 8, .V, (.k 0), .any⟩,
  ⟨5513217, 256, 64, .table 256, 7, 2, .C, (.fn 3), .special⟩,
  ⟨5529601, 1, 1, .table 64, 7, 3, .C, (.k 0), (.between 0 255)⟩,
  ⟨5529602, 1, 1, .table 64, 7, 8, .V, (.k 0), .any⟩,
  ⟨5529857, 1, 1, .table 64, 7, 8, .V, (.k 0), .any⟩,
  ⟨5530113, 1, 1, .table 4, 7, 16, .F, (.k 0), .any⟩,
  ⟨5530114, 1, 1, .table 64, 7, 2, .C, (.k 0), (.between 0 255)⟩,
  ⟨5530369, 1, 1, .uint 1, 7, 8, .V, (.k 0), .any⟩,
  ⟨5533697, 1, 1, .bool, 7, 2, .C, (.k 0), .any⟩,
  ⟨5533698, 1, 1, .uint 4, 7, 2, .C, (.k 10000), (.between 0 100000)⟩,
  ⟨5533699, 1, 1, .uint 1, 7, 3, .C, (.k 0), (.mask 3)⟩,
  ⟨5533700, 1, 1, .uint 1, 7, 2, .C, (.k 0), (.mask 7)⟩,
  ⟨5533953, 1, 1, .uint 4, 7, 8, .V, (.k 0), .any⟩,
  ⟨5533954, 1, 1, .uint 4, 7, 8, .V, (.k 0), .any⟩]

/-- The rows of indexes 0x5800 to 0x58FF. -/
def rows58 : List PRow := [
  ⟨5767169, 1, 1, .table 4, 7, 2, .C, (.k 2), (.between 0 2)⟩,
  ⟨5767170, 1, 1, .table 64, 7, 2, .C, (.k 10), (.between 0 31)⟩,
  ⟨5767425, 1, 1, .uint 1, 7, 2, .C, (.k 14), (.between 12 16)⟩,
  ⟨5767426, 1, 1, .uint 1, 7, 2, .C, (.k 128), (.between 1 255)⟩,
  ⟨5767427, 1, 1, .uint 2, 7, 2, .C, (.k 400), (.between 0 900)⟩,
  ⟨5767428, 1, 1, .uint 2, 7, 2, .C, (.k 32), (.between 1 4096)⟩,
  ⟨5767681, 1, 1, .uint 2, 7, 2, .C, (.k 330), (.between 0 2047)⟩,
  ⟨5767682, 1, 1, .uint 4, 7, 2, .C, (.k 600), (.between 60 86400)⟩,
  ⟨5771265, 256, 64, .table 448, 7, 2, .V, (.fn 4), .special⟩,
  ⟨5787649, 1, 1, .table 64, 7, 8, .V, (.k 0), .any⟩,
  ⟨5787650, 1, 1, .table 64, 7, 8, .V, (.k 0), .any⟩,
  ⟨5787905, 1, 1, .table 64, 7, 8, .V, (.k 0), .any⟩,
  ⟨5787906, 1, 1, .table 64, 7, 8, .V, (.k 0), .any⟩,
  ⟨5787907, 1, 1, .table 64, 7, 8, .V, (.k 0), .any⟩,
  ⟨5788161, 1, 1, .table 64, 7, 8, .V, (.k 127), .any⟩,
  ⟨5788162, 1, 1, .uint 4, 7, 8, .V, (.k 0), .any⟩]

/-- The rows of indexes 0x5C00 to 0x5CFF. -/
def rows5C : List PRow := [
  ⟨6029313, 1, 1, .uint 2, 7, 2, .C, (.k 40), (.between 5 200)⟩,
  ⟨6029314, 1, 1, .uint 4, 7, 2, .C, (.k 1000), (.between 1 100000)⟩,
  ⟨6029315, 1, 1, .uint 4, 7, 2, .C, (.k 86400), .any⟩,
  ⟨6029316, 1, 1, .uint 1, 7, 2, .C, (.k 0), (.between 0 1)⟩,
  ⟨6029317, 1, 1, .uint 1, 7, 2, .C, (.k 80), .any⟩,
  ⟨6029318, 1, 1, .bool, 7, 2, .C, (.k 0), .any⟩,
  ⟨6029319, 1, 1, .uint 1, 7, 2, .C, (.k 0), (.between 0 63)⟩,
  ⟨6029569, 1, 1, .bool, 7, 1, .V, (.k 0), .any⟩,
  ⟨6029570, 1, 1, .uint 1, 7, 8, .V, (.k 8), .any⟩,
  ⟨6029571, 1, 1, .uint 1, 7, 8, .V, (.k 0), .any⟩,
  ⟨6029572, 1, 1, .uint 4, 7, 8, .V, (.k 0), .any⟩,
  ⟨6029825, 1, 1, .table 2, 7, 8, .V, (.k 0), .any⟩,
  ⟨6029826, 1, 1, .table 2, 7, 8, .V, (.k 0), .any⟩,
  ⟨6029827, 1, 1, .table 2, 7, 8, .V, (.k 0), .any⟩,
  ⟨6029828, 1, 1, .bool, 7, 8, .V, (.k 0), .any⟩,
  ⟨6029829, 1, 1, .time, 7, 8, .V, (.k 0), .any⟩,
  ⟨6029830, 1, 1, .uint 4, 7, 8, .V, (.k 0), .any⟩,
  ⟨6030081, 1, 1, .table 128, 7, 8, .V, (.k 0), .any⟩,
  ⟨6030082, 1, 1, .table 2, 7, 8, .V, (.k 0), .any⟩,
  ⟨6030083, 1, 1, .uint 2, 7, 8, .V, (.k 0), .any⟩,
  ⟨6030337, 1, 1, .uint 4, 7, 8, .N, (.k 0), .any⟩,
  ⟨6030338, 1, 1, .uint 4, 7, 8, .N, (.k 0), .any⟩]

/-- The rows of indexes 0x6000 to 0x60FF. -/
def rows60 : List PRow := [
  ⟨6291457, 1, 1, .table 5, 7, 2, .N, (.l [1, 1, 1, 1, 2]), (.between 0 3)⟩,
  ⟨6291458, 1, 1, .table 5, 7, 8, .V, (.k 0), .any⟩,
  ⟨6291713, 1, 1, .table 80, 7, 2, .N, (.fn 6), .special⟩,
  ⟨6291969, 1, 1, .uint 1, 7, 3, .V, (.k 0), (.mask 31)⟩,
  ⟨6295553, 1, 1, .table 80, 7, 2, .C, (.k 0), (.between 0 4095)⟩,
  ⟨6295809, 1, 1, .table 80, 7, 2, .V, (.k 0), (.between 0 4095)⟩,
  ⟨6296065, 1, 1, .table 80, 7, 8, .V, (.k 0), .any⟩,
  ⟨6296066, 1, 1, .table 80, 7, 8, .V, (.k 65535), .any⟩,
  ⟨6296321, 1, 1, .table 80, 7, 8, .V, (.k 0), .any⟩,
  ⟨6296322, 1, 1, .table 5, 7, 8, .V, (.k 0), .any⟩,
  ⟨6296577, 1, 1, .uint 4, 7, 8, .N, (.k 0), .any⟩]

/-- The rows of indexes 0x6400 to 0x64FF. -/
def rows64 : List PRow := [
  ⟨6553601, 1, 1, .table 64, 7, 2, .C, (.k 0), .special⟩,
  ⟨6553602, 1, 1, .uint 1, 7, 2, .C, (.k 0), (.between 0 64)⟩,
  ⟨6553603, 1, 1, .uint 1, 7, 2, .C, (.k 0), (.between 0 1)⟩,
  ⟨6553604, 1, 1, .bool, 7, 3, .V, (.k 0), .any⟩,
  ⟨6553857, 1, 1, .table 64, 7, 8, .V, (.k 0), .any⟩,
  ⟨6553858, 1, 1, .uint 4, 7, 8, .V, (.k 0), .any⟩,
  ⟨6554113, 1, 1, .table 4, 7, 2, .C, (.k 0), .special⟩,
  ⟨6554114, 1, 1, .uint 1, 7, 3, .V, (.k 0), (.mask 15)⟩,
  ⟨6554115, 1, 1, .table 4, 7, 8, .V, (.k 0), .any⟩,
  ⟨6554116, 1, 1, .table 4, 7, 8, .V, (.k 0), .any⟩,
  ⟨6554117, 1, 1, .uint 4, 7, 8, .V, (.k 0), .any⟩,
  ⟨6554369, 1, 4, .time, 7, 8, .V, (.k 0), .any⟩,
  ⟨6554625, 1, 1, .uint 4, 7, 2, .C, (.k 3600), (.between 60 86400)⟩,
  ⟨6554626, 1, 1, .bool, 7, 3, .V, (.k 0), .any⟩,
  ⟨6554627, 1, 1, .uint 1, 7, 8, .V, (.k 0), .any⟩,
  ⟨6554881, 1, 1, .uint 4, 7, 2, .C, (.k 0), .any⟩,
  ⟨6554882, 1, 1, .uint 1, 7, 2, .C, (.k 128), .any⟩,
  ⟨6554883, 1, 1, .uint 1, 7, 2, .C, (.k 8), (.between 1 255)⟩,
  ⟨6554884, 1, 1, .uint 4, 7, 8, .V, (.k 0), .any⟩,
  ⟨6555137, 1, 1, .uint 1, 7, 2, .C, (.k 0), (.between 0 1)⟩,
  ⟨6555138, 1, 1, .uint 4, 7, 2, .C, (.k 0), .any⟩,
  ⟨6555139, 1, 1, .uint 4, 7, 8, .V, (.k 0), .any⟩,
  ⟨6555140, 1, 1, .bool, 7, 6, .V, (.k 0), .any⟩,
  ⟨6555393, 1, 1, .table 32, 7, 2, .C, (.k 3950), .any⟩,
  ⟨6555394, 1, 1, .table 32, 7, 2, .C, (.k 10000), .any⟩,
  ⟨6555395, 1, 1, .table 32, 7, 2, .C, (.k 10000), .any⟩,
  ⟨6555649, 1, 1, .table 25, 7, 8, .V, (.k 0), .any⟩,
  ⟨6555650, 1, 1, .table 16, 7, 8, .V, (.k 0), .any⟩]

/-- The rows of indexes 0x6800 to 0x68FF. -/
def rows68 : List PRow := [
  ⟨6815745, 1, 1, .uint 2, 7, 2, .C, (.k 1000), (.between 600 1000)⟩,
  ⟨6815746, 1, 1, .uint 2, 7, 2, .C, (.k 1050), (.between 600 1050)⟩,
  ⟨6815747, 1, 1, .uint 2, 7, 2, .N, (.k 1180), (.between 700 1180)⟩,
  ⟨6815748, 1, 1, .table 3, 7, 2, .C, (.k 30), (.between 10 100)⟩,
  ⟨6816001, 1, 1, .uint 2, 7, 2, .C, (.k 100), (.between 25 400)⟩,
  ⟨6816257, 1, 1, .uint 2, 7, 8, .V, (.k 0), .any⟩,
  ⟨6816258, 1, 1, .uint 1, 7, 8, .V, (.k 0), .any⟩,
  ⟨6816259, 1, 1, .uint 1, 7, 8, .V, (.k 0), .any⟩,
  ⟨6816260, 1, 1, .uint 2, 7, 8, .V, (.k 0), .any⟩,
  ⟨6816513, 1, 1, .uint 8, 7, 8, .V, (.k 0), .any⟩,
  ⟨6816514, 1, 1, .uint 2, 7, 8, .V, (.k 0), .any⟩,
  ⟨6816769, 1, 1, .uint 1, 0, 1, .V, (.k 0), (.oneOf [90])⟩,
  ⟨6816770, 1, 1, .octets 768, 7, 8, .N, (.k 0), .any⟩,
  ⟨6816771, 1, 1, .uint 4, 7, 8, .N, (.k 0), .any⟩,
  ⟨6817025, 1, 1, .uint 4, 7, 8, .V, (.k 0), .any⟩,
  ⟨6817026, 1, 1, .uint 4, 7, 8, .V, (.k 0), .any⟩]

/-- The rows of indexes 0x7000 to 0x70FF. -/
def rows70 : List PRow := [
  ⟨7340033, 1, 1, .time, 7, 8, .V, (.k 0), .any⟩,
  ⟨7340289, 1, 1, .uint 1, 7, 2, .C, (.k 1), (.oneOf [1, 2, 4])⟩,
  ⟨7340290, 1, 1, .uint 1, 7, 8, .V, (.k 0), .any⟩,
  ⟨7340291, 1, 1, .time, 0, 1, .V, (.k 0), .any⟩,
  ⟨7340292, 1, 1, .uint 8, 7, 1, .V, (.k 0), .any⟩,
  ⟨7340545, 1, 1, .uint 5, 7, 8, .V, (.k 0), .any⟩,
  ⟨7340546, 1, 1, .uint 5, 7, 8, .V, (.k 0), .any⟩,
  ⟨7340547, 1, 1, .uint 5, 7, 8, .V, (.k 0), .any⟩,
  ⟨7340801, 1, 1, .uint 4, 7, 2, .C, (.k 1000), (.between 100 1000000)⟩,
  ⟨7340802, 1, 1, .uint 4, 7, 2, .C, (.k 20000), (.between 100 1000000)⟩,
  ⟨7340803, 1, 1, .uint 2, 7, 2, .C, (.k 50), (.between 10 10000)⟩,
  ⟨7340804, 1, 1, .uint 2, 7, 2, .C, (.k 100), (.between 10 10000)⟩,
  ⟨7340805, 1, 1, .uint 4, 7, 2, .C, (.k 10000), .any⟩,
  ⟨7340806, 1, 1, .uint 4, 7, 2, .C, (.k 10000), .any⟩,
  ⟨7341057, 1, 1, .uint 1, 7, 2, .C, (.k 0), (.between 0 127)⟩,
  ⟨7341058, 1, 1, .uint 1, 7, 2, .C, (.k 3), (.between 2 10)⟩,
  ⟨7341059, 1, 1, .octets 10, 7, 8, .V, (.k 0), .any⟩,
  ⟨7341060, 1, 1, .uint 2, 7, 8, .V, (.k 0), .any⟩,
  ⟨7341061, 1, 1, .uint 4, 7, 8, .V, (.k 0), .any⟩,
  ⟨7341313, 1, 1, .table 8, 7, 2, .C, (.k 0), .any⟩,
  ⟨7341314, 1, 1, .table 8, 7, 2, .C, (.k 0), .any⟩,
  ⟨7341315, 1, 1, .table 16, 7, 2, .C, (.k 0), .any⟩,
  ⟨7341316, 1, 1, .table 16, 7, 2, .C, (.k 0), .any⟩,
  ⟨7341317, 1, 1, .uint 5, 7, 2, .C, (.k 0), .any⟩,
  ⟨7341318, 1, 1, .table 4, 7, 2, .C, (.k 0), .any⟩,
  ⟨7341569, 1, 1, .uint 4, 7, 2, .C, (.k 0), .any⟩,
  ⟨7341570, 1, 1, .uint 4, 7, 2, .C, (.k 1000), (.between 10 100000)⟩,
  ⟨7341571, 1, 1, .bool, 7, 2, .C, (.k 0), .any⟩,
  ⟨7341572, 1, 1, .uint 4, 7, 2, .C, (.k 100), (.between 1 500000)⟩,
  ⟨7341573, 1, 1, .uint 4, 7, 2, .C, (.k 0), .any⟩,
  ⟨7341574, 1, 1, .uint 4, 7, 8, .V, (.k 0), .any⟩,
  ⟨7341825, 1, 1, .uint 1, 7, 2, .C, (.k 4), (.between 0 6)⟩,
  ⟨7341826, 1, 1, .uint 1, 7, 8, .V, (.k 255), .any⟩,
  ⟨7341827, 1, 1, .uint 1, 7, 8, .V, (.k 255), .any⟩,
  ⟨7341828, 1, 1, .uint 4, 7, 2, .C, (.k 1000), .any⟩,
  ⟨7342081, 1, 1, .uint 4, 7, 8, .V, (.k 0), .any⟩,
  ⟨7342082, 1, 1, .uint 4, 7, 8, .V, (.k 0), .any⟩]

/-- The rows of indexes 0x7400 to 0x74FF. -/
def rows74 : List PRow := [
  ⟨7602177, 1, 1, .uint 2, 7, 8, .V, (.k 0), .any⟩,
  ⟨7602178, 1, 1, .uint 2, 7, 8, .V, (.k 65535), .any⟩,
  ⟨7602179, 1, 1, .time, 7, 8, .V, (.k 0), .any⟩,
  ⟨7602433, 1, 1, .octets 24, 0, 1, .V, (.k 0), .any⟩,
  ⟨7602434, 1, 1, .uint 2, 7, 8, .V, (.k 65535), .any⟩,
  ⟨7602689, 1, 1, .uint 1, 7, 8, .V, (.k 0), .any⟩,
  ⟨7602945, 1, 1, .uint 4, 7, 8, .V, (.k 0), .any⟩,
  ⟨7602946, 1, 1, .uint 4, 7, 8, .V, (.k 0), .any⟩,
  ⟨7602947, 1, 1, .uint 4, 7, 8, .V, (.k 0), .any⟩,
  ⟨7602948, 1, 1, .uint 4, 7, 8, .V, (.k 0), .any⟩,
  ⟨7602949, 1, 1, .uint 4, 7, 8, .V, (.k 0), .any⟩,
  ⟨7602950, 1, 1, .uint 4, 7, 8, .V, (.k 0), .any⟩,
  ⟨7606272, 1, 1024, .octets 24, 7, 8, .V, (.k 0), .any⟩]

/-- The rows of indexes 0x7800 to 0x78FF. -/
def rows78 : List PRow := [
  ⟨7864321, 1, 1, .uint 1, 7, 2, .C, (.k 3), (.between 0 3)⟩,
  ⟨7864322, 1, 1, .uint 1, 7, 2, .C, (.k 8), (.oneOf [1, 2, 4, 8])⟩,
  ⟨7864323, 1, 1, .uint 1, 7, 2, .C, (.k 255), .special⟩,
  ⟨7864324, 1, 1, .uint 1, 7, 8, .V, (.k 0), .any⟩,
  ⟨7864325, 1, 1, .uint 1, 7, 8, .V, (.k 0), .any⟩,
  ⟨7864326, 1, 1, .uint 4, 7, 8, .V, (.k 0), .any⟩,
  ⟨7864577, 1, 1, .table 4, 7, 2, .C, (.k 3), (.between 0 3)⟩,
  ⟨7864578, 1, 1, .uint 1, 7, 2, .C, (.k 15), (.mask 15)⟩,
  ⟨7864579, 1, 1, .table 4, 7, 8, .V, (.k 0), .any⟩,
  ⟨7864580, 1, 1, .table 4, 7, 8, .V, (.k 0), .any⟩,
  ⟨7868417, 1, 1, .table 24, 7, 8, .V, (.k 0), .any⟩,
  ⟨7868418, 1, 1, .table 24, 7, 8, .V, (.k 0), .any⟩,
  ⟨7868419, 1, 1, .table 24, 7, 8, .V, (.k 0), .any⟩,
  ⟨7868420, 1, 1, .table 24, 7, 8, .V, (.k 0), .any⟩,
  ⟨7868421, 1, 1, .uint 4, 7, 3, .V, (.k 0), (.mask 16777215)⟩,
  ⟨7868673, 1, 1, .table 24, 7, 8, .V, (.k 0), .any⟩,
  ⟨7868674, 1, 1, .table 24, 7, 8, .V, (.k 0), .any⟩,
  ⟨7868675, 1, 1, .table 24, 7, 8, .V, (.k 0), .any⟩,
  ⟨7868676, 1, 1, .table 24, 7, 8, .V, (.k 0), .any⟩,
  ⟨7868929, 1, 1, .uint 4, 7, 2, .C, (.k 16), (.between 1 1000000)⟩,
  ⟨7868930, 1, 1, .uint 4, 7, 2, .C, (.k 1000), (.between 1 1000000)⟩,
  ⟨7869185, 1, 1, .uint 5, 7, 8, .V, (.k 0), .any⟩,
  ⟨7869186, 1, 1, .uint 4, 7, 8, .V, (.k 0), .any⟩]

/-- The rows of indexes 0x7C00 to 0x7CFF. -/
def rows7C : List PRow := [
  ⟨8126465, 1, 1, .bool, 7, 2, .C, (.k 0), .any⟩,
  ⟨8126466, 1, 1, .uint 4, 7, 2, .C, (.k 1000), (.between 100 100000)⟩,
  ⟨8126467, 1, 1, .uint 1, 7, 8, .V, (.k 0), .any⟩,
  ⟨8126721, 1, 1, .table 4, 7, 8, .V, (.l [16384, 524288, 65536, 8388608]), .any⟩,
  ⟨8126722, 1, 1, .table 4, 7, 8, .V, (.k 0), .any⟩,
  ⟨8130561, 1, 1, .table 4, 7, 8, .V, (.k 0), .any⟩,
  ⟨8130562, 1, 1, .table 4, 7, 8, .V, (.k 0), .any⟩,
  ⟨8130817, 1, 1, .uint 4, 7, 8, .V, (.k 0), .any⟩,
  ⟨8130818, 1, 1, .uint 4, 7, 8, .V, (.k 0), .any⟩,
  ⟨8130819, 1, 1, .uint 4, 7, 8, .V, (.k 0), .any⟩,
  ⟨8130820, 1, 1, .uint 4, 7, 8, .V, (.k 0), .any⟩,
  ⟨8130821, 1, 1, .uint 4, 7, 8, .V, (.k 0), .any⟩,
  ⟨8130822, 1, 1, .uint 4, 7, 8, .V, (.k 0), .any⟩,
  ⟨8130823, 1, 1, .uint 4, 7, 8, .V, (.k 0), .any⟩]

/-- The rows of indexes 0x8000 to 0x80FF. -/
def rows80 : List PRow := [
  ⟨8388609, 1, 1, .uint 1, 7, 8, .V, (.k 255), .any⟩,
  ⟨8388610, 1, 1, .bool, 7, 8, .V, (.k 0), .any⟩,
  ⟨8388611, 1, 1, .uint 1, 7, 8, .V, (.k 0), .any⟩,
  ⟨8388865, 1, 1, .octets 512, 7, 2, .C, (.k 0), .any⟩,
  ⟨8388866, 1, 1, .uint 4, 7, 2, .C, (.k 1000), (.between 100 100000)⟩,
  ⟨8389121, 1, 1, .table 64, 7, 8, .V, (.k 7), .any⟩,
  ⟨8389122, 1, 1, .table 4, 7, 8, .V, (.k 255), .any⟩,
  ⟨8389123, 1, 1, .uint 4, 7, 8, .V, (.k 0), .any⟩,
  ⟨8392705, 1, 1, .uint 1, 7, 2, .C, (.k 255), (.oneOf [0, 1, 2, 3, 4, 5, 6, 7, 8, 9, 10, 11, 12, 13, 14, 15, 255])⟩,
  ⟨8392706, 1, 1, .uint 1, 7, 2, .C, (.k 0), (.between 0 63)⟩,
  ⟨8392707, 1, 1, .uint 1, 7, 2, .C, (.k 255), (.oneOf [0, 1, 2, 3, 4, 255])⟩,
  ⟨8392708, 1, 1, .uint 4, 7, 2, .C, (.k 20), (.between 1 1000)⟩,
  ⟨8392961, 1, 1, .uint 1, 7, 8, .V, (.k 0), .any⟩,
  ⟨8392962, 1, 1, .uint 1, 7, 8, .V, (.k 255), .any⟩,
  ⟨8392963, 1, 1, .uint 1, 7, 8, .V, (.k 0), .any⟩,
  ⟨8392964, 1, 1, .uint 1, 7, 8, .V, (.k 0), .any⟩,
  ⟨8392965, 1, 1, .uint 1, 7, 8, .V, (.k 0), .any⟩,
  ⟨8392966, 1, 1, .uint 1, 7, 8, .V, (.k 0), .any⟩,
  ⟨8392967, 1, 1, .table 2, 7, 8, .V, (.k 0), .any⟩,
  ⟨8393217, 1, 1, .uint 1, 7, 2, .C, (.k 255), (.oneOf [0, 1, 2, 3, 4, 5, 6, 7, 8, 9, 10, 11, 12, 13, 14, 15, 16, 17, 18, 19, 20, 21, 22, 23, 24, 25, 26, 27, 28, 29, 30, 31, 32, 33, 34, 35, 36, 37, 38, 39, 40, 41, 42, 43, 44, 45, 46, 47, 48, 49, 50, 51, 52, 53, 54, 55, 56, 57, 58, 59, 60, 61, 62, 63, 255])⟩,
  ⟨8393218, 1, 1, .uint 5, 7, 8, .V, (.k 0), .any⟩,
  ⟨8396801, 1, 1, .uint 4, 7, 2, .C, (.k 500), (.between 10 16000)⟩,
  ⟨8404993, 1, 1, .uint 4, 7, 8, .V, (.k 0), .any⟩,
  ⟨8404994, 1, 1, .uint 5, 7, 8, .V, (.k 0), .any⟩,
  ⟨8404995, 1, 1, .uint 8, 7, 8, .V, (.k 0), .any⟩,
  ⟨8405249, 1, 1, .uint 4, 7, 8, .V, (.k 0), .any⟩,
  ⟨8405250, 1, 1, .uint 4, 7, 8, .V, (.k 0), .any⟩]

/-- The rows of indexes 0x8800 to 0x88FF. -/
def rows88 : List PRow := [
  ⟨8912897, 1, 1, .uint 2, 7, 3, .V, (.k 0), .any⟩,
  ⟨8912898, 1, 1, .table 16, 7, 3, .V, (.k 0), .any⟩,
  ⟨8912899, 1, 1, .uint 2, 0, 3, .V, (.k 0), .any⟩,
  ⟨8912900, 1, 1, .uint 2, 0, 3, .V, (.k 0), .any⟩,
  ⟨8913153, 1, 1, .table 16, 7, 8, .V, (.k 0), .any⟩,
  ⟨8913154, 1, 1, .table 16, 7, 8, .V, (.k 0), .any⟩,
  ⟨8913155, 1, 1, .table 16, 7, 8, .V, (.k 0), .any⟩,
  ⟨8913156, 1, 1, .table 16, 7, 8, .V, (.k 0), .any⟩,
  ⟨8913157, 1, 1, .table 16, 7, 8, .V, (.k 0), .any⟩,
  ⟨8913158, 1, 1, .table 8, 7, 8, .V, (.k 0), .any⟩,
  ⟨8913409, 1, 8, .time, 7, 8, .V, (.k 0), .any⟩,
  ⟨8913665, 1, 1, .uint 4, 7, 8, .V, (.k 0), .any⟩,
  ⟨8916992, 1, 1024, .octets 32, 7, 3, .V, (.k 0), .any⟩]

/-- The rows of indexes 0x8C00 to 0x8CFF. -/
def rows8C : List PRow := [
  ⟨9175041, 1, 1, .bool, 7, 3, .C, (.k 0), .any⟩,
  ⟨9175042, 1, 1, .uint 1, 7, 8, .V, (.k 0), .any⟩,
  ⟨9175043, 1, 1, .bool, 0, 1, .V, (.k 0), .any⟩,
  ⟨9175044, 1, 1, .bool, 0, 1, .V, (.k 0), .any⟩,
  ⟨9175045, 1, 1, .bool, 7, 3, .C, (.k 0), .any⟩,
  ⟨9175297, 1, 1, .uint 1, 7, 3, .C, (.k 255), .special⟩,
  ⟨9175298, 1, 1, .uint 1, 7, 3, .C, (.k 0), (.between 0 1)⟩,
  ⟨9175299, 1, 1, .uint 8, 7, 3, .C, (.k 0), .any⟩,
  ⟨9175300, 1, 1, .uint 2, 7, 3, .C, (.k 0), .any⟩,
  ⟨9175301, 1, 1, .uint 2, 7, 3, .C, (.k 1), (.between 1 32768)⟩,
  ⟨9175302, 1, 1, .uint 5, 7, 3, .C, (.k 0), .any⟩,
  ⟨9175303, 1, 1, .uint 5, 7, 3, .C, (.k 1), .special⟩,
  ⟨9175304, 1, 1, .uint 4, 7, 8, .V, (.k 0), .any⟩,
  ⟨9175305, 1, 1, .uint 5, 7, 8, .V, (.k 0), .any⟩,
  ⟨9175553, 1, 1, .table 8, 7, 3, .C, (.k 0), .special⟩,
  ⟨9175554, 1, 1, .table 8, 7, 3, .C, (.k 1), .special⟩,
  ⟨9175555, 1, 1, .table 8, 7, 3, .C, (.k 0), .special⟩,
  ⟨9175556, 1, 1, .uint 1, 7, 8, .V, (.k 0), .any⟩,
  ⟨9175809, 1, 1, .uint 4, 7, 2, .C, (.k 0), .any⟩,
  ⟨9175810, 1, 1, .uint 4, 7, 3, .C, (.k 100), (.between 0 1000000)⟩,
  ⟨9176065, 1, 1, .octets 64, 7, 8, .V, (.k 0), .any⟩,
  ⟨9176067, 1, 1, .uint 4, 7, 1, .V, (.k 0), .any⟩,
  ⟨9176068, 1, 1, .uint 1, 7, 8, .V, (.k 0), .any⟩,
  ⟨9176321, 1, 1, .uint 4, 7, 8, .V, (.k 0), .any⟩,
  ⟨9176322, 1, 1, .uint 4, 7, 8, .V, (.k 0), .any⟩,
  ⟨9176323, 1, 1, .uint 4, 7, 8, .V, (.k 0), .any⟩]

/-- The rows of indexes 0x9000 to 0x90FF. -/
def rows90 : List PRow := [
  ⟨9437185, 1, 1, .octets 576, 7, 16, .F, (.k 0), .any⟩,
  ⟨9437186, 1, 1, .uint 2, 7, 16, .F, (.k 0), .any⟩,
  ⟨9437187, 1, 1, .octets 48, 7, 16, .F, (.k 0), .any⟩,
  ⟨9437188, 1, 1, .table 4, 7, 16, .F, (.k 0), .any⟩,
  ⟨9437189, 1, 1, .bool, 7, 16, .F, (.k 0), .any⟩,
  ⟨9437441, 1, 1, .octets 49, 0, 6, .V, (.k 0), .any⟩,
  ⟨9437442, 1, 1, .uint 1, 0, 6, .V, (.k 0), (.between 0 11)⟩,
  ⟨9437443, 1, 1, .uint 2, 0, 6, .V, (.k 0), .special⟩,
  ⟨9437444, 1, 1, .uint 4, 7, 8, .N, (.k 0), .any⟩,
  ⟨9437697, 1, 1, .octets 209, 0, 4, .V, (.k 0), .any⟩,
  ⟨9437698, 1, 1, .uint 1, 7, 8, .V, (.k 0), .any⟩,
  ⟨9441281, 1, 1, .uint 1, 7, 8, .V, (.k 0), .any⟩,
  ⟨9441282, 1, 1, .uint 4, 7, 8, .N, (.k 0), .any⟩,
  ⟨9445377, 1, 1, .uint 4, 7, 8, .N, (.k 0), .any⟩,
  ⟨9445378, 1, 1, .uint 4, 7, 7, .V, (.k 0), .any⟩,
  ⟨9445379, 1, 1, .octets 2048, 7, 8, .V, (.k 0), .any⟩,
  ⟨9445380, 1, 1, .uint 4, 7, 8, .N, (.k 0), .any⟩]

/-- The rows of indexes 0x9400 to 0x94FF. -/
def rows94 : List PRow := [
  ⟨9699329, 1, 1, .uint 1, 0, 1, .V, (.k 0), (.between 1 5)⟩,
  ⟨9699330, 1, 1, .uint 1, 7, 8, .N, (.k 0), .any⟩,
  ⟨9699331, 1, 1, .octets 64, 7, 1, .N, (.k 0), .special⟩,
  ⟨9699332, 1, 1, .uint 4, 7, 8, .N, (.k 0), .any⟩,
  ⟨9699585, 1, 1, .octets 8200, 0, 1, .V, (.k 0), .any⟩,
  ⟨9699586, 1, 1, .octets 128, 7, 8, .N, (.k 0), .any⟩,
  ⟨9699587, 1, 1, .uint 2, 7, 8, .V, (.k 0), .any⟩,
  ⟨9699841, 1, 1, .uint 1, 7, 8, .V, (.k 0), .any⟩,
  ⟨9699842, 1, 1, .uint 2, 7, 8, .N, (.k 65535), .any⟩,
  ⟨9700097, 1, 1, .uint 4, 7, 2, .N, (.k 3600), (.between 60 604800)⟩,
  ⟨9700098, 1, 1, .bool, 7, 2, .N, (.k 1), .any⟩,
  ⟨9700099, 1, 1, .uint 4, 7, 8, .V, (.k 0), .any⟩,
  ⟨9700100, 1, 1, .uint 1, 7, 8, .N, (.k 0), .any⟩,
  ⟨9700353, 1, 1, .octets 2048, 7, 8, .V, (.k 0), .any⟩,
  ⟨9700354, 1, 1, .uint 4, 7, 8, .V, (.k 0), .any⟩]

/-- The rows of indexes 0x9800 to 0x98FF. -/
def rows98 : List PRow := [
  ⟨9961473, 1, 1, .uint 4, 7, 8, .N, (.k 0), .any⟩,
  ⟨9961474, 1, 1, .octets 16, 7, 3, .N, (.k 255), .any⟩,
  ⟨9961475, 1, 1, .octets 16, 7, 3, .N, (.k 255), .any⟩,
  ⟨9961476, 1, 1, .octets 16, 7, 3, .N, (.l [6, 166, 16, 0, 16, 0, 4, 64, 52, 128, 0, 0, 0, 1, 0, 128]), .any⟩,
  ⟨9961477, 1, 1, .octets 16, 7, 3, .N, (.k 255), .any⟩,
  ⟨9961478, 1, 1, .octets 16, 7, 2, .N, (.k 255), .special⟩,
  ⟨9961729, 1, 1, .octets 16, 7, 8, .V, (.k 0), .any⟩,
  ⟨9961730, 1, 1, .octets 16, 0, 1, .V, (.k 0), .any⟩,
  ⟨9961731, 1, 1, .table 128, 7, 8, .V, (.k 0), .any⟩,
  ⟨9961732, 1, 1, .table 3, 7, 8, .V, (.k 0), .any⟩,
  ⟨9961985, 1, 1, .uint 4, 7, 7, .V, (.k 0), .any⟩,
  ⟨9961986, 1, 1, .octets 1536, 7, 8, .V, (.k 0), .any⟩,
  ⟨9961987, 1, 1, .uint 4, 7, 8, .N, (.k 0), .any⟩,
  ⟨9965569, 1, 1, .uint 1, 7, 8, .V, (.k 0), .any⟩,
  ⟨9965570, 1, 1, .table 8, 7, 8, .V, (.k 0), .any⟩,
  ⟨9977857, 1, 1, .bool, 7, 6, .V, (.k 0), .any⟩,
  ⟨9977858, 1, 1, .uint 2, 7, 6, .V, (.k 600), (.between 1 600)⟩,
  ⟨9977859, 1, 1, .table 4, 7, 6, .V, (.k 0), .special⟩,
  ⟨9977860, 1, 1, .uint 4, 7, 6, .V, (.k 0), (.mask 16777215)⟩,
  ⟨9977861, 1, 1, .uint 4, 7, 6, .V, (.k 1), .any⟩,
  ⟨9977862, 1, 1, .uint 2, 7, 8, .V, (.k 0), .any⟩,
  ⟨9977863, 1, 1, .table 4, 7, 8, .V, (.k 0), .any⟩]

/-- Every row, by the high byte of its index. -/
def rowsOf (hi : Nat) : List PRow :=
  match hi with
  | 0x10 => rows10
  | 0x20 => rows20
  | 0x30 => rows30
  | 0x34 => rows34
  | 0x40 => rows40
  | 0x44 => rows44
  | 0x48 => rows48
  | 0x50 => rows50
  | 0x54 => rows54
  | 0x58 => rows58
  | 0x5C => rows5C
  | 0x60 => rows60
  | 0x64 => rows64
  | 0x68 => rows68
  | 0x70 => rows70
  | 0x74 => rows74
  | 0x78 => rows78
  | 0x7C => rows7C
  | 0x80 => rows80
  | 0x88 => rows88
  | 0x8C => rows8C
  | 0x90 => rows90
  | 0x94 => rows94
  | 0x98 => rows98
  | _ => []

/-- The row that defines parameter `id` = 256 * index + subindex; none where no parameter is defined (R565). -/
def rowOf (id : Nat) : Option PRow :=
  (rowsOf (id / 65536)).find? (fun r => r.lo ≤ id && id < r.lo + r.step * r.n && (id - r.lo) % r.step == 0)

/-- The parameter (256 * index + subindex) a key belongs to. -/
def keyId (key : Nat) : Nat := key / 65536

/-- The entry of a TABLE, or byte of OCTETS or TEXT, a key names. -/
def keyEntry (key : Nat) : Nat := key % 65536

/-- The number of entries a type holds. -/
def PTy.entries : PTy → Nat
  | .octets n => n
  | .text n => n
  | .table n => n
  | _ => 1

/-- The bytes one entry of a type takes (R564). -/
def PTy.width : PTy → Nat
  | .bool => 1
  | .uint b => b
  | .time => 16
  | .octets _ => 1
  | .text _ => 1
  | .table _ => 5

namespace P

/-- 0x1000.01 IdChipId -/
abbrev idChipId : Nat := 0x1000010000
/-- 0x1000.02 IdPartNumber -/
abbrev idPartNumber : Nat := 0x1000020000
/-- 0x1000.03 IdStepping -/
abbrev idStepping : Nat := 0x1000030000
/-- 0x1000.04 IdLifecycle -/
abbrev idLifecycle : Nat := 0x1000040000
/-- 0x1010.01 ChartActive -/
abbrev chartActive : Nat := 0x1010010000
/-- 0x1010.02 ChartSelect -/
abbrev chartSelect : Nat := 0x1010020000
/-- 0x1010.03 ChartPinOverride -/
abbrev chartPinOverride : Nat := 0x1010030000
/-- 0x1010.04 ChartLastCommanded -/
abbrev chartLastCommanded : Nat := 0x1010040000
/-- 0x1010.05 ChartSource -/
abbrev chartSource : Nat := 0x1010050000
/-- 0x1010.06 ChartValidMask -/
abbrev chartValidMask : Nat := 0x1010060000
/-- 0x1010.07 ChartDeferredCount -/
abbrev chartDeferredCount : Nat := 0x1010070000
/-- 0x1010.08 ChartStoreState -/
abbrev chartStoreState : Nat := 0x1010080000
/-- 0x1010.09 ChartInvalidIndex -/
abbrev chartInvalidIndex : Nat := 0x1010090000
/-- 0x1010.0A ChartStoreSeq -/
abbrev chartStoreSeq : Nat := 0x10100A0000
/-- 0x1011.01 ChartSectionHash -/
abbrev chartSectionHash : Nat := 0x1011010000
/-- 0x1011.02 ChartDirtyMask -/
abbrev chartDirtyMask : Nat := 0x1011020000
/-- 0x1020.01 FieldNominalRate -/
abbrev fieldNominalRate : Nat := 0x1020010000
/-- 0x1020.02 FieldDataRate -/
abbrev fieldDataRate : Nat := 0x1020020000
/-- 0x1020.03 FieldEnable -/
abbrev fieldEnable : Nat := 0x1020030000
/-- 0x1020.04 FieldState -/
abbrev fieldState : Nat := 0x1020040000
/-- 0x1020.05 FieldErrorCounters -/
abbrev fieldErrorCounters : Nat := 0x1020050000
/-- 0x1020.06 FieldBusOffCount -/
abbrev fieldBusOffCount : Nat := 0x1020060000
/-- 0x1020.07 FieldAbortCount -/
abbrev fieldAbortCount : Nat := 0x1020070000
/-- 0x1021.01 AlmanacOpCount -/
abbrev almanacOpCount : Nat := 0x1021010000
/-- 0x1021.02 AlmanacRefusedCount -/
abbrev almanacRefusedCount : Nat := 0x1021020000
/-- 0x1030.01 SessionState -/
abbrev sessionState : Nat := 0x1030010000
/-- 0x2000.01 PwrState -/
abbrev pwrState : Nat := 0x2000010000
/-- 0x2000.02 PwrActiveMask -/
abbrev pwrActiveMask : Nat := 0x2000020000
/-- 0x2001.01 PwrRequestState -/
abbrev pwrRequestState : Nat := 0x2001010000
/-- 0x2002.01 PwrBootState -/
abbrev pwrBootState : Nat := 0x2002010000
/-- 0x2003.01 PwrIdleTimeout -/
abbrev pwrIdleTimeout : Nat := 0x2003010000
/-- 0x2003.02 PwrIdleState -/
abbrev pwrIdleState : Nat := 0x2003020000
/-- 0x2004.01 WakeSourceMask -/
abbrev wakeSourceMask : Nat := 0x2004010000
/-- 0x2005.01 WakeLastSource -/
abbrev wakeLastSource : Nat := 0x2005010000
/-- 0x2006.01 ResetCause -/
abbrev resetCause : Nat := 0x2006010000
/-- 0x2006.02 ResetCount -/
abbrev resetCount : Nat := 0x2006020000
/-- 0x2007.01 ResetCommand -/
abbrev resetCommand : Nat := 0x2007010000
/-- 0x2007.02 WatchdogPeriod -/
abbrev watchdogPeriod : Nat := 0x2007020000
/-- 0x2008.01 RailStatus -/
abbrev railStatus : Nat := 0x2008010000
/-- 0x2009.01 RefclkState -/
abbrev refclkState : Nat := 0x2009010000
/-- 0x2009.02 RefclkLossCount -/
abbrev refclkLossCount : Nat := 0x2009020000
/-- 0x200A.01 RefoEnable -/
abbrev refoEnable : Nat := 0x200A010000
/-- 0x200B.01 SyncAction -/
abbrev syncAction : Nat := 0x200B010000
/-- 0x200B.02 SyncExpectPeriod -/
abbrev syncExpectPeriod : Nat := 0x200B020000
/-- 0x200B.03 SyncoEnable -/
abbrev syncoEnable : Nat := 0x200B030000
/-- 0x200D.01 ChartPinsSampled -/
abbrev chartPinsSampled : Nat := 0x200D010000
/-- 0x3000.01 RxWideMode -/
abbrev rxWideMode : Nat := 0x3000010000
/-- 0x3001.01 RxPathEnableA -/
abbrev rxPathEnableA : Nat := 0x3001010000
/-- 0x3001.02 RxPathEnableB -/
abbrev rxPathEnableB : Nat := 0x3001020000
/-- 0x3002.01 RxGainShadowA -/
abbrev rxGainShadowA : Nat := 0x3002010000
/-- 0x3002.02 RxGainShadowB -/
abbrev rxGainShadowB : Nat := 0x3002020000
/-- 0x3003.01 RxGainActiveA -/
abbrev rxGainActiveA : Nat := 0x3003010000
/-- 0x3003.02 RxGainActiveB -/
abbrev rxGainActiveB : Nat := 0x3003020000
/-- 0x3004.01 RxBbBandwidthA -/
abbrev rxBbBandwidthA : Nat := 0x3004010000
/-- 0x3004.02 RxBbBandwidthB -/
abbrev rxBbBandwidthB : Nat := 0x3004020000
/-- 0x3004.03 RxBbBandwidthActiveA -/
abbrev rxBbBandwidthActiveA : Nat := 0x3004030000
/-- 0x3004.04 RxBbBandwidthActiveB -/
abbrev rxBbBandwidthActiveB : Nat := 0x3004040000
/-- 0x3005.01 RxClipCountA -/
abbrev rxClipCountA : Nat := 0x3005010000
/-- 0x3005.02 RxClipCountB -/
abbrev rxClipCountB : Nat := 0x3005020000
/-- 0x3006.01 RxCoreMap -/
abbrev rxCoreMap : Nat := 0x3006010000
/-- 0x3006.02 RxQuadCalState -/
abbrev rxQuadCalState : Nat := 0x3006020000
/-- 0x3007.01 RxCalFailCount -/
abbrev rxCalFailCount : Nat := 0x3007010000
/-- 0x3008.01 InterleaveSkewLimit -/
abbrev interleaveSkewLimit : Nat := 0x3008010000
/-- 0x3009.01 RxBlockerThreshold -/
abbrev rxBlockerThreshold : Nat := 0x3009010000
/-- 0x300A.01 ConvTrimStorePeriod -/
abbrev convTrimStorePeriod : Nat := 0x300A010000
/-- 0x300B.01 RxSpareRestartCount -/
abbrev rxSpareRestartCount : Nat := 0x300B010000
/-- 0x300C.01 RxRetiredMask -/
abbrev rxRetiredMask : Nat := 0x300C010000
/-- 0x3400.01 BandRateCodeA -/
abbrev bandRateCodeA : Nat := 0x3400010000
/-- 0x3400.02 BandRateCodeB -/
abbrev bandRateCodeB : Nat := 0x3400020000
/-- 0x3401.01 ChanLog2BinsA -/
abbrev chanLog2BinsA : Nat := 0x3401010000
/-- 0x3401.02 ChanLog2BinsB -/
abbrev chanLog2BinsB : Nat := 0x3401020000
/-- 0x3402.01 ChanOversampleA -/
abbrev chanOversampleA : Nat := 0x3402010000
/-- 0x3402.02 ChanOversampleB -/
abbrev chanOversampleB : Nat := 0x3402020000
/-- 0x3403.01 ChanScaleA -/
abbrev chanScaleA : Nat := 0x3403010000
/-- 0x3403.02 ChanScaleB -/
abbrev chanScaleB : Nat := 0x3403020000
/-- 0x3404.01 NcoShadowA -/
abbrev ncoShadowA : Nat := 0x3404010000
/-- 0x3404.02 NcoShadowB -/
abbrev ncoShadowB : Nat := 0x3404020000
/-- 0x3405.01 NcoActiveA -/
abbrev ncoActiveA : Nat := 0x3405010000
/-- 0x3405.02 NcoActiveB -/
abbrev ncoActiveB : Nat := 0x3405020000
/-- 0x3410.01–0x3413.01 FirCoefA0–FirCoefA3 -/
abbrev firCoefA0 : Nat := 0x3410010000
/-- 0x3414.01 FirLengthA -/
abbrev firLengthA : Nat := 0x3414010000
/-- 0x3414.02 FirLengthB -/
abbrev firLengthB : Nat := 0x3414020000
/-- 0x3415.01 FirBankStateA -/
abbrev firBankStateA : Nat := 0x3415010000
/-- 0x3415.02 FirBankStateB -/
abbrev firBankStateB : Nat := 0x3415020000
/-- 0x3416.01 FirBankShadowA -/
abbrev firBankShadowA : Nat := 0x3416010000
/-- 0x3416.02 FirBankShadowB -/
abbrev firBankShadowB : Nat := 0x3416020000
/-- 0x3417.01 FirBankActiveA -/
abbrev firBankActiveA : Nat := 0x3417010000
/-- 0x3417.02 FirBankActiveB -/
abbrev firBankActiveB : Nat := 0x3417020000
/-- 0x3418.01–0x341B.01 FirCoefB0–FirCoefB3 -/
abbrev firCoefB0 : Nat := 0x3418010000
/-- 0x3420.01 ThreshWindowA -/
abbrev threshWindowA : Nat := 0x3420010000
/-- 0x3420.02 ThreshWindowB -/
abbrev threshWindowB : Nat := 0x3420020000
/-- 0x3421.01 ThreshRiseA -/
abbrev threshRiseA : Nat := 0x3421010000
/-- 0x3421.02 ThreshRiseB -/
abbrev threshRiseB : Nat := 0x3421020000
/-- 0x3422.01 ThreshFallA -/
abbrev threshFallA : Nat := 0x3422010000
/-- 0x3422.02 ThreshFallB -/
abbrev threshFallB : Nat := 0x3422020000
/-- 0x3423.01 ThreshStateA0 -/
abbrev threshStateA0 : Nat := 0x3423010000
/-- 0x3423.02 ThreshStateA1 -/
abbrev threshStateA1 : Nat := 0x3423020000
/-- 0x3423.03 ThreshStateB0 -/
abbrev threshStateB0 : Nat := 0x3423030000
/-- 0x3423.04 ThreshStateB1 -/
abbrev threshStateB1 : Nat := 0x3423040000
/-- 0x3440.01 BandGroupDelayA -/
abbrev bandGroupDelayA : Nat := 0x3440010000
/-- 0x3440.02 BandGroupDelayB -/
abbrev bandGroupDelayB : Nat := 0x3440020000
/-- 0x3441.01 BinGroupDelayA -/
abbrev binGroupDelayA : Nat := 0x3441010000
/-- 0x3441.02 BinGroupDelayB -/
abbrev binGroupDelayB : Nat := 0x3441020000
/-- 0x3442.01 BandSettleCountA -/
abbrev bandSettleCountA : Nat := 0x3442010000
/-- 0x3442.02 BandSettleCountB -/
abbrev bandSettleCountB : Nat := 0x3442020000
/-- 0x3443.01 BinSettleCountA -/
abbrev binSettleCountA : Nat := 0x3443010000
/-- 0x3443.02 BinSettleCountB -/
abbrev binSettleCountB : Nat := 0x3443020000
/-- 0x3444.01 ChanOverflowCountA -/
abbrev chanOverflowCountA : Nat := 0x3444010000
/-- 0x3444.02 ChanOverflowCountB -/
abbrev chanOverflowCountB : Nat := 0x3444020000
/-- 0x3445.01 SyncResetCount -/
abbrev syncResetCount : Nat := 0x3445010000
/-- 0x4000.01 MemState -/
abbrev memState : Nat := 0x4000010000
/-- 0x4001.01 MemScrubPeriod -/
abbrev memScrubPeriod : Nat := 0x4001010000
/-- 0x4001.02 MemScrubPosition -/
abbrev memScrubPosition : Nat := 0x4001020000
/-- 0x4001.03 MemScrubPassCount -/
abbrev memScrubPassCount : Nat := 0x4001030000
/-- 0x4002.01 MemCorrectedCount -/
abbrev memCorrectedCount : Nat := 0x4002010000
/-- 0x4002.02 MemUncorrectableCount -/
abbrev memUncorrectableCount : Nat := 0x4002020000
/-- 0x4003.01 MemLastUncorrectableAddr -/
abbrev memLastUncorrectableAddr : Nat := 0x4003010000
/-- 0x4003.02 MemLastUncorrectableCat -/
abbrev memLastUncorrectableCat : Nat := 0x4003020000
/-- 0x4010.01 LedgerPlacementsA -/
abbrev ledgerPlacementsA : Nat := 0x4010010000
/-- 0x4010.02 LedgerPlacementsB -/
abbrev ledgerPlacementsB : Nat := 0x4010020000
/-- 0x4011.01 LedgerRefreshA -/
abbrev ledgerRefreshA : Nat := 0x4011010000
/-- 0x4011.02 LedgerRefreshB -/
abbrev ledgerRefreshB : Nat := 0x4011020000
/-- 0x4012.01 LedgerHoldA -/
abbrev ledgerHoldA : Nat := 0x4012010000
/-- 0x4012.02 LedgerHoldB -/
abbrev ledgerHoldB : Nat := 0x4012020000
/-- 0x4013.01 LedgerDmaRt -/
abbrev ledgerDmaRt : Nat := 0x4013010000
/-- 0x4013.02 LedgerDmaBulk -/
abbrev ledgerDmaBulk : Nat := 0x4013020000
/-- 0x4014.01 LedgerTerms -/
abbrev ledgerTerms : Nat := 0x4014010000
/-- 0x4014.02 LedgerTotal -/
abbrev ledgerTotal : Nat := 0x4014020000
/-- 0x4014.03 LedgerRefusedCount -/
abbrev ledgerRefusedCount : Nat := 0x4014030000
/-- 0x4015.01 MemClassRate -/
abbrev memClassRate : Nat := 0x4015010000
/-- 0x4020.01 CatGeneration -/
abbrev catGeneration : Nat := 0x4020010000
/-- 0x4021.01 CatRefreshDiscardCount -/
abbrev catRefreshDiscardCount : Nat := 0x4021010000
/-- 0x4021.02 CatMissCount -/
abbrev catMissCount : Nat := 0x4021020000
/-- 0x4021.03 CatStateCounts -/
abbrev catStateCounts : Nat := 0x4021030000
/-- 0x4022.01 CatOpCount -/
abbrev catOpCount : Nat := 0x4022010000
/-- 0x4022.02 CatOpRefusedCount -/
abbrev catOpRefusedCount : Nat := 0x4022020000
/-- 0x4400.01 ApGroupEnable -/
abbrev apGroupEnable : Nat := 0x4400010000
/-- 0x4401.01 ApModeEnableA -/
abbrev apModeEnableA : Nat := 0x4401010000
/-- 0x4401.02 ApModeEnableB -/
abbrev apModeEnableB : Nat := 0x4401020000
/-- 0x4402.01 BeamModeA -/
abbrev beamModeA : Nat := 0x4402010000
/-- 0x4402.02 BeamModeB -/
abbrev beamModeB : Nat := 0x4402020000
/-- 0x4403.01 BeamShapeA -/
abbrev beamShapeA : Nat := 0x4403010000
/-- 0x4403.02 BeamShapeB -/
abbrev beamShapeB : Nat := 0x4403020000
/-- 0x4404.01 ElementMapA -/
abbrev elementMapA : Nat := 0x4404010000
/-- 0x4404.02 ElementMapB -/
abbrev elementMapB : Nat := 0x4404020000
/-- 0x4405.01 BeamMatrixA -/
abbrev beamMatrixA : Nat := 0x4405010000
/-- 0x4405.02 BeamMatrixB -/
abbrev beamMatrixB : Nat := 0x4405020000
/-- 0x4410.01 ApSlotLengthCode -/
abbrev apSlotLengthCode : Nat := 0x4410010000
/-- 0x4410.02 ApPlacementLimit -/
abbrev apPlacementLimit : Nat := 0x4410020000
/-- 0x4411.01 ApPlanQueuedA -/
abbrev apPlanQueuedA : Nat := 0x4411010000
/-- 0x4411.02 ApPlanQueuedB -/
abbrev apPlanQueuedB : Nat := 0x4411020000
/-- 0x4420.01 RaBinFirst -/
abbrev raBinFirst : Nat := 0x4420010000
/-- 0x4420.02 RaBinCount -/
abbrev raBinCount : Nat := 0x4420020000
/-- 0x4420.03 RaReserve -/
abbrev raReserve : Nat := 0x4420030000
/-- 0x4430.01 AttachMaxTaps -/
abbrev attachMaxTaps : Nat := 0x4430010000
/-- 0x4430.02 AttachTapFloor -/
abbrev attachTapFloor : Nat := 0x4430020000
/-- 0x4431.01 RefreshForget -/
abbrev refreshForget : Nat := 0x4431010000
/-- 0x4431.02 RefreshWalkMargin -/
abbrev refreshWalkMargin : Nat := 0x4431020000
/-- 0x4431.03 RefreshMinSamples -/
abbrev refreshMinSamples : Nat := 0x4431030000
/-- 0x4440.01 ApPlanAcceptedCount -/
abbrev apPlanAcceptedCount : Nat := 0x4440010000
/-- 0x4440.02 ApPlanLateCount -/
abbrev apPlanLateCount : Nat := 0x4440020000
/-- 0x4440.03 ApPlanRefusedCount -/
abbrev apPlanRefusedCount : Nat := 0x4440030000
/-- 0x4440.04 ApPlanDiscardCount -/
abbrev apPlanDiscardCount : Nat := 0x4440040000
/-- 0x4440.05 ApPlanReplacedCount -/
abbrev apPlanReplacedCount : Nat := 0x4440050000
/-- 0x4441.01 ApAttachCount -/
abbrev apAttachCount : Nat := 0x4441010000
/-- 0x4441.02 ApAttachFailCount -/
abbrev apAttachFailCount : Nat := 0x4441020000
/-- 0x4442.01 ApRefreshWriteCount -/
abbrev apRefreshWriteCount : Nat := 0x4442010000
/-- 0x4442.02 ApRefreshSkipCount -/
abbrev apRefreshSkipCount : Nat := 0x4442020000
/-- 0x4443.01 ApOutputDiscardCount -/
abbrev apOutputDiscardCount : Nat := 0x4443010000
/-- 0x4444.01 ApHoldWriteIndex -/
abbrev apHoldWriteIndex : Nat := 0x4444010000
/-- 0x4800.01 SentinelEnable -/
abbrev sentinelEnable : Nat := 0x4800010000
/-- 0x4800.02 SentinelPathMask -/
abbrev sentinelPathMask : Nat := 0x4800020000
/-- 0x4800.03 SentinelState -/
abbrev sentinelState : Nat := 0x4800030000
/-- 0x4801.01 SentinelTriggerMode -/
abbrev sentinelTriggerMode : Nat := 0x4801010000
/-- 0x4801.02 SentinelGateCount -/
abbrev sentinelGateCount : Nat := 0x4801020000
/-- 0x4801.03 SentinelDetectLevel -/
abbrev sentinelDetectLevel : Nat := 0x4801030000
/-- 0x4801.04 SentinelHoldoff -/
abbrev sentinelHoldoff : Nat := 0x4801040000
/-- 0x4802.01 SentinelSeqEnable -/
abbrev sentinelSeqEnable : Nat := 0x4802010000
/-- 0x4802.02 SentinelSeqLength -/
abbrev sentinelSeqLength : Nat := 0x4802020000
/-- 0x4810.01–0x4813.01 SentinelSeq0–SentinelSeq3 -/
abbrev sentinelSeq0 : Nat := 0x4810010000
/-- 0x4820.01 SentinelWakeSlots -/
abbrev sentinelWakeSlots : Nat := 0x4820010000
/-- 0x4820.02 SentinelWakeCompact -/
abbrev sentinelWakeCompact : Nat := 0x4820020000
/-- 0x4820.03 SentinelReplayDepth -/
abbrev sentinelReplayDepth : Nat := 0x4820030000
/-- 0x4820.04 SentinelReplayShift -/
abbrev sentinelReplayShift : Nat := 0x4820040000
/-- 0x4830.01 SentinelRingDepth -/
abbrev sentinelRingDepth : Nat := 0x4830010000
/-- 0x4830.02 SentinelRingWriteIndex -/
abbrev sentinelRingWriteIndex : Nat := 0x4830020000
/-- 0x4840.01 SentinelDetectCount -/
abbrev sentinelDetectCount : Nat := 0x4840010000
/-- 0x4840.02 SentinelWakeCount -/
abbrev sentinelWakeCount : Nat := 0x4840020000
/-- 0x4840.03 SentinelReplayDiscardCount -/
abbrev sentinelReplayDiscardCount : Nat := 0x4840030000
/-- 0x4840.04 SentinelLastDetect -/
abbrev sentinelLastDetect : Nat := 0x4840040000
/-- 0x4840.05 SentinelLastMetric -/
abbrev sentinelLastMetric : Nat := 0x4840050000
/-- 0x5000.01 DlGroupEnable -/
abbrev dlGroupEnable : Nat := 0x5000010000
/-- 0x5001.01 DlPathEnable -/
abbrev dlPathEnable : Nat := 0x5001010000
/-- 0x5002.01 TxNcoShadowA -/
abbrev txNcoShadowA : Nat := 0x5002010000
/-- 0x5002.02 TxNcoShadowB -/
abbrev txNcoShadowB : Nat := 0x5002020000
/-- 0x5003.01 TxNcoActiveA -/
abbrev txNcoActiveA : Nat := 0x5003010000
/-- 0x5003.02 TxNcoActiveB -/
abbrev txNcoActiveB : Nat := 0x5003020000
/-- 0x5004.01 DlPathCeilingA -/
abbrev dlPathCeilingA : Nat := 0x5004010000
/-- 0x5004.02 DlPathCeilingB -/
abbrev dlPathCeilingB : Nat := 0x5004020000
/-- 0x5005.01 DlPlacementLimit -/
abbrev dlPlacementLimit : Nat := 0x5005010000
/-- 0x5006.01 DlPlanDeadlineA -/
abbrev dlPlanDeadlineA : Nat := 0x5006010000
/-- 0x5006.02 DlPlanDeadlineB -/
abbrev dlPlanDeadlineB : Nat := 0x5006020000
/-- 0x5007.01 DlDataLeadA -/
abbrev dlDataLeadA : Nat := 0x5007010000
/-- 0x5007.02 DlDataLeadB -/
abbrev dlDataLeadB : Nat := 0x5007020000
/-- 0x5010.01 DlLastScaleA -/
abbrev dlLastScaleA : Nat := 0x5010010000
/-- 0x5010.02 DlLastScaleB -/
abbrev dlLastScaleB : Nat := 0x5010020000
/-- 0x5040.01 DlPlanAcceptedCount -/
abbrev dlPlanAcceptedCount : Nat := 0x5040010000
/-- 0x5040.02 DlPlanLateCount -/
abbrev dlPlanLateCount : Nat := 0x5040020000
/-- 0x5040.03 DlPlanRefusedCount -/
abbrev dlPlanRefusedCount : Nat := 0x5040030000
/-- 0x5040.04 DlPlanDiscardCount -/
abbrev dlPlanDiscardCount : Nat := 0x5040040000
/-- 0x5040.05 DlPlanReplacedCount -/
abbrev dlPlanReplacedCount : Nat := 0x5040050000
/-- 0x5041.01 DlDataMissingCount -/
abbrev dlDataMissingCount : Nat := 0x5041010000
/-- 0x5041.02 DlDataEarlyCount -/
abbrev dlDataEarlyCount : Nat := 0x5041020000
/-- 0x5041.03 DlDataOrphanCount -/
abbrev dlDataOrphanCount : Nat := 0x5041030000
/-- 0x5041.04 DlClipCount -/
abbrev dlClipCount : Nat := 0x5041040000
/-- 0x5041.05 DlScaledSlotCount -/
abbrev dlScaledSlotCount : Nat := 0x5041050000
/-- 0x5041.06 DlBurstDropCount -/
abbrev dlBurstDropCount : Nat := 0x5041060000
/-- 0x5400.01 RxLoShadowA -/
abbrev rxLoShadowA : Nat := 0x5400010000
/-- 0x5400.02 RxLoShadowB -/
abbrev rxLoShadowB : Nat := 0x5400020000
/-- 0x5401.01 RxLoActiveA -/
abbrev rxLoActiveA : Nat := 0x5401010000
/-- 0x5401.02 RxLoActiveB -/
abbrev rxLoActiveB : Nat := 0x5401020000
/-- 0x5402.01 TxLoShadow -/
abbrev txLoShadow : Nat := 0x5402010000
/-- 0x5403.01 TxLoActive -/
abbrev txLoActive : Nat := 0x5403010000
/-- 0x5404.01 SynthState -/
abbrev synthState : Nat := 0x5404010000
/-- 0x5404.02 SynthLockTime -/
abbrev synthLockTime : Nat := 0x5404020000
/-- 0x5404.03 SynthUnlockCount -/
abbrev synthUnlockCount : Nat := 0x5404030000
/-- 0x5404.04 SynthFailedMask -/
abbrev synthFailedMask : Nat := 0x5404040000
/-- 0x5405.01 TxPathState -/
abbrev txPathState : Nat := 0x5405010000
/-- 0x5406.01 TxRampTime -/
abbrev txRampTime : Nat := 0x5406010000
/-- 0x5410.01 RfctlConfig -/
abbrev rfctlConfig : Nat := 0x5410010000
/-- 0x5411.01 RfctlLevels -/
abbrev rfctlLevels : Nat := 0x5411010000
/-- 0x5411.02 RfctlLeadShortCount -/
abbrev rfctlLeadShortCount : Nat := 0x5411020000
/-- 0x5420.01–0x545F.01 TxPowerTable0–TxPowerTable63 -/
abbrev txPowerTable0 : Nat := 0x5420010000
/-- 0x5460.01 TxStepShadow -/
abbrev txStepShadow : Nat := 0x5460010000
/-- 0x5460.02 TxStepActive -/
abbrev txStepActive : Nat := 0x5460020000
/-- 0x5461.01 TxStepEffective -/
abbrev txStepEffective : Nat := 0x5461010000
/-- 0x5462.01 TxPowerCeilingFused -/
abbrev txPowerCeilingFused : Nat := 0x5462010000
/-- 0x5462.02 TxPowerFloor -/
abbrev txPowerFloor : Nat := 0x5462020000
/-- 0x5463.01 TxThrottleSteps -/
abbrev txThrottleSteps : Nat := 0x5463010000
/-- 0x5470.01 CoexEnable -/
abbrev coexEnable : Nat := 0x5470010000
/-- 0x5470.02 CoexLeadTime -/
abbrev coexLeadTime : Nat := 0x5470020000
/-- 0x5470.03 CoexPriority -/
abbrev coexPriority : Nat := 0x5470030000
/-- 0x5470.04 CoexPolarity -/
abbrev coexPolarity : Nat := 0x5470040000
/-- 0x5471.01 CoexDeniedCount -/
abbrev coexDeniedCount : Nat := 0x5471010000
/-- 0x5471.02 CoexLostCount -/
abbrev coexLostCount : Nat := 0x5471020000
/-- 0x5800.01 DpdMode -/
abbrev dpdMode : Nat := 0x5800010000
/-- 0x5800.02 DpdOrxAtten -/
abbrev dpdOrxAtten : Nat := 0x5800020000
/-- 0x5801.01 DpdCaptureLog2 -/
abbrev dpdCaptureLog2 : Nat := 0x5801010000
/-- 0x5801.02 DpdStepSize -/
abbrev dpdStepSize : Nat := 0x5801020000
/-- 0x5801.03 DpdMinCapturePower -/
abbrev dpdMinCapturePower : Nat := 0x5801030000
/-- 0x5801.04 DpdMinBinSamples -/
abbrev dpdMinBinSamples : Nat := 0x5801040000
/-- 0x5802.01 DpdNmseThreshold -/
abbrev dpdNmseThreshold : Nat := 0x5802010000
/-- 0x5802.02 DpdStorePeriod -/
abbrev dpdStorePeriod : Nat := 0x5802020000
/-- 0x5810.01–0x584F.01 DpdModel0–DpdModel63 -/
abbrev dpdModel0 : Nat := 0x5810010000
/-- 0x5850.01 DpdNmse -/
abbrev dpdNmse : Nat := 0x5850010000
/-- 0x5850.02 DpdAclr -/
abbrev dpdAclr : Nat := 0x5850020000
/-- 0x5851.01 DpdLastUpdate -/
abbrev dpdLastUpdate : Nat := 0x5851010000
/-- 0x5851.02 DpdUpdateCount -/
abbrev dpdUpdateCount : Nat := 0x5851020000
/-- 0x5851.03 DpdSkipCount -/
abbrev dpdSkipCount : Nat := 0x5851030000
/-- 0x5852.01 DpdWarmSource -/
abbrev dpdWarmSource : Nat := 0x5852010000
/-- 0x5852.02 DpdStoreCount -/
abbrev dpdStoreCount : Nat := 0x5852020000
/-- 0x5C00.01 CollimDeltaT -/
abbrev collimDeltaT : Nat := 0x5C00010000
/-- 0x5C00.02 CollimFreqTolerance -/
abbrev collimFreqTolerance : Nat := 0x5C00020000
/-- 0x5C00.03 CollimMaxAge -/
abbrev collimMaxAge : Nat := 0x5C00030000
/-- 0x5C00.04 CollimTxProbeMode -/
abbrev collimTxProbeMode : Nat := 0x5C00040000
/-- 0x5C00.05 CollimProbeStep -/
abbrev collimProbeStep : Nat := 0x5C00050000
/-- 0x5C00.06 CollimArchipelago -/
abbrev collimArchipelago : Nat := 0x5C00060000
/-- 0x5C00.07 CollimReferenceIsland -/
abbrev collimReferenceIsland : Nat := 0x5C00070000
/-- 0x5C01.01 CollimRequest -/
abbrev collimRequest : Nat := 0x5C01010000
/-- 0x5C01.02 CollimDue -/
abbrev collimDue : Nat := 0x5C01020000
/-- 0x5C01.03 CollimState -/
abbrev collimState : Nat := 0x5C01030000
/-- 0x5C01.04 CollimRequiredWindow -/
abbrev collimRequiredWindow : Nat := 0x5C01040000
/-- 0x5C02.01 CollimResidPhase -/
abbrev collimResidPhase : Nat := 0x5C02010000
/-- 0x5C02.02 CollimResidDelay -/
abbrev collimResidDelay : Nat := 0x5C02020000
/-- 0x5C02.03 CollimResidGainSpread -/
abbrev collimResidGainSpread : Nat := 0x5C02030000
/-- 0x5C02.04 CollimFiguresStale -/
abbrev collimFiguresStale : Nat := 0x5C02040000
/-- 0x5C02.05 CollimLastRun -/
abbrev collimLastRun : Nat := 0x5C02050000
/-- 0x5C02.06 CollimRecordSeq -/
abbrev collimRecordSeq : Nat := 0x5C02060000
/-- 0x5C03.01 CollimCorrection -/
abbrev collimCorrection : Nat := 0x5C03010000
/-- 0x5C03.02 CollimBridge -/
abbrev collimBridge : Nat := 0x5C03020000
/-- 0x5C03.03 CollimWalkRemaining -/
abbrev collimWalkRemaining : Nat := 0x5C03030000
/-- 0x5C04.01 CollimRunCount -/
abbrev collimRunCount : Nat := 0x5C04010000
/-- 0x5C04.02 CollimAbandonCount -/
abbrev collimAbandonCount : Nat := 0x5C04020000
/-- 0x6000.01 BiasRange -/
abbrev biasRange : Nat := 0x6000010000
/-- 0x6000.02 BiasRangeStep -/
abbrev biasRangeStep : Nat := 0x6000020000
/-- 0x6001.01 BiasPark -/
abbrev biasPark : Nat := 0x6001010000
/-- 0x6002.01 BiasParkCommand -/
abbrev biasParkCommand : Nat := 0x6002010000
/-- 0x6010.01 BiasCodeShadow -/
abbrev biasCodeShadow : Nat := 0x6010010000
/-- 0x6011.01 BiasWrite -/
abbrev biasWrite : Nat := 0x6011010000
/-- 0x6012.01 BiasCodeActive -/
abbrev biasCodeActive : Nat := 0x6012010000
/-- 0x6012.02 BiasOutputCode -/
abbrev biasOutputCode : Nat := 0x6012020000
/-- 0x6013.01 BiasOutputState -/
abbrev biasOutputState : Nat := 0x6013010000
/-- 0x6013.02 BiasParkCause -/
abbrev biasParkCause : Nat := 0x6013020000
/-- 0x6014.01 BiasFaultCount -/
abbrev biasFaultCount : Nat := 0x6014010000
/-- 0x6400.01 HkScanList -/
abbrev hkScanList : Nat := 0x6400010000
/-- 0x6400.02 HkScanLength -/
abbrev hkScanLength : Nat := 0x6400020000
/-- 0x6400.03 HkScanMode -/
abbrev hkScanMode : Nat := 0x6400030000
/-- 0x6400.04 HkScanStart -/
abbrev hkScanStart : Nat := 0x6400040000
/-- 0x6401.01 HkResult -/
abbrev hkResult : Nat := 0x6401010000
/-- 0x6401.02 HkScanPassCount -/
abbrev hkScanPassCount : Nat := 0x6401020000
/-- 0x6402.01 HkInjectConfig -/
abbrev hkInjectConfig : Nat := 0x6402010000
/-- 0x6402.02 HkInjectArm -/
abbrev hkInjectArm : Nat := 0x6402020000
/-- 0x6402.03 HkInjectState -/
abbrev hkInjectState : Nat := 0x6402030000
/-- 0x6402.04 HkInjectResult -/
abbrev hkInjectResult : Nat := 0x6402040000
/-- 0x6402.05 HkInjectDropCount -/
abbrev hkInjectDropCount : Nat := 0x6402050000
/-- 0x6403.01–0x6403.04 HkInjectTime0–HkInjectTime3 -/
abbrev hkInjectTime0 : Nat := 0x6403010000
/-- 0x6404.01 HkCalPeriod -/
abbrev hkCalPeriod : Nat := 0x6404010000
/-- 0x6404.02 HkCalRequest -/
abbrev hkCalRequest : Nat := 0x6404020000
/-- 0x6404.03 HkCalState -/
abbrev hkCalState : Nat := 0x6404030000
/-- 0x6405.01 HkCheckMask -/
abbrev hkCheckMask : Nat := 0x6405010000
/-- 0x6405.02 HkCheckLevel -/
abbrev hkCheckLevel : Nat := 0x6405020000
/-- 0x6405.03 HkCheckTolerance -/
abbrev hkCheckTolerance : Nat := 0x6405030000
/-- 0x6405.04 HkCheckFailMask -/
abbrev hkCheckFailMask : Nat := 0x6405040000
/-- 0x6406.01 HkOpenWireCurrent -/
abbrev hkOpenWireCurrent : Nat := 0x6406010000
/-- 0x6406.02 HkOpenWireMask -/
abbrev hkOpenWireMask : Nat := 0x6406020000
/-- 0x6406.03 HkOpenWireResult -/
abbrev hkOpenWireResult : Nat := 0x6406030000
/-- 0x6406.04 HkTestMode -/
abbrev hkTestMode : Nat := 0x6406040000
/-- 0x6407.01 HkThermBeta -/
abbrev hkThermBeta : Nat := 0x6407010000
/-- 0x6407.02 HkThermNominal -/
abbrev hkThermNominal : Nat := 0x6407020000
/-- 0x6407.03 HkThermPullup -/
abbrev hkThermPullup : Nat := 0x6407030000
/-- 0x6408.01 HkSupplyVoltage -/
abbrev hkSupplyVoltage : Nat := 0x6408010000
/-- 0x6408.02 HkDieTemp -/
abbrev hkDieTemp : Nat := 0x6408020000
/-- 0x6800.01 ThermWarnLevel -/
abbrev thermWarnLevel : Nat := 0x6800010000
/-- 0x6800.02 ThermThrottleLevel -/
abbrev thermThrottleLevel : Nat := 0x6800020000
/-- 0x6800.03 ThermShutdownLevel -/
abbrev thermShutdownLevel : Nat := 0x6800030000
/-- 0x6800.04 ThermHysteresis -/
abbrev thermHysteresis : Nat := 0x6800040000
/-- 0x6801.01 ThermThrottleSlope -/
abbrev thermThrottleSlope : Nat := 0x6801010000
/-- 0x6802.01 ThermJunction -/
abbrev thermJunction : Nat := 0x6802010000
/-- 0x6802.02 ThermHottestSensor -/
abbrev thermHottestSensor : Nat := 0x6802020000
/-- 0x6802.03 ThermState -/
abbrev thermState : Nat := 0x6802030000
/-- 0x6802.04 ThermAonTemp -/
abbrev thermAonTemp : Nat := 0x6802040000
/-- 0x6803.01 ThermSensorFailedMask -/
abbrev thermSensorFailedMask : Nat := 0x6803010000
/-- 0x6803.02 ThermSubstituteMask -/
abbrev thermSubstituteMask : Nat := 0x6803020000
/-- 0x6804.01 ThermRestart -/
abbrev thermRestart : Nat := 0x6804010000
/-- 0x6804.02 ThermShutdownLog -/
abbrev thermShutdownLog : Nat := 0x6804020000
/-- 0x6804.03 ThermShutdownCount -/
abbrev thermShutdownCount : Nat := 0x6804030000
/-- 0x6805.01 NvmDeferredCount -/
abbrev nvmDeferredCount : Nat := 0x6805010000
/-- 0x6805.02 NvmDeferredDiscardCount -/
abbrev nvmDeferredDiscardCount : Nat := 0x6805020000
/-- 0x7000.01 MeridianNow -/
abbrev meridianNow : Nat := 0x7000010000
/-- 0x7001.01 TimeSourceSelect -/
abbrev timeSourceSelect : Nat := 0x7001010000
/-- 0x7001.02 TimeState -/
abbrev timeState : Nat := 0x7001020000
/-- 0x7001.03 TimeSetTime -/
abbrev timeSetTime : Nat := 0x7001030000
/-- 0x7001.04 TimePpsNextSeconds -/
abbrev timePpsNextSeconds : Nat := 0x7001040000
/-- 0x7002.01 TimeFreqCorrection -/
abbrev timeFreqCorrection : Nat := 0x7002010000
/-- 0x7002.02 TimeOffset -/
abbrev timeOffset : Nat := 0x7002020000
/-- 0x7002.03 TimeMeanPathDelay -/
abbrev timeMeanPathDelay : Nat := 0x7002030000
/-- 0x7003.01 TimeStepThreshold -/
abbrev timeStepThreshold : Nat := 0x7003010000
/-- 0x7003.02 TimeLockThreshold -/
abbrev timeLockThreshold : Nat := 0x7003020000
/-- 0x7003.03 TimeLockThresholdStrait -/
abbrev timeLockThresholdStrait : Nat := 0x7003030000
/-- 0x7003.04 TimeServoBandwidth -/
abbrev timeServoBandwidth : Nat := 0x7003040000
/-- 0x7003.05 TimeHoldoverDrift -/
abbrev timeHoldoverDrift : Nat := 0x7003050000
/-- 0x7003.06 TimeSourceBound -/
abbrev timeSourceBound : Nat := 0x7003060000
/-- 0x7004.01 PtpDomain -/
abbrev ptpDomain : Nat := 0x7004010000
/-- 0x7004.02 PtpAnnounceTimeout -/
abbrev ptpAnnounceTimeout : Nat := 0x7004020000
/-- 0x7004.03 PtpMasterIdentity -/
abbrev ptpMasterIdentity : Nat := 0x7004030000
/-- 0x7004.04 PtpUtcOffset -/
abbrev ptpUtcOffset : Nat := 0x7004040000
/-- 0x7004.05 PtpDiscardCount -/
abbrev ptpDiscardCount : Nat := 0x7004050000
/-- 0x7005.01 TimeBoardDelayMlTx -/
abbrev timeBoardDelayMlTx : Nat := 0x7005010000
/-- 0x7005.02 TimeBoardDelayMlRx -/
abbrev timeBoardDelayMlRx : Nat := 0x7005020000
/-- 0x7005.03 TimeBoardDelayStTx -/
abbrev timeBoardDelayStTx : Nat := 0x7005030000
/-- 0x7005.04 TimeBoardDelayStRx -/
abbrev timeBoardDelayStRx : Nat := 0x7005040000
/-- 0x7005.05 TimeAsymmetryMl -/
abbrev timeAsymmetryMl : Nat := 0x7005050000
/-- 0x7005.06 TimeAsymmetrySt -/
abbrev timeAsymmetrySt : Nat := 0x7005060000
/-- 0x7006.01 PpsInDelay -/
abbrev ppsInDelay : Nat := 0x7006010000
/-- 0x7006.02 PpsInWindow -/
abbrev ppsInWindow : Nat := 0x7006020000
/-- 0x7006.03 PpsOutEnable -/
abbrev ppsOutEnable : Nat := 0x7006030000
/-- 0x7006.04 PpsOutWidth -/
abbrev ppsOutWidth : Nat := 0x7006040000
/-- 0x7006.05 PpsOutDelay -/
abbrev ppsOutDelay : Nat := 0x7006050000
/-- 0x7006.06 PpsMissCount -/
abbrev ppsMissCount : Nat := 0x7006060000
/-- 0x7007.01 StraitTimeLog2Rate -/
abbrev straitTimeLog2Rate : Nat := 0x7007010000
/-- 0x7007.02 TimeParentIsland -/
abbrev timeParentIsland : Nat := 0x7007020000
/-- 0x7007.03 TimeParentPort -/
abbrev timeParentPort : Nat := 0x7007030000
/-- 0x7007.04 TimeSyncTolerance -/
abbrev timeSyncTolerance : Nat := 0x7007040000
/-- 0x7008.01 TimeStepCount -/
abbrev timeStepCount : Nat := 0x7008010000
/-- 0x7008.02 TimeHoldoverCount -/
abbrev timeHoldoverCount : Nat := 0x7008020000
/-- 0x7400.01 EphOccupancy -/
abbrev ephOccupancy : Nat := 0x7400010000
/-- 0x7400.02 EphNextIndex -/
abbrev ephNextIndex : Nat := 0x7400020000
/-- 0x7400.03 EphNextTime -/
abbrev ephNextTime : Nat := 0x7400030000
/-- 0x7401.01 EphWrite -/
abbrev ephWrite : Nat := 0x7401010000
/-- 0x7401.02 EphInsertIndex -/
abbrev ephInsertIndex : Nat := 0x7401020000
/-- 0x7402.01 EphTxDisabledMask -/
abbrev ephTxDisabledMask : Nat := 0x7402010000
/-- 0x7403.01 EphFiredCount -/
abbrev ephFiredCount : Nat := 0x7403010000
/-- 0x7403.02 EphLateRejectedCount -/
abbrev ephLateRejectedCount : Nat := 0x7403020000
/-- 0x7403.03 EphLateExecutedCount -/
abbrev ephLateExecutedCount : Nat := 0x7403030000
/-- 0x7403.04 EphShadowDeferredCount -/
abbrev ephShadowDeferredCount : Nat := 0x7403040000
/-- 0x7403.05 EphPendingReplacedCount -/
abbrev ephPendingReplacedCount : Nat := 0x7403050000
/-- 0x7403.06 EphWriteRefusedCount -/
abbrev ephWriteRefusedCount : Nat := 0x7403060000
/-- 0x7410.00–0x7413.FF EphEntry0–EphEntry1023 -/
abbrev ephEntry0 : Nat := 0x7410000000
/-- 0x7800.01 MlMaxRate -/
abbrev mlMaxRate : Nat := 0x7800010000
/-- 0x7800.02 MlWidth -/
abbrev mlWidth : Nat := 0x7800020000
/-- 0x7800.03 MlLaneEnable -/
abbrev mlLaneEnable : Nat := 0x7800030000
/-- 0x7800.04 MlLinkRate -/
abbrev mlLinkRate : Nat := 0x7800040000
/-- 0x7800.05 MlLinkWidth -/
abbrev mlLinkWidth : Nat := 0x7800050000
/-- 0x7800.06 MlPayload -/
abbrev mlPayload : Nat := 0x7800060000
/-- 0x7801.01 StMaxRate -/
abbrev stMaxRate : Nat := 0x7801010000
/-- 0x7801.02 StEnable -/
abbrev stEnable : Nat := 0x7801020000
/-- 0x7801.03 StLinkRate -/
abbrev stLinkRate : Nat := 0x7801030000
/-- 0x7801.04 StLinkWidth -/
abbrev stLinkWidth : Nat := 0x7801040000
/-- 0x7810.01 LaneState -/
abbrev laneState : Nat := 0x7810010000
/-- 0x7810.02 LaneFfe -/
abbrev laneFfe : Nat := 0x7810020000
/-- 0x7810.03 LaneEyeWidth -/
abbrev laneEyeWidth : Nat := 0x7810030000
/-- 0x7810.04 LaneEyeHeight -/
abbrev laneEyeHeight : Nat := 0x7810040000
/-- 0x7810.05 LaneMarginScan -/
abbrev laneMarginScan : Nat := 0x7810050000
/-- 0x7811.01 LaneTrainTimeoutCount -/
abbrev laneTrainTimeoutCount : Nat := 0x7811010000
/-- 0x7811.02 LaneDownCount -/
abbrev laneDownCount : Nat := 0x7811020000
/-- 0x7811.03 LaneHeaderErrorCount -/
abbrev laneHeaderErrorCount : Nat := 0x7811030000
/-- 0x7811.04 LaneStuffCount -/
abbrev laneStuffCount : Nat := 0x7811040000
/-- 0x7812.01 LaneErrorLimit -/
abbrev laneErrorLimit : Nat := 0x7812010000
/-- 0x7812.02 LaneStuffLimit -/
abbrev laneStuffLimit : Nat := 0x7812020000
/-- 0x7813.01 LaneShedCount -/
abbrev laneShedCount : Nat := 0x7813010000
/-- 0x7813.02 LaneShedSlotCount -/
abbrev laneShedSlotCount : Nat := 0x7813020000
/-- 0x7C00.01 MainlandTrust -/
abbrev mainlandTrust : Nat := 0x7C00010000
/-- 0x7C00.02 MlHeartbeatPeriod -/
abbrev mlHeartbeatPeriod : Nat := 0x7C00020000
/-- 0x7C00.03 MlPartnerState -/
abbrev mlPartnerState : Nat := 0x7C00030000
/-- 0x7C01.01 MlRxBuffer -/
abbrev mlRxBuffer : Nat := 0x7C01010000
/-- 0x7C01.02 MlTxCreditAvailable -/
abbrev mlTxCreditAvailable : Nat := 0x7C01020000
/-- 0x7C10.01 MlRxMessageCount -/
abbrev mlRxMessageCount : Nat := 0x7C10010000
/-- 0x7C10.02 MlTxMessageCount -/
abbrev mlTxMessageCount : Nat := 0x7C10020000
/-- 0x7C11.01 MlRxCrcErrorCount -/
abbrev mlRxCrcErrorCount : Nat := 0x7C11010000
/-- 0x7C11.02 MlRxResyncCount -/
abbrev mlRxResyncCount : Nat := 0x7C11020000
/-- 0x7C11.03 MlRxMalformedCount -/
abbrev mlRxMalformedCount : Nat := 0x7C11030000
/-- 0x7C11.04 MlRxCreditViolationCount -/
abbrev mlRxCreditViolationCount : Nat := 0x7C11040000
/-- 0x7C11.05 MlRxUntrustedCount -/
abbrev mlRxUntrustedCount : Nat := 0x7C11050000
/-- 0x7C11.06 MlRxSeqGapCount -/
abbrev mlRxSeqGapCount : Nat := 0x7C11060000
/-- 0x7C11.07 MlCreditRecoveredCount -/
abbrev mlCreditRecoveredCount : Nat := 0x7C11070000
/-- 0x8000.01 ArchIslandNumber -/
abbrev archIslandNumber : Nat := 0x8000010000
/-- 0x8000.02 ArchRoot -/
abbrev archRoot : Nat := 0x8000020000
/-- 0x8000.03 ArchIslandCount -/
abbrev archIslandCount : Nat := 0x8000030000
/-- 0x8001.01 ArchPinTable -/
abbrev archPinTable : Nat := 0x8001010000
/-- 0x8001.02 StHeartbeatPeriod -/
abbrev stHeartbeatPeriod : Nat := 0x8001020000
/-- 0x8002.01 ArchRouteTable -/
abbrev archRouteTable : Nat := 0x8002010000
/-- 0x8002.02 ArchNeighbours -/
abbrev archNeighbours : Nat := 0x8002020000
/-- 0x8002.03 ArchTopologyEpoch -/
abbrev archTopologyEpoch : Nat := 0x8002030000
/-- 0x8010.01 ArchReduceGroup -/
abbrev archReduceGroup : Nat := 0x8010010000
/-- 0x8010.02 ArchCollector -/
abbrev archCollector : Nat := 0x8010020000
/-- 0x8010.03 RedScaleShift -/
abbrev redScaleShift : Nat := 0x8010030000
/-- 0x8010.04 RedWindow -/
abbrev redWindow : Nat := 0x8010040000
/-- 0x8011.01 RedState -/
abbrev redState : Nat := 0x8011010000
/-- 0x8011.02 RedParentPort -/
abbrev redParentPort : Nat := 0x8011020000
/-- 0x8011.03 RedChildPorts -/
abbrev redChildPorts : Nat := 0x8011030000
/-- 0x8011.04 RedGroupSize -/
abbrev redGroupSize : Nat := 0x8011040000
/-- 0x8011.05 RedHeight -/
abbrev redHeight : Nat := 0x8011050000
/-- 0x8011.06 RedScaleInForce -/
abbrev redScaleInForce : Nat := 0x8011060000
/-- 0x8011.07 RedLatticePeriod -/
abbrev redLatticePeriod : Nat := 0x8011070000
/-- 0x8012.01 ArchSyncUpstream -/
abbrev archSyncUpstream : Nat := 0x8012010000
/-- 0x8012.02 ArchSyncDelay -/
abbrev archSyncDelay : Nat := 0x8012020000
/-- 0x8020.01 ArchQueueWarn -/
abbrev archQueueWarn : Nat := 0x8020010000
/-- 0x8040.01 RedIncompleteSlotCount -/
abbrev redIncompleteSlotCount : Nat := 0x8040010000
/-- 0x8040.02 RedLateWordCount -/
abbrev redLateWordCount : Nat := 0x8040020000
/-- 0x8040.03 RedMissingLast -/
abbrev redMissingLast : Nat := 0x8040030000
/-- 0x8041.01 GatherQueueMax -/
abbrev gatherQueueMax : Nat := 0x8041010000
/-- 0x8041.02 ArchRoutedDiscardCount -/
abbrev archRoutedDiscardCount : Nat := 0x8041020000
/-- 0x8800.01 DmaEnable -/
abbrev dmaEnable : Nat := 0x8800010000
/-- 0x8800.02 DmaStartAddr -/
abbrev dmaStartAddr : Nat := 0x8800020000
/-- 0x8800.03 DmaContinue -/
abbrev dmaContinue : Nat := 0x8800030000
/-- 0x8800.04 DmaAbort -/
abbrev dmaAbort : Nat := 0x8800040000
/-- 0x8801.01 DmaState -/
abbrev dmaState : Nat := 0x8801010000
/-- 0x8801.02 DmaCurrentDesc -/
abbrev dmaCurrentDesc : Nat := 0x8801020000
/-- 0x8801.03 DmaRemaining -/
abbrev dmaRemaining : Nat := 0x8801030000
/-- 0x8801.04 DmaFaultAddr -/
abbrev dmaFaultAddr : Nat := 0x8801040000
/-- 0x8801.05 DmaDescCount -/
abbrev dmaDescCount : Nat := 0x8801050000
/-- 0x8801.06 DmaPulseCount -/
abbrev dmaPulseCount : Nat := 0x8801060000
/-- 0x8802.01–0x8802.08 DmaPulseTime0–DmaPulseTime7 -/
abbrev dmaPulseTime0 : Nat := 0x8802010000
/-- 0x8803.01 DmaContinueNoopCount -/
abbrev dmaContinueNoopCount : Nat := 0x8803010000
/-- 0x8810.00–0x8813.FF DmaDesc0–DmaDesc1023 -/
abbrev dmaDesc0 : Nat := 0x8810000000
/-- 0x8C00.01 TransitEnable -/
abbrev transitEnable : Nat := 0x8C00010000
/-- 0x8C00.02 TransitState -/
abbrev transitState : Nat := 0x8C00020000
/-- 0x8C00.03 TransitArm -/
abbrev transitArm : Nat := 0x8C00030000
/-- 0x8C00.04 TransitForce -/
abbrev transitForce : Nat := 0x8C00040000
/-- 0x8C00.05 TransitAutoRearm -/
abbrev transitAutoRearm : Nat := 0x8C00050000
/-- 0x8C01.01 TransitSource -/
abbrev transitSource : Nat := 0x8C01010000
/-- 0x8C01.02 TransitGroup -/
abbrev transitGroup : Nat := 0x8C01020000
/-- 0x8C01.03 TransitPathMask -/
abbrev transitPathMask : Nat := 0x8C01030000
/-- 0x8C01.04 TransitFirstBin -/
abbrev transitFirstBin : Nat := 0x8C01040000
/-- 0x8C01.05 TransitBinCount -/
abbrev transitBinCount : Nat := 0x8C01050000
/-- 0x8C01.06 TransitPreDepth -/
abbrev transitPreDepth : Nat := 0x8C01060000
/-- 0x8C01.07 TransitPostDepth -/
abbrev transitPostDepth : Nat := 0x8C01070000
/-- 0x8C01.08 TransitRate -/
abbrev transitRate : Nat := 0x8C01080000
/-- 0x8C01.09 TransitRingInstants -/
abbrev transitRingInstants : Nat := 0x8C01090000
/-- 0x8C02.01 TransitStateCond -/
abbrev transitStateCond : Nat := 0x8C02010000
/-- 0x8C02.02 TransitStateCount -/
abbrev transitStateCount : Nat := 0x8C02020000
/-- 0x8C02.03 TransitStateTimer -/
abbrev transitStateTimer : Nat := 0x8C02030000
/-- 0x8C02.04 TransitSeqState -/
abbrev transitSeqState : Nat := 0x8C02040000
/-- 0x8C03.01 TransitTrigInDelay -/
abbrev transitTrigInDelay : Nat := 0x8C03010000
/-- 0x8C03.02 TransitTrigOutWidth -/
abbrev transitTrigOutWidth : Nat := 0x8C03020000
/-- 0x8C04.01 TransitRecordHeader -/
abbrev transitRecordHeader : Nat := 0x8C04010000
/-- 0x8C04.03 TransitSendRecord -/
abbrev transitSendRecord : Nat := 0x8C04030000
/-- 0x8C04.04 TransitSendState -/
abbrev transitSendState : Nat := 0x8C04040000
/-- 0x8C05.01 TransitRecordCount -/
abbrev transitRecordCount : Nat := 0x8C05010000
/-- 0x8C05.02 TransitIgnoredCount -/
abbrev transitIgnoredCount : Nat := 0x8C05020000
/-- 0x8C05.03 TransitTruncatedCount -/
abbrev transitTruncatedCount : Nat := 0x8C05030000
/-- 0x9000.01 FuseRoleKeyHash -/
abbrev fuseRoleKeyHash : Nat := 0x9000010000
/-- 0x9000.02 FuseRevokedMask -/
abbrev fuseRevokedMask : Nat := 0x9000020000
/-- 0x9000.03 FuseMakerSignHash -/
abbrev fuseMakerSignHash : Nat := 0x9000030000
/-- 0x9000.04 FuseAntiRollback -/
abbrev fuseAntiRollback : Nat := 0x9000040000
/-- 0x9000.05 FuseDebugLock -/
abbrev fuseDebugLock : Nat := 0x9000050000
/-- 0x9001.01 FuseKeyProgram -/
abbrev fuseKeyProgram : Nat := 0x9001010000
/-- 0x9001.02 FuseKeyRevoke -/
abbrev fuseKeyRevoke : Nat := 0x9001020000
/-- 0x9001.03 LifecycleAdvance -/
abbrev lifecycleAdvance : Nat := 0x9001030000
/-- 0x9001.04 FuseProgramCount -/
abbrev fuseProgramCount : Nat := 0x9001040000
/-- 0x9002.01 DebugUnlockToken -/
abbrev debugUnlockToken : Nat := 0x9002010000
/-- 0x9002.02 DebugState -/
abbrev debugState : Nat := 0x9002020000
/-- 0x9010.01 SessionLockout -/
abbrev sessionLockout : Nat := 0x9010010000
/-- 0x9010.02 SessionFailCount -/
abbrev sessionFailCount : Nat := 0x9010020000
/-- 0x9020.01 AuditSeq -/
abbrev auditSeq : Nat := 0x9020010000
/-- 0x9020.02 AuditReadFrom -/
abbrev auditReadFrom : Nat := 0x9020020000
/-- 0x9020.03 AuditWindow -/
abbrev auditWindow : Nat := 0x9020030000
/-- 0x9020.04 AuditWrapCount -/
abbrev auditWrapCount : Nat := 0x9020040000
/-- 0x9400.01 UpdCommand -/
abbrev updCommand : Nat := 0x9400010000
/-- 0x9400.02 UpdStage -/
abbrev updStage : Nat := 0x9400020000
/-- 0x9400.03 UpdPackageHeader -/
abbrev updPackageHeader : Nat := 0x9400030000
/-- 0x9400.04 UpdPackageId -/
abbrev updPackageId : Nat := 0x9400040000
/-- 0x9401.01 UpdChunk -/
abbrev updChunk : Nat := 0x9401010000
/-- 0x9401.02 UpdChunkBitmap -/
abbrev updChunkBitmap : Nat := 0x9401020000
/-- 0x9401.03 UpdNextMissing -/
abbrev updNextMissing : Nat := 0x9401030000
/-- 0x9402.01 UpdVerifyResult -/
abbrev updVerifyResult : Nat := 0x9402010000
/-- 0x9402.02 UpdOrder -/
abbrev updOrder : Nat := 0x9402020000
/-- 0x9403.01 UpdHealthWindow -/
abbrev updHealthWindow : Nat := 0x9403010000
/-- 0x9403.02 UpdAutoConfirm -/
abbrev updAutoConfirm : Nat := 0x9403020000
/-- 0x9403.03 UpdTrialElapsed -/
abbrev updTrialElapsed : Nat := 0x9403030000
/-- 0x9403.04 UpdTrialBoots -/
abbrev updTrialBoots : Nat := 0x9403040000
/-- 0x9404.01 UpdSlotHeaders -/
abbrev updSlotHeaders : Nat := 0x9404010000
/-- 0x9404.02 UpdSchemaInForce -/
abbrev updSchemaInForce : Nat := 0x9404020000
/-- 0x9800.01 EventSeq -/
abbrev eventSeq : Nat := 0x9800010000
/-- 0x9800.02 EventMaskMainland -/
abbrev eventMaskMainland : Nat := 0x9800020000
/-- 0x9800.03 EventMaskField -/
abbrev eventMaskField : Nat := 0x9800030000
/-- 0x9800.04 EventMaskAlert -/
abbrev eventMaskAlert : Nat := 0x9800040000
/-- 0x9800.05 EventLatchMask -/
abbrev eventLatchMask : Nat := 0x9800050000
/-- 0x9800.06 EventLogMask -/
abbrev eventLogMask : Nat := 0x9800060000
/-- 0x9801.01 EventPending -/
abbrev eventPending : Nat := 0x9801010000
/-- 0x9801.02 EventPendingClear -/
abbrev eventPendingClear : Nat := 0x9801020000
/-- 0x9801.03 EventCount -/
abbrev eventCount : Nat := 0x9801030000
/-- 0x9801.04 EventDropCount -/
abbrev eventDropCount : Nat := 0x9801040000
/-- 0x9802.01 EventLogReadFrom -/
abbrev eventLogReadFrom : Nat := 0x9802010000
/-- 0x9802.02 EventLogWindow -/
abbrev eventLogWindow : Nat := 0x9802020000
/-- 0x9802.03 EventLogWrapCount -/
abbrev eventLogWrapCount : Nat := 0x9802030000
/-- 0x9810.01 BgStarvedMask -/
abbrev bgStarvedMask : Nat := 0x9810010000
/-- 0x9810.02 BgStarvedCount -/
abbrev bgStarvedCount : Nat := 0x9810020000
/-- 0x9840.01 RiptideEnable -/
abbrev riptideEnable : Nat := 0x9840010000
/-- 0x9840.02 RiptideDuration -/
abbrev riptideDuration : Nat := 0x9840020000
/-- 0x9840.03 RiptideRules -/
abbrev riptideRules : Nat := 0x9840030000
/-- 0x9840.04 RiptideLaneDown -/
abbrev riptideLaneDown : Nat := 0x9840040000
/-- 0x9840.05 RiptideSeed -/
abbrev riptideSeed : Nat := 0x9840050000
/-- 0x9840.06 RiptideLeft -/
abbrev riptideLeft : Nat := 0x9840060000
/-- 0x9840.07 RiptideActionCount -/
abbrev riptideActionCount : Nat := 0x9840070000

end P

end Sys2Proof.Machine
end

