-- ==== Sys2Proof/Machine/NMap.lean ====
section
/-!
DEFINITION. Sparse data by key: a list of (key, value) pairs with strictly rising keys. `get` and `set` obey
read-after-write whatever the list, so no later proof needs the order.
-/

namespace Sys2Proof.Machine

/-- A sparse map from keys to values. -/
abbrev NMap := List (Nat × Nat)

/-- The value a key is listed with. -/
def NMap.get? : NMap → Nat → Option Nat
  | [], _ => none
  | (a, v) :: m, k => if a = k then some v else NMap.get? m k

/-- The value of a key, or a default. -/
def NMap.getD (m : NMap) (k d : Nat) : Nat := (m.get? k).getD d

/-- The map without a key. -/
def NMap.del : NMap → Nat → NMap
  | [], _ => []
  | (a, v) :: m, k => if a = k then NMap.del m k else (a, v) :: NMap.del m k

/-- Insert a pair at its place. -/
def NMap.ins : NMap → Nat → Nat → NMap
  | [], k, v => [(k, v)]
  | (a, w) :: m, k, v => if k < a then (k, v) :: (a, w) :: m else (a, w) :: NMap.ins m k v

/-- The map with a key set to a value. -/
def NMap.set (m : NMap) (k v : Nat) : NMap := (m.del k).ins k v

/-- The map with the keys a test selects removed. -/
def NMap.drop (m : NMap) (p : Nat → Bool) : NMap := m.filter (fun e => !p e.1)

end Sys2Proof.Machine
end

