-- ==== Sys2Proof/Machine/State.lean ====
section
/-!
DEFINITION. The state of the XS-6400 as plain data, group by group in the order of the spec's chapters, the reasons a
step can stop and the state after reset. Every Almanac parameter lives in `Dev.alm`; the structures hold what the spec
gives the device beside them.
-/

namespace Sys2Proof.Machine

/-! ### Core -/

/-- The clocks: `ps` is elapsed time (the timers of R691 run on it), `mer` Meridian in units of 2^-112 s, fine enough
that R408's product is exact, `onLpo` the always-on domain's clock (R41, R44), `free` the model's own counter that
free values read; `act` is the elapsed ps of the converter sample an action on the 2.5 ns grid acts on, while it acts (R436, R689).
[Log: 3 DESIGN CHOICE; 5 DESIGN CHOICE; 71 DEDUCED] -/
structure Clk where
  ps : Nat := 0
  act : Option Nat := none
  mer : Nat := 0
  onLpo : Bool := false
  free : Nat := 0
  deriving DecidableEq, Repr

/-- One raised event (R639, R644): number, argument, the instant, the flags of log byte 20 and the places whose mask
bit stood at the raise (R641). `seq` is 0 until the edge closes and numbers are given (R640). -/
structure Ev where
  seq : Nat := 0
  n : Nat
  arg : Nat
  secs : Nat := 0
  frac : Nat := 0
  valid : Bool := false
  lpo : Bool := false
  deep : Bool := false
  ml : Bool := false
  fieldP : Bool := false
  log : Bool := false
  deriving DecidableEq, Repr

/-- Pins the device drives. -/
inductive Pin where
  | synco
  | refo
  | rfctl (k : Nat)
  | coexReq
  | coexPri
  | ppsOut
  | trigOut
  | dma (c : Nat)
  deriving DecidableEq, Repr

/-- A message (R475, R477, R502): channel, type, ISLAND, SOURCE, HOPS, RESPONSE and body. -/
structure Msg where
  vc : Nat
  type : Nat
  island : Nat := 0
  src : Nat := 0
  hops : Nat := 0
  resp : Bool := false
  body : List Byte
  deriving DecidableEq, Repr

/-- What leaves the device in one command (R2). `msg` carries the port, SEQ, whether the CRC-32C it is sent with holds, and the
message; `fieldFrame` the function, island and bits [17:0] of the identifier, and the data (R574). -/
inductive Out where
  | msg (port seq : Nat) (crcOk : Bool) (m : Msg)
  | credit (port vc limit : Nat)
  | fieldFrame (fn island low : Nat) (data : List Byte)
  | pin (p : Pin) (level : Bool)
  deriving DecidableEq, Repr

/-- What the run of the device is doing (R31, R33, R35, R37, R402, R637). -/
inductive Phase where
  | inReset
  | waitRefclk
  | booting
  | running
  | shutdown
  | restricted
  | noImage
  deriving DecidableEq, Repr

/-- A transition in progress (R63): kind 0 up to the base state `arg` (1 WATCH, 2 READY), 1 unit `arg` into ACTIVE, 2 units
that left ACTIVE, 3 down to the base state `arg` (0 DEEP, 1 WATCH); the instant it began. [Log: 29 DEDUCED] -/
structure Job where
  kind : Nat
  arg : Nat
  began : Nat
  deriving DecidableEq, Repr

/-- Supplies, clocks, reset and sleep (02_supplies_clocks_sleep.md). [Log: 6 DESIGN CHOICE] -/
structure Pwr where
  phase : Phase := .inReset
  pwrOk : Bool := false
  resetN : Bool := true
  /-- Kind of the last reset, its EV0 flags and the events due at boot completion. -/
  kind : Nat := 0
  brownout : Bool := false
  relockFail : Bool := false
  bootEvs : List (Nat × Nat) := []
  releasedAt : Nat := 0
  sampled : Bool := false
  memDone : Bool := false
  biasDone : Bool := false
  /-- The state under the ACTIVE units: 0 DEEP, 1 WATCH, 2 READY. -/
  base : Nat := 0
  /-- Transitions in progress, oldest first. -/
  jobs : List Job := []
  /-- Units that follow once READY is reached (R55). -/
  after : Nat := 0
  /-- A higher state asked for during a transition up (R61). -/
  goal : Nat := 0
  /-- Causes latched during a transition down (R61): bit of R59 (255 none) and target, 3 carrier group A. -/
  latched : List (Nat × Nat) := []
  /-- WAKE instants not yet reached (R65): target, Meridian ns, begun late. -/
  wakes : List (Nat × Nat × Bool) := []
  sleepTo : Option Nat := none
  deferredEph : List Nat := []
  railBad : Nat := 0
  coreBad : Bool := false
  convBad : Bool := false
  pllFails : Nat := 0
  /-- Elapsed ps of the declaration that the converter PLL lost lock (R47). -/
  convSince : Nat := 0
  /-- REFO forwards REFCLK (R42). -/
  refo : Bool := false
  lpoSince : Nat := 0
  syncLast : Option Nat := none
  syncMissed : Nat := 0
  syncPend : Option Nat := none
  syncoPend : List Nat := []
  /-- Elapsed ps of the REFCLK edge that begins the period of the last Ephemeris SYNC_RESET (R50). -/
  ephSync : Option Nat := none
  resetEdge : Option Nat := none
  idleSince : Option Nat := none
  /-- The highest state a wake cause or a request named since a wake or window began (R240, R340). -/
  named : Nat := 0
  deriving DecidableEq, Repr

/-! ### Receive, filters, Catalogue, uplink -/

/-- Rotation of one quad (R81 to R89). `stage`: 0 suspended, 1 calibrating, 2 pre-aligning, 3 pre-alignment abandoned,
4 retired, 5 no longer retired and waiting for its next step (R88). `target` is the next role to be taken over, `done` the roles taken over in this cycle, `cycled` whether a
cycle ended since the last EV19. -/
structure Quad where
  stage : Nat := 0
  target : Nat := 0
  fails : Nat := 0
  done : Nat := 0
  cycled : Bool := false
  deriving DecidableEq, Repr

/-- The grid of the samples of a group's run that a synchronising reset or its leaving ACTIVE ended (R124, R176): its zero-history
point, the reference instant from which samples lie on the next grid, and (an instant of the grid, period, group delay) of its band
outputs and of its bin samples, in elapsed ps. -/
structure Grid where
  group : Nat
  zero : Nat
  till : Nat
  raw : Nat × Nat × Nat
  bins : Nat × Nat × Nat
  deriving DecidableEq, Repr

/-- Receive paths and filter chains (03_receive_paths.md, 04_filters_channelizer.md). -/
structure Rx where
  wide : Bool := false
  quads : List Quad := List.replicate 16 {}
  /-- Paths that contribute now, groups A and B (R98, R99). -/
  effA : Nat := 2 ^ 64 - 1
  effB : Nat := 2 ^ 64 - 1
  /-- Paths cleared in the present slot, groups A and B, whose disable acts at its end (R98). -/
  offA : Nat := 0
  offB : Nat := 0
  /-- (64 * group + path, end of its settle count) of paths started under R99. -/
  starts : List (Nat × Nat) := []
  /-- Zero-history instant and the cause EV18 will carry, per group (R124, R130). -/
  zero : List (Option (Nat × Nat)) := [none, none]
  /-- The last zero-history instant per group (R124). -/
  zeroAt : List Nat := [0, 0]
  /-- Per group: the bank a running cross-fade leaves and the instant it began (R116). -/
  fade : List (Option (Nat × Nat)) := [none, none]
  /-- (64 * group + path, begin, end) of the runs of SETTLE converter samples that have ended or end by themselves, in elapsed ps
  (R47, R77, R127). -/
  settle : List (Nat × Nat × Nat) := []
  /-- (4 * group + quadrant, elapsed ps) of the NCO words committed to running chains (R125). -/
  nco : List (Nat × Nat) := []
  /-- Band rate code, n, o and sc the chains of group A run with since their start (R104), and none while none runs. -/
  latch : Option (List Nat) := none
  /-- The grids that ended, newest first. -/
  grids : List Grid := []
  /-- Elapsed ps at which each group last became ACTIVE (R56). -/
  upAt : List Nat := [0, 0]
  /-- (elapsed ps, mask A, mask B), newest first: the paths that contribute from a reference instant on (R98, R99, R291). -/
  maskLog : List (Nat × Nat × Nat) := [(0, 2 ^ 64 - 1, 2 ^ 64 - 1)]
  /-- NCO phase (units of 2^-40 turn) and the instant it held, receive key 4 g + q, transmit key 8 + 4 g + q. -/
  phase : NMap := []
  phaseAt : NMap := []
  /-- The trims of the 144 cores, core c of quad u at 9 u + c: what the last passed calibration left, or the record loaded (R86, R88,
  R90). -/
  trims : List Nat := List.replicate 144 0
  /-- The newest good trim record in MRAM (R90): its sequence number, 0 none, and the trims; elapsed ps of the last store. -/
  trimSeq : Nat := 0
  trimRec : List Nat := List.replicate 144 0
  trimAt : Nat := 0
  /-- The cores that run on stored trims until their first takeover (R91). -/
  onStored : List Bool := List.replicate 144 false
  deriving DecidableEq, Repr

/-- A VC1 message that waits or is in progress (R167); `far` where a Strait message names the island at the far end of its
port. -/
structure Vc1 where
  port : Nat
  far : Bool := false
  type : Nat
  body : List Byte
  deriving DecidableEq, Repr

/-- Package memory and the Catalogue (05_package_memory_catalogue.md). -/
structure Cat where
  vc1 : List Vc1 := []
  ctlGen : Nat := 0
  ctlOk : Bool := true
  genMram : Nat := 0
  scrubFound : Nat := 0
  scrubStart : Nat := 0
  deriving DecidableEq, Repr

/-- One mode item of a SLOT_PLAN (R191): kind 1 GRID, 2 HOLD, 3 RAW. -/
structure ModeItem where
  kind : Nat
  first : Nat
  count : Nat
  quad : Nat
  mask : Nat
  deriving DecidableEq, Repr

/-- One placement record, of a SLOT_PLAN (R192) or a DL_PLAN (R257). -/
structure Place where
  cat : Nat
  first : Nat
  count : Nat
  layer : Nat
  refresh : Bool
  gain : Nat := 0
  tag : Nat := 0
  deriving DecidableEq, Repr

/-- The segments received of one plan (R193, R693). [Log: 52 DEDUCED] -/
structure PlanPart where
  slot : Nat
  group : Nat
  /-- A group plan forwarded by the collector (R513). -/
  fwd : Bool := false
  /-- Declared late: what still arrives of it is dropped (R194). -/
  late : Bool := false
  segs : List (Nat × Bool × Bool × Nat) := []
  bad : Bool := false
  items : List (Nat × List ModeItem) := []
  places : List (Nat × List Place) := []
  deriving DecidableEq, Repr

/-- A complete plan. -/
structure Plan where
  slot : Nat
  group : Nat
  fwd : Bool := false
  compact : Bool
  items : List ModeItem
  places : List Place
  bytes : List Byte := []
  deriving DecidableEq, Repr

/-- A Catalogue entry fetched for a slot and group (R149): its image, and whether the fetch was a miss. -/
structure Fetch where
  slot : Nat
  group : Nat
  cat : Nat
  image : List Byte
  miss : Bool
  /-- Elapsed ps of the read. -/
  at_ : Nat := 0
  deriving DecidableEq, Repr

/-- A computed refresh write-back that waits to commit (R216). -/
structure Refresh where
  slot : Nat
  group : Nat
  cat : Nat
  gen : Nat
  taps : List Nat
  resid : Nat
  deriving DecidableEq, Repr

/-- Ring positions of one HOLD item of a past slot (R206). -/
structure HoldRec where
  slot : Nat
  group : Nat
  first : Nat
  count : Nat
  instants : Nat
  index : Nat
  deriving DecidableEq, Repr

/-- The output of one kind of a slot and group: streams kept and shed (R470, R488), words per instant block, bits per
sample in eighths, and the words sent so far. -/
structure OutKind where
  slot : Nat
  group : Nat
  kind : Nat
  kept : Nat
  shed : Nat
  block : Nat
  compact : Bool
  sent : Nat := 0
  deriving DecidableEq, Repr

/-- Uplink combining (06_uplink_combining.md). -/
structure Ul where
  part : List PlanPart := []
  plans : List Plan := []
  slot : Option Nat := none
  cur : List Plan := []
  /-- Plans of past slots whose output may still leave. -/
  past : List Plan := []
  fetched : List Fetch := []
  holdHist : List HoldRec := []
  refresh : List Refresh := []
  /-- Output of the last slots; what of a slot has formed and not left waits for credit (R208). -/
  outs : List OutKind := []
  /-- Elapsed ps at which the slot in progress began. -/
  began : Nat := 0
  /-- Slots and groups whose PARTIAL words the fetch was late for (R149). -/
  missed : List (Nat × Nat × Nat) := []
  /-- Disables that act at the end of the slot in progress (R217, R485, R281). -/
  grpOff : Nat := 0
  modeOffA : Nat := 0
  modeOffB : Nat := 0
  trustOff : Bool := false
  dlOff : Nat := 0
  /-- The slot in which output of stored history is shed (R470). -/
  noHist : Option Nat := none
  deriving DecidableEq, Repr

/-! ### Sentinel, downlink, synthesisers, predistortion, Collimation, bias -/

/-- Sentinel watch (07_sentinel_watch.md). Instants are elapsed ps; slots are slot numbers. -/
structure Sen where
  holdTill : Nat := 0
  /-- First and last slot of the open wake window (R236, R238). -/
  win : Option (Nat × Nat) := none
  /-- Instant of the declaration whose wake is in progress (R234), and whether it offers no replay (R241, R245). -/
  wakeAt : Option Nat := none
  noReplay : Bool := false
  /-- The wake emits GRID and replay (R237). -/
  emit : Bool := false
  /-- Elapsed ps of the clean instant t_c (R236), and the instant group A became ACTIVE while t_c may still move. -/
  cleanAt : Nat := 0
  seek : Option Nat := none
  /-- Replay samples not yet sent (R243), all of this replay, and the elapsed ps at which its span begins. -/
  replay : Nat := 0
  replayAll : Nat := 0
  replayAt : Nat := 0
  /-- Since when the sentinel chains run (R223, R231). -/
  startAt : Option Nat := none
  /-- How often sentinel chains ran and stopped since package memory was initialised: the ring may hold records of theirs (R233). -/
  runs : Nat := 0
  /-- The ring bursts scrub zeroed (R152): address, and the records of the present run written before. -/
  zeroed : List (Nat × Nat) := []
  /-- Elapsed ps of the last output of the block with which enough paths became ABOVE (R227, R228). -/
  rose : Option Nat := none
  deriving DecidableEq, Repr

/-- DL_DATA words received for one instant block (R266, R267). -/
structure DlBlk where
  slot : Nat
  group : Nat
  inst : Nat
  off : Nat
  words : List Nat
  port : Nat := 0
  units : Nat := 0
  deriving DecidableEq, Repr

/-- The burst of one TX quadrant (R276 to R280, R292 to R296). `st`: 0 none, 1 requested, 2 emitting, 3 dropped,
4 in RAMP before its planned end, 5 in RAMP after a stop. `held` marks edges held after r (R294), `edges` the outputs asserted for it, `pri` COEX_PRI of its first
slot, `on` the elapsed ps since which a path has been ON. -/
structure Burst where
  st : Nat := 0
  slot : Nat := 0
  held : Bool := false
  req : Bool := false
  pri : Bool := false
  on : Nat := 0
  /-- Elapsed ps at which the last TX interval ended. -/
  ended : Option Nat := none
  /-- The slot last reported as emitting nothing (R278). -/
  silent : Option Nat := none
  deriving DecidableEq, Repr

/-- Downlink (08_downlink_transmit.md). -/
structure Dl where
  part : List PlanPart := []
  plans : List Plan := []
  cur : List Plan := []
  got : List DlBlk := []
  /-- (slot, group, words missing so far, next instant to be consumed) (R268). -/
  used : List (Nat × Nat × Nat × Nat) := []
  pathEff : Nat := 2 ^ 64 - 1
  burst : List Burst := [{}, {}, {}, {}]
  /-- (slot, group, k^2 numerator, denominator) of the factors computed under R274. -/
  scale : List (Nat × Nat × Nat × Nat) := []
  deriving DecidableEq, Repr

/-- Synthesisers (R286 to R290): failed attempts, the commit instant in ps and whether the present calibration follows
a channel change, per synthesiser; quadrant paths zeroed under R291. -/
structure Syn where
  fails : List Nat := List.replicate 12 0
  commit : List Nat := List.replicate 12 0
  /-- Begin of the present attempt. -/
  tried : List Nat := List.replicate 12 0
  change : List Bool := List.replicate 12 false
  /-- Elapsed ps since which the synthesiser is not locked (R127, R290). -/
  since : List Nat := List.replicate 12 0
  zeroed : Nat := 0
  deriving DecidableEq, Repr

/-- Coexistence pins (R306 to R308): levels of the three wires, the instant COEX_GNT last changed, and the first sample time of a
Collimation probe step whose grant is still to be judged (R345). [Log: 7 DESIGN CHOICE] -/
structure Coex where
  req : Bool := false
  pri : Bool := false
  gnt : Bool := false
  gntAt : Nat := 0
  probe : Option Nat := none
  deriving DecidableEq, Repr

/-- Predistortion of one quadrant (R315, R316, R322): the path (0 to 15) last visited in order, the paths (0 to 63) that
take the next visits out of turn, the path under capture with its start, and a Chart load that waits for the boundary
(R326). -/
structure DpdQ where
  /-- ON time in ps since the last visit, of the intervals that have ended (R315). -/
  onTime : Nat := 0
  last : Nat := 15
  turn : List Nat := []
  cap : Option (Nat × Nat) := none
  reload : Bool := false
  deriving DecidableEq, Repr

/-- Predistortion of one path (R320, R326, R327): a computation runs, a model with its two figures waits for the boundary,
the model changed since its last store, that store's instant plus 1 (0 none), the Chart and bin recorded with the model, and
whether SRAM has kept it. -/
structure DpdP where
  busy : Bool := false
  pend : Option (List Nat × Nat × Nat) := none
  updated : Bool := false
  stored : Nat := 0
  chart : Nat := 15
  bin : Nat := 15
  kept : Bool := false
  deriving DecidableEq, Repr

/-- A warm-start record (R324): path, Chart, bin, SEQ, seconds, NMSE and the 112 points. -/
structure Warm where
  path : Nat
  chart : Nat
  bin : Nat
  seq : Nat
  secs : Nat
  nmse : Nat
  points : List Nat
  deriving DecidableEq, Repr

/-- Predistortion (10_predistortion.md). -/
structure Dpd where
  quads : List DpdQ := [{}, {}, {}, {}]
  paths : List DpdP := List.replicate 64 {}
  /-- The records of MRAM, two of a pair at most, newest first. -/
  warm : List Warm := []
  /-- Model entries written by the user that wait for the slot boundary (R314): key and value. -/
  writes : NMap := []
  modes : List Nat := [2, 2, 2, 2]
  deriving DecidableEq, Repr

/-- A Collimation record (R351). -/
structure ColRec where
  seq : Nat
  time : Nat
  groups : Nat
  flags : Nat
  temp : List Nat
  rxCentre : List Nat
  txCentre : List Nat
  figures : List Nat
  bridge : List Nat
  corr : List Nat
  deriving DecidableEq, Repr

/-- Collimation (11_collimation.md). `win`: Meridian ns of the window's begin and end. `run`: the elapsed ps at which the run
in progress began. `before`: the state held before the window (R340). `delays`: the applied delays (R334). `rcd`: the record
in force, `store`: the newest record in MRAM. `dueQuads`: the quadrants of cause 0. `scanSeen`: a housekeeping scan has
completed since boot or the exit from DEEP (R336). -/
structure Col where
  win : Option (Nat × Nat) := none
  /-- The windows opened, newest first, Meridian ns: samples still to leave carry CAL by them (R339). -/
  wins : List (Nat × Nat) := []
  run : Option Nat := none
  before : Nat := 2
  arch : Bool := false
  delays : List Int := List.replicate 128 0
  rcd : Option ColRec := none
  store : Option ColRec := none
  dueQuads : Nat := 0
  scanSeen : Bool := false
  /-- The quadrants the run does not measure: held out of ACTIVE at Prepare or since (R348). -/
  skip : Nat := 0
  deriving DecidableEq, Repr

/-- Bias (12_bias_outputs.md): groups kept CLAMPED (R360), outputs DRIVEN before a range change (R367). -/
structure Bias where
  clampHold : Nat := 0
  /-- Outputs PARKED by causes 1 to 5 and not yet committed again (R363). -/
  byCause : Nat := 0
  clampEngaged : Bool := true
  deriving DecidableEq, Repr

/-! ### Housekeeping, thermal, MRAM, Meridian -/

/-- Run counts of one scan entry (R377): consecutive readings that speak against the present state of ABOVE and of BELOW. -/
structure HkLim where
  hi : Nat := 0
  lo : Nat := 0
  deriving DecidableEq, Repr

/-- Housekeeping converter (13_housekeeping_thermal.md): whether it runs, the next scan entry, the passes asked for in mode 1
(R374), the last input checked (R385), the slots a waiting self-calibration waits for, a request made while one runs, and the
running time: since when it runs, and what it had run before (R383). -/
structure Hk where
  running : Bool := false
  pos : Nat := 0
  passDue : Nat := 0
  lims : List HkLim := List.replicate 64 {}
  checkPos : Nat := 31
  checkDue : Bool := false
  calWait : Nat := 0
  calNext : Bool := false
  upAt : Nat := 0
  ran : Nat := 0
  deriving DecidableEq, Repr

/-- One die sensor (R393 to R397): its last valid value, the code of its last reading and for how many readings it has
stood, whether another sensor of the quadrant changed meanwhile, the last 60 s of differences with their instants, and its
substitute's frozen offset. -/
structure DieSens where
  last : Int := 0
  lastValid : Bool := false
  code : Int := 0
  same : Nat := 0
  moved : Bool := false
  offs : List (Nat × Int) := []
  subOff : Option Int := none
  deriving DecidableEq, Repr

/-- Thermal protection: run counts at or above each level and below each level minus hysteresis (warning, throttle,
shutdown), whether the shutdown state is ABOVE, the sensors, the 10 s hold of R397 and the TxThrottleSteps it keeps, the run
of R401 and of the warning level on TSA in WATCH, the latest junction value, and the last FIELD frame of the restricted
service (R402). -/
structure Thm where
  above : List Nat := [0, 0, 0]
  below : List Nat := [0, 0, 0]
  shut : Bool := false
  sens : List DieSens := List.replicate 16 {}
  holdTill : Nat := 0
  holdSteps : Nat := 0
  tsaCool : Nat := 0
  tsaAbove : Nat := 0
  tsaBelow : Nat := 0
  tsaWarn : Bool := false
  junction : Option Int := none
  lastField : Nat := 0
  deriving DecidableEq, Repr

/-- The records MRAM holds beside N-class values and the logs (R90, R165, R324, R351). -/
structure Mram where
  gen : Nat
  trimSeq : Nat
  trims : List Nat
  warm : List Warm
  col : Option ColRec
  deriving DecidableEq, Repr

/-- MRAM writes (R403, R66): whether writes are deferred, the resume run, the bytes of the deferral buffer in use and
what waits there: N-class values with the value MRAM still holds, and counts of log, audit and other writes; `told`: EV70 has
reported this deferral. -/
structure Nvm where
  deferring : Bool := false
  told : Bool := false
  okRun : Nat := 0
  used : Nat := 0
  count : Nat := 0
  alm : NMap := []
  /-- What MRAM still holds of its records while a write of one waits in the deferral or hold buffer. -/
  before : Option Mram := none
  logN : Nat := 0
  audN : Nat := 0
  deriving DecidableEq, Repr

/-- The best-master data set of an Announce (R418, R419). -/
structure Master where
  identity : Nat
  prio1 : Nat
  cls : Nat
  accuracy : Nat
  variance : Nat
  prio2 : Nat
  steps : Nat
  portId : Nat
  deriving DecidableEq, Repr

/-- Meridian time (14_meridian_time.md). `err` is e of R414, none unknown; `thetas` the last 16
offsets' magnitudes, `below` the run of R412; `holdSince` and `holdErr` the entry to HOLDOVER and e there; `syncSeq` a Sync
without its Follow_Up (sequence, t2, correctionField), `pair` a complete pair (sequence, t1, t2), `dreq` a Delay_Req without its answer; `delays` the last 16
sums of R428 and `skip` the exchanges still to measure before an offset applies (R427); `pps` the seconds written and when
(R424). Stamps and their differences are kept in units of 2^-40 ps; `lane` is the lane and rate code of the source's port that TIME
messages last went on (R427). -/
structure Tim where
  valid : Bool := false
  holdover : Bool := false
  stepped : Bool := false
  stepAt : Nat := 0
  source : Nat := 0
  err : Option Nat := none
  thetas : List Nat := []
  below : Nat := 0
  holdSince : Nat := 0
  holdErr : Option Nat := none
  syncSeq : Option (Nat × Int × Int) := none
  pair : Option (Nat × Int × Int) := none
  dreq : Option (Nat × Int) := none
  dreqSeq : Nat := 0
  delays : List Int := []
  skip : Nat := 0
  delayInt : Int := 0
  master : Option Master := none
  leap : Bool := false
  /-- QUALITY bits [23:8] last reported by EV94, and when (R415). -/
  lastQual : Nat := 0x00FF
  lastQualAt : Nat := 0
  pps : Option (Nat × Nat) := none
  ppsOn : Bool := false
  ppsMiss : Nat := 0
  ppsOut : Bool := false
  parentErr : Option Nat := none
  lane : Option (Nat × Nat) := none
  deriving DecidableEq, Repr


/-! ### Ephemeris, lanes, ports, Archipelago -/

/-- An Ephemeris entry (R434). `state`: 0 FREE, 1 PENDING, 2 LOCKED; `secs` and `frac` the entry time. -/
structure EphEnt where
  secs : Nat := 0
  frac : Nat := 0
  action : Nat := 0
  flags : Nat := 0
  state : Nat := 0
  arg : Nat := 0
  tag : Nat := 0
  deriving DecidableEq, Repr

/-- A shadow write that waits for the commit of the entries that lock it (R448, R449): its parameter, those entries, its
keys and values. -/
structure EphPend where
  param : Nat
  ents : List Nat
  vals : List (Nat × Nat)
  deriving DecidableEq, Repr

/-- Ephemeris (15_ephemeris.md): the table as (number, entry) pairs of entries that are not FREE, the pending shadow
writes of R448, and the instant (elapsed ps) and units of the last commits (R443). -/
structure Eph where
  ent : List (Nat × EphEnt) := []
  pend : List EphPend := []
  commits : Option (Nat × Nat) := none
  deriving DecidableEq, Repr

/-- One lane (16_lanes.md R460 to R466) beside its LaneState and LaneFfe: time-outs at the present rate, whether EV98 was
raised in this cycle, elapsed ps of the entry to the stage, the cycle's rate was held down by WATCH (R467), the RESP it holds
(R465), header errors and removed bits of the present second, FCOUNT of its last frame and when that came (R459). -/
structure Lane where
  toRate : Nat := 0
  told : Bool := false
  since : Nat := 0
  low : Bool := false
  resp : Nat := 0
  hdrErr : Nat := 0
  stuff : Nat := 0
  fcount : Nat := 0
  frameAt : Nat := 0
  deriving DecidableEq, Repr

/-- One virtual channel of a port (R480 to R483). -/
structure Chan where
  consumed : Nat := 0
  limit : Nat := 0
  opened : Bool := false
  received : Nat := 0
  freed : Nat := 0
  limitSent : Nat := 0
  seqOut : Nat := 0
  seqIn : Nat := 0
  seqSeen : Bool := false
  deriving DecidableEq, Repr

/-- One message port: 0 Mainland, 1 to 4 Strait S0 to S3. `lastMsg`: elapsed ps of the last message; `crcErr`: CRC failures of the
present second; `mismatch`, `conflict`: R529, R505; `far`: the partner's CAPS record; `rxData` the data bytes by lane of the FCOUNT
`rxCount` that is being received, at width `rxWidth`, and `rxPos` the position of its first byte in the stream (R455, R473). -/
structure Port where
  ch : List Chan := [{}, {}, {}, {}]
  /-- Messages that wait for credit, first in first out. -/
  wait : List Msg := []
  lastMsg : Nat := 0
  crcErr : Nat := 0
  mismatch : Bool := false
  conflict : Bool := false
  far : List Byte := []
  rxCount : Nat := 0
  rxWidth : Nat := 0
  rxPos : Nat := 0
  rxData : List (Nat × List Byte) := []
  deriving DecidableEq, Repr

/-- An assignment received and not yet applied (R508). -/
structure Assign where
  island : Nat
  parent : Nat
  children : Nat
  state : Nat
  size : Nat
  height : Nat
  epoch : Nat
  switch : Nat
  routes : List Nat
  deriving DecidableEq, Repr

/-- The root's record of a chip (R506, R507): identity, number, its last report and whether it is reachable. -/
structure Chip where
  id : Nat
  number : Nat
  group : Nat := 0xFF
  collector : Nat := 0
  ports : List Nat := []
  far : List Nat := []
  reach : Bool := true
  deriving DecidableEq, Repr

/-- A group plan forwarded to this member that waits for its verdict (R514). -/
structure Fwd where
  slot : Nat
  group : Nat
  dl : Bool
  plan : Plan
  bad : Bool
  deriving DecidableEq, Repr

/-- Words of one REDUCE message (R520): index of the first, the words, the islands missing, and the credit units to free. -/
structure RedRun where
  off : Nat
  words : List Nat
  missing : Nat
  units : Nat
  deriving DecidableEq, Repr

/-- One child stream (R521, R523): its port 0 to 3, the words held, the first index not yet settled, and whether everything
from there on is missing. -/
structure RedKid where
  port : Nat
  runs : List RedRun := []
  next : Nat := 0
  gone : Bool := false
  deriving DecidableEq, Repr

/-- An island's own contribution to one word (R518, R16): y scaled, in units of half an LSB and not yet saturated, its flags
([1] PARTIAL, [0] CLIP), and the tags of y. -/
structure RedOwn where
  i : Int
  q : Int
  flags : Nat
  tags : Nat
  deriving DecidableEq, Repr

/-- A reduction in progress (R518 to R524): the words of the slot block, placements per instant block and those kept under
R470, the island's own words (partial word, and the tags of its sample), the children, the words formed, at a collector the
formed words not yet sent with their missing sets, all missing islands of the slot, whether words came late, the elapsed ps
of E and whether the window has closed. -/
structure Red where
  slot : Nat
  group : Nat
  total : Nat
  block : Nat
  kept : Nat
  own : List RedOwn := []
  kids : List RedKid := []
  formed : Nat := 0
  queue : List (Nat × Nat) := []
  missing : Nat := 0
  late : Bool := false
  endAt : Option Nat := none
  closed : Bool := false
  deriving DecidableEq, Repr

/-- A gathered message that waits at the collector (R526): source 1 to 4 for S0 to S3 and the elapsed ps since which it
waits. -/
structure Gather where
  source : Nat
  since : Nat
  msg : Msg
  deriving DecidableEq, Repr

/-- The Archipelago (18_archipelago.md). `last` are the assignments last sent, `extra` the chips that got no number, `hops` and
`myStamp` the hop delays and own stamp of R501 in ps, `loads` (slot, egress, load in 2^-18 b/s) held under R527, `turn` the
source served last, `warned` the slot of the last EV111 plus 1. -/
structure Arch where
  wait : Option Assign := none
  chips : List Chip := []
  last : List (Nat × List Byte) := []
  extra : List Nat := []
  fwd : List Fwd := []
  red : List Red := []
  hops : List Int := []
  myStamp : Option Nat := none
  loads : List (Nat × Nat × Nat) := []
  gather : List Gather := []
  turn : Nat := 0
  warned : Nat := 0
  deriving DecidableEq, Repr

/-! ### DMA, Transit, sessions, Charts, fuses, update, Riptide -/

/-- A descriptor as read (R533); `flags` byte 20, `bad` where a reserved bit is set. -/
structure Desc where
  src : Nat
  dst : Nat
  next : Nat
  op : Nat
  count : Nat
  flags : Nat
  const : Nat
  bad : Bool
  deriving DecidableEq, Repr

/-- One DMA channel (R537 to R544) beside its DmaState: the descriptor in progress, its bytes completed, the descriptors
completed since the last start, and the address of a descriptor still to be fetched. -/
structure DmaCh where
  desc : Option Desc := none
  moved : Nat := 0
  done : Nat := 0
  fetch : Option Nat := none
  deriving DecidableEq, Repr

/-- The DMA engine (19_dma.md): channels and the bulk request queue, first in first out. -/
structure Dma where
  ch : List DmaCh := List.replicate 16 {}
  queue : List Nat := []
  deriving DecidableEq, Repr

/-- Transit (20_transit_capture.md) beside its parameters: the sequencer's counter and the elapsed ps at which its timer
started, the elapsed ps of the last counted occurrence, the trigger: instant in ps of Meridian, index t and TRIGGER_BY, the
selection at the arm (source, group, wide mode, paths, first bin, bins, words, PRE and POST depths), the occurrences ignored
in REARM, the number of the last record, the elapsed ps at which TRIG_OUT falls, and the bytes of a send that have left. -/
structure Tra where
  cnt : Nat := 0
  timerAt : Nat := 0
  lastEdge : Option Nat := none
  trig : Option (Nat × Nat) := none
  trigBy : Nat := 0
  armed : List Nat := []
  ignored : Nat := 0
  rcd : Nat := 0
  trigOutTill : Nat := 0
  sendOff : Nat := 0
  /-- Transit has written its region since the region was last initialised. -/
  wrote : Bool := false
  /-- w, ring index and number of the instants of the complete record whose words stand in package memory. -/
  kept : Option (Nat × Nat × Nat) := none
  deriving DecidableEq, Repr

/-- One session handle (R595 to R598). `st`: 0 closed, 1 challenged, 2 open; instants in elapsed ps. -/
structure Ses where
  st : Nat := 0
  role : Nat := 0
  slot : Nat := 0
  port : Nat := 0
  at_ : Nat := 0
  challenge : List Byte := []
  deriving DecidableEq, Repr

/-- Sessions: the four handles, the consecutive failures and the lockout ends per port (R599). -/
structure Sess where
  h : List Ses := [{}, {}, {}, {}]
  fails : List Nat := [0, 0]
  lockTill : List Nat := [0, 0]
  deriving DecidableEq, Repr

/-- The FIELD port's transfer in progress (R575, R576). -/
structure Fld where
  transfer : Option Nat := none
  total : Nat := 0
  next : Nat := 0
  data : List Byte := []
  lastAt : Nat := 0
  answering : Bool := false
  deriving DecidableEq, Repr

/-- A stored Chart: sequence number, whether its CRC is good, and its values that differ from the defaults. -/
structure ChartRec where
  seq : Nat
  ok : Bool
  vals : NMap
  deriving DecidableEq, Repr

/-- A Chart load asked for (R582): the Chart, the selection way of R586 and who asked, as the audit log names it. -/
structure ChartLoad where
  chart : Nat
  how : Nat
  who : Nat
  deriving DecidableEq, Repr

/-- An accepted STORE_CHART (R580): the Chart, the values taken at acceptance, and the request it answers. -/
structure ChartStore where
  chart : Nat
  vals : NMap
  port : Nat
  id : Nat
  who : Nat
  deriving DecidableEq, Repr

/-- What waits for a store or a load to end (R581, R585). -/
inductive ChartJob where
  | load (x : ChartLoad)
  | store (x : ChartStore)
  deriving DecidableEq, Repr

/-- Charts (R579 to R587): the records, the store and the load that run, what waits for them, the values waiting under R585, the
safe chart and the last active Chart of the retention area (none the safe chart or no Chart). [Log: 8 DESIGN CHOICE] -/
structure Cha where
  recs : List (Option ChartRec) := [none, none, none, none]
  store : Option ChartStore := none
  load : Option ChartLoad := none
  wait : List ChartJob := []
  waiting : NMap := []
  safe : Bool := false
  last : Option Nat := none
  deriving DecidableEq, Repr

/-- Fuses (R601): role key hashes by slot, revocation, lifecycle, debug lock, anti-rollback, power ceilings, identity.
[Log: 8 DESIGN CHOICE] -/
structure Fus where
  chipId : Nat := 0
  stepping : Nat := 0
  lifecycle : Nat := 2
  debugLock : Bool := true
  keys : List (List Byte) := List.replicate 4 [] ++ List.replicate 48 1#8 :: List.replicate 7 []
  bad : Nat := 0
  revoked : Nat := 0
  signHash : List Byte := []
  rollback : List Nat := [0, 0, 0, 0]
  ceiling : List Nat := [0, 0, 0, 0]
  tokenOpen : Bool := false
  /-- The fleet image key and the maker's trim data: burned in MAKER through a range the spec does not lay out. -/
  fleetKey : List Byte := []
  makerTrim : List Byte := []
  deriving DecidableEq, Repr

/-- One audit entry (R608). -/
structure Aud where
  seq : Nat
  secs : Nat
  frac : Nat
  kind : Nat
  who : Nat
  index : Nat
  sub : Nat
  result : Nat
  old : Nat
  new : Nat
  deriving DecidableEq, Repr

/-- What the header of an image says (R616). `compat` holds (lowest, highest) VERSION per component. [Log: 9 DESIGN CHOICE] -/
structure Image where
  comp : Nat := 0
  version : Nat := 0
  rollback : Nat := 0
  load : Nat := 0
  genMain : Nat := 0
  genStrait : Nat := 0
  genTime : Nat := 0
  schema : Nat := 0
  schemaMin : Nat := 0
  schemaMax : Nat := 0
  compat : List (Nat × Nat) := []
  deriving DecidableEq, Repr

/-- The update record (R615) beside the N-class parameters that show it: the confirmed slot per component, the running images
(component 3 of them FERRY), whether an activation waits for READY and since when the device stands there, the steps done,
components without a usable image at an earlier boot, the Meridian ns of the last trial boot, and what MRAM held of the
settings and Charts before the trial (R632). [Log: 9 DESIGN CHOICE] -/
structure Upd where
  slots : List Nat := [0, 0, 0, 0]
  run : List Image := [{}, {}, {}, {}]
  waiting : Bool := false
  readyAt : Option Nat := none
  step : Nat := 0
  failedBoot : Nat := 0
  /-- Components of a trial that run from their confirmed slots all the same (R631, R637). -/
  fell : List Nat := []
  trialAt : Nat := 0
  old : Option (NMap × List (Option ChartRec)) := none
  /-- The package header of the update record (R621), and the schema of the settings in MRAM (R632). -/
  hdr : List Byte := []
  schema : Nat := 0
  deriving DecidableEq, Repr

/-- What an Almanac operation needs that the device cannot know beforehand: how far DMA channels got, the Transit instants that
precede it, what a fuse reads back, whether a signature holds. An operation that brings none takes free values.
[Log: 15 DEDUCED] -/
structure OpAux where
  beats : Option (List Nat) := none
  instants : Option Nat := none
  readback : Option (List Byte) := none
  proof : Option (List Byte × Bool) := none
  deriving DecidableEq, Repr

/-- An Almanac operation (R493, R566): the port, SESSION, REQ_ID or transfer number, OP, ITEMS and the items. -/
structure AlmOp where
  port : Nat
  ses : Nat
  id : Nat
  op : Nat
  n : Nat
  items : List Item
  aux : OpAux := {}
  deriving DecidableEq, Repr

/-- An answer on the Mainland port that has not left: responses go in request order (R493), and a STORE_CHART answers late. -/
structure Reply where
  id : Nat
  result : Option (List Byte)
  deriving DecidableEq, Repr

/-- A message held for reordering (R651): direction, port and channel, the messages still to pass, the instant it was held,
and the message: a command or an operation received, or what was to be sent. -/
structure RipHold where
  sent : Bool
  port : Nat
  vc : Nat
  left : Nat
  since : Nat
  instr : Option Instr
  msg : Option Msg
  op : Option AlmOp := none
  deriving DecidableEq, Repr

/-- Riptide (R649 to R652): the run's start, the RiptideDuration and RiptideSeed it began with, the matches counted per rule, the
draws made, the messages held. [Log: 63 DEDUCED] -/
structure Rip where
  startAt : Nat := 0
  dur : Nat := 0
  seed : Nat := 0
  count : List Nat := [0, 0, 0, 0]
  draws : Nat := 0
  held : List RipHold := []
  deriving DecidableEq, Repr

/-- Everything of the device but the package memory and the event places. -/
structure Dev where
  clk : Clk := {}
  alm : NMap := []
  aux : NMap := []
  edge : List Ev := []
  out : List Out := []
  /-- What the event places must do at the end of this command: 1 empty the queues at entry to DEEP, 2 pass the DEEP
  records on, 3 a reset. -/
  flush : Nat := 0
  pwr : Pwr := {}
  rx : Rx := {}
  cat : Cat := {}
  ul : Ul := {}
  sen : Sen := {}
  dl : Dl := {}
  syn : Syn := {}
  coex : Coex := {}
  dpd : Dpd := {}
  col : Col := {}
  bias : Bias := {}
  hk : Hk := {}
  thm : Thm := {}
  shutRec : List (List Byte) := []
  shutLog : List (List Byte) := []
  nvm : Nvm := {}
  tim : Tim := {}
  eph : Eph := {}
  lane : List Lane := List.replicate 24 {}
  port : List Port := List.replicate 5 {}
  arch : Arch := {}
  dma : Dma := {}
  tra : Tra := {}
  ses : Sess := {}
  fld : Fld := {}
  cha : Cha := {}
  fus : Fus := {}
  aud : List Aud := []
  upd : Upd := {}
  rip : Rip := {}
  bg : List (Option Nat) := List.replicate 8 none
  mgmt : List Reply := []
  telem : NMap := []
  deriving DecidableEq, Repr

/-- The places records go to (R641, R642): the Mainland and FIELD queues, the DEEP hold, the newest records of SURVEY and
the event log ring with the count of entries ever written. [Log: 11 DESIGN CHOICE] -/
structure Places where
  ml : List Ev := []
  fieldQ : List Ev := []
  deep : List Ev := []
  recent : List Ev := []
  log : List Ev := []
  logged : Nat := 0
  deriving DecidableEq, Repr

/-- Package memory and the other bytes of the internal map: (address, byte) pairs in canonical form. -/
abbrev Memory := List Host.Cell

/-- The whole state: the commands waiting, first in first out, and the device. -/
structure State where
  pending : List Instr := []
  dev : Dev := {}
  mem : Memory := []
  places : Places := {}
  deriving DecidableEq, Repr

/-- No command of the model stops with a fault: the type has no constructor, so no step can (safe). -/
inductive Fault where
  deriving DecidableEq, Repr

/-- Why a command is refused by the model. -/
inductive Refusal where
  /-- Raised by exec for a command without a meaning: the model stops where the device goes on (safe). -/
  | notModelled (mnemonic : String)
  deriving DecidableEq, Repr

/-- The machine right after reset (R6, R31, R36): power-on reset, PWR_OK low, every parameter at its default. The values the
spec does not state are those of log entries 2 to 9. [Log: 2 DESIGN CHOICE; 5 DESIGN CHOICE; 8 DESIGN CHOICE] -/
def State.reset : State := {}

end Sys2Proof.Machine
end

