-- ==== Sys2Proof/Machine/Ops.lean ====
section
/-!
DEFINITION. The named operations every meaning uses: reading and writing parameters, counters, time, raising events and
delivering their records, memory, what leaves the device, and the one frame each command's effect runs in.
-/

namespace Sys2Proof.Machine

/-! ### Parameters -/

/-- round(2^18 * 10^(-s/80)), the DGAIN of R301, found bit by bit: the largest g with (2 g - 1)^80 * 10^s at most
(2^19)^80. -/
def dgainDefault (s : Nat) : Nat :=
  let good (g : Nat) : Bool := (2 * g - 1) ^ 80 * 10 ^ s ≤ (2 ^ 19) ^ 80
  (List.range 19).foldl (fun r i => let c := r + 2 ^ (18 - i); if good c then c else r) 0

/-- The default of entry `e` of member `j` of a parameter row (the Default columns; R80, R114, R181, R301, R313, R369).
[Log: 2 DESIGN CHOICE; 77 DESIGN CHOICE] -/
def dfltVal (r : PRow) (e : Nat) : Nat :=
  match r.dflt with
  | .k v => v
  | .l vs => vs.getD e 0
  | .fn 1 => Config.firBuiltIn (min e (95 - e)) % 2 ^ 18
  | .fn 2 => 64 * (e / 8) + e % 8
  | .fn 3 => dgainDefault e * 2 ^ 20 + 8
  | .fn 4 => if e < 64 then 262144 * 2 ^ 20 else 0
  | .fn 5 => 0x876543210
  | .fn 6 => if e < 64 then ux 16 (-5000) else 0
  | .fn _ => 0

/-- The default of a key; 0 where no parameter is defined. [Log: 2 DESIGN CHOICE] -/
def dfltOf (k : Nat) : Nat :=
  match rowOf (keyId k) with
  | none => 0
  | some r => dfltVal r (keyEntry k)

/-- The value of a key of the Almanac. -/
def Dev.a (d : Dev) (k : Nat) : Nat := (d.alm.get? k).getD (dfltOf k)

/-- Set a key; a key at its default is not listed. -/
def Dev.w (d : Dev) (k v : Nat) : Dev :=
  { d with alm := if v = dfltOf k then d.alm.del k else d.alm.set k v }

/-- The bits of one entry of a key's type. -/
def keyBits (k : Nat) : Nat :=
  match rowOf (keyId k) with
  | none => 64
  | some r => 8 * r.ty.width

/-- Whether a counter of a key saturates: its Meaning column says so (R101, R136, R173). [Log: 10 DESIGN CHOICE] -/
def saturates (k : Nat) : Bool :=
  [P.rxClipCountA, P.rxClipCountB, P.chanOverflowCountA, P.chanOverflowCountB, P.memCorrectedCount,
    P.memUncorrectableCount].any (fun b => keyId b == keyId k)

/-- Add to a counter. Past its width a saturating counter stays at its maximum; of any other the spec states no value,
which is a free value (log entry 10). [Log: 10 DESIGN CHOICE] -/
def Dev.add (d : Dev) (k n : Nat) : Dev :=
  let v := d.a k + n
  let top := 2 ^ keyBits k
  if v < top then d.w k v
  else if saturates k then d.w k (top - 1)
  else d.w k (Config.counterOverflow k % top)

/-- Add one to a counter. -/
def Dev.inc (d : Dev) (k : Nat) : Dev := d.add k 1

/-- Whether a BOOL or mask parameter has bit [n] set. -/
def Dev.ab (d : Dev) (k n : Nat) : Bool := bit (d.a k) n

/-- The key of the B twin (subindex .02) for group 1, the A parameter for group 0. -/
def gk (k g : Nat) : Nat := k + 65536 * g

/-- The entries [0, n) of a parameter. -/
def Dev.entries (d : Dev) (k n : Nat) : List Nat := (List.range n).map (fun i => d.a (k + i))

/-- Write a list of values from a key on. -/
def Dev.wList (d : Dev) (k : Nat) (vs : List Nat) : Dev :=
  (vs.zip (List.range vs.length)).foldl (fun acc p => acc.w (k + p.2) p.1) d

/-- Write a list of (key, value) pairs. -/
def Dev.wAll (d : Dev) (kvs : List (Nat × Nat)) : Dev := kvs.foldl (fun acc p => acc.w p.1 p.2) d

/-- The bytes of an OCTETS parameter. -/
def Dev.octets (d : Dev) (k n : Nat) : List Byte := (d.entries k n).map (BitVec.ofNat 8)

/-- Write bytes into an OCTETS parameter. -/
def Dev.wOctets (d : Dev) (k : Nat) (bs : List Byte) : Dev := d.wList k (bs.map (·.toNat))

/-- Bookkeeping memory (not architectural): a number by key, 0 when absent. -/
def Dev.x (d : Dev) (k : Nat) : Nat := d.aux.getD k 0

/-- Set bookkeeping memory. -/
def Dev.wx (d : Dev) (k v : Nat) : Dev := { d with aux := d.aux.set k v }

/-- A key of bookkeeping memory beyond the rate limits of events: a place and a subject. -/
def auxKey (place sub : Nat) : Nat := 2 ^ 41 + place * 2 ^ 33 + sub

/-- Apply a change under a condition. -/
def Dev.iff (d : Dev) (c : Bool) (f : Dev → Dev) : Dev := if c then f d else d

/-- Apply a change for each element of a list, in order. -/
def Dev.each {α : Type} (d : Dev) (l : List α) (f : α → Dev → Dev) : Dev := l.foldl (fun acc x => f x acc) d

/-! ### Time -/

/-- Elapsed time in ps. -/
def Dev.now (d : Dev) : Nat := d.clk.ps

/-- The elapsed ps of the converter sample an action acts on: on the 2.5 ns grid for what Ephemeris entries and synchronising
resets do, else the present edge (R109, R131, R436). -/
def Dev.actAt (d : Dev) : Nat := d.clk.act.getD d.clk.ps

/-- Act on a converter sample given by its elapsed ps. -/
def Dev.acting (d : Dev) (at_ : Nat) (f : Dev → Dev) : Dev :=
  let e := f { d with clk := { d.clk with act := some at_ } }
  { e with clk := { e.clk with act := none } }

/-- 2^112, the unit of the Meridian count. [Log: 14 DEDUCED] -/
def merUnit : Nat := 2 ^ 112

/-- Meridian SECONDS. -/
def Dev.secs (d : Dev) : Nat := d.clk.mer / merUnit % 2 ^ 64

/-- Meridian FRACTION: bits [63:24] of the internal fraction (R408). [Log: 14 DEDUCED] -/
def Dev.frac (d : Dev) : Nat := d.clk.mer % merUnit / 2 ^ 72

/-- Meridian in ps, truncated. -/
def Dev.merPs (d : Dev) : Nat := d.clk.mer * 10 ^ 12 / merUnit

/-- Meridian in ns, truncated. [Log: 14 DEDUCED] -/
def Dev.merNs (d : Dev) : Nat := d.clk.mer * 10 ^ 9 / merUnit

/-- The signed frequency correction F (R408). -/
def Dev.freqCorr (d : Dev) : Int := sx 40 (d.a P.timeFreqCorrection)

/-- The Meridian increment of one REFCLK edge in 2^-112 s (R408). [Log: 14 DEDUCED] -/
def Dev.merInc (d : Dev) : Nat := (184467440737 * ((2 : Int) ^ 48 + d.freqCorr)).toNat

/-- The error estimate e in ps (R414): in HOLDOVER it grows by TimeHoldoverDrift for each second. -/
def Dev.timeErr (d : Dev) : Option Nat :=
  if d.tim.valid then
    if d.a P.timeState = 3 then
      d.tim.holdErr.map (fun e => e + d.a P.timeHoldoverDrift * ((d.now - d.tim.holdSince) / 10 ^ 12))
    else if d.tim.source = 4 then none
    else d.tim.err
  else none

/-- BOUND (R414): ceil(log2 e), 255 unknown. -/
def Dev.bound (d : Dev) : Nat :=
  match d.timeErr with
  | none => 255
  | some e => sat 255 (clog2 e)

/-- The 24-bit QUALITY field (R18). -/
def Dev.quality (d : Dev) : Nat :=
  b2n d.tim.valid * 2 ^ 23 + b2n d.tim.holdover * 2 ^ 22 + b2n d.clk.onLpo * 2 ^ 21 + b2n d.tim.stepped * 2 ^ 20
    + d.tim.source * 2 ^ 16 + d.bound * 2 ^ 8

/-- A Meridian time field as one value of 16 bytes (R17). -/
def timeField (secs frac quality : Nat) : Nat := secs + frac * 2 ^ 64 + quality * 2 ^ 104

/-- The present time field; with VALID 0 it still carries the count (R17, R19). -/
def Dev.timeNow (d : Dev) : Nat := timeField d.secs d.frac d.quality

/-- The time field of a Meridian instant given in ps, with the present QUALITY. -/
def Dev.timeAtPs (d : Dev) (ps : Nat) : Nat :=
  timeField (ps / 10 ^ 12) (ps % 10 ^ 12 * 2 ^ 40 / 10 ^ 12) d.quality

/-- Move the clocks on by `n` edges: REFCLK edges, or LPO periods while the LPO runs (R41, R408). [Log: 76 DESIGN CHOICE] -/
def Dev.advance (d : Dev) (n : Nat) : Dev :=
  if d.clk.onLpo then
    { d with clk := { d.clk with
        ps := d.clk.ps + Config.lpoSpan d.clk.free n, mer := d.clk.mer + n * 2 ^ 97, free := d.clk.free + 1 } }
  else
    { d with clk := { d.clk with ps := d.clk.ps + 10000 * n, mer := d.clk.mer + n * d.merInc } }

/-- Take a free value of `w` bits and step the counter it is drawn with. [Log: 3 DESIGN CHOICE] -/
def Dev.free (d : Dev) (tag w : Nat) : Nat × Dev :=
  (Config.freeValue d.clk.free tag % 2 ^ w, { d with clk := { d.clk with free := d.clk.free + 1 } })

/-- Package memory served `n` bytes of class `c` in a Meridian second not before the last one counted but one (R148). -/
def Dev.servedAt (d : Dev) (c sec n : Nat) : Dev :=
  let k := auxKey 3 (4 * c)
  if d.x k = sec then d.wx (k + 1) (d.x (k + 1) + n)
  else if d.x k < sec then (((d.wx (k + 2) (d.x k)).wx (k + 3) (d.x (k + 1))).wx k sec).wx (k + 1) n
  else if d.x (k + 2) = sec then d.wx (k + 3) (d.x (k + 3) + n)
  else (d.wx (k + 2) sec).wx (k + 3) n

/-- Package memory served `n` bytes of class `c` in this Meridian second (R148). -/
def Dev.served (d : Dev) (c n : Nat) : Dev := d.servedAt c d.secs n

/-- The bytes of class `c` served over the last complete second (R148). -/
def Dev.classRate (d : Dev) (c : Nat) : Nat :=
  let k := auxKey 3 (4 * c)
  if d.secs = 0 then 0
  else if d.x k = d.secs then (if d.x (k + 2) + 1 = d.secs then d.x (k + 3) else 0)
  else if d.x k + 1 = d.secs then d.x (k + 1)
  else 0

/-! ### What leaves the device -/

/-- Emit one thing. -/
def Dev.emit (d : Dev) (o : Out) : Dev := { d with out := d.out ++ [o] }

/-- Drive a pin. -/
def Dev.pin (d : Dev) (p : Pin) (level : Bool) : Dev := d.emit (.pin p level)

/-! ### Events -/

/-- Whether EVn's bit of a 16-byte mask is set. -/
def Dev.maskBit (d : Dev) (k n : Nat) : Bool := bit (d.a (k + n / 8)) (n % 8)

/-- ALERT_N is low while EventPending and EventMaskAlert share a set bit (R643). -/
def Dev.alertLow (d : Dev) : Bool :=
  (List.range 16).any (fun i => maskAnd 8 (d.a (P.eventPending + i)) (d.a (P.eventMaskAlert + i)) != 0)

/-- PwrState as the parameter shows it. -/
def Dev.pw (d : Dev) : Nat := d.a P.pwrState

/-- Record EVn with an argument on this edge (R639 to R641, R643): the sequence number moves on, the event's count grows,
its pending bit is set at once where latched, and the record waits for the edge to close. -/
def Dev.note (d : Dev) (n arg : Nat) : Dev :=
  let seq := d.a P.eventSeq
  let d := d.w P.eventSeq (if seq = 0xFFFFFFFF then 1 else seq + 1)
  let d := d.inc (P.eventCount + n)
  let d := if d.maskBit P.eventLatchMask n then
      d.w (P.eventPending + n / 8) (putBit (d.a (P.eventPending + n / 8)) (n % 8) true) else d
  let e : Ev := {
    n := n, arg := arg % 2 ^ 17, secs := d.secs, frac := d.frac, valid := d.tim.valid, lpo := d.clk.onLpo,
    deep := d.pw == 0 && (d.pwr.phase == .running || d.pwr.phase == .shutdown || d.pwr.phase == .restricted),
    ml := d.maskBit P.eventMaskMainland n, fieldP := d.maskBit P.eventMaskField n && d.a P.fieldState != 3, log := d.maskBit P.eventLogMask n }
  { d with edge := insertBy (·.n) e d.edge }

/-- A trigger of an injected slot is dropped (R382). -/
def Dev.injectDrop (d : Dev) (i cause : Nat) : Dev := (d.inc P.hkInjectDropCount).note 76 (i + 4 * cause)

/-- A trigger reaches the injected slots of a mask (R380 to R382): the lowest ARMED one converts, the others are dropped.
[Log: 23 DEDUCED] -/
def Dev.injectTrigger (d : Dev) (mask : Nat) : Dev :=
  (List.range 4).foldl (fun d i =>
    if !bit mask i || d.a (P.hkInjectState + i) != 1 then d
    else if !d.hk.running then d.injectDrop i 3
    else if d.a P.hkCalState = 2 then d.injectDrop i 2
    else if (List.range 4).any (fun j => d.a (P.hkInjectState + j) == 2) then d.injectDrop i 1
    else d.w (P.hkInjectState + i) 2) d

/-- The injected slots that event `n` triggers (R379). -/
def Dev.injectOn (d : Dev) (n : Nat) : Nat :=
  maskOf 4 (fun i => let c := d.a (P.hkInjectConfig + i); bits c 15 14 == 1 && bits c 13 7 == n)

/-- Raise EVn: the record, and the injected conversions it triggers (R379). A drop's own EV76 triggers nothing more (log
entry 23). [Log: 23 DEDUCED] -/
def Dev.raise (d : Dev) (n arg : Nat) : Dev :=
  let d := d.note n arg
  let m := d.injectOn n
  if m = 0 then d else d.injectTrigger m

/-- Bookkeeping key of the last raise of EVn for a subject; `+ 1` holds what has gathered since. -/
def rateKey (n sub : Nat) : Nat := 2 * (n * 2 ^ 32 + sub)

/-- Raise EVn at most once per `period` ps for a subject, gathering `amount` until it can be raised; the argument is
formed from what has gathered. -/
def Dev.raiseRate (d : Dev) (n sub period amount : Nat) (mk : Nat → Nat) : Dev :=
  let k := rateKey n sub
  let tot := d.x (k + 1) + amount
  if d.x k = 0 ∨ d.x k - 1 + period ≤ d.now then ((d.wx k (d.now + 1)).wx (k + 1) 0).raise n (mk tot)
  else d.wx (k + 1) tot

/-- The number `i` places after a sequence number, skipping 0 (R640). -/
def seqAfter (base i : Nat) : Nat := (base + i - 1) % 0xFFFFFFFF + 1

/-- The record bytes of an event (R639): 16 bytes. -/
def Ev.bytes (e : Ev) : List Byte := leBytes 3 (e.n + e.arg * 128) ++ leBytes 8 e.secs ++ leBytes 5 e.frac

/-- The 24-byte log entry of an event (R644). -/
def Ev.logBytes (e : Ev) : List Byte :=
  let body := leBytes 4 e.seq ++ e.bytes ++ [BitVec.ofNat 8 (b2n e.valid + 2 * b2n e.lpo + 4 * b2n e.deep), 0#8]
  body ++ leBytes 2 (crc16 body)

/-! ### The event places -/

/-- The Mainland queue's size, the FIELD queue's, the DEEP hold's, SURVEY's and the log's (R642, R589, R644). -/
def mlCap : Nat := 1024
def fieldCap : Nat := 256
def deepCap : Nat := 16
def recentCap : Nat := 64
def logCap : Nat := 32768

/-- The bytes of the deferral buffer (R403). [Log: 21 DESIGN CHOICE] -/
def nvmCap : Nat := 65536

/-- Put a record into a queue of a given size, or report it dropped. -/
def pushCap (cap : Nat) (q : List Ev) (e : Ev) : List Ev × Bool := if q.length < cap then (q ++ [e], false) else (q, true)

/-- Pass one numbered record to every place whose mask bit stood (R641, R642). While MRAM writes are deferred a log entry
takes room of the deferral buffer, and is discarded where there is none (R403). -/
def placeOne (dp : Dev × Places) (e : Ev) : Dev × Places :=
  let (d, p) := dp
  let (ml, dm) := if e.ml then pushCap mlCap p.ml e else (p.ml, false)
  let (fq, df) := if e.fieldP then pushCap fieldCap p.fieldQ e else (p.fieldQ, false)
  let d := d.iff dm (·.inc P.eventDropCount)
  let d := d.iff df (·.inc (P.eventDropCount + 1))
  let full := d.nvm.deferring && nvmCap < d.nvm.used + 24
  let logs := e.log && !full
  let d := d.iff (e.log && full) (·.inc P.nvmDeferredDiscardCount)
  let d := d.iff (logs && d.nvm.deferring) (fun d =>
    { d with nvm := { d.nvm with used := d.nvm.used + 24, logN := d.nvm.logN + 1, count := d.nvm.count + 1 } })
  let d := d.iff (logs && (p.logged + 1) % logCap == 0) (·.inc P.eventLogWrapCount)
  (d, { p with
    ml := ml, fieldQ := fq, recent := keepLast recentCap (p.recent ++ [e]),
    log := if logs then keepLast logCap (p.log ++ [e]) else p.log,
    logged := if logs then p.logged + 1 else p.logged })

/-- Hold a record raised in DEEP (R642), or pass it on. -/
def deliver (dp : Dev × Places) (e : Ev) : Dev × Places :=
  if e.deep then
    let (q, drop) := pushCap deepCap dp.2.deep e
    (dp.1.iff drop (·.inc (P.eventDropCount + 2)), { dp.2 with deep := q })
  else placeOne dp e

/-- EV70 reports the first write that is deferred (R403). -/
def Dev.tellDefer (d : Dev) : Dev :=
  d.iff (!d.nvm.told) (fun d => ({ d with nvm := { d.nvm with told := true } }).raise 70 (ux 12 (d.thm.junction.getD 0)))

/-- The log entries of the edge that closes may be the first writes deferred (R403, R644). -/
def Dev.logDefer (d : Dev) : Dev :=
  d.iff (d.nvm.deferring && (d.nvm.count != 0 || d.edge.any (fun e => e.log && !e.deep))) (·.tellDefer)

/-- Close the edge: the events raised on it take their sequence numbers in ascending event number and go to their places
(R640, R641). -/
def closeEdge (d : Dev) (p : Places) : Dev × Places :=
  let d := d.logDefer
  let k := d.edge.length
  let last := d.a P.eventSeq
  let base := (last + 2 * 0xFFFFFFFF - k) % 0xFFFFFFFF
  let evs := (d.edge.zip (List.range k)).map (fun x => { x.1 with seq := seqAfter base (x.2 + 1) })
  evs.foldl deliver ({ d with edge := [] }, p)

/-- Pass the records held in DEEP to their places (R642). -/
def passDeep (d : Dev) (p : Places) : Dev × Places :=
  p.deep.foldl placeOne (d, { p with deep := [] })

/-- Empty the queues at entry to DEEP, counting their records as dropped (R642). -/
def emptyQueues (d : Dev) (p : Places) : Dev × Places :=
  ((d.add P.eventDropCount p.ml.length).add (P.eventDropCount + 1) p.fieldQ.length, { p with ml := [], fieldQ := [] })

/-- What a reset leaves of the places (log entry 11): the queues and SURVEY's records are lost, the log is kept less the
entries the deferral buffer lost (R403). [Log: 11 DESIGN CHOICE] -/
def resetPlaces (d : Dev) (p : Places) : Dev × Places :=
  let lost := d.nvm.logN
  let gone := d.pwr.kind == 0 || d.pwr.kind == 1
  ({ d with nvm := if gone then { d.nvm with logN := 0 } else d.nvm },
   { p with ml := [], fieldQ := [], deep := [], recent := [],
            log := if gone then p.log.take (p.log.length - lost) else p.log,
            logged := if gone then p.logged - lost else p.logged })

/-- Do to the places what the command asked for. -/
def settlePlaces (d : Dev) (p : Places) : Dev × Places :=
  match d.flush with
  | 1 => emptyQueues { d with flush := 0 } p
  | 2 => passDeep { d with flush := 0 } p
  | 3 => resetPlaces { d with flush := 0 } p
  | _ => ({ d with flush := 0 }, p)

/-! ### Memory -/

/-- The bytes of the Catalogue region (R137). -/
def catBytes : Nat := 1073741824

/-- What an address that nothing is listed for reads as: an EMPTY Catalogue entry's byte, whose HEADER holds CATNUM in bits
[63:41] (R141, R155, R156), and zero elsewhere (R141; log entry 4). [Log: 4 DESIGN CHOICE] -/
def unlisted (a : Nat) : Byte :=
  if a < catBytes ∧ a % 128 < 8 then BitVec.ofNat 8 (a / 128 * 2 ^ 41 / 256 ^ (a % 128) % 256) else 0#8

/-- The byte at an address. [Log: 4 DESIGN CHOICE] -/
def Memory.get : Memory → Nat → Byte
  | [], a => unlisted a
  | (x, v) :: m, a => if x = a then v else Memory.get m a

/-- Write one byte, keeping the canonical form. -/
def Memory.put : Memory → Nat → Byte → Memory
  | [], a, b => if b = unlisted a then [] else [(a, b)]
  | (x, v) :: m, a, b =>
    if a < x then (if b = unlisted a then (x, v) :: m else (a, b) :: (x, v) :: m)
    else if a = x then (if b = unlisted a then m else (a, b) :: m)
    else (x, v) :: Memory.put m a b

/-- Every listed address lies above a bound, strictly rising, with no byte an unlisted address would read as. -/
def Memory.wfFrom : Nat → Memory → Bool
  | _, [] => true
  | lo, (x, v) :: m => lo ≤ x && v != unlisted x && Memory.wfFrom (x + 1) m

/-- The canonical form of memory. -/
def Memory.wf (m : Memory) : Bool := Memory.wfFrom 0 m

/-- Read `n` bytes. -/
def Memory.read (m : Memory) (a n : Nat) : List Byte := (List.range n).map (fun i => m.get (a + i))

/-- Write a byte string. -/
def Memory.write (m : Memory) (a : Nat) : List Byte → Memory
  | [] => m
  | b :: bs => Memory.write (m.put a b) (a + 1) bs

/-- Forget every byte of a range: it reads as it does unlisted. [Log: 4 DESIGN CHOICE] -/
def Memory.wipe (m : Memory) (lo hi : Nat) : Memory := m.filter (fun c => !(lo ≤ c.1 && c.1 < hi))

/-- What a command does to memory. -/
inductive MemOp where
  | put (addr : Nat) (bytes : List Byte)
  | wipe (lo hi : Nat)
  deriving DecidableEq, Repr

/-- Do one change to memory. -/
def Memory.apply (m : Memory) : MemOp → Memory
  | .put a bs => m.write a bs
  | .wipe lo hi => m.wipe lo hi

/-- Do changes to memory in order. -/
def Memory.applyAll (m : Memory) (ops : List MemOp) : Memory := ops.foldl Memory.apply m

/-- The end of package memory, and the SRAM outside the retention bank (R137, R53). -/
def ipmEnd : Nat := 0x80000000
def sramRetLo : Nat := 0x0200000000
def sramGenLo : Nat := 0x0200200000
def sramEnd : Nat := 0x0201000000

/-! ### The frame of a command -/

/-- The state at the instant a command acts: what left the device before is forgotten, and when time passes the edge
closes and the clocks move on. [Log: 1 DEDUCED; 12 DESIGN CHOICE] -/
def State.arrive (dt : Nat) (s : State) : State :=
  let d := { s.dev with out := [] }
  if dt = 0 then { s with dev := d }
  else
    let (d, p) := closeEdge d s.places
    { s with dev := d.advance dt, places := p }

/-- The state a command leaves: its device, its memory, and the places as the device asked. -/
def State.leave (s : State) (d : Dev) (mem : Memory) : State :=
  let (d, p) := settlePlaces d s.places
  { s with dev := d, mem := mem, places := p }

/-- The outcome of a command that acts on the device alone. [Log: 1 DEDUCED] -/
def onDev (dt : Nat) (f : Dev → Dev) (s : State) : Host.Outcome State Fault Refusal :=
  let s := s.arrive dt
  .next (s.leave (f s.dev) s.mem)

/-- The outcome of a command that reads memory and may change it. -/
def onMem (dt : Nat) (f : Dev → Memory → Dev × List MemOp) (s : State) : Host.Outcome State Fault Refusal :=
  let s := s.arrive dt
  let (d, ops) := f s.dev s.mem
  .next (s.leave d (s.mem.applyAll ops))

/-- The outcome of a command that reads the event places and memory, and may change the device and memory. -/
def onAll (dt : Nat) (f : Dev → Memory → Places → Dev × List MemOp) (s : State) : Host.Outcome State Fault Refusal :=
  let s := s.arrive dt
  let (d, ops) := f s.dev s.mem s.places
  .next (s.leave d (s.mem.applyAll ops))

/-- The outcome of a command that takes the oldest records of a queue: `mlN` of the Mainland's, `fieldN` of FIELD's. -/
def onPlaces (dt : Nat) (mlN fieldN : Dev → Places → Nat) (f : Dev → Places → Dev) (s : State) :
    Host.Outcome State Fault Refusal :=
  let s := s.arrive dt
  let d := f s.dev s.places
  let p := { s.places with ml := s.places.ml.drop (mlN s.dev s.places), fieldQ := s.places.fieldQ.drop (fieldN s.dev s.places) }
  .next (State.leave { s with places := p } d s.mem)

end Sys2Proof.Machine
end

