-- ==== Sys2Proof/Machine/Common.lean ====
section
/-!
DEFINITION. Settings derived from parameters and the small effects several chapters share: filter settings and delays,
slots, units, stopping and dropping bursts, parking bias outputs, abandoning runs, discarding plans, MRAM stores.
-/

namespace Sys2Proof.Machine

/-! ### Filter settings and delays (04_filters_channelizer.md) -/

/-- Whether wide mode is in force (R24, R92, R93). -/
def Dev.wide (d : Dev) : Bool := d.rx.wide

/-- The parameters a start of a group latches (R104). -/
def latchKeys : List Nat := [P.bandRateCodeA, P.chanLog2BinsA, P.chanOversampleA, P.chanScaleA]

/-- The device as its running chains see it: group A's rates as latched at the start of its chains (R104). Only beside sentinel
chains can they differ from the parameters, which no write changes while the group is ACTIVE. -/
def Dev.latched (d : Dev) : Dev :=
  match d.rx.latch with
  | none => d
  | some vs => if d.sen.startAt.isSome || d.ab P.pwrActiveMask 0 then d.wAll (latchKeys.zip vs) else d

/-- Group A's chains run from here on with the rates as they stand (R104). -/
def Dev.latchRates (d : Dev) : Dev := { d with rx := { d.rx with latch := some (latchKeys.map d.a) } }

/-- D of R103. -/
def Dev.decim (d : Dev) (g : Nat) : Nat := 2 ^ (d.a (gk P.bandRateCodeA g) + 1)

/-- Fb in units of 100 kS/s: 2000 / 2^code (R103). -/
def Dev.fb (d : Dev) (g : Nat) : Nat := 2000 / 2 ^ d.a (gk P.bandRateCodeA g)

/-- N of R119. -/
def Dev.chanN (d : Dev) (g : Nat) : Nat := 2 ^ d.a (gk P.chanLog2BinsA g)

/-- o of R120. -/
def Dev.over (d : Dev) (g : Nat) : Nat := d.a (gk P.chanOversampleA g)

/-- H of R120. -/
def Dev.hop (d : Dev) (g : Nat) : Nat := d.chanN g / d.over g

/-- The band sample period in ps. -/
def Dev.bandPs (d : Dev) (g : Nat) : Nat := 2500 * d.decim g

/-- The bin sample period in ps. -/
def Dev.binPs (d : Dev) (g : Nat) : Nat := d.bandPs g * d.hop g

/-- L of the bank in force (R112). -/
def Dev.firLen (d : Dev) (g : Nat) : Nat := d.a (gk P.firLengthA g + d.a (gk P.firBankActiveA g))

/-- The span of a band output in converter samples (R124, R126). -/
def Dev.span (d : Dev) (g : Nat) : Nat :=
  let full := d.a (gk P.bandRateCodeA g) == 0
  47 + (if full then 0 else 60) + (d.firLen g - 1) * (if full then 2 else 4) + (if d.wide then 23 else 0)

/-- The band group delay in ps (R126). -/
def Dev.bandDelay (d : Dev) (g : Nat) : Nat := (d.span g - 1) * 1250

/-- The bin group delay in ps (R128). -/
def Dev.binDelay (d : Dev) (g : Nat) : Nat := d.bandDelay g + (8 * d.chanN g - 1) * 1250 * d.decim g

/-- S_b (R125). -/
def Dev.bandSettle (d : Dev) (g : Nat) : Nat := cdiv (d.span g - 1) (d.decim g)

/-- The zero-history count of bin samples (R125). -/
def Dev.binSettle (d : Dev) (g : Nat) : Nat := if d.over g = 1 then 9 else 17

/-- The time from a start to the first bin sample without SETTLE, in ps. -/
def Dev.settlePs (d : Dev) (g : Nat) : Nat := d.binSettle g * d.binPs g

/-- The rate of `k` words per bin sample of `bins` bins, k * bins * o * Fb / N (R198), in units of 2^-15 samples per
second, in which it is whole. -/
def Dev.binRate (d : Dev) (g bins k : Nat) : Nat := k * bins * d.over g * d.fb g * 100000 * (32768 / d.chanN g)

/-! ### Ephemeris times (R434) -/

/-- The time of an Ephemeris entry as a Meridian count. -/
def EphEnt.at_ (e : EphEnt) : Nat := e.secs * merUnit + e.frac * 2 ^ 72

/-- The time of an Ephemeris entry in Meridian ns. -/
def EphEnt.ns (e : EphEnt) : Nat := e.at_ * 10 ^ 9 / merUnit

/-! ### Slots (06_uplink_combining.md) -/

/-- The slot length in ns (R174). -/
def Dev.slotNs (d : Dev) : Nat := 250000 * 2 ^ d.a P.apSlotLengthCode

/-- The slot in progress by Meridian (R175). -/
def Dev.slotNow (d : Dev) : Nat := d.clk.mer * 10 ^ 9 / (merUnit * d.slotNs)

/-- The slot that holds a Meridian instant in ps. -/
def Dev.slotOfPs (d : Dev) (ps : Nat) : Nat := ps / (1000 * d.slotNs)

/-- The placement limit (R177). -/
def Dev.placeLimit (d : Dev) : Nat := sat 65536 (65536 * d.slotNs / 1000000)

/-- The DL placement limit (R261). -/
def Dev.dlPlaceLimit (d : Dev) : Nat := sat 16384 (16384 * d.slotNs / 1000000)

/-! ### Idle time (R58) -/

/-- The units that are coming up (R55). -/
def Dev.bringing (d : Dev) : Nat :=
  maskOf 6 (fun u => bit d.pwr.after u || d.pwr.jobs.any (fun j => j.kind == 1 && j.arg == u))

/-- No unit is ACTIVE or coming up, no plan is queued and no Ephemeris action runs. -/
def Dev.idleNow (d : Dev) : Bool :=
  d.a P.pwrActiveMask == 0 && d.bringing == 0 && d.ul.plans.isEmpty && d.ul.cur.isEmpty && d.dl.plans.isEmpty
    && d.dl.cur.isEmpty && d.col.win.isNone && d.col.run.isNone && d.a P.updStage != 4
    && d.eph.ent.all (fun (e : Nat × EphEnt) => e.2.state != 2)

/-- Keep the instant since which the device is idle. -/
def Dev.noteIdle (d : Dev) : Dev :=
  { d with pwr := { d.pwr with idleSince := if d.idleNow then some (d.pwr.idleSince.getD d.now) else none } }

/-! ### Units -/

/-- Units 0 and 1 are carrier groups A and B, 2 to 5 TX quadrants Q0 to Q3 (R54). -/
def Dev.active (d : Dev) (u : Nat) : Bool := d.ab P.pwrActiveMask u

/-- Whether a group exists (R92). -/
def Dev.groupExists (d : Dev) (g : Nat) : Bool := g == 0 || !d.wide

/-- Whether the sentinel chains run on their own (R223). -/
def Dev.sentinelRuns (d : Dev) : Bool := d.a P.sentinelEnable == 1 && (d.pw == 1 || d.active 0)

/-- Whether the device serves commands beyond its always-on domain. -/
def Dev.up (d : Dev) : Bool := d.pwr.phase == .running && d.pw != 0

/-! ### Rotation of converter cores (R81 to R85) -/

/-- The mask of paths that contribute in a group. -/
def Dev.eff (d : Dev) (g : Nat) : Nat := if g = 0 then d.rx.effA else d.rx.effB

/-- The roles of a quad that a chain serves: in wide mode both of an interleaved pair (R94). -/
def Dev.rolesOf (d : Dev) (g p : Nat) : List Nat := if d.wide then [p % 4, 4 + p % 4] else [4 * g + p % 4]

/-- Whether the core of a chain is powered: its path contributes or is starting (R98, R99). -/
def Dev.powered (d : Dev) (g p : Nat) : Bool := bit (d.eff g) p || d.rx.starts.any (fun s => s.1 == 64 * g + p)

/-- Whether role `k` of quad `u` is running (R81, R94). -/
def Dev.roleRuns (d : Dev) (u k : Nat) : Bool :=
  let p := 4 * u + k % 4
  let g := k / 4
  d.powered (if d.wide then 0 else g) p &&
    (d.active (if d.wide then 0 else g) ||
      (g == 0 && d.sentinelRuns && bit (d.a P.sentinelPathMask) p))

/-- The roles of a quad that run. -/
def Dev.rolesRun (d : Dev) (u : Nat) : Nat := maskOf 8 (d.roleRuns u)

/-- The next running role at or after `k` in the order 0 to 7 (R82). -/
def nextRole (run k : Nat) : Nat :=
  (((List.range 8).map (fun i => (k + i) % 8)).find? (bit run)).getD (k % 8)

/-- RxQuadCalState with a new state and so many more cycles (R101). -/
def Dev.setQuadState (d : Dev) (u st more : Nat) : Dev :=
  d.w (P.rxQuadCalState + u) (st + 256 * ((d.a (P.rxQuadCalState + u) / 256 + more) % 2 ^ 32))

/-- The core that serves role `k` of quad `u` (R80). -/
def Dev.coreOf (d : Dev) (u k : Nat) : Nat := bits (d.a (P.rxCoreMap + u)) (4 * k + 3) (4 * k)

/-- Put a core into a role of a quad's map. -/
def Dev.setCore (d : Dev) (u k c : Nat) : Dev :=
  let m := d.a (P.rxCoreMap + u)
  d.w (P.rxCoreMap + u) (m - bits m (4 * k + 3) (4 * k) * 2 ^ (4 * k) + c * 2 ^ (4 * k))

/-- The core that serves no role of a quad returns to the spare role (R88). -/
def Dev.coreReturns (d : Dev) (u : Nat) : Dev :=
  d.setCore u 8 (((List.range 9).find? (fun c => !(List.range 8).any (fun k => d.coreOf u k == c))).getD 0xF)

/-- Suspend or resume the rotation of one quad as its roles run or stop (R81): a fresh step looks for its first target from role 0,
the first of R82's order. The failures counted of a core stand until it passes (R87). [Log: 82 DEDUCED] -/
def Dev.updateQuad (d : Dev) (u : Nat) : Dev :=
  let q := d.rx.quads.getD u {}
  let run := d.rolesRun u
  let put (q : Quad) (d : Dev) : Dev := { d with rx := { d.rx with quads := modAt d.rx.quads u (fun _ => q) } }
  if q.stage = 4 then d
  else if run = 0 then
    (if q.stage = 0 ∨ q.stage = 5 then d else (put { q with stage := 0, done := 0 } d).setQuadState u 1 0)
  else if q.stage = 0 ∨ q.stage = 5 then
    let d := d.iff (q.stage == 5) (·.coreReturns u)
    (put { q with stage := 1, target := nextRole run 0, done := 0 } d).setQuadState u 0 0
  else if bit run q.target then d
  else put { q with target := nextRole run q.target, stage := if q.stage = 1 then 1 else 2 } d

/-- EV19 when every quad that neither is retired nor has its rotation suspended completed a cycle since the last one
(R89). -/
def Dev.spareCycle (d : Dev) : Dev :=
  let n := (d.rx.quads.filter (·.cycled)).length
  if 0 < n ∧ d.rx.quads.all (fun q => q.stage == 0 || q.stage == 4 || q.cycled) then
    ({ d with rx := { d.rx with quads := d.rx.quads.map (fun (q : Quad) => { q with cycled := false }) } }).raise 19 n
  else d

/-- Suspend or resume the rotation of every quad. -/
def Dev.updateQuads (d : Dev) : Dev := (d.each (List.range 16) (fun u d => d.updateQuad u)).spareCycle

/-- How long runs of SETTLE samples, grids and masks are remembered: no span, slot or sentinel ring reaches back further (R124, R128,
R232). -/
def settleMemory : Nat := 2 * 10 ^ 12

/-- The converter samples of a chain carry SETTLE from one elapsed ps to another (R47, R77, R127). Runs of one chain add up. -/
def Dev.settleRun (d : Dev) (g p from_ to_ : Nat) : Dev :=
  { d with rx := { d.rx with
    settle := (64 * g + p, from_, to_) :: d.rx.settle.filter (fun s => d.now < s.2.2 + settleMemory) } }

/-- The pre-alignment of a quad is abandoned where its target is one of some roles (R85). -/
def Dev.prealignOff (d : Dev) (u : Nat) (roles : List Nat) : Dev :=
  let q := d.rx.quads.getD u {}
  if q.stage = 2 ∧ roles.contains q.target then
    ({ d with rx := { d.rx with quads := modAt d.rx.quads u (fun q => { q with stage := 3 }) } }).inc P.rxSpareRestartCount
  else d

/-- A chain enters a SETTLE interval of `dur` ps: the pre-alignment to a role it serves is abandoned (R77, R85, R94). -/
def Dev.settleChain (d : Dev) (g p dur : Nat) : Dev :=
  (d.settleRun g p d.actAt (d.actAt + dur)).prealignOff (p / 4) (d.rolesOf g p)

/-! ### Grids (R124, R176, R516) -/

/-- An instant of the grid of a group with a period, elapsed ps below one period: on a member of a reduction tree of the lattice of R516
laid out from the epoch, else of the grid from the zero-history point. -/
def Dev.gridBase (d : Dev) (g per : Nat) : Nat :=
  if d.a P.redState = 1 ∨ d.a P.redState = 2 then (d.now + per - d.merPs % per) % per else d.rx.zeroAt.getD g 0 % per

/-- The first instant of a grid at or after an instant. -/
def gridFrom (base per t : Nat) : Nat := base + cdiv (t - base) per * per

/-- The instants of a grid in [a, b], less a delay, the reference instants (R129). -/
def countGrid (z per delay a b : Nat) : Nat := cdiv (b + delay - z) per - cdiv (a + delay - z) per

/-- The grid a group's chains run on now. -/
def Dev.gridNow (d : Dev) (g : Nat) : Grid :=
  let l := d.latched
  { group := g, zero := d.rx.zeroAt.getD g 0, till := 0, raw := (d.gridBase g (l.bandPs g), l.bandPs g, l.bandDelay g),
    bins := (d.gridBase g (l.binPs g), l.binPs g, l.binDelay g) }

/-- The present grid of an ACTIVE group ends for the reference instants from `till` on. -/
def Dev.gridEnds (d : Dev) (g till : Nat) : Dev :=
  if d.active g then
    { d with rx := { d.rx with grids := { d.gridNow g with till := till } :: d.rx.grids.filter (fun x => d.now < x.till + settleMemory) } }
  else d

/-! ### The sentinel ring (R231 to R233) -/

/-- n_s of R231. -/
def Dev.sentinelN (d : Dev) : Nat := popc 64 (d.a P.sentinelPathMask)

/-- R of R231; 0 paths are never accepted (R221). -/
def Dev.ringRecords (d : Dev) : Nat := 67108864 / (5 * d.sentinelN)

/-- Elapsed ps at which record 0 of the ring forms (R124, R231). -/
def Dev.ringZero (d : Dev) : Nat :=
  let per := d.latched.bandPs 0
  gridFrom (d.gridBase 0 per) per (d.sen.startAt.getD 0)

/-- The records written before an instant since the chains started, at which output 0 forms (R124, R231). -/
def Dev.ringBefore (d : Dev) (t : Nat) : Nat := if d.sen.startAt.isNone then 0 else cdiv (t - d.ringZero) (d.latched.bandPs 0)

/-- Those written by now. -/
def Dev.ringCount (d : Dev) : Nat := d.ringBefore (d.now + 1)

/-- SentinelRingWriteIndex (R231, R233). -/
def Dev.ringIndex (d : Dev) : Nat := if d.sen.startAt.isNone then d.a P.sentinelRingWriteIndex else d.ringCount % 2 ^ 40

/-- Bytes of the ring written in the Meridian second before the present one (`back` = 1), or in the present one (0). -/
def Dev.ringBytes (d : Dev) (back : Nat) : Nat :=
  let s := d.now - d.merPs % 10 ^ 12
  5 * d.sentinelN * (if back = 0 then d.ringCount - d.ringBefore s else d.ringBefore s - d.ringBefore (s - 10 ^ 12))

/-- The newest record of this run at a place of the ring; none where it has written none there. -/
def Dev.ringLast (d : Dev) (place : Nat) : Option Nat :=
  let n := d.ringCount
  if place < n ∧ place < d.ringRecords then some (n - 1 - (n - 1 - place) % d.ringRecords) else none

/-- A run of the sentinel chains ends (R233): what package memory served for it is counted (R148), and what scrub zeroed and no record
came over stays zero. -/
def Dev.ringEnds (d : Dev) : Dev :=
  if d.sen.startAt.isNone then d
  else
    let kept := d.sen.zeroed.filter (fun e => match d.ringLast ((e.1 - 0x6C000000) / (5 * d.sentinelN)) with
      | none => true
      | some j => j < e.2)
    let d := (d.servedAt 4 (d.secs - 1) (d.ringBytes 1)).servedAt 4 d.secs (d.ringBytes 0)
    { d with sen := { d.sen with runs := d.sen.runs + 1, zeroed := kept.map (fun e => (e.1, 0)) } }

/-- The sentinel chains stop where the state of the device no longer runs them; the ring keeps its index (R223, R233). -/
def Dev.sentinelStop (d : Dev) : Dev :=
  if d.sen.startAt.isSome && !d.sentinelRuns then
    let n := d.ringIndex
    let d := d.ringEnds
    (({ d with sen := { d.sen with startAt := none } }).w P.sentinelRingWriteIndex n).updateQuads
  else d

/-! ### Cross-fades -/

/-- End a group's cross-fade: the new bank is ACTIVE, the old IDLE, EV24 (R116, R118). -/
def Dev.endFade (d : Dev) (g : Nat) : Dev :=
  match d.rx.fade.getD g none with
  | none => d
  | some (old, _) =>
    let new := d.a (gk P.firBankActiveA g)
    let d := (d.w (gk P.firBankStateA g + old % 4) 0).w (gk P.firBankStateA g + new % 4) 1
    ({ d with rx := { d.rx with fade := modAt d.rx.fade g (fun _ => none) } }).raise 24 (g * 65536 + new)

/-! ### MRAM stores (R403) -/

/-- The records MRAM holds. -/
def Dev.mramNow (d : Dev) : Mram := ⟨d.cat.genMram, d.rx.trimSeq, d.rx.trimRec, d.dpd.warm, d.col.store⟩

/-- What MRAM holds of its records is kept beside them while a write of one waits. -/
def Dev.mramKeep (d : Dev) : Dev :=
  if d.nvm.before.isSome then d else { d with nvm := { d.nvm with before := some d.mramNow } }

/-- The device rests in DEEP, where a write of MRAM waits in the hold buffer for the next wake (R66). -/
def Dev.asleep (d : Dev) : Bool := d.pwr.phase == .running && d.pw == 0

/-- The writes of the hold buffer are done at a wake (R66); what R403 defers goes on waiting. -/
def Dev.holdDone (d : Dev) : Dev :=
  if d.nvm.deferring then d
  else { d with nvm := { d.nvm with alm := d.nvm.alm.drop (fun k => k % 2 == 0), before := none } }

/-- A write of MRAM that falls due: done, or held in DEEP, or deferred into the buffer, or discarded where the buffer has no room.
The first deferral raises EV70. [Log: 18 DEDUCED; 83 DEDUCED] -/
def Dev.mramWrite (d : Dev) (bytes : Nat) (f : Dev → Dev) : Dev :=
  if d.nvm.deferring then
    if nvmCap < d.nvm.used + bytes then d.inc P.nvmDeferredDiscardCount
    else
      let d := d.tellDefer
      f { d.mramKeep with nvm := { d.mramKeep.nvm with used := d.nvm.used + bytes, count := d.nvm.count + 1 } }
  else if d.asleep then f d.mramKeep
  else f d

/-- Bytes of a record whose layout the spec does not give, in the deferral buffer (log entry 21). [Log: 21 DESIGN CHOICE] -/
def unlaidBytes : Nat := 64

/-- The trims of every core go to MRAM as the newer record of an A/B pair (R90). [Log: 18 DEDUCED] -/
def Dev.trimStore (d : Dev) : Dev :=
  d.mramWrite unlaidBytes (fun d => { d with rx := { d.rx with
    trimSeq := d.rx.trimSeq + 1, trimRec := d.rx.trims, trimAt := d.now } })

/-- Every core loads the newest good record and runs on it until its first takeover (R90, R91). -/
def Dev.trimLoad (d : Dev) : Dev :=
  if d.rx.trimSeq = 0 then d
  else { d with rx := { d.rx with trims := d.rx.trimRec, onStored := List.replicate 144 true } }

/-- A hardware write of an N-class parameter (R9): the value stands at once, MRAM's copy follows under R403. `nvm.alm`
keeps what MRAM still holds: key 2 k for a write in the buffer, 2 k + 1 for a discarded one. -/
def Dev.wN (d : Dev) (k v : Nat) : Dev :=
  if d.a k = v then d
  else
    let old := d.a k
    let keep (slot : Nat) (d : Dev) : Dev :=
      if (d.nvm.alm.get? (2 * k)).isSome ∨ (d.nvm.alm.get? (2 * k + 1)).isSome then d
      else { d with nvm := { d.nvm with alm := d.nvm.alm.set slot old } }
    if d.nvm.deferring then
      if nvmCap < d.nvm.used + keyBits k / 8 then ((keep (2 * k + 1) d).inc P.nvmDeferredDiscardCount).w k v
      else (d.mramWrite (keyBits k / 8) (keep (2 * k))).w k v
    else if d.asleep then (keep (2 * k) d).w k v
    else d.w k v

/-- REFO forwards REFCLK: VDD_AON and VDD_IO18 are within limits, RefoEnable is 1 and REFCLK runs (R42). -/
def Dev.refoRuns (d : Dev) : Bool := d.ab P.railStatus 0 && d.ab P.railStatus 13 && d.a P.refoEnable == 1 && !d.clk.onLpo

/-- Start the forwarding, or hold REFO static. -/
def Dev.refoFollow (d : Dev) : Dev :=
  if d.refoRuns = d.pwr.refo then d else ({ d with pwr := { d.pwr with refo := d.refoRuns } }).pin .refo d.refoRuns

/-- Add one to an N-class counter. -/
def Dev.incN (d : Dev) (k : Nat) : Dev := d.wN k (((d.inc k)).a k)

/-! ### Collimation and predistortion runs given up -/

/-- CollimState (R355): a run, a delay walk, a window without a run, or idle. -/
def Dev.showCol (d : Dev) : Dev :=
  d.w P.collimState (if d.col.run.isSome then 1 else if d.a P.collimWalkRemaining != 0 then 3 else if d.col.win.isSome then 2 else 0)

/-- Abandon a Collimation run with an EV58 status (R347): the record in force and its figures stand. -/
def Dev.colAbandon (d : Dev) (status : Nat) : Dev :=
  match d.col.run with
  | none => d
  | some _ =>
    let d := ({ d with col := { d.col with run := none } }).showCol
    ((d.w P.collimFiguresStale 0).incN P.collimAbandonCount).raise 58 status

/-- The groups a run measures: enabled for downlink and existing (R343). -/
def Dev.colGroups (d : Dev) : Nat := maskOf 2 (fun g => d.ab P.dlGroupEnable g && d.groupExists g)

/-- A run can measure a path in a group: enabled both ways, its quadrant not held, no needed synthesiser FAILED (R346, R348). -/
def Dev.colPathOk (d : Dev) (g p : Nat) : Bool :=
  bit d.colGroups g && bit (d.a (gk P.rxPathEnableA g)) p && d.ab P.dlPathEnable p && !bit d.col.skip (p / 16) &&
    !d.ab P.synthFailedMask (3 * (p / 16) + g) && !d.ab P.synthFailedMask (3 * (p / 16) + 2)

/-- Some path can be measured. -/
def Dev.measurable (d : Dev) : Bool := [0, 1].any (fun g => (List.range 64).any (fun p => d.colPathOk g p))

/-- Quadrants are held out of ACTIVE during a run: it goes on for the other paths, and is given up where none is left (R348). -/
def Dev.colHold (d : Dev) (quads : Nat) : Dev :=
  if d.col.run.isNone then d
  else
    let d := { d with col := { d.col with skip := maskOr 4 d.col.skip quads } }
    d.iff (!d.measurable) (·.colAbandon 3)

/-- Abandon the DPD capture of a quadrant: counted, and the path keeps its turn (R316, R317). -/
def Dev.dpdAbandon (d : Dev) (q : Nat) : Dev :=
  match (d.dpd.quads.getD q {}).cap with
  | none => d
  | some (p, _) =>
    ({ d with dpd := { d.dpd with quads := modAt d.dpd.quads q (fun x => { x with cap := none, turn := p :: x.turn }) } }).inc
      (P.dpdSkipCount + p % 64)

/-! ### TX paths and bursts (R276 to R280, R292 to R296) -/

/-- The burst record of a quadrant. -/
def Dev.burst (d : Dev) (q : Nat) : Burst := d.dl.burst.getD q {}

/-- Change the burst record of a quadrant. -/
def Dev.setBurst (d : Dev) (q : Nat) (f : Burst → Burst) : Dev := { d with dl := { d.dl with burst := modAt d.dl.burst q f } }

/-- The state of a synthesiser: 40 us into an attempt at the latest the band is found and the loop settles (R286). -/
def Dev.synthSt (d : Dev) (k : Nat) : Nat :=
  let st := d.a (P.synthState + k)
  if st = 1 ∧ d.syn.tried.getD k 0 + 40000000 ≤ d.now then 2 else st

/-- The state of the TX paths of a quadrant while no burst emits (R292). -/
def Dev.txIdleState (d : Dev) (q : Nat) : Nat :=
  if d.active (2 + q) then
    (match d.synthSt (3 * q + 2) with
     | 3 => 3
     | 2 => 2
     | _ => 1)
  else 0

/-- Set TxPathState of the 16 paths of a quadrant. -/
def Dev.setTxPaths (d : Dev) (q v : Nat) : Dev := d.each (List.range 16) (fun i d => d.w (P.txPathState + 16 * q + i) v)

/-- Bring TxPathState of a quadrant up to date (R292). -/
def Dev.refreshTx (d : Dev) (q : Nat) : Dev :=
  match (d.burst q).st with
  | 2 => d.setTxPaths q 4
  | 4 => d.setTxPaths q 5
  | 5 => d.setTxPaths q 5
  | _ => d.setTxPaths q (d.txIdleState q)

/-- Report one drop (R280). -/
def Dev.reportDrop (d : Dev) (q cause : Nat) : Dev := (d.inc (P.dlBurstDropCount + q)).raise 45 (q + 4 * cause)

/-- A quadrant leaves ON: the time it stood there counts for the visits of its ORX (R315). -/
def Dev.leaveOn (d : Dev) (q : Nat) : Dev :=
  let b := d.burst q
  if b.st = 2 then { d with dpd := { d.dpd with quads := modAt d.dpd.quads q (fun x => { x with onTime := x.onTime + (d.now - b.on) }) } }
  else d

/-- Stop a burst mid-slot: it ramps down and its rest is dropped (R279, R280). One that is only requested stands: its first sample time
decides on it (R277, R294). -/
def Dev.stopBurst (d : Dev) (q cause : Nat) : Dev :=
  let st := (d.burst q).st
  if st = 2 ∨ st = 4 then
    ((((d.dpdAbandon q).leaveOn q).setBurst q (fun b => { b with st := 5 })).reportDrop q cause).refreshTx q
  else d

/-- A quadrant stops at once, without READY paths to return to: its paths go OFF. -/
def Dev.killBurst (d : Dev) (q cause : Nat) : Dev :=
  let d := d.stopBurst q cause
  d.iff ((d.burst q).st == 5) (fun d => d.setBurst q (fun b => { b with st := 3, ended := some d.now }))

/-- Take units out of ACTIVE at once; PwrState falls to READY when none is left (R54). -/
def Dev.dropUnits (d : Dev) (mask : Nat) : Dev :=
  let m := maskSub 6 (d.a P.pwrActiveMask) mask
  let d := (d.endFade 0 |> fun d1 => if bit mask 0 then d1 else d)
  let d := (d.endFade 1 |> fun d1 => if bit mask 1 then d1 else d)
  let left := maskAnd 6 (d.a P.pwrActiveMask) mask
  let d := d.each [0, 1] (fun g d => d.iff (bit mask g) (·.gridEnds g d.now))
  let d := d.w P.pwrActiveMask m
  let d := d.iff (d.pw == 3 && m == 0) (fun d => d.w P.pwrState d.pwr.base)
  let stay := d.pwr.jobs.filter (fun (j : Job) => j.kind != 1 || !bit mask j.arg)
  let one : Job := ⟨2, left, d.now⟩
  let d := { d with pwr := { d.pwr with
    after := maskSub 6 d.pwr.after mask, jobs := if left = 0 then stay else stay ++ [one] } }
  let d := d.each [0, 1] (fun g d => d.iff (bit mask g) (fun d =>
    { d with rx := { d.rx with zero := modAt d.rx.zero g (fun _ => none) } }))
  let d := d.each [0, 1, 2, 3] (fun q d => d.iff (bit mask (2 + q)) (·.refreshTx q))
  d.updateQuads.sentinelStop.noteIdle

/-! ### Plans -/

/-- Count of queued plans shown in ApPlanQueuedA and B. -/
def Dev.showQueued (d : Dev) : Dev :=
  d.each [0, 1] (fun g d => d.w (gk P.apPlanQueuedA g) ((d.ul.plans.filter (·.group == g)).length))

/-- Discard the queued SLOT_PLANs a test selects, counting each (R217). -/
def Dev.discardPlans (d : Dev) (p : Plan → Bool) : Dev :=
  let n := (d.ul.plans.filter p).length
  (({ d with ul := { d.ul with plans := d.ul.plans.filter (fun x => !p x) } }).add P.apPlanDiscardCount n).showQueued.noteIdle

/-- Discard the queued DL_PLANs a test selects, counting each (R281), with the DL_DATA that came for them. -/
def Dev.discardDl (d : Dev) (p : Plan → Bool) : Dev :=
  let n := (d.dl.plans.filter p).length
  ({ d with dl := { d.dl with
    plans := d.dl.plans.filter (fun x => !p x),
    got := d.dl.got.filter (fun b => !(d.dl.plans.any (fun x => p x && x.slot == b.slot && x.group == b.group))) } }).add
      P.dlPlanDiscardCount n |>.noteIdle

/-- Discard every queued plan (R66, R445). -/
def Dev.discardAllPlans (d : Dev) : Dev := (d.discardPlans (fun _ => true)).discardDl (fun _ => true)


/-! ### Power steps and bias (R301 to R305, R357 to R366) -/

/-- The limit of a path's step (R303). -/
def Dev.stepLimit (d : Dev) (p : Nat) : Nat := max (d.fus.ceiling.getD (p / 16) 0) (d.a (P.txPowerFloor + p))

/-- The effective step of R303. -/
def Dev.stepNow (d : Dev) (p : Nat) : Nat :=
  min 255 (max (d.a (P.txStepActive + p)) (d.stepLimit p) + d.a P.txThrottleSteps)

/-- The power-table entry a step selects: the next index at or above it whose entry is valid (R302). -/
def Dev.powerEntry (d : Dev) (p s : Nat) : Nat :=
  let base := P.txPowerTable0 + p * 2 ^ 24
  (((List.range (256 - s)).map (fun i => d.a (base + s + i))).find? (fun e => bit e 3)).getD 0

/-- The TRIM in effect on a path (R322): the entry's TRIM while TRIM_EN is set. -/
def Dev.trimOf (d : Dev) (p : Nat) : Int :=
  let e := d.powerEntry p (d.a (P.txStepEffective + p))
  if bit e 2 then sx 8 (bits e 11 4) else 0

/-- Low and high end of a bias range in mV (R357). -/
def biasEnds : Nat → Int × Int
  | 0 => (-10000, 0)
  | 1 => (-5000, 0)
  | 2 => (0, 5000)
  | _ => (0, 10000)

/-- The output voltage of code `n` in a range, in units of 1/4,095 mV (R357). -/
def biasVoltage (range n : Nat) : Int :=
  let (lo, hi) := biasEnds range
  lo * 4095 + (hi - lo) * n

/-- The code a park voltage is driven as in a range (R358). -/
def parkCode (range mv : Nat) : Nat :=
  let (lo, hi) := biasEnds range
  let c := rnear ((sx 16 mv - lo) * 4095) (hi - lo).toNat
  (clampI 0 4095 c).toNat

/-- BiasOutputCode of one output by its state (R366). -/
def Dev.biasCode (d : Dev) (i : Nat) : Nat :=
  match d.a (P.biasOutputState + i) with
  | 0 => 0xFFFF
  | 2 =>
    let t : Int := if i < 64 then d.trimOf i else 0
    (clampI 0 4095 ((d.a (P.biasCodeActive + i) : Nat) + t)).toNat
  | _ => parkCode (d.a (P.biasRange + i / 16)) (d.a (P.biasPark + i))

/-- Bring the code at an output up to date. -/
def Dev.driveBias (d : Dev) (i : Nat) : Dev := d.w (P.biasOutputCode + i) (d.biasCode i)

/-- Put one output into a state and drive it. -/
def Dev.biasTo (d : Dev) (i st : Nat) : Dev := (d.w (P.biasOutputState + i) st).driveBias i

/-- Recompute the effective step of a path (R305); with TRIM the bias code follows, and a changed TRIM puts the path first
for its quadrant's next visit (R322). -/
def Dev.restep (d : Dev) (p : Nat) : Dev :=
  let t0 := d.trimOf p
  let d := d.w (P.txStepEffective + p) (d.stepNow p)
  let d := d.driveBias p
  if d.trimOf p = t0 then d
  else { d with dpd := { d.dpd with quads := modAt d.dpd.quads (p / 16) (fun x =>
    { x with turn := if x.turn.contains p then x.turn else x.turn ++ [p] }) } }

/-- Park the outputs of the groups in a mask for a cause of R362, without the event. CLAMPED outputs stay clamped. -/
def Dev.parkGroups (d : Dev) (groups cause : Nat) : Dev :=
  d.each (bitList 5 groups) (fun g d =>
    let d := d.iff (cause != 0) (fun d => d.w (P.biasParkCause + g) (putBit (d.a (P.biasParkCause + g)) (cause - 1) true))
    let d := d.each (List.range 16) (fun j d =>
      let i := 16 * g + j
      if d.a (P.biasOutputState + i) = 0 then d
      else
        let d := d.biasTo i 1
        d.iff (cause != 0) (fun d => { d with bias := { d.bias with byCause := putBit d.bias.byCause i true } }))
    -- R363: the TX quadrant of the group is held, a burst in progress stops; but for a fault that acts at once the quadrant leaves
    -- ACTIVE after the RAMP (R57)
    if cause != 0 && g < 4 then
      let d := (d.stopBurst g 6).colHold (2 ^ g)
      if (cause == 3 || cause == 5) && (d.burst g).st == 5 then d else d.dropUnits (2 ^ (2 + g))
    else d)

/-- Park for a cause with its EV60 (R362). -/
def Dev.park (d : Dev) (groups cause : Nat) : Dev := (d.parkGroups groups cause).raise 60 (cause + 8 * groups)

/-- A cause's condition ends for a group (R363). -/
def Dev.endCause (d : Dev) (g cause : Nat) : Dev :=
  d.w (P.biasParkCause + g) (putBit (d.a (P.biasParkCause + g)) (cause - 1) false)

/-- Whether a TX quadrant is held out of ACTIVE: TX_DISABLE (R446), a bias park (R363), the safe chart (R584), or a PLL
not locked (R47). -/
def Dev.txHeld (d : Dev) (q : Nat) : Bool :=
  d.ab P.ephTxDisabledMask q || (List.range 16).any (fun j => bit d.bias.byCause (16 * q + j)) || d.cha.safe
    || d.pwr.convBad || d.pwr.coreBad

/-! ### Temperatures (R323) -/

/-- The quadrant temperature of R323 in 0.1 degrees C: the highest valid reading of its sensors, else the hottest valid
die sensor. -/
def Dev.quadTemp (d : Dev) (q : Nat) : Int :=
  let ok (n : Nat) : Option Int :=
    let s := d.thm.sens.getD n {}
    if s.lastValid then some s.last else none
  let best (l : List Nat) : Option Int :=
    l.foldl (fun acc n => match acc, ok n with
      | none, x => x
      | some a, some b => some (if a < b then b else a)
      | some a, none => some a) none
  match best [4 * q, 4 * q + 1, 4 * q + 2, 4 * q + 3] with
  | some t => t
  | none => (best (List.range 16)).getD (sx 16 (Config.freeValue d.clk.free 480 % 2 ^ 16))

/-- The temperature bin of R323. -/
def tempBin (t : Int) : Nat := (clampI 0 14 ((t + 400).fdiv 100)).toNat

end Sys2Proof.Machine
end

