-- ==== Sys2Proof/Machine/Flags.lean ====
section
/-!
DEFINITION. Sample words, their tags and their arithmetic (00_scope.md R10 to R16, R106, R188), Catalogue signatures
(R155 to R160), the compact blocks of R489 and the lane checks of R452 to R454.
-/

namespace Sys2Proof.Machine

/-! ### Native words (R10, R106) -/

/-- I of a native word. -/
def wordI (w : Nat) : Int := sx 18 (bits w 39 22)

/-- Q of a native word. -/
def wordQ (w : Nat) : Int := sx 18 (bits w 21 4)

/-- The four tags of a native word: [3] PARTIAL, [2] CAL, [1] CLIP, [0] SETTLE. -/
def wordTags (w : Nat) : Nat := w % 16

/-- A native word from its fields. -/
def mkWord (i q : Int) (tags : Nat) : Nat := ux 18 i * 2 ^ 22 + ux 18 q * 2 ^ 4 + tags % 16

/-- The zero word tagged PARTIAL (R203). -/
def partialZero : Nat := 8

/-- The zero word tagged CAL (R203). -/
def calZero : Nat := 4

/-- Saturate a component to 18 bits and say whether it was outside (R106). -/
def sat18 (v : Int) : Int × Bool := (clampI (-131072) 131071 v, v < -131072 || 131071 < v)

/-- A word from components given as a quotient by `den`: rounded, saturated, with CLIP where it saturates (R106). -/
def roundWord (i q : Int) (den tags : Nat) : Nat :=
  let (a, ca) := sat18 (rhe i den)
  let (b, cb) := sat18 (rhe q den)
  mkWord a b (maskOr 4 tags (if ca || cb then 2 else 0))

/-- Whether a sample may enter ATTACH or a refresh: neither SETTLE, CAL nor CLIP (R210, R214). -/
def cleanTags (w : Nat) : Bool := !bit w 0 && !bit w 1 && !bit w 2

/-! ### Compact words (R12 to R14, R489) -/

/-- A component in a block of exponent `e`. -/
def mantissa (v : Int) (e : Nat) : Int := rhe v (2 ^ e)

/-- Whether every component of a block fits 11 bits at an exponent. -/
def fits (ws : List Nat) (e : Nat) : Bool :=
  ws.all (fun w => [wordI w, wordQ w].all (fun v => let m := mantissa v e; -1024 ≤ m && m ≤ 1023))

/-- The exponent of a block: the smallest that fits, 7 where none does (R14). -/
def blockExp (ws : List Nat) : Nat := ((List.range 8).find? (fits ws)).getD 7

/-- The compact word of a native word at an exponent (R12). -/
def compactWord (e w : Nat) : Nat :=
  let m (v : Int) : Nat := ux 11 (clampI (-1024) 1023 (mantissa v e))
  m (wordI w) * 2 ^ 13 + m (wordQ w) * 2 ^ 2 + 2 * b2n (bit w 0 || bit w 2) + b2n (bit w 1 || bit w 3)

/-- The native word a compact word stands for (R13). -/
def expandWord (e c : Nat) : Nat :=
  mkWord (sx 11 (bits c 23 13) * 2 ^ e) (sx 11 (bits c 12 2) * 2 ^ e) 0

/-- One pair of blocks as 193 bytes (R489). -/
def pairBytes (ws : List Nat) : List Byte :=
  let a := ws.take 32
  let b := (ws.drop 32).take 32
  let ea := blockExp a
  let eb := blockExp b
  let body := (a.map (compactWord ea) ++ b.map (compactWord eb)).flatMap (leBytes 3)
  BitVec.ofNat 8 (ea + 16 * eb) :: padTo 192 body

/-- Words as pairs of blocks, counted from the first word. -/
def compactBytes : Nat → List Nat → List Byte
  | 0, _ => []
  | n + 1, ws => if ws.isEmpty then [] else pairBytes ws ++ compactBytes n (ws.drop 64)

/-- Native words as bytes. -/
def nativeBytes (ws : List Nat) : List Byte := ws.flatMap (leBytes 5)

/-- The first `n` words of compact pairs (R489). -/
def readCompact : Nat → List Byte → List Nat
  | 0, _ => []
  | n + 1, bs =>
    if bs.isEmpty then []
    else
      let e := (field bs 0 1)
      let one (i : Nat) : Nat := expandWord (if i < 32 then e % 16 else e / 16 % 16) (field bs (1 + 3 * i) 3)
      (List.range 64).map one ++ readCompact n (bs.drop 193)

/-- `n` native words of a byte string. -/
def readNative (n : Nat) (bs : List Byte) : List Nat := (List.range n).map (fun i => field bs (5 * i) 5)

/-! ### Partial words (R15, R16, R518, R519) -/

/-- A partial word from a sum, saturated to 19 bits with CLIP (R15, R518). -/
def mkPartial (i q : Int) (part clip : Bool) : Nat :=
  let s (v : Int) : Int := clampI (-262144) 262143 v
  let ovr := s i != i || s q != q
  ux 19 (s i) * 2 ^ 21 + ux 19 (s q) * 2 ^ 2 + 2 * b2n part + b2n (clip || ovr)

/-- I of a partial word. -/
def partI (w : Nat) : Int := sx 19 (bits w 39 21)

/-- Q of a partial word. -/
def partQ (w : Nat) : Int := sx 19 (bits w 20 2)

/-- The output word of a total (R519): half of it, with SETTLE and CAL of the collector's own word. -/
def partialOut (t own : Nat) : Nat :=
  let tags := 8 * b2n (bit t 1) + maskAnd 4 (own % 16) 5 + 2 * b2n (bit t 0)
  roundWord (partI t) (partQ t) 2 tags

/-! ### Tap words and signatures (R158 to R160) -/

/-- A tap. -/
structure Tap where
  beam : Nat
  i : Int
  q : Int
  valid : Bool
  walked : Bool
  deriving DecidableEq, Repr

/-- A tap of a tap word. -/
def tapOf (w : Nat) : Tap := ⟨bits w 39 34, sx 16 (bits w 33 18), sx 16 (bits w 17 2), bit w 1, bit w 0⟩

/-- The word of a tap. -/
def tapWord (t : Tap) : Nat :=
  t.beam * 2 ^ 34 + ux 16 t.i * 2 ^ 18 + ux 16 t.q * 2 ^ 2 + 2 * b2n t.valid + b2n t.walked

/-- The signature of a group in an entry image: its valid taps in order. -/
def sigOf (image : List Byte) (g : Nat) : List Tap :=
  ((List.range 8).map (fun j => tapOf (field image (16 + 40 * g + 5 * j) 5))).filter (·.valid)

/-- The combined sample of a placement before rounding: the sum of w_j times the beam words, in units of 2^-15 of an LSB,
with the tags of the taps' beams (R203). -/
def combine (taps : List Tap) (beams : List Nat) : Int × Int × Nat :=
  taps.foldl (fun acc t =>
    let b := beams.getD t.beam 0
    (acc.1 + t.i * wordI b - t.q * wordQ b, acc.2.1 + t.i * wordQ b + t.q * wordI b,
      maskOr 4 acc.2.2 (wordTags b))) (0, 0, 0)

/-- The PLACED word of a signature (R203). -/
def placedWord (taps : List Tap) (beams : List Nat) : Nat :=
  let (i, q, t) := combine taps beams
  roundWord i q 32768 t

/-- The flags of a contribution from the tags of y (R16): [1] PARTIAL, [0] CLIP; SETTLE and CAL are carried as CLIP 0 and
PARTIAL 1. -/
def partFlags (tags : Nat) : Nat :=
  let open_ := bit tags 0 || bit tags 2
  2 * b2n (bit tags 3 || open_) + b2n (bit tags 1 && !open_)

/-- y scaled by 2^-s, rounded in units of half an LSB (R518). -/
def ownPartial (taps : List Tap) (beams : List Nat) (s : Nat) : CPair :=
  let (i, q, _) := combine taps beams
  (rhe (2 * i) (32768 * 2 ^ s), rhe (2 * q) (32768 * 2 ^ s))

/-! ### Lane checks (R452 to R454) -/

/-- One bit into the CRC-8 of R452: x^8 + x^2 + x + 1, initial value 0. -/
def crc8Bit (c : Nat) (b : Bool) : Nat :=
  let top := bit c 7
  let c' := (c * 2) % 256
  if top != b then c' ^^^ 0x07 else c'

/-- The CRC-8 over a bit string, first bit first. -/
def crc8 (bs : List Bool) : Nat := bs.foldl crc8Bit 0

/-- The value of bits sent most significant first. -/
def bitsMsb (bs : List Bool) : Nat := bs.foldl (fun v b => 2 * v + b2n b) 0

/-- What the run-length limiter of R454 gives back from a received payload of `n` bits: the bits, how many inserted ones it
removed and whether one was not the inverse of its run. -/
def destuff : Nat → Bool → Nat → List Bool → List Bool × Nat × Bool
  | 0, _, _, _ => ([], 0, false)
  | _ + 1, _, _, [] => ([], 0, false)
  | n + 1, rb, run, b :: bs =>
    let run' := if b = rb then run + 1 else 1
    if run' = 40 then
      match bs with
      | [] => ([b], 0, false)
      | x :: rest =>
        let (out, k, bad) := destuff n (!b) 1 rest
        (b :: out, k + 1, bad || x == b)
    else
      let (out, k, bad) := destuff n b run' bs
      (b :: out, k, bad)

/-- The keystream of R453 from a state. -/
def keystream : Nat → Nat → List Bool
  | 0, _ => []
  | n + 1, st =>
    let s := bit st 30 != bit st 27
    s :: keystream n ((st * 2 + b2n s) % 2 ^ 31)

/-- Bits exclusive-or'd with a keystream. -/
def unscramble (seed : Nat) (bs : List Bool) : List Bool :=
  (bs.zip (keystream bs.length seed)).map (fun p => p.1 != p.2)

/-- Bytes of bits sent most significant first (R455). -/
def bitsToBytes : Nat → List Bool → List Byte
  | 0, _ => []
  | n + 1, bs => if bs.length < 8 then [] else BitVec.ofNat 8 (bitsMsb (bs.take 8)) :: bitsToBytes n (bs.drop 8)

/-- The `n` bits of a value, most significant first. -/
def msbBits (n v : Nat) : List Bool := ((List.range n).map (bit v)).reverse

/-- The bits of bytes, each most significant first (R455). -/
def bytesToBits (bs : List Byte) : List Bool := bs.flatMap (fun b => msbBits 8 b.toNat)

/-- A payload with the bits the run-length limiter of R454 inserts, from a run of `run` bits equal to `rb` on. -/
def stuffed : Bool → Nat → List Bool → List Bool
  | _, _, [] => []
  | rb, run, b :: bs =>
    let run' := if b = rb then run + 1 else 1
    if run' = 40 then b :: (!b) :: stuffed (!b) 1 bs else b :: stuffed b run' bs

/-- `n` alternating bits from `b` on. -/
def alternating : Nat → Bool → List Bool
  | 0, _ => []
  | n + 1, b => b :: alternating n (!b)

/-- A lane header (R452) but for its HCRC: FCOUNT, LANE, STAGE, TAP, REQ, RESP, RX_DONE and WIDTH. -/
def laneHeader (fcount lane stage tap req resp : Nat) (done : Bool) (width : Nat) : List Bool :=
  msbBits 24 fcount ++ msbBits 3 lane ++ msbBits 2 stage ++ msbBits 2 tap ++ msbBits 2 req ++ msbBits 2 resp ++ [done]
    ++ msbBits 2 width ++ msbBits 2 0

/-- The seed of the scrambler of a frame (R453). -/
def frameSeed (fcount lane : Nat) : Nat := (fcount * 128 + 64 + lane) % 2 ^ 31

/-- The 4,233 bits of a frame after its header bits [47:8] and 506 data bytes: marker, header with HCRC, scrambled data, inserted
bits and fill (R451 to R454). -/
def frameBits (fcount lane : Nat) (header : List Bool) (data : List Byte) : List Bool :=
  let body := header ++ msbBits 8 (crc8 header) ++ unscramble (frameSeed fcount lane) (bytesToBits data)
  let sent := stuffed true 1 body
  msbBits 32 0xE1B42D97 ++ sent ++ alternating (4201 - sent.length) (!(sent.getLastD true))

/-- The data bytes of one FCOUNT as `n` lanes in use carry them: 506 to each, in ascending lane number (R455). -/
def laneData : Nat → List Byte → List (List Byte)
  | 0, _ => []
  | n + 1, bs => padTo 506 bs :: laneData n (bs.drop 506)

end Sys2Proof.Machine
end

