-- ==== Sys2Proof/Machine/Operands.lean ====
section
/-!
DEFINITION. The layouts of what comes in: plan segments and their items and records (R190 to R193, R256, R257, R693),
CATALOGUE_OP, ATTACH and DL_DATA bodies (R169, R209, R265), Catalogue entries (R155 to R159).
-/

namespace Sys2Proof.Machine

/-! ### Plan segments -/

/-- The header of a plan segment: R190 for SLOT_PLAN, R256 for DL_PLAN (whose ITEMS is 0). -/
structure SegHdr where
  slot : Nat
  group : Nat
  seg : Nat
  last : Bool
  compact : Bool
  items : Nat
  count : Nat
  total : Nat
  deriving DecidableEq, Repr

/-- Read a segment header. -/
def segHdr (dl : Bool) (b : List Byte) : SegHdr where
  slot := field b 0 8
  group := field b 8 1 % 2
  seg := field b 9 1
  last := bit (field b 10 1) 0
  compact := bit (field b 10 1) 1
  items := if dl then 0 else field b 11 1
  count := field b 12 2
  total := field b 16 4

/-- A mode item of its 64-bit value (R191). -/
def modeItem (v : Nat) : ModeItem where
  kind := bits v 63 60
  first := bits v 59 45
  count := bits v 44 30 + 1
  quad := bits v 59 58
  mask := bits v 57 42

/-- A placement record of its 64-bit value (R192). -/
def placement (v : Nat) : Place where
  cat := bits v 63 41
  first := bits v 40 26
  count := bits v 25 11 + 1
  layer := bits v 10 7
  refresh := bit v 6

/-- A DL placement record of its 16 bytes (R257): `gain` is STEP and `tag` 1 with NO_HINT. -/
def dlPlacement (b : List Byte) : Place where
  cat := field b 0 4 % 2 ^ 23
  first := field b 4 2
  count := field b 6 2
  layer := field b 8 1 % 16
  refresh := false
  gain := field b 9 1
  tag := field b 10 1 % 2

/-- The mode items of a SLOT_PLAN segment body. -/
def segItems (b : List Byte) (n : Nat) : List ModeItem := (List.range n).map (fun i => modeItem (field b (32 + 8 * i) 8))

/-- The placement records of a segment body. -/
def segPlaces (dl : Bool) (b : List Byte) (items n : Nat) : List Place :=
  if dl then (List.range n).map (fun i => dlPlacement (slice b (32 + 16 * i) 16))
  else (List.range n).map (fun i => placement (field b (32 + 8 * items + 8 * i) 8))

/-- The checks of R693 on one segment. -/
def segOk (dl : Bool) (h : SegHdr) (b : List Byte) : Bool :=
  let shape := h.seg ≤ 63 && (h.items ≤ 64 && (h.seg == 0 || h.items == 0)) &&
    (if dl then h.count ≤ 574 && h.total ≤ 16384 && b.length == 32 + 16 * h.count
     else h.count ≤ 1148 && h.total ≤ 65536 && b.length == 32 + 8 * h.items + 8 * h.count)
  shape &&
    (if dl then (segPlaces true b 0 h.count).all (fun p => 1 ≤ p.count && p.count ≤ 32768 && p.first < 32768)
     else (segItems b h.items).all (fun i => 1 ≤ i.kind && i.kind ≤ 3))

/-! ### Catalogue entries (R155 to R159) -/

/-- The states of an entry. -/
def stEmpty : Nat := 0
def stAttached : Nat := 1
def stStale : Nat := 2
def stLocked : Nat := 3

/-- HEADER of an entry image. -/
def entHeader (b : List Byte) : Nat := field b 0 8

/-- CATNUM of an entry image. -/
def entCat (b : List Byte) : Nat := bits (entHeader b) 63 41

/-- STATE of an entry image. -/
def entState (b : List Byte) : Nat := bits (entHeader b) 40 39

/-- The VALID bit of a group's signature: [38] A, [37] B. -/
def entValid (b : List Byte) (g : Nat) : Bool := bit (entHeader b) (38 - g)

/-- NO_WALK. -/
def entNoWalk (b : List Byte) : Bool := bit (entHeader b) 36

/-- GEN of an entry image. -/
def entGen (b : List Byte) : Nat := bits (entHeader b) 31 0

/-- DL_POWER_HINT, two's complement (R159, R271). -/
def entHint (b : List Byte) : Int := sx 8 (bits (field b 96 8) 31 24)

/-- TAPS of a group in SUMMARY. -/
def entTaps (b : List Byte) (g : Nat) : Nat := bits (field b 96 8) (63 - 4 * g) (60 - 4 * g)

/-- An entry image with bytes replaced from an offset on. -/
def setBytes (b : List Byte) (off : Nat) (v : List Byte) : List Byte := b.take off ++ v ++ b.drop (off + v.length)

/-- A whole entry with only CATNUM, STATE and GEN (R155, R162). -/
def bareEntry (c st gen : Nat) : List Byte :=
  leBytes 8 (c * 2 ^ 41 + st * 2 ^ 39 + gen % 2 ^ 32) ++ zeros 120

/-- An entry image with another GEN. -/
def setGen (b : List Byte) (gen : Nat) : List Byte := setBytes b 0 (leBytes 4 (gen % 2 ^ 32))

/-- An entry image with another STATE. -/
def setState (b : List Byte) (st : Nat) : List Byte :=
  let h := entHeader b
  setBytes b 0 (leBytes 8 (h - bits h 40 39 * 2 ^ 39 + st * 2 ^ 39))

/-- The tap words of one signature are well formed under R160. -/
def sigOk (b : List Byte) (g : Nat) : Bool :=
  let t := entTaps b g
  let taps := (List.range 8).map (fun j => field b (16 + 40 * g + 5 * j) 5)
  let valid := (taps.take t).map tapOf
  t ≤ 8 && valid.all (·.valid) && (valid.map (·.beam)).Nodup && (taps.drop t).all (· == 0)

/-- A placement on an entry image counts as a miss for a group (R161). -/
def entMiss (b : List Byte) (g : Nat) : Bool := entState b == stEmpty || entState b == stStale || !entValid b g

/-! ### Bodies -/

/-- A CATALOGUE_OP body (R169). -/
structure CatOp where
  op : Nat
  arg : Nat
  first : Nat
  count : Nat
  tag : Nat
  images : List (List Byte)
  length : Nat
  deriving DecidableEq, Repr

/-- Read a CATALOGUE_OP body. -/
def catOp (b : List Byte) : CatOp :=
  let n := field b 8 4
  { op := field b 0 1, arg := field b 1 1, first := field b 4 4 % 2 ^ 23, count := n, tag := field b 12 4,
    images := (List.range ((b.length - 16) / 128)).map (fun i => slice b (16 + 128 * i) 128), length := b.length }

/-- An ATTACH body (R209). -/
structure AttachReq where
  cat : Nat
  group : Nat
  slot : Nat
  first : Nat
  count : Nat
  tag : Nat
  deriving DecidableEq, Repr

/-- Read an ATTACH body. -/
def attachReq (b : List Byte) : AttachReq :=
  ⟨field b 0 4 % 2 ^ 23, field b 4 1 % 2, field b 8 8, field b 16 2, field b 18 2, field b 20 4⟩

/-- A DL_DATA body (R265). -/
structure DlDataReq where
  slot : Nat
  group : Nat
  compact : Bool
  inst : Nat
  off : Nat
  count : Nat
  words : List Byte
  deriving DecidableEq, Repr

/-- Read a DL_DATA body. -/
def dlDataReq (b : List Byte) : DlDataReq :=
  ⟨field b 0 8, field b 8 1 % 2, bit (field b 9 1) 1, field b 10 2, field b 12 4, field b 16 2, b.drop 32⟩

/-- Two ranges of bins share one. -/
def overlap (f1 n1 f2 n2 : Nat) : Bool := f1 < f2 + n2 && f2 < f1 + n1

/-- Whether some pair of a list, each taken with a later one, satisfies a test. -/
def anyPair {α : Type} (p : α → α → Bool) : List α → Bool
  | [] => false
  | x :: xs => xs.any (p x) || anyPair p xs

end Sys2Proof.Machine
end

