-- ==== Sys2Proof/Machine/Ports.lean ====
section
/-!
DEFINITION. The message layer of the Mainland and Strait ports (17_mainland_port.md R473 to R485, 18_archipelago.md R502 to
R504): payloads, credit, sending, the receive checks, and Riptide's rules on messages (24_events_background_riptide.md
R650, R651). Ports are numbered 0 Mainland, 1 to 4 S0 to S3, 5 FIELD.
-/

namespace Sys2Proof.Machine

/-! ### Payload (R456, R467) -/

/-- The payload of one lane by rate code, Mb/s. -/
def laneMb (rate : Nat) : Nat := [7625, 15250, 24400, 30500].getD rate 0

/-- The width of a port. -/
def Dev.portWidth (d : Dev) (p : Nat) : Nat := if p = 0 then d.a P.mlLinkWidth else d.a (P.stLinkWidth + (p - 1))

/-- The link rate code of a port. -/
def Dev.portRate (d : Dev) (p : Nat) : Nat := if p = 0 then d.a P.mlLinkRate else d.a (P.stLinkRate + (p - 1))

/-- The payload of a port, Mb/s. -/
def Dev.payload (d : Dev) (p : Nat) : Nat := d.portWidth p * laneMb (d.portRate p)

/-- 0.97 of the payload of a port, in 2^-18 b/s (R200). -/
def Dev.allowance (d : Dev) (p : Nat) : Nat := d.payload p * 970000 * 2 ^ 18

/-- The port of a lane. -/
def portOf (l : Nat) : Nat := if l < 8 then 0 else (l - 8) / 4 + 1

/-- The lanes of a port, lowest first. -/
def portLanes (p : Nat) : List Nat := if p = 0 then List.range 8 else (List.range 4).map (fun i => 4 + 4 * p + i)

/-- The stage of a lane (R472). -/
def Dev.laneSt (d : Dev) (l : Nat) : Nat := d.a (P.laneState + l) % 8

/-- The rate code of a lane. -/
def Dev.laneRate (d : Dev) (l : Nat) : Nat := bits (d.a (P.laneState + l)) 4 3

/-- The lane every TIME message of a port goes on: its lowest-numbered ACTIVE lane (R427). -/
def Dev.timeLane (d : Dev) (p : Nat) : Option Nat := (portLanes p).find? (fun l => d.laneSt l == 5)

/-! ### The island (R504, R505, R416) -/

/-- The number this island acts under: 0 alone. -/
def Dev.island (d : Dev) : Nat := if d.a P.archIslandNumber = 0xFF then 0 else d.a P.archIslandNumber

/-- Whether the island is part of an Archipelago. -/
def Dev.inArch (d : Dev) : Bool := d.a P.archIslandNumber != 0xFF

/-- A device without a number that reaches no root over its Strait ports (R505): none of them is up with a partner that has a number.
[Log: 68 DEDUCED] -/
def Dev.alone (d : Dev) : Bool :=
  !d.inArch && (List.range 4).all (fun p =>
    let x := d.port.getD (p + 1) {}
    d.portWidth (p + 1) == 0 || x.conflict || field x.far 8 1 == 0xFF)

/-- Whether the island holds a number for the FIELD bus (R574, R578): a device outside any Archipelago is island 0 (R416).
[Log: 68 DEDUCED] -/
def Dev.numbered (d : Dev) : Bool := d.inArch || d.alone

/-- ArchIslandNumber as shown: outside any Archipelago the device is island 0 (R416, R505). [Log: 68 DEDUCED] -/
def Dev.shownIsland (d : Dev) : Nat := if d.alone then 0 else d.a P.archIslandNumber

/-- The port of the route toward an island; none where it is this island or unreachable (R508, R509). -/
def Dev.routePort (d : Dev) (i : Nat) : Option Nat :=
  let r := d.a (P.archRouteTable + i % 64) % 8
  if r < 4 then some (r + 1) else none

/-- The port this island's own output leaves on (R504): its Mainland, or with the Mainland down the route to its
collector. [Log: 20 DEDUCED] -/
def Dev.egress (d : Dev) : Nat :=
  if d.portWidth 0 = 0 ∧ d.inArch then (d.routePort (d.a P.archCollector)).getD 0 else 0

/-! ### Credit (R480 to R482) -/

/-- The credit units of a message with a body of `n` bytes (R475, R480). -/
def msgUnits (n : Nat) : Nat := cdiv (8 * cdiv (20 + n) 8) 64

/-- The receive buffer of a channel in units (R481). -/
def rxBuffer (vc : Nat) : Nat := [256, 8192, 1024, 131072].getD vc 0

/-- A port's record of a channel. -/
def Dev.chan (d : Dev) (p vc : Nat) : Chan := ((d.port.getD p {}).ch).getD vc {}

/-- Change a port. -/
def Dev.setPort (d : Dev) (p : Nat) (f : Port → Port) : Dev := { d with port := modAt d.port p f }

/-- Change a port's record of a channel. -/
def Dev.setChan (d : Dev) (p vc : Nat) (f : Chan → Chan) : Dev :=
  d.setPort p (fun x => { x with ch := modAt x.ch vc f })

/-- (LIMIT - CONSUMED) mod 2^24. -/
def Chan.credit (c : Chan) : Nat := (c.limit + 2 ^ 24 - c.consumed % 2 ^ 24) % 2 ^ 24

/-- Whether a message of `u` units may start (R480, R482). -/
def Chan.maySend (c : Chan) (u : Nat) : Bool := c.opened && u ≤ c.credit && c.credit < 2 ^ 23

/-- Show the credit of a Mainland channel (R499). -/
def Dev.showCredit (d : Dev) (p vc : Nat) : Dev :=
  d.iff (p == 0) (fun d => d.w (P.mlTxCreditAvailable + vc) (d.chan 0 vc).credit)

/-- Free units of a received channel (R480). -/
def Dev.freeUnits (d : Dev) (p vc u : Nat) : Dev := d.setChan p vc (fun c => { c with freed := (c.freed + u) % 2 ^ 24 })

/-- The LIMIT to advertise on a channel. [Log: 45 DEDUCED] -/
def Dev.limitOf (d : Dev) (p vc : Nat) : Nat := ((d.chan p vc).freed + rxBuffer vc) % 2 ^ 24

/-- Units of received messages of a port that still occupy a buffer. [Log: 45 DEDUCED] -/
def Dev.unitsHeld (d : Dev) (p vc : Nat) : Nat :=
  if vc = 1 then ((d.cat.vc1.filter (·.port == p)).map (fun x => msgUnits x.body.length)).sum
  else if vc = 3 then ((d.dl.got.filter (·.port == p)).map (·.units)).sum
    + (d.arch.red.flatMap (fun r => (r.kids.filter (fun k => k.port + 1 == p)).flatMap (fun k => k.runs.map (·.units)))).sum
  else 0

/-- The streams of a port restart: its width rose from 0 or fell to 0 (R473, R482). What is still buffered has not been freed.
[Log: 45 DEDUCED] -/
def Dev.restartPort (d : Dev) (p : Nat) : Dev :=
  let held (vc : Nat) : Nat := (2 ^ 24 - d.unitsHeld p vc % 2 ^ 24) % 2 ^ 24
  let chan (vc : Nat) : Chan := { freed := held vc }
  let d := d.setPort p (fun x => { x with ch := [chan 0, chan 1, chan 2, chan 3], lastMsg := d.now, rxCount := 0, rxWidth := 0, rxPos := 0, rxData := [] })
  d.each [0, 1, 2, 3] (fun vc d => d.showCredit p vc)

/-! ### Riptide on messages (R650, R651) -/

/-- Whether a Riptide run is active. -/
def Dev.ripOn (d : Dev) : Bool := d.a P.riptideEnable == 1

/-- One draw of the generator. [Log: 63 DEDUCED] -/
def Dev.ripDraw (d : Dev) : Nat × Dev :=
  (Config.riptideDraw d.rip.seed d.rip.draws, { d with rip := { d.rip with draws := d.rip.draws + 1 } })

/-- Rule `i` looks at a message: whether it acts, counting the match. -/
def Dev.ripRule (d : Dev) (port dir type i : Nat) : Bool × Dev :=
  let r := d.a (P.riptideRules + i)
  let t := bits r 31 24
  let hit := bits r 35 32 != 0 && bits r 39 37 == port && bits r 36 36 == dir && (t == 0 || t == type) &&
    (port == 5 || type != 1 || bit r 23)
  if hit then
    let n := d.rip.count.getD i 0 + 1
    let d := { d with rip := { d.rip with count := modAt d.rip.count i (fun _ => n) } }
    if bit r 22 then let (x, d) := d.ripDraw; (x % 65536 < bits r 15 0, d)
    else (bits r 15 0 != 0 && n % bits r 15 0 == 0, d)
  else (false, d)

/-- The rule that acts on a message, the lowest of those that do, and its action counted. -/
def Dev.ripPick (d : Dev) (port dir type : Nat) : Option Nat × Dev :=
  if d.ripOn then
    let (who, d) := (List.range 4).foldl (fun (acc : Option Nat × Dev) i =>
      let (acts, d) := acc.2.ripRule port dir type i
      (match acc.1 with | none => if acts then some i else none | some j => some j, d)) (none, d)
    match who with
    | none => (none, d)
    | some i => (some i, d.inc (P.riptideActionCount + i))
  else (none, d)

/-- Invert one bit of a body at a drawn position. -/
def Dev.ripFlip (d : Dev) (b : List Byte) : List Byte × Dev :=
  let (x, d) := d.ripDraw
  let pos := x % (8 * b.length)
  (modAt b (pos / 8) (fun v => v ^^^ BitVec.ofNat 8 (2 ^ (pos % 8))), d)

/-- Invert `n` bits of a body; an empty body is left unchanged. -/
def Dev.ripCorrupt (d : Dev) (b : List Byte) (n : Nat) : List Byte × Dev :=
  if b.isEmpty then (b, d)
  else (List.range n).foldl (fun acc _ => acc.2.ripFlip acc.1) (b, d)

/-- A later message of a channel and direction passes those held (R651). -/
def Dev.ripPass (d : Dev) (sent : Bool) (port vc : Nat) : Dev :=
  { d with rip := { d.rip with held := d.rip.held.map (fun h =>
    if h.sent = sent ∧ h.port = port ∧ h.vc = vc then { h with left := h.left - 1 } else h) } }

/-! ### What stands on the stream (R474 to R477, R502) -/

/-- A CREDIT unit of a channel (R474). -/
def creditUnit (vc limit : Nat) : List Byte :=
  let b := [0xC5#8, BitVec.ofNat 8 (vc % 4)] ++ leBytes 3 limit ++ [0#8]
  b ++ leBytes 2 (crc16 b)

/-- Whether an 8-byte unit is a valid CREDIT unit (R474, R476). -/
def creditValid (u : List Byte) : Bool := u.length == 8 && field u 0 1 == 0xC5 && field u 6 2 == crc16 (u.take 6)

/-- The header of a message with its SEQ (R477); SOURCE and HOPS stand in bytes 8 and 9 on a Strait port (R502). -/
def headerBytes (p seq : Nat) (m : Msg) : List Byte :=
  let route := if p = 0 then [0#8, 0#8] else [BitVec.ofNat 8 m.src, BitVec.ofNat 8 m.hops]
  let b := [0xD3#8, BitVec.ofNat 8 m.type, BitVec.ofNat 8 (m.vc % 4 + (if m.resp then 4 else 0)), BitVec.ofNat 8 m.island]
    ++ leBytes 2 m.body.length ++ leBytes 2 seq ++ route ++ zeros 4
  b ++ leBytes 2 (crc16 b)

/-- A message on the stream: header, body, CRC-32C and zero fill to 8 bytes (R475). What an `Out.msg` whose CRC holds puts there. -/
def msgBytes (p seq : Nat) (m : Msg) : List Byte :=
  let b := headerBytes p seq m ++ m.body
  padTo (8 * cdiv (20 + m.body.length) 8) (b ++ leBytes 4 (crc32c b))

/-- Whether a type stands in R478, or for a Strait port in R503. -/
def typeListed (p t : Nat) : Bool := (1 ≤ t && t ≤ 0x0D) || (p != 0 && 0x20 ≤ t && t ≤ 0x24)

/-- Whether 16 bytes are a valid header (R476). [Log: 96 DEDUCED] -/
def headerValid (p : Nat) (b : List Byte) : Bool :=
  b.length == 16 && field b 0 1 == 0xD3 && field b 14 2 == crc16 (b.take 14) && typeListed p (field b 1 1) && field b 4 2 ≤ 9216

/-! ### Sending -/

/-- The message types the port layer tells apart. -/
def tSlotPlan : Nat := 0x02
def tDlPlan : Nat := 0x03
def tAttach : Nat := 0x04
def tCatOp : Nat := 0x05
def tHeartbeat : Nat := 0x0A
def tDlData : Nat := 0x0C
def tDiscover : Nat := 0x20
def tAssign : Nat := 0x21
def tReduce : Nat := 0x22
def tVerdict : Nat := 0x23
def tSyncStamp : Nat := 0x24

/-- Whether a Strait join carries a message: outside an Archipelago nothing beyond discovery, across a generation mismatch
only DISCOVER, ASSIGN, VC2, and TIME where GEN_TIME matches (R505, R529). -/
def Dev.joinCarries (d : Dev) (p vc t : Nat) : Bool :=
  p == 0 || (let x := d.port.getD p {}
    !x.conflict && (!x.mismatch || t == tDiscover || t == tAssign || vc == 2 ||
        (t == 0x01 && field x.far 14 1 == (d.upd.run.getD 3 {}).genTime)) &&
      (d.inArch || t == tDiscover || t == tAssign))

/-- Put a message on a port: its units and its sequence number are used (R477, R480). [Log: 79 DEDUCED] -/
def Dev.put (d : Dev) (p : Nat) (crcOk : Bool) (m : Msg) : Dev :=
  let u := msgUnits m.body.length
  let seq := (d.chan p m.vc).seqOut
  let d := d.setChan p m.vc (fun c => { c with consumed := (c.consumed + u) % 2 ^ 24, seqOut := (c.seqOut + 1) % 65536 })
  let d := d.iff (p == 0) (·.inc (P.mlTxMessageCount + m.vc))
  (d.showCredit p m.vc).emit (.msg p seq crcOk m)

/-- Start a message, past Riptide's sent rules. -/
def Dev.start (d : Dev) (p : Nat) (m : Msg) : Dev :=
  let (who, d) := d.ripPick p 1 m.type
  match who with
  | none => (d.ripPass true p m.vc).put p true m
  | some i =>
    let r := d.a (P.riptideRules + i)
    let n := bits r 21 19 + 1
    match bits r 35 32 with
    | 1 => d
    | 2 => let (b, d) := d.ripCorrupt m.body n; (d.ripPass true p m.vc).put p true { m with body := b }
    | 3 => let (b, d) := d.ripCorrupt m.body n; (d.ripPass true p m.vc).put p m.body.isEmpty { m with body := b }
    | _ =>
      let one : RipHold := { sent := true, port := p, vc := m.vc, left := n - 1, since := d.now, instr := none, msg := some m }
      { d with rip := { d.rip with held := d.rip.held ++ [one] } }

/-- The order of preference within a channel (R479); routed types come last. -/
def msgRank (m : Msg) : Nat :=
  if m.vc = 2 then [0x0A, 0x08, 0x07, 0x09].findIdx (· == m.type)
  else if m.vc = 3 then
    (if m.type = 0x0B then (if field m.body 9 1 = 4 then 1 else 0) else if m.type = 0x05 then 2 else if m.type = 0x0D then 3 else 0)
  else 0

/-- Whether a message can start now: the port is up, its join carries it, nothing it must follow waits and credit allows. -/
def Dev.canSend (d : Dev) (p : Nat) (m : Msg) : Bool :=
  d.portWidth p != 0 && d.joinCarries p m.vc m.type && !((d.port.getD p {}).wait.any (fun w => w.vc == m.vc && msgRank w ≤ msgRank m))
    && (d.chan p m.vc).maySend (msgUnits m.body.length)

/-- Send a message on a port, or let it wait for credit; one that the join does not carry is not sent (R505, R529). -/
def Dev.sendMsg (d : Dev) (p : Nat) (m : Msg) : Dev :=
  if !d.joinCarries p m.vc m.type then d
  else if d.canSend p m then d.start p m else d.setPort p (fun x => { x with wait := x.wait ++ [m] })

/-- A message of this island to an island, with SOURCE and HOPS on a Strait port (R477, R502). -/
def Dev.mkMsg (d : Dev) (p island vc type : Nat) (resp : Bool) (body : List Byte) : Msg :=
  if p = 0 then { vc := vc, type := type, island := island, resp := resp, body := body }
  else { vc := vc, type := type, island := island, src := d.a P.archIslandNumber, hops := 16, resp := resp, body := body }

/-- Send a message of the island's own: on the Mainland from this island, on a Strait port to the far end. -/
def Dev.send (d : Dev) (p vc type : Nat) (resp : Bool) (body : List Byte) : Dev :=
  d.sendMsg p (d.mkMsg p (if p = 0 then d.island else 0xFE) vc type resp body)

/-- The first message that waits on a channel in its order of preference. -/
def Dev.nextWaiting (d : Dev) (p vc : Nat) : Option Msg :=
  let w := (d.port.getD p {}).wait.filter (·.vc == vc)
  w.foldl (fun acc m => match acc with
    | none => some m
    | some x => if msgRank m < msgRank x then some m else some x) none

/-- Send what waits on a channel while credit allows; what the join no longer carries is dropped. -/
def Dev.drainFuel : Nat → Nat → Nat → Dev → Dev
  | 0, _, _, d => d
  | f + 1, p, vc, d =>
    match d.nextWaiting p vc with
    | none => d
    | some m =>
      if !d.joinCarries p m.vc m.type then Dev.drainFuel f p vc (d.setPort p (fun x => { x with wait := x.wait.erase m }))
      else if d.portWidth p != 0 && (d.chan p vc).maySend (msgUnits m.body.length) then
        Dev.drainFuel f p vc ((d.setPort p (fun x => { x with wait := x.wait.erase m })).start p m)
      else d

/-- Send what waits on a port, in the order of its channels (R479). -/
def Dev.drain (d : Dev) (p : Nat) : Dev :=
  let n := (d.port.getD p {}).wait.length
  d.each [0, 1, 2, 3] (fun vc d => Dev.drainFuel n p vc d)

/-- An outbound message of the island's own, with its own number in ISLAND on whichever port it leaves (R504). -/
def Dev.homeMsg (d : Dev) (vc type : Nat) (resp : Bool) (body : List Byte) : Msg :=
  d.mkMsg d.egress d.island vc type resp body

/-- Send an outbound message of the island's own (R504). -/
def Dev.sendHome (d : Dev) (vc type : Nat) (resp : Bool) (body : List Byte) : Dev :=
  d.sendMsg d.egress (d.homeMsg vc type resp body)

/-! ### Frames of the FIELD port (R574, R575) -/

/-- The next CAN FD data length at or above `n`. -/
def canLen (n : Nat) : Nat := ([0, 1, 2, 3, 4, 5, 6, 7, 8, 12, 16, 20, 24, 32, 48, 64].find? (fun l => n ≤ l)).getD 64

/-- Whether FIELD frames are sent and served (R573, R578): numbered, enabled, not in bus-off. -/
def Dev.fieldOn (d : Dev) : Bool :=
  d.numbered && d.a P.fieldEnable == 1 && (d.a P.fieldState == 1 || d.a P.fieldState == 2)

/-- Put a frame on the bus. -/
def Dev.fieldPut (d : Dev) (fn low : Nat) (data : List Byte) : Dev :=
  d.iff d.fieldOn (·.emit (.fieldFrame fn (d.island % 64) (low % 2 ^ 18) data))

/-- The data of segment `k` of a transfer, CRC included (R575). -/
def segmentData (whole : List Byte) (k : Nat) : List Byte :=
  let part := slice whole (60 * k) 60
  let last := whole.length ≤ 60 * (k + 1)
  padTo (canLen (4 + part.length)) (leBytes 2 whole.length ++ [if last then 1#8 else 0#8, 0#8] ++ part)

/-- Put on the bus what FIELD sends as one message: a frame, or the segments of a response with the CRC given. `src` holds
bits [17:0] of the identifier, for a response the transfer number. [Log: 64 DEDUCED] -/
def Dev.fieldOut (d : Dev) (m : Msg) (crc : Nat) : Dev :=
  if m.type = 5 then
    let whole := m.body ++ leBytes 4 crc
    d.each (List.range (cdiv whole.length 60)) (fun k d => d.fieldPut 5 (m.src * 1024 + k) (segmentData whole k))
  else d.fieldPut m.type m.src m.body

/-- Send on FIELD, past Riptide's sent rules (R651). A corrupt frame that carries no transfer CRC goes out altered. -/
def Dev.fieldSend (d : Dev) (fn low : Nat) (body : List Byte) : Dev :=
  let m : Msg := { vc := 0, type := fn, island := d.island, src := low, body := body }
  let (who, d) := d.ripPick 5 1 fn
  match who with
  | none => (d.ripPass true 5 0).fieldOut m (crc32c body)
  | some i =>
    let r := d.a (P.riptideRules + i)
    let n := bits r 21 19 + 1
    match bits r 35 32 with
    | 1 => d
    | 2 => let (b, d) := d.ripCorrupt body n; (d.ripPass true 5 0).fieldOut { m with body := b } (crc32c b)
    | 3 => let (b, d) := d.ripCorrupt body n; (d.ripPass true 5 0).fieldOut { m with body := b } (crc32c body)
    | _ =>
      let one : RipHold := { sent := true, port := 5, vc := 0, left := n - 1, since := d.now, instr := none, msg := some m }
      { d with rip := { d.rip with held := d.rip.held ++ [one] } }

/-! ### Receiving (R476, R477, R483, R484) -/

/-- Data-plane messages (R22). -/
def dataPlane (t : Nat) : Bool := t == tSlotPlan || t == tDlPlan || t == tAttach || t == tCatOp || t == tDlData

/-- The virtual channel of an inbound type (R478, R503). -/
def vcOf (t : Nat) : Nat :=
  if t == tHeartbeat || t == 0x06 then 2
  else if t == tDlData || t == tReduce then 3
  else if t == tSyncStamp || t == 0x01 then 0
  else 1

/-- The virtual channel and RESPONSE flag a type may have on a port (R478, R503). -/
def typeOk (port t vc : Nat) (resp : Bool) : Bool :=
  if port != 0 && (t == 0x04 || t == 0x05) && resp then vc == 1 || (t == 0x05 && vc == 3)
  else if port != 0 && t == 0x07 then vc == 2 && resp
  else if port != 0 && (t == 0x08 || t == 0x09) then vc == 2 && !resp
  else if port != 0 && (t == 0x0B || t == 0x0D) then vc == 3 && !resp
  else if t == tDiscover then port != 0 && vc == 1
  else (((1 ≤ t && t ≤ 6) || t == tHeartbeat || t == tDlData) || (port != 0 && tAssign ≤ t && t ≤ tSyncStamp)) &&
    vc == vcOf t && !resp

/-- Whether a header addresses this island (R477, R502); an ASSIGN is taken by its chip identity (R508). [Log: 20 DEDUCED] -/
def Dev.addressed (d : Dev) (h : Hdr) (t : Nat) : Bool :=
  h.island == d.island || h.island == 0xFE || (h.port == 0 && h.island == 0xFF) || (h.port != 0 && t == tAssign)

/-- CRC failures count toward EV107 in their calendar second (R484). -/
def Dev.crcFailed (d : Dev) (p : Nat) : Dev :=
  (d.iff (p == 0) (·.inc P.mlRxCrcErrorCount)).setPort p (fun x => { x with crcErr := x.crcErr + 1 })

/-- Count on the Mainland port only. -/
def Dev.mlCount (d : Dev) (h : Hdr) (k : Nat) : Dev := d.iff (h.port == 0) (·.inc k)

/-- The checks of R476, R480 and R484 on an arriving message, wherever it is addressed; `shape` holds where its channel and
RESPONSE flag fit its type. True where it stands; its units are then freed by what consumes it. [Log: 79 DEDUCED] -/
def Dev.rxBase (d : Dev) (h : Hdr) (t len : Nat) (shape : Bool) : Dev × Bool :=
  if !d.up || d.portWidth h.port == 0 || 4 < h.port || 3 < h.vc then (d, false)
  else if 9216 < len then (d.mlCount h P.mlRxResyncCount, false)
  else
    let u := msgUnits len
    let c := d.chan h.port h.vc
    let beyond := let left := (c.limitSent + 2 ^ 24 - c.received) % 2 ^ 24; left < u || 2 ^ 23 ≤ left
    let gap := c.seqSeen && c.seqIn != h.seq % 65536
    let d := d.setPort h.port (fun x => { x with lastMsg := d.now })
    let d := d.iff (h.port == 0) (·.w P.mlPartnerState 2)
    let d := d.setChan h.port h.vc (fun c => { c with
      received := (c.received + u) % 2 ^ 24, seqSeen := true, seqIn := (h.seq + 1) % 65536 })
    let d := d.iff gap (·.mlCount h P.mlRxSeqGapCount)
    let drop (d : Dev) : Dev × Bool := (d.freeUnits h.port h.vc u, false)
    if beyond then drop (d.mlCount h P.mlRxCreditViolationCount)
    else if !h.crcOk then drop (d.crcFailed h.port)
    else if !shape then drop (d.mlCount h P.mlRxMalformedCount)
    else if h.port == 0 && dataPlane t && d.a P.mainlandTrust == 0 then drop (d.inc P.mlRxUntrustedCount)
    else (d, true)

/-- The checks on an arriving message of this island. True where the message is taken. [Log: 79 DEDUCED] -/
def Dev.rxCheck (d : Dev) (h : Hdr) (t len : Nat) (resp : Bool) : Dev × Bool :=
  let (d, ok) := d.rxBase h t len (h.vc == vcOf t && h.resp == resp)
  if !ok then (d, false)
  else if !d.addressed h t || !d.joinCarries h.port h.vc t then (d.freeUnits h.port h.vc (msgUnits len), false)
  else (d.mlCount h (P.mlRxMessageCount + h.vc), true)

/-- What Riptide makes of an arriving message: taken on with a header and body, or gone. -/
def Dev.ripRx (d : Dev) (i : Hdr → List Byte → Instr) (h : Hdr) (t : Nat) (body : List Byte) :
    Dev × Option (Hdr × List Byte) :=
  let (who, d) := d.ripPick h.port 0 t
  match who with
  | none => (d.ripPass false h.port h.vc, some (h, body))
  | some k =>
    let r := d.a (P.riptideRules + k)
    let n := bits r 21 19 + 1
    match bits r 35 32 with
    | 1 =>
      let u := msgUnits body.length
      (d.setChan h.port h.vc (fun c => { c with
        received := (c.received + u) % 2 ^ 24, freed := (c.freed + u) % 2 ^ 24,
        seqSeen := true, seqIn := (h.seq + 1) % 65536 }), none)
    | 2 => let (b, d) := d.ripCorrupt body n; (d.ripPass false h.port h.vc, some (h, b))
    | 3 =>
      let (b, d) := d.ripCorrupt body n
      (d.ripPass false h.port h.vc, some ({ h with crcOk := h.crcOk && body.isEmpty }, b))
    | _ =>
      let one : RipHold := { sent := false, port := h.port, vc := h.vc, left := n - 1, since := d.now, instr := some (i h body),
                             msg := none }
      ({ d with rip := { d.rip with held := d.rip.held ++ [one] } }, none)

end Sys2Proof.Machine
end

