-- ==== Sys2Proof/Machine/Receive.lean ====
section
/-!
DEFINITION. Receive paths and converter cores, the filter chain and the channelizer (03_receive_paths.md,
04_filters_channelizer.md).
-/

namespace Sys2Proof.Machine

/-! ### Chains -/

/-- Whether the chain of path `p` in group `g` runs: its core is powered and its group ACTIVE, or it is a sentinel
path's chain A that runs on its own (R81, R223). -/
def Dev.chainRuns (d : Dev) (g p : Nat) : Bool :=
  d.groupExists g && d.powered g p &&
    (d.active g || (g == 0 && d.sentinelRuns && bit (d.a P.sentinelPathMask) p))

/-- The paths of the quadrants whose RX synthesiser of a group is FAILED past a boundary (R291). -/
def Dev.failedPaths (d : Dev) (g : Nat) : Nat :=
  maskOf 64 (fun p => bit d.syn.zeroed (3 * (p / 16) + g))

/-- The paths that contribute samples of a group (R98, R99, R291). -/
def Dev.contrib (d : Dev) (g : Nat) : Nat := maskSub 64 (d.eff g) (d.failedPaths g)

/-- Set the mask of contributing paths of a group. -/
def Dev.setEff (d : Dev) (g v : Nat) : Dev :=
  { d with rx := if g = 0 then { d.rx with effA := v } else { d.rx with effB := v } }

/-- The paths whose disable acts at the end of the slot in progress. -/
def Dev.offs (d : Dev) (g : Nat) : Nat := if g = 0 then d.rx.offA else d.rx.offB

/-- Set them. -/
def Dev.setOffs (d : Dev) (g v : Nat) : Dev :=
  { d with rx := if g = 0 then { d.rx with offA := v } else { d.rx with offB := v } }

/-- From the reference instant `at_` on the paths that contribute are those of now (R98, R99, R291). -/
def Dev.maskNote (d : Dev) (at_ : Nat) : Dev :=
  let one := (d.contrib 0, d.contrib 1)
  let old := d.rx.maskLog
  if (old.head?.map (·.2)) = some one then d
  else
    let n := (old.takeWhile (fun e => d.now < e.1 + settleMemory)).length
    { d with rx := { d.rx with maskLog := (at_, one) :: old.take (n + 1) } }

/-- The paths that contribute to the samples of a group from a reference instant (R98, R99, R291): 5 ns, half a REFCLK period, cover the
rounding of a slot's start. -/
def Dev.maskAt (d : Dev) (g t : Nat) : Nat :=
  match (d.rx.maskLog.find? (fun e => e.1 ≤ t + 5000)).orElse (fun _ => d.rx.maskLog.getLast?) with
  | none => d.contrib g
  | some e => if g = 0 then e.2.1 else e.2.2

/-- EV30 for one path (R98). -/
def Dev.pathDisabled (d : Dev) (g p : Nat) : Dev := d.raise 30 (64 * g + p)

/-- A write changed a path enable mask (R98, R99, R100). In wide mode group B's mask has no effect (R92). A path cleared and set again
within one slot contributes to the end of that slot, and from then on as R99 says. [Log: 87 DEDUCED] -/
def Dev.rxMaskWritten (d : Dev) (g old new : Nat) : Dev :=
  if d.groupExists g then
    let cleared := maskSub 64 old new
    let set := maskSub 64 new old
    let d := if d.active g then d.setOffs g (maskOr 64 (d.offs g) cleared)
      else
        let d := d.setEff g (maskSub 64 (d.eff g) cleared)
        let d := { d with rx := { d.rx with
          starts := d.rx.starts.filter (fun s => !(s.1 / 64 == g && bit cleared (s.1 % 64))) } }
        d.each (bitList 64 cleared) (fun p d => d.pathDisabled g p)
    let d := d.setOffs g (maskSub 64 (d.offs g) set)
    let d := { d with rx := { d.rx with
      starts := d.rx.starts.filter (fun (s : Nat × Nat) => !(s.1 / 64 == g && bit set (s.1 % 64)))
        ++ (bitList 64 set).map (fun p => (64 * g + p, d.now + d.latched.settlePs g)) } }
    (d.maskNote d.now).updateQuads
  else d

/-- A slot boundary acts on the path masks of both groups (R98, R99, R100). -/
def Dev.rxBoundary (d : Dev) : Dev :=
  let d := d.each [0, 1] (fun g d =>
    let off := d.offs g
    let mine := d.rx.starts.filter (fun s => s.1 / 64 == g && !bit off (s.1 % 64))
    let ready := maskOf 64 (fun p => mine.any (fun s => s.1 % 64 == p && s.2 < d.now))
    let wait := maskOf 64 (fun p => mine.any (fun s => s.1 % 64 == p && d.now ≤ s.2))
    let d := d.setEff g (maskSub 64 (maskOr 64 (maskSub 64 (d.eff g) off) ready) wait)
    let d := { d with rx := { d.rx with
      starts := d.rx.starts.filter (fun s => s.1 / 64 != g || (d.now ≤ s.2 && !bit off (s.1 % 64))) } }
    let d := d.setOffs g 0
    d.each (bitList 64 off) (fun p d => d.pathDisabled g p))
  d.updateQuads

/-! ### Gain (R72 to R78) -/

/-- The attenuation of a gain code in dB (R72). -/
def attOf (code : Nat) : Nat := 18 - 6 * min 3 (code / 12)

/-- The baseband gain of a gain code in half dB (R72). -/
def bbOf (code : Nat) : Nat := code - 2 * (18 - attOf code)

/-- The SETTLE interval in ps that a commit opens on a chain (R77); in wide mode the durations stay (R78). -/
def settleOf (old new : Nat) (bwChanged : Bool) : Nat :=
  if bwChanged then 640000
  else if old = new then 0
  else if attOf old = attOf new then 40000
  else 160000

/-- Commit the gain codes and bandwidth of a group (R75, R76, R79), with EV29 and EV28 where events are wanted. -/
def Dev.commitGain (d : Dev) (g : Nat) (events : Bool) : Dev :=
  let sh := gk P.rxGainShadowA g
  let ac := gk P.rxGainActiveA g
  let bw := d.a (gk P.rxBbBandwidthA g)
  let bwChanged := bw != d.a (gk P.rxBbBandwidthActiveA g)
  let n := ((List.range 64).filter (fun p => d.a (sh + p) != d.a (ac + p))).length
  let d := d.each (List.range 64) (fun p d =>
    let dur := settleOf (d.a (ac + p)) (d.a (sh + p)) bwChanged
    let d := d.w (ac + p) (d.a (sh + p))
    d.iff (dur != 0 && d.chainRuns g p) (·.settleChain g p dur))
  let d := d.w (gk P.rxBbBandwidthActiveA g) bw
  let d := d.iff events (·.raise 29 g)
  d.iff (events && n != 0) (·.raise 28 (g * 65536 + n))

/-! ### NCO phase (R107 to R110, R253) -/

/-- The NCO phase, in units of 2^-40 of a turn, of an NCO key now: receive keys 4 g + q, transmit keys 8 + 4 g + q. -/
def Dev.ncoPhase (d : Dev) (k w : Nat) : Nat :=
  let period := if k < 8 then (if d.wide then 1250 else 2500) else 1250
  (d.rx.phase.getD k 0 + w * ((d.actAt - d.rx.phaseAt.getD k 0) / period)) % 2 ^ 40

/-- Fix the phase of an NCO key at this sample. -/
def Dev.setPhase (d : Dev) (k v : Nat) : Dev :=
  { d with rx := { d.rx with phase := d.rx.phase.set k v, phaseAt := d.rx.phaseAt.set k d.actAt } }

/-- Commit an NCO word: the phase keeps its value (R110), and where the chains run the spans over the commit carry SETTLE (R125). -/
def Dev.commitNco (d : Dev) (k shadow active : Nat) : Dev :=
  if d.a shadow = d.a active then d
  else
    let d := (d.setPhase k (d.ncoPhase k (d.a active))).w active (d.a shadow)
    if k < 8 then { d with rx := { d.rx with
      nco := (k, d.actAt) :: d.rx.nco.filter (fun s => d.now < s.2 + settleMemory) } }
    else d

/-! ### FIR banks (R115 to R118) -/

/-- The bank of FirBankShadow at a hand-over of a running group (R115, R117). -/
def Dev.fadeTo (d : Dev) (g : Nat) : Dev :=
  let new := d.a (gk P.firBankShadowA g)
  let old := d.a (gk P.firBankActiveA g)
  let refuse (reason : Nat) (d : Dev) : Dev := (d.w (gk P.firBankShadowA g) old).raise 25 (g * 65536 + reason)
  if new = old then d
  else if (d.rx.fade.getD g none).isSome then refuse 1 d
  else if d.a (gk P.firLengthA g + new) ≠ d.a (gk P.firLengthA g + old) then refuse 2 d
  else
    let d := (d.w (gk P.firBankStateA g + old % 4) 3).w (gk P.firBankStateA g + new % 4) 2
    { d.w (gk P.firBankActiveA g) new with rx := { d.rx with fade := modAt d.rx.fade g (fun _ => some (old, d.actAt)) } }

/-- The shadow bank becomes active at once while the group is not running (R115, R117, R692). [Log: 58 DEDUCED] -/
def Dev.bankAtOnce (d : Dev) (g : Nat) : Dev :=
  let new := d.a (gk P.firBankShadowA g)
  let old := d.a (gk P.firBankActiveA g)
  if new = old then d
  else ((d.w (gk P.firBankStateA g + old % 4) 0).w (gk P.firBankStateA g + new % 4) 1).w (gk P.firBankActiveA g) new

/-- Whether chains of a group run: it is ACTIVE, or the sentinel paths run their chains A on their own (R223). -/
def Dev.groupRuns (d : Dev) (g : Nat) : Bool := d.groupExists g && (d.active g || (g == 0 && d.sen.startAt.isSome))

/-- Commit the bank of a group at a hand-over. -/
def Dev.commitBank (d : Dev) (g : Nat) : Dev := if d.groupRuns g then d.fadeTo g else d.bankAtOnce g

/-! ### SETTLE (R77, R123 to R127, R290) -/

/-- How far the span of a bin sample reaches back from its newest converter sample, in ps (R124). -/
def Dev.binSpanPs (d : Dev) (g : Nat) : Nat := (d.span g - 1) * 2500 + (8 * d.chanN g - 1) * d.bandPs g

/-- How far the span of a band output reaches back. -/
def Dev.bandSpanPs (d : Dev) (g : Nat) : Nat := (d.span g - 1) * 2500

/-- Whether a sample of a chain carries SETTLE: its newest converter sample lies at `hi` and its span reaches `len` ps back (R123).
The span reaches before the zero-history point, holds a SETTLE converter sample (R47, R77, R127, R290), or lies on both sides of an
NCO commit (R125). -/
def Dev.settleFrom (d : Dev) (clear g p hi len : Nat) : Bool :=
  let k := 3 * (p / 16) + g
  let st := d.a (P.synthState + k)
  hi < clear + len ||
    d.rx.settle.any (fun s => s.1 == 64 * g + p && s.2.1 ≤ hi && hi < s.2.2 + len) ||
    (d.pwr.convBad && d.pwr.convSince ≤ hi) ||
    ((st == 1 || st == 2 || st == 4) && d.syn.since.getD k 0 ≤ hi) ||
    d.rx.nco.any (fun s => s.1 == 4 * g + p / 16 && s.2 ≤ hi && hi < s.2 + len)

/-- The same on the group's present run. -/
def Dev.settleIn (d : Dev) (g p hi len : Nat) : Bool := d.settleFrom (d.rx.zeroAt.getD g 0) g p hi len

/-- Whether converter samples from `lo` to `hi` reach into a Collimation window (R339). -/
def Dev.calReach (d : Dev) (lo hi : Nat) : Bool :=
  d.col.wins.any (fun w => 1000 * w.1 + d.now ≤ hi + d.merPs && lo + d.merPs < 1000 * w.2 + d.now)

/-- Elapsed ps of the newest bin sample of a group formed by now. -/
def Dev.newestBin (d : Dev) (g : Nat) : Nat :=
  let per := d.latched.binPs g
  let z := d.gridBase g per
  z + (d.now - z) / per * per

/-- Elapsed ps of the newest band output of a group formed by now. -/
def Dev.newestBand (d : Dev) (g : Nat) : Nat :=
  let per := d.latched.bandPs g
  let z := d.gridBase g per
  z + (d.now - z) / per * per

/-- Whether the newest bin sample of a path carries SETTLE. -/
def Dev.binSettling (d : Dev) (g p : Nat) : Bool := d.settleIn g p (d.newestBin g) (d.latched.binSpanPs g)

/-! ### Starts and synchronising resets (R123 to R132) -/

/-- At a start of group A wide mode begins or ends as RxWideMode says (R93): group B's queued plans are discarded as it begins (R219),
those of DL_PLAN among them, and the group leaves ACTIVE (R92) [Log: 89 DEDUCED]; its mask counts again as it ends (R92). -/
def Dev.takeWide (d : Dev) : Dev :=
  let was := d.wide
  let now := d.a P.rxWideMode == 1
  let d := { d with rx := { d.rx with wide := now } }
  let d := d.iff (!was && now) (fun d =>
    ((d.discardPlans (fun p => p.group == 1)).discardDl (fun p => p.group == 1)).iff (d.active 1) (·.dropUnits 2))
  d.iff (was && !now) (fun d => { d with rx := { d.rx with
    effB := d.a P.rxPathEnableB, offB := 0, starts := d.rx.starts.filter (fun s => s.1 / 64 != 1) } } |>.maskNote d.now)

/-- A carrier group starts: wide mode, the rates and the shadow bank take effect, every chain has zero history (R93, R104, R117,
R130). The NCO phase of a chain that starts is not stated: a free value. [Log: 78 DEDUCED] -/
def Dev.startGroup (d : Dev) (g : Nat) : Dev :=
  let d := d.iff (g == 0) (fun d => d.takeWide.latchRates)
  let d := d.bankAtOnce g
  let d := { d with rx := { d.rx with
    zero := modAt d.rx.zero g (fun _ => some (d.now, 0)), zeroAt := modAt d.rx.zeroAt g (fun _ => d.now),
    upAt := modAt d.rx.upAt g (fun _ => d.now) } }
  let d := d.each [0, 1, 2, 3] (fun q d => let (v, d) := d.free (100 + 4 * g + q) 40; d.setPhase (4 * g + q) v)
  d.updateQuads

/-- The set of running groups (R131). -/
def Dev.groupsRunning (d : Dev) : Nat := maskOf 2 d.groupRuns

/-- A synchronising reset outside DEEP (R131, R253): histories, phases and decimation of every running chain restart, the sentinel
chains in WATCH among them, a cross-fade ends (R118), a pre-alignment to a chain that resets is abandoned (R85), the sentinel ring
restarts at record 0 (R246) and a Collimation run is given up (R347). -/
def Dev.syncReset (d : Dev) : Dev :=
  let run := d.groupsRunning
  let d := d.ringEnds
  let d := d.each (bitList 2 run) (fun g d =>
    let d := (d.endFade g).gridEnds g (d.actAt - d.latched.binDelay g)
    { d with rx := { d.rx with
      zero := modAt d.rx.zero g (fun z => if d.active g then some (d.actAt, 1) else z),
      zeroAt := modAt d.rx.zeroAt g (fun _ => d.actAt) } })
  let d := { d with sen := { d.sen with startAt := d.sen.startAt.map (fun _ => d.actAt) } }
  -- R517: on a member of a reduction tree a receive accumulator takes the lattice's phase
  let tree := d.a P.redState = 1 ∨ d.a P.redState = 2
  let num := (rnear (d.merPs : Nat) 2500).toNat
  let d := d.each (List.range 16) (fun k d =>
    d.setPhase k (if tree ∧ k < 8 then d.a (gk P.ncoActiveA (k / 4) + k % 4) * num % 2 ^ 40 else 0))
  let d := d.each (List.range 16) (fun u d =>
    let q := d.rx.quads.getD u {}
    d.prealignOff u [q.target])
  let d := d.w P.sentinelRingWriteIndex 0
  let d := d.colAbandon 3
  (d.inc P.syncResetCount).raise 27 run

/-! ### Rotation of converter cores -/

/-- Change the record of a quad. -/
def Dev.setQuad (d : Dev) (u : Nat) (f : Quad → Quad) : Dev :=
  { d with rx := { d.rx with quads := modAt d.rx.quads u f } }

/-- Whether role `k` of quad `u` is inside a SETTLE interval, the converter PLL is unlocked or its LO is settling (R47, R77, R85,
R290). -/
def Dev.roleSettling (d : Dev) (u k : Nat) : Bool :=
  let p := 4 * u + k % 4
  let g := if d.wide then 0 else k / 4
  d.rx.settle.any (fun s => s.1 == 64 * g + p && d.now < s.2.2) || d.pwr.convBad ||
    (let st := d.synthSt (3 * (p / 16) + g); st == 1 || st == 2)

/-- A core that takes over a role no longer runs on stored trims (R91). -/
def Dev.onNewTrims (d : Dev) (u core : Nat) : Dev :=
  { d with rx := { d.rx with onStored := modAt d.rx.onStored (9 * u + core) (fun _ => false) } }

/-- A passed calibration leaves a core new trims (R86, R88); the spec does not lay them out: a free value. -/
def Dev.newTrims (d : Dev) (u core : Nat) : Dev :=
  let (v, d) := d.free 110 64
  { d with rx := { d.rx with trims := modAt d.rx.trims (9 * u + core) (fun _ => v) } }

/-- The limits of R86, in thousandths of the units the rule gives. -/
def corePasses (r : CoreResult) : Bool :=
  decide (r.offsetI.natAbs ≤ 2000) && decide (r.offsetQ.natAbs ≤ 2000) && decide (r.gain.natAbs ≤ 50) &&
    decide (r.phase.natAbs ≤ 500) && decide (r.skew.natAbs ≤ 1000) && decide (r.inl.natAbs ≤ 1500)

/-- CORE_TAKEOVER (R82, R83, R89): the pre-aligned core takes the target role, the core it frees takes the spare role and
is calibrated next. -/
def Dev.coreTakeover (d : Dev) (u : Nat) : Dev :=
  let q := d.rx.quads.getD u {}
  let run := d.rolesRun u
  if d.up && q.stage == 2 && bit run q.target && !d.roleSettling u q.target then
    let new := d.coreOf u 8
    let old := d.coreOf u q.target
    let d := ((d.setCore u q.target new).setCore u 8 old).onNewTrims u new
    let seen := putBit q.done q.target true
    let full := maskSub 8 run seen == 0
    let d := d.setQuad u (fun q => { q with
      stage := 1, fails := 0, target := nextRole run (q.target + 1), done := if full then 0 else seen,
      cycled := q.cycled || full })
    let d := d.iff full (fun d => d.setQuadState u 0 1)
    d.iff full (·.spareCycle)
  else d

def execCoreTakeover (dt quad : Nat) (s : State) : Host.Outcome State Fault Refusal :=
  onDev dt (·.coreTakeover quad) s

/-- CORE_CALIBRATION_DONE (R86, R87, R88): a passed core is pre-aligned, the third failure in a row retires it. -/
def Dev.coreCalibrationDone (d : Dev) (u : Nat) (res : CoreResult) : Dev :=
  let q := d.rx.quads.getD u {}
  if d.up && q.stage == 1 then
    if corePasses res then (d.setQuad u (fun q => { q with stage := 2, fails := 0 })).newTrims u (d.coreOf u 8)
    else
      let d := d.incN (P.rxCalFailCount + u)
      if q.fails < 2 then d.setQuad u (fun q => { q with fails := q.fails + 1 })
      else
        let core := d.coreOf u 8
        let d := (d.setCore u 8 0xF).setQuad u (fun q => { q with stage := 4, fails := 0, done := 0 })
        let d := (d.setQuadState u 2 0).wN P.rxRetiredMask (putBit (d.a P.rxRetiredMask) u true)
        (d.raise 20 (u + 16 * core)).spareCycle
  else d

def execCoreCalibrationDone (dt quad : Nat) (result : CoreResult) (s : State) : Host.Outcome State Fault Refusal :=
  onDev dt (·.coreCalibrationDone quad result) s

/-- PREALIGN_RESUME (R85): the abandoned pre-alignment is repeated once the interval or the LO settling has ended. -/
def execPrealignResume (dt quad : Nat) (s : State) : Host.Outcome State Fault Refusal :=
  onDev dt (fun d =>
    let q := d.rx.quads.getD quad {}
    d.iff (d.up && q.stage == 3 && !d.roleSettling quad q.target) (fun d =>
      d.setQuad quad (fun q => { q with stage := 2 }))) s

/-- The retired core of a quad whose bit was cleared returns to the spare role at the quad's next step, which begins as soon as a role
runs (R81, R88). [Log: 58 DEDUCED] -/
def Dev.rxUnretire (d : Dev) (u : Nat) : Dev :=
  ((d.setQuad u (fun q => { q with stage := 5, fails := 0, done := 0 })).setQuadState u 1 0).updateQuad u

/-- TRIM_STORE (R90): ConvTrimStorePeriod seconds after the last store. -/
def execTrimStore (dt : Nat) (s : State) : Host.Outcome State Fault Refusal :=
  onDev dt (fun d => d.iff (d.up && decide (d.rx.trimAt + d.a P.convTrimStorePeriod * 10 ^ 12 ≤ d.now)) (·.trimStore)) s

/-! ### Detectors -/

/-- INTERLEAVE_SKEW_LIMIT (R95), the skew in 0.1 ps. -/
def execInterleaveSkewLimit (dt path skew : Nat) (s : State) : Host.Outcome State Fault Refusal :=
  onDev dt (fun d =>
    d.iff (d.wide && d.active 0 && d.powered 0 path && d.a P.interleaveSkewLimit < skew) (fun d =>
      d.raiseRate 21 path (10 ^ 12) 0 (fun _ => path + 64 * sat 2047 skew))) s

/-- RX_CLIP (R96). -/
def execRxClip (dt group path samples : Nat) (s : State) : Host.Outcome State Fault Refusal :=
  onDev dt (fun d =>
    d.iff (d.chainRuns group path && samples != 0) (fun d =>
      (d.add (gk P.rxClipCountA group + path) samples).raiseRate (16 + group) path (10 ^ 9) samples
        (fun n => path + 64 * sat 2047 n))) s

/-- RX_BLOCKER (R97): `power` in steps of 0.5 dB above -40 dBm. -/
def execRxBlocker (dt path power : Nat) (s : State) : Host.Outcome State Fault Refusal :=
  onDev dt (fun d =>
    let t := d.a P.rxBlockerThreshold
    d.iff (d.up && t < power) (fun d =>
      d.raiseRate 31 path (10 ^ 9) 0 (fun _ => path + 64 * sat 2047 (power - t)))) s

/-- Elapsed ps at which output `i` of a cross-fade forms, the fade beginning on the band output formed from the converter sample at `t`
(R115, R116). -/
def Dev.fadeOutput (d : Dev) (g t i : Nat) : Nat :=
  let per := d.latched.bandPs g
  gridFrom (d.gridBase g per) per t + i * per

/-- FIR_CROSSFADE_DONE (R116): after output 255. -/
def execFirCrossfadeDone (dt group : Nat) (s : State) : Host.Outcome State Fault Refusal :=
  onDev dt (fun d =>
    match d.rx.fade.getD group none with
    | none => d
    | some (_, t) => d.iff (d.fadeOutput group t 255 ≤ d.now) (·.endFade group)) s

/-- CHANNELIZER_OVERFLOW (R122): counted by sample, reported with the path of the first overflow since the last EV26. -/
def Dev.chanOverflow (d : Dev) (g p n : Nat) : Dev :=
  let kp := auxKey 1 g
  let first := if d.x (rateKey 26 g + 1) = 0 then p else d.x kp
  ((d.add (gk P.chanOverflowCountA g) n).wx kp first).raiseRate 26 g (10 ^ 9) n
    (fun t => first + 64 * sat 1023 t + g * 65536)

def execChannelizerOverflow (dt group path samples : Nat) (s : State) : Host.Outcome State Fault Refusal :=
  onDev dt (fun d => d.iff (d.chainRuns group path && samples != 0) (·.chanOverflow group path samples)) s

/-- No bin sample of an enabled path of a group carries SETTLE at the newest bin instant (R130). -/
def Dev.groupClear (d : Dev) (g : Nat) : Bool :=
  (List.range 64).all (fun p => !bit (d.contrib g) p || !d.binSettling g p)

/-- SETTLE_DONE (R125, R130): the group's first bin instant without SETTLE on any enabled path. -/
def execSettleDone (dt group : Nat) (s : State) : Host.Outcome State Fault Refusal :=
  onDev dt (fun d =>
    match d.rx.zero.getD group none with
    | none => d
    | some (t, cause) =>
      d.iff (d.active group && t ≤ d.newestBin group && d.groupClear group) (fun d =>
        ({ d with rx := { d.rx with zero := modAt d.rx.zero group (fun _ => none) } }).raise 18 (group * 65536 + cause))) s

/-! ### Thresholds (R133 to R135) -/

/-- Whether a block of 2^k outputs with this sum of I^2 + Q^2 has a mean power at or above -level / 10 dBFS. A level past
31 (34 + k) lies below every power above 0, so it is cut there. -/
def atLeastLevel (k sum level : Nat) : Bool :=
  let l := min level (31 * (34 + k))
  (2 ^ (34 + k)) ^ 100 ≤ sum ^ 100 * 10 ^ l

/-- The key of the states of threshold `i` of group `g`. -/
def threshKey (g i : Nat) : Nat := P.threshStateA0 + 65536 * (2 * g + i)

/-- EV22 or EV23 for one threshold, remembering the state reported and when. -/
def Dev.threshReport (d : Dev) (g p i : Nat) (st : Bool) : Dev :=
  let k := auxKey 2 (128 * g + 2 * p + i)
  (d.wx k (2 * (d.now + 1) + b2n st)).raise (22 + g) (p + 64 * i + 128 * b2n st)

/-- One threshold after a block: the new state, and its event where none was raised within 1 ms (R134, R135). -/
def Dev.threshUpdate (d : Dev) (g p i k sum : Nat) : Dev :=
  let key := threshKey g i
  let old := bit (d.a key) p
  let up := atLeastLevel k sum (d.a (gk P.threshRiseA g + i))
  let down := !atLeastLevel k sum (d.a (gk P.threshFallA g + i))
  let new := if up then true else if down then false else old
  let last := d.x (auxKey 2 (128 * g + 2 * p + i))
  let d := d.w key (putBit (d.a key) p new)
  d.iff (new != old && (last == 0 || last / 2 - 1 + 10 ^ 9 ≤ d.now)) (·.threshReport g p i new)

/-- The first band output from a group's zero-history point on (R124, R516). -/
def Dev.firstBand (d : Dev) (g : Nat) : Nat :=
  let per := d.latched.bandPs g
  gridFrom (d.gridBase g per) per (d.rx.zeroAt.getD g 0)

/-- Blocks of 2^k band outputs complete since the zero-history point of a group (R124, R133). -/
def Dev.threshBlocks (d : Dev) (g : Nat) : Nat :=
  if d.now < d.firstBand g then 0
  else ((d.now - d.firstBand g) / d.latched.bandPs g + 1) / 2 ^ d.a (gk P.threshWindowA g)

/-- Elapsed ps of the last band output of the newest complete block. -/
def Dev.blockEnd (d : Dev) (g : Nat) : Nat :=
  d.firstBand g + (d.threshBlocks g * 2 ^ d.a (gk P.threshWindowA g) - 1) * d.latched.bandPs g

/-- Bookkeeping: the last block a path gave a result for, with its zero-history point. -/
def blockKey (g p : Nat) : Nat := auxKey 20 (2 * (64 * g + p))

/-- A block of a path completes that has not been evaluated yet. -/
def Dev.blockDue (d : Dev) (g p : Nat) : Bool :=
  let z := d.rx.zeroAt.getD g 0
  z ≤ d.now && (if d.x (blockKey g p) = z + 1 then d.x (blockKey g p + 1) else 0) < d.threshBlocks g

/-- The newest complete block of a path holds an output that carries SETTLE or CAL (R123, R133, R339). -/
def Dev.blockSettling (d : Dev) (g p : Nat) : Bool :=
  let n := 2 ^ d.a (gk P.threshWindowA g)
  let len := (n - 1) * d.latched.bandPs g + d.latched.bandSpanPs g
  d.settleIn g p (d.blockEnd g) len || d.calReach (d.blockEnd g - len) (d.blockEnd g)

/-- Sentinel paths on which threshold 0 of group A is ABOVE (R227). -/
def Dev.aboveCount (d : Dev) : Nat := popc 64 (maskAnd 64 (d.a P.threshStateA0) (d.a P.sentinelPathMask))

/-- A sentinel path whose threshold 0 becomes ABOVE such that enough of them are meets the condition of mode 2 on the last output of the
block (R227, R228). -/
def Dev.senRose (d : Dev) (g p : Nat) (was : Bool) : Dev :=
  if g = 0 ∧ !was ∧ bit (d.a P.threshStateA0) p ∧ bit (d.a P.sentinelPathMask) p ∧ d.a P.sentinelGateCount ≤ d.aboveCount then
    { d with sen := { d.sen with rose := some (d.blockEnd 0) } }
  else d

/-- THRESH_BLOCK_DONE (R133): `power` is the sum of I^2 + Q^2 over the newest block of 2^k outputs counted from the zero-history point,
which a path that contributes nothing has as 0; a block with SETTLE or CAL, be it that the samples brought it (`tagged`), gives no
result. -/
def execThreshBlockDone (dt group path power : Nat) (tagged : Bool) (s : State) : Host.Outcome State Fault Refusal :=
  onDev dt (fun d =>
    let runs := d.groupExists group && (d.active group || d.chainRuns group path)
    d.iff (runs && d.blockDue group path) (fun d =>
      let off := !bit (d.contrib group) path
      let spoilt := (tagged || d.blockSettling group path) && !off
      let d := (d.wx (blockKey group path) (d.rx.zeroAt.getD group 0 + 1)).wx (blockKey group path + 1) (d.threshBlocks group)
      let k := d.a (gk P.threshWindowA group)
      let sum := if off then 0 else power
      let was := bit (d.a P.threshStateA0) path
      d.iff (!spoilt) (fun d => ((d.threshUpdate group path 0 k sum).threshUpdate group path 1 k sum).senRose group path was))) s

/-- THRESH_EVENT_WINDOW_END (R135). -/
def execThreshEventWindowEnd (dt group path thr : Nat) (s : State) : Host.Outcome State Fault Refusal :=
  onDev dt (fun d =>
    let last := d.x (auxKey 2 (128 * group + 2 * path + thr))
    let now := bit (d.a (threshKey group thr)) path
    d.iff (last != 0 && last / 2 - 1 + 10 ^ 9 ≤ d.now && now != (last % 2 == 1)) (·.threshReport group path thr now)) s

end Sys2Proof.Machine
end

