-- ==== Sys2Proof/Machine/Plans.lean ====
section
/-!
DEFINITION. Plans: the segments of a SLOT_PLAN or DL_PLAN, the checks on a complete plan, the queues and deadlines
(06_uplink_combining.md R190 to R202, R693; 08_downlink_transmit.md R251, R252, R255 to R264; 05_package_memory_catalogue.md
R145; 18_archipelago.md R513, R514, R525, R527). Rates are in units of 2^-15 samples per second and loads in 2^-18 bits per
second, in which both are whole.
-/

namespace Sys2Proof.Machine

/-! ### Rates and loads -/

/-- Eighths of a bit per sample word: native 40 bits, compact 24.125 (R200, R489). -/
def eighths (compact : Bool) : Nat := if compact then 193 else 320

/-- The placement term of R198. -/
def Dev.placeRate (d : Dev) (g : Nat) (ps : List Place) : Nat := d.binRate g ((ps.map (·.count)).sum) 1

/-- The GRID and RAW terms of R198. -/
def Dev.itemRate (d : Dev) (g : Nat) (is : List ModeItem) : Nat :=
  (is.map (fun i =>
    if i.kind = 1 then d.binRate g i.count 64
    else if i.kind = 3 then popc 16 i.mask * d.fb g * 100000 * 32768
    else 0)).sum

/-- The reservation term of R198, R199. [Log: 22 DEDUCED] -/
def Dev.reserveRate (d : Dev) (g : Nat) : Nat :=
  if g = 0 ∧ d.a P.raReserve = 1 then d.binRate 0 (d.a P.raBinCount) 64 else 0

/-- HOLD bin samples of a plan per second (R201). -/
def Dev.holdRate (d : Dev) (g : Nat) (is : List ModeItem) : Nat :=
  ((is.filter (·.kind == 2)).map (fun i => d.binRate g i.count 1)).sum

/-- What a plan sends, without the reservation, as a link load: a forwarded group plan sends partial words (R525). -/
def Dev.planLoad (d : Dev) (p : Plan) : Nat :=
  if p.fwd then d.placeRate p.group p.places * 320
  else (d.placeRate p.group p.places + d.itemRate p.group p.items) * eighths p.compact

/-- The load of a group in a slot: its accepted plans and its reservation, native where no plan gives a format (R200;
log entry 22). [Log: 22 DEDUCED] -/
def Dev.groupLoad (d : Dev) (g : Nat) (ps : List Plan) : Nat :=
  let own := ps.find? (fun p => !p.fwd)
  (ps.map d.planLoad).sum + d.reserveRate g * eighths ((own.map (·.compact)).getD false)

/-- The queued and current plans of a slot and group. -/
def Dev.slotPlans (d : Dev) (dl : Bool) (slot g : Nat) : List Plan :=
  (if dl then d.dl.plans ++ d.dl.cur else d.ul.plans ++ d.ul.cur).filter (fun p => p.slot == slot && p.group == g)

/-- The port a plan's output leaves on: on a member the one toward its parent (R200, R525). [Log: 20 DEDUCED] -/
def Dev.planPort (d : Dev) : Nat :=
  if d.a P.redState = 1 then d.a P.redParentPort % 4 + 1 else d.egress

/-- Loads held for an egress and slot on account of other islands' plans (R527). -/
def Dev.heldLoad (d : Dev) (slot p : Nat) : Nat :=
  ((d.arch.loads.filter (fun l => l.1 == slot && l.2.1 == p)).map (·.2.2)).sum

/-! ### Deadlines (R194, R252, R259) -/

/-- The band-to-ball delay in ns (R251). -/
def Dev.ballNs (d : Dev) (g : Nat) : Nat := [180, 320, 600, 1160, 2280].getD (d.a (gk P.bandRateCodeA g)) 0

/-- DlDataLead in ps (R252). -/
def Dev.dlLeadPs (d : Dev) (g : Nat) : Nat :=
  (8 * d.chanN g - 1) * (5000000 / d.fb g) + d.ballNs g * 1000 + 50000000

/-- DlDataLead as published, ns rounded up. -/
def Dev.dlLeadNs (d : Dev) (g : Nat) : Nat := cdiv (d.dlLeadPs g) 1000

/-- How long before its slot a plan must have arrived, ns. -/
def Dev.planLeadNs (d : Dev) (dl : Bool) (g : Nat) : Nat := if dl then d.dlLeadNs g + 200000 else 200000

/-- The deadline of a plan as a Meridian instant in ns, 0 where it lies before the epoch. -/
def Dev.deadlineNs (d : Dev) (dl : Bool) (slot g : Nat) : Nat := slot * d.slotNs - d.planLeadNs dl g

/-! ### Counters and events of both plans -/

/-- EV32 or EV44 for a late plan, counted (R194, R259). [Log: 81 DESIGN CHOICE] -/
def Dev.planLate (d : Dev) (dl : Bool) (g us : Nat) : Dev :=
  if dl then (d.inc P.dlPlanLateCount).raise 44 (g * 65536 + sat 16383 us)
  else (d.inc P.apPlanLateCount).raise 32 (g * 65536 + sat 65535 us)

/-- EV33 for a refused plan, counted (R197, R261). -/
def Dev.planRefused (d : Dev) (dl : Bool) (g reason : Nat) : Dev :=
  if dl then (d.inc P.dlPlanRefusedCount).raise 33 (g * 65536 + 32768 + reason)
  else (d.inc P.apPlanRefusedCount).raise 33 (g * 65536 + reason)

/-- EV46 for a plan beyond the ledger (R145, R264); a DL_PLAN counts as refused too (R282). -/
def Dev.planLedger (d : Dev) (dl : Bool) (term units : Nat) : Dev :=
  ((d.inc P.ledgerRefusedCount).iff dl (·.inc P.dlPlanRefusedCount)).raise 46 (term + 32 * sat 4095 units)

/-! ### The checks -/

/-- Two placements with the same LAYER share a bin (R197 reason 5). -/
def layerClash (ps : List Place) : Bool :=
  anyPair (fun p q => p.layer == q.layer && overlap p.first p.count q.first q.count) ps

/-- A REFRESH placement shares a bin with another, or two name one catalogue number (R197 reason 6). -/
def refreshClash (ps : List Place) : Bool :=
  anyPair (fun p q => (p.refresh || q.refresh) &&
    (overlap p.first p.count q.first q.count || (p.refresh && q.refresh && p.cat == q.cat))) ps

/-- Bit k of the modes a plan uses: 0 PLACED, 1 GRID, 2 RAW, 3 HOLD. -/
def Plan.modes (p : Plan) : Nat :=
  b2n (!p.places.isEmpty) + 2 * b2n (p.items.any (·.kind == 1)) + 4 * b2n (p.items.any (·.kind == 3))
    + 8 * b2n (p.items.any (·.kind == 2))

/-- What the segments of a plan show malformed (R193, R197 reason 1, R261 reason 1). -/
def Dev.malformed (d : Dev) (dl : Bool) (part : PlanPart) (p : Plan) : Bool :=
  part.bad || part.segs.any (fun s => s.2.2.2 != p.places.length) ||
    part.segs.any (fun s => s.2.2.1 != p.compact) || (!dl && 64 < p.items.length) ||
    p.places.any (fun x => x.count == 0 || d.chanN p.group < x.first + x.count) ||
    p.items.any (fun i => if i.kind == 3 then i.mask == 0 else d.chanN p.group < i.first + i.count)

/-- Package memory, always present (R21), serves what a plan needs of it (R141): placements and HOLD need it. -/
def Dev.memServes (d : Dev) (p : Plan) : Bool :=
  d.a P.memState == 0 || (p.places.isEmpty && !p.items.any (·.kind == 2))

/-- Whether the group or a mode of a plan is unavailable, or an activation runs (reason 2; R627). -/
def Dev.unavailable (d : Dev) (dl : Bool) (p : Plan) : Bool :=
  !d.groupExists p.group || !d.memServes p || d.a P.updStage == 4 || d.upd.waiting ||
    (if dl then !d.ab P.dlGroupEnable p.group || d.a P.dlPathEnable == 0
     else !d.ab P.apGroupEnable p.group || maskSub 4 p.modes (d.a (gk P.apModeEnableA p.group)) != 0 ||
      (d.a P.redState == 1 && !p.fwd && !p.places.isEmpty))

/-- Whether the queue has no place for a plan's slot (reason 3, R179, R196). -/
def Dev.noRoom (d : Dev) (dl : Bool) (p : Plan) : Bool :=
  let q := (if dl then d.dl.plans else d.ul.plans).filter (fun x => x.group == p.group && x.fwd == p.fwd)
  !d.tim.valid || d.slotNow + 16 < p.slot || (16 ≤ q.length && !q.any (fun x => x.slot == p.slot))

/-- The plans of a slot and group with this one in its place. -/
def Dev.withPlan (d : Dev) (dl : Bool) (p : Plan) : List Plan :=
  p :: (d.slotPlans dl p.slot p.group).filter (fun x => x.fwd != p.fwd)

/-- The link check: reason 8 of R197, reason 7 of R261. -/
def Dev.overLink (d : Dev) (dl : Bool) (p : Plan) : Bool :=
  let other := d.slotPlans dl p.slot (1 - p.group)
  if dl then
    let load (x : Plan) : Nat := d.placeRate x.group x.places * eighths x.compact
    d.allowance (if p.fwd then d.planPort else 0) < load p + (other.map load).sum
  else
    let port := d.planPort
    d.allowance port < d.groupLoad p.group (d.withPlan false p) + d.groupLoad (1 - p.group) other + d.heldLoad p.slot port

/-- The first reason that refuses a complete SLOT_PLAN, 0 none (R197). -/
def Dev.ulReason (d : Dev) (part : PlanPart) (p : Plan) : Nat :=
  let g := p.group
  let both := d.withPlan false p
  let rate := (both.map (fun x => d.placeRate g x.places + d.itemRate g x.items)).sum + d.reserveRate g
  let collector := d.a P.redState == 2 || (d.a P.redState == 4 && d.a P.archCollector == d.island)
  if d.malformed false part p then 1
  else if d.unavailable false p then 2
  else if d.noRoom false p then 3
  else if d.placeLimit < p.places.length then 4
  else if layerClash p.places then 5
  else if refreshClash p.places then 6
  else if 1600000000 * 32768 < rate then 7
  else if d.overLink false p then 8
  else if collector && !p.places.isEmpty &&
    (1500000000 * 32768 < d.placeRate g p.places || d.a P.redState == 4) then 9
  else 0

/-- The first reason that refuses a complete DL_PLAN, 0 none (R261). -/
def Dev.dlReason (d : Dev) (part : PlanPart) (p : Plan) : Nat :=
  if d.malformed true part p then 1
  else if d.unavailable true p then 2
  else if d.noRoom true p then 3
  else if d.dlPlaceLimit < p.places.length then 4
  else if layerClash p.places then 5
  else if 800000000 * 32768 < d.placeRate p.group p.places then 6
  else if d.overLink true p then 7
  else 0

/-- The ledger term a plan exceeds, and by how many 16 MB/s (R145, R201, R264). -/
def Dev.planTerm (d : Dev) (dl : Bool) (p : Plan) : Option (Nat × Nat) :=
  let g := p.group
  let ns := d.slotNs
  let n := p.places.length + ((d.slotPlans (!dl) p.slot g).map (·.places.length)).sum
  let ref := (p.places.filter (·.refresh)).length
  let beyond (count declared : Nat) : Bool := declared * ns < count * 1000000
  let units (count declared : Nat) : Nat := cdiv ((count * 1000000 - declared * ns) * 128000) (ns * 16000000)
  let hold := d.holdRate g p.items
  let lp := d.a (gk P.ledgerPlacementsA g)
  let lr := d.a (gk P.ledgerRefreshA g)
  let lh := d.a (gk P.ledgerHoldA g) * 1000 * 32768
  if beyond n lp then some (g, units n lp)
  else if beyond ref lr then some (2 + g, units ref lr)
  else if lh < hold then some (4 + g, cdiv (2 * (hold - lh) * 320) (32768 * 16000000))
  else none

/-! ### Acceptance -/

/-- Take a plan into its queue, in place of the one it replaces (R196, R260). -/
def Dev.enqueue (d : Dev) (dl : Bool) (p : Plan) : Dev :=
  let same (x : Plan) : Bool := x.slot == p.slot && x.group == p.group && x.fwd == p.fwd
  if dl then
    let repl := d.dl.plans.any same
    let d := { d with dl := { d.dl with plans := d.dl.plans.filter (fun x => !same x) ++ [p] } }
    ((d.inc P.dlPlanAcceptedCount).iff repl (·.inc P.dlPlanReplacedCount)).noteIdle
  else
    let repl := d.ul.plans.any same
    let d := { d with ul := { d.ul with
      plans := d.ul.plans.filter (fun x => !same x) ++ [p],
      fetched := if repl then d.ul.fetched.filter (fun f => !(f.slot == p.slot && f.group == p.group)) else d.ul.fetched } }
    ((d.inc P.apPlanAcceptedCount).iff repl (·.inc P.apPlanReplacedCount)).showQueued.noteIdle

/-- Send the collector's verdict down the tree (R514). -/
def Dev.sendVerdict (d : Dev) (dl : Bool) (slot g reason lead : Nat) (accept : Bool) : Dev :=
  let body := leBytes 8 slot ++ leBytes 1 (g + 2 * b2n dl + 4 * b2n accept) ++ leBytes 1 reason
    ++ leBytes 2 (sat 65535 lead) ++ zeros 4
  d.each (bitList 4 (d.a P.redChildPorts)) (fun c d => d.send (c + 1) 1 tVerdict false body)

/-- Judge a complete plan that is not late: refuse it, or accept it; a collector tells its members. -/
def Dev.judge (d : Dev) (dl : Bool) (part : PlanPart) (p : Plan) : Dev :=
  let reason := if dl then d.dlReason part p else d.ulReason part p
  let term := if reason = 0 then d.planTerm dl p else none
  let ok := reason == 0 && term.isNone
  let d' :=
    if reason ≠ 0 then d.planRefused dl p.group reason
    else match term with
      | some (t, u) => d.planLedger dl t u
      | none => d.enqueue dl p
  let lead := (p.slot * d.slotNs - d.merNs) / 1000
  d'.iff (d.a P.redState == 2 && !p.fwd) (fun x => x.sendVerdict dl p.slot p.group reason lead ok)

/-! ### Segments -/

/-- The incomplete plans of one kind. -/
def Dev.parts (d : Dev) (dl : Bool) : List PlanPart := if dl then d.dl.part else d.ul.part

/-- Set them. -/
def Dev.setParts (d : Dev) (dl : Bool) (ps : List PlanPart) : Dev :=
  if dl then { d with dl := { d.dl with part := ps } } else { d with ul := { d.ul with part := ps } }

/-- Whether a part is the one of a slot, group and way. -/
def PlanPart.is (x : PlanPart) (slot g : Nat) (fwd : Bool) : Bool := x.slot == slot && x.group == g && x.fwd == fwd

/-- Whether every segment up to the one with LAST is there (R193). -/
def PlanPart.complete (x : PlanPart) : Bool :=
  match x.segs.find? (fun s => s.2.1) with
  | none => false
  | some (l, _) => (List.range (l + 1)).all (fun i => x.segs.any (fun s => s.1 == i))

/-- The plan of a complete part: items and placements in ascending segment (R193, R258). -/
def PlanPart.plan (x : PlanPart) : Plan :=
  let order := List.range 64
  { slot := x.slot, group := x.group, fwd := x.fwd,
    compact := ((x.segs.find? (fun s => s.1 == 0)).map (fun s => s.2.2.1)).getD false,
    items := order.flatMap (fun i => (x.items.filter (·.1 == i)).flatMap (·.2)),
    places := order.flatMap (fun i => (x.places.filter (·.1 == i)).flatMap (·.2)) }

/-- Add one segment to a part (R193, R693): a duplicate or a segment that breaks its layout makes the plan malformed. -/
def PlanPart.add (x : PlanPart) (dl : Bool) (h : SegHdr) (b : List Byte) : PlanPart :=
  let dup := x.segs.any (fun s => s.1 == h.seg)
  let ok := segOk dl h b
  let x := { x with bad := x.bad || dup || !ok }
  if dup then x
  else { x with
    segs := x.segs ++ [(h.seg, h.last, h.compact, h.total)],
    items := if ok then x.items ++ [(h.seg, segItems b h.items)] else x.items,
    places := if ok then x.places ++ [(h.seg, segPlaces dl b h.items h.count)] else x.places }

/-- A collector sends a segment on to its members, and a member to those below it (R513). -/
def Dev.forwardDown (d : Dev) (vc type : Nat) (body : List Byte) : Dev :=
  d.each (bitList 4 (d.a P.redChildPorts)) (fun c d => d.send (c + 1) vc type false body)

/-- A segment of a group plan the collector forwarded: complete, it waits for the verdict (R514). Only its placements apply
here (R513). [Log: 20 DEDUCED] -/
def Dev.fwdSegment (d : Dev) (dl : Bool) (h : SegHdr) (b : List Byte) : Dev :=
  let old := ((d.parts dl).find? (fun x => x.is h.slot h.group true)).getD
    { slot := h.slot, group := h.group, fwd := true }
  let new := old.add dl h b
  let others := (d.parts dl).filter (fun x => !x.is h.slot h.group true)
  if new.complete then
    let d := d.setParts dl others
    let p := { new.plan with items := [] }
    let keep := d.arch.fwd.filter (fun f => !(f.slot == h.slot && f.group == h.group && f.dl == dl))
    let one : Fwd := { slot := h.slot, group := h.group, dl := dl, plan := p, bad := new.bad }
    { d with arch := { d.arch with fwd := keep ++ [one] } }
  else d.setParts dl (others ++ [new])

/-- A segment of a plan addressed to this island (R193, R194). -/
def Dev.ownSegment (d : Dev) (dl : Bool) (h : SegHdr) (b : List Byte) : Dev :=
  let late := d.tim.valid && d.deadlineNs dl h.slot h.group < d.merNs
  let us := (d.merNs - d.deadlineNs dl h.slot h.group) / 1000
  let mine := (d.parts dl).find? (fun x => x.is h.slot h.group false)
  let others := (d.parts dl).filter (fun x => !x.is h.slot h.group false)
  let fresh : PlanPart := { slot := h.slot, group := h.group }
  match mine with
  | some x =>
    if x.late then
      if x.segs.any (fun s => s.1 == h.seg) then
        let new := { fresh.add dl h b with late := true }
        (d.setParts dl (if new.complete then others else others ++ [new])).planLate dl h.group us
      else
        let new := x.add dl h b
        d.setParts dl (if new.complete then others else others ++ [new])
    else
      let new := x.add dl h b
      if late then
        let d := d.setParts dl (if new.complete then others else others ++ [{ new with late := true }])
        if new.bad then d.planRefused dl h.group 1 else d.planLate dl h.group us
      else if new.complete then (d.setParts dl others).judge dl new new.plan
      else d.setParts dl (others ++ [new])
  | none =>
    let new := fresh.add dl h b
    if late then
      (d.setParts dl (if new.complete then others else others ++ [{ new with late := true }])).planLate dl h.group us
    else if new.complete then (d.setParts dl others).judge dl new new.plan
    else d.setParts dl (others ++ [new])

/-- A segment that has reached the head of VC1. A body without a whole header names no plan and is dropped. -/
def Dev.segment (d : Dev) (dl far : Bool) (b : List Byte) : Dev :=
  if b.length < 32 then d
  else
    let h := segHdr dl b
    let fwd := far && d.a P.redState == 1
    let tree := fwd || d.a P.redState == 2
    let d := d.iff tree (·.forwardDown 1 (if dl then tDlPlan else tSlotPlan) b)
    if fwd then d.fwdSegment dl h b else d.ownSegment dl h b

/-- A plan still incomplete at its deadline is late, or refused where a segment broke R693 (R194, R259, R693). -/
def Dev.planDeadline (d : Dev) (dl : Bool) (g slot : Nat) : Dev :=
  match (d.parts dl).find? (fun x => x.is slot g false) with
  | none => d
  | some x =>
    if d.tim.valid && !x.late && d.deadlineNs dl slot g ≤ d.merNs then
      let others := (d.parts dl).filter (fun y => !y.is slot g false)
      let d' := d.setParts dl (others ++ [{ x with late := true }])
      if x.bad then d'.planRefused dl g 1 else d'.planLate dl g ((d.merNs - d.deadlineNs dl slot g) / 1000)
    else d

/-- A member's own judgement of a forwarded plan after an accepting verdict (R514): lateness by LEAD, then reasons 2 and 8
of R197, or 2 and 7 of R261. -/
def Dev.memberJudge (d : Dev) (f : Fwd) (lead : Nat) : Dev :=
  let need := d.planLeadNs f.dl f.group
  let link := d.overLink f.dl f.plan
  if lead * 1000 < need then d.planLate f.dl f.group ((need - lead * 1000) / 1000)
  else if d.unavailable f.dl f.plan then d.planRefused f.dl f.group 2
  else if link then d.planRefused f.dl f.group (if f.dl then 7 else 8)
  else d.enqueue f.dl f.plan

end Sys2Proof.Machine
end

