-- ==== Sys2Proof/Machine/Catalogue.lean ====
section
/-!
DEFINITION. Package memory and the Catalogue (05_package_memory_catalogue.md R137 to R173): error handling, scrub, fetches,
generations, CATALOGUE_OP, and the order of VC1 messages (R167).
-/

namespace Sys2Proof.Machine

/-! ### Errors (R150 to R152) -/

/-- The region of a package-memory address as EV36 names it. -/
def memRegion (a : Nat) : Nat :=
  if a < 0x40000000 then 0 else if a < 0x54000000 then 1 else if a < 0x6C000000 then 2 else if a < 0x70000000 then 3 else 4

/-- A corrected read (R150). -/
def Dev.eccCorrected (d : Dev) : Dev :=
  ((d.inc P.memCorrectedCount).served 7 32).raiseRate 35 0 (10 ^ 12) 1 (fun n => sat 131071 n)

/-- An uncorrectable burst at an address, found by scrub or by a reader (R151). -/
def Dev.eccUncorrectable (d : Dev) (a : Nat) (scrub : Bool) : Dev :=
  let n := d.a P.memUncorrectableCount
  let d := d.wN P.memUncorrectableCount (sat 0xFFFFFFFF (n + 1))
  (d.w P.memLastUncorrectableAddr (a / 32 * 32)).raise 36 (memRegion a + 8 * b2n scrub)

/-! ### Entries (R155, R162, R164) -/

/-- Where an entry lies. -/
def entAddr (c : Nat) : Nat := 128 * c

/-- The image of an entry. -/
def Memory.entry (m : Memory) (c : Nat) : List Byte := m.read (entAddr c) 128

/-- Set CatGeneration, with its control-block copy (R165). -/
def Dev.setGeneration (d : Dev) (g : Nat) : Dev :=
  { d.w P.catGeneration (g % 2 ^ 64) with cat := { d.cat with ctlGen := g % 2 ^ 64, ctlOk := true } }

/-- One entry leaves a state for another (R173). -/
def Dev.countState (d : Dev) (old new : Nat) : Dev :=
  if old = new then d
  else
    let k := P.catStateCounts
    let d := d.w (k + old) (d.a (k + old) - 1)
    d.w (k + new) (d.a (k + new) + 1)

/-- Commit one entry write: CatGeneration grows by 1 and the entry's GEN takes it (R164). -/
def Dev.storeEntry (d : Dev) (c : Nat) (old image : List Byte) : Dev × MemOp :=
  let g := d.a P.catGeneration + 1
  let d := (d.setGeneration g).countState (entState old) (entState image)
  (d, .put (entAddr c) (setGen image g))

/-- The placements of the slot in progress for a group, uplink then downlink. -/
def Dev.startPlaces (d : Dev) (g : Nat) : List Place :=
  ((d.ul.cur ++ d.dl.cur).filter (fun (p : Plan) => p.group == g)).flatMap (·.places)

/-- Misses of a group are counted and reported (R163). -/
def Dev.countMisses (d : Dev) (g n : Nat) : Dev :=
  d.iff (n != 0) (fun d => (d.add P.catMissCount n).raiseRate 34 g (10 ^ 9) n (fun n => g * 65536 + sat 65535 n))

/-- Placements of an entry in a slot are misses in either group (R162); in the slot in progress they count from here (R163). -/
def Dev.spoil (d : Dev) (slot c : Nat) : Dev :=
  let hit (g : Nat) : Bool := d.ul.slot == some slot &&
    d.ul.fetched.any (fun f => f.slot == slot && f.group == g && f.cat == c && !f.miss) && !d.ul.missed.contains (slot, g, c)
  let n (g : Nat) : Nat := if hit g then ((d.startPlaces g).filter (·.cat == c)).length else 0
  let l := d.ul.fetched.map (fun (f : Fetch) => if f.slot = slot ∧ f.cat = c then { f with miss := true } else f)
  (({ d with ul := { d.ul with fetched := l } } : Dev).countMisses 0 (n 0)).countMisses 1 (n 1)

/-- The same in the slot in progress, where one is. [Log: 93 DEDUCED] -/
def Dev.spoilNow (d : Dev) (c : Nat) : Dev :=
  match d.ul.slot with
  | none => d
  | some slot => d.spoil slot c

/-- An entry read that failed makes the entry STALE (R162). -/
def Dev.makeStale (d : Dev) (c : Nat) (old : List Byte) : Dev × MemOp :=
  ((d.served 5 128).w P.memLastUncorrectableCat c).storeEntry c old (bareEntry c stStale 0)

/-- Read an entry: a corrected burst is counted, an uncorrectable one (`burst` 0 to 3 of the entry) or a HEADER of another entry makes it
STALE (R150, R151, R162). -/
def Dev.readEntry (d : Dev) (m : Memory) (c : Nat) (ecc : Ecc) (burst : Nat) : Dev × List MemOp :=
  let img := m.entry c
  let stale (d : Dev) : Dev × List MemOp := let (d, op) := d.makeStale c img; (d, [op])
  match ecc with
  | .uncorrectable => stale (d.eccUncorrectable (entAddr c + 32 * burst) false)
  | .corrected => if entCat img = c then (d.eccCorrected, []) else stale d.eccCorrected
  | .ok => if entCat img = c then (d, []) else stale d

/-! ### Fetch (R149, R161 to R163) -/

/-- The slot a fetch of an entry for a group serves: the earliest queued plan that names it and has not had it fetched. -/
def Dev.fetchSlot (d : Dev) (g c : Nat) : Option Nat :=
  let wants (p : Plan) : Bool := p.group == g && p.places.any (·.cat == c) &&
    !d.ul.fetched.any (fun f => f.slot == p.slot && f.group == g && f.cat == c)
  ((d.ul.plans ++ d.dl.plans).filter wants).foldl (fun acc p =>
    match acc with
    | none => some p.slot
    | some s => some (min s p.slot)) none

/-- CATALOGUE_FETCH: one entry is read for a slot and group. [Log: 93 DEDUCED] -/
def Dev.fetch (d : Dev) (m : Memory) (g c : Nat) (ecc : Ecc) (burst : Nat) : Dev × List MemOp :=
  match d.fetchSlot g c with
  | none => (d, [])
  | some slot =>
    if d.a P.memState ≠ 0 then (d, [])
    else
      let (d, ops) := (d.served 1 128).readEntry m c ecc burst
      let img := (m.applyAll ops).entry c
      let one : Fetch := ⟨slot, g, c, img, entMiss img g, d.now⟩
      let d : Dev := { d with ul := { d.ul with fetched := d.ul.fetched ++ [one] } }
      (if ops.isEmpty then d else d.spoil slot c, ops)

def execCatalogueFetch (dt group catnum : Nat) (r : BurstEcc) (s : State) : Host.Outcome State Fault Refusal :=
  onMem dt (fun d m => d.fetch m group catnum r.ecc r.burst) s

/-! ### Scrub (R148, R152, R153) -/

/-- Scrub rewrote a burst outside the Catalogue as zero (R152): sentinel records there read zero, and the control block no longer holds
where its copy of CatGeneration or its CRC lay in the burst, which the spec does not say: a free value. [Log: 94 DESIGN CHOICE] -/
def Dev.scrubZero (d : Dev) (a : Nat) : Dev :=
  if 0x6C000000 ≤ a ∧ a < 0x70000000 then { d with sen := { d.sen with zeroed := (a, d.ringCount) :: d.sen.zeroed.filter (fun e => e.1 != a) } }
  else if 0x70000000 ≤ a ∧ a < 0x70001000 then
    let (v, d) := d.free 410 1
    d.iff (v == 1) (fun d => { d with cat := { d.cat with ctlOk := false } })
  else d

/-- SCRUB_BURST: the next burst is read; a pass ends at the end of package memory. -/
def Dev.scrub (d : Dev) (m : Memory) (ecc : Ecc) : Dev × List MemOp :=
  if !d.up || d.a P.memState != 0 then (d, [])
  else
    let a := d.a P.memScrubPosition
    let d := d.served 7 32
    let (d, ops) := match ecc with
      | .ok => (d, [])
      | .corrected =>
        ({ d.eccCorrected with cat := { d.cat with scrubFound := d.cat.scrubFound + 1 } }, [])
      | .uncorrectable =>
        let d := d.eccUncorrectable a true
        if a < catBytes then
          let c := a / 128
          let (d, op) := d.makeStale c (m.entry c)
          (d.spoilNow c, [op])
        else (d.scrubZero a, [.wipe a (a + 32)])
    if a + 32 < ipmEnd then (d.w P.memScrubPosition (a + 32), ops)
    else
      let n := d.cat.scrubFound
      let d := { d with cat := { d.cat with scrubFound := 0, scrubStart := d.now } }
      (((d.w P.memScrubPosition 0).inc P.memScrubPassCount).raise 47 (sat 131071 n), ops)

def execScrubBurst (dt : Nat) (ecc : Ecc) (s : State) : Host.Outcome State Fault Refusal :=
  onMem dt (fun d m => d.scrub m ecc) s

/-! ### The MRAM copy (R165) -/

/-- Copy CatGeneration to MRAM where it changed since the last copy. -/
def Dev.copyGeneration (d : Dev) : Dev :=
  let g := d.a P.catGeneration
  d.iff (g != d.cat.genMram) (fun d => d.mramWrite 8 (fun d => { d with cat := { d.cat with genMram := g } }))

def execCatgenMramCopy (dt : Nat) (s : State) : Host.Outcome State Fault Refusal :=
  onDev dt (fun d => d.iff d.up (·.copyGeneration)) s

/-- The generation after a boot that lost package memory (R165). -/
def reseed (g : Nat) : Nat := (g / 2 ^ 40 + 2) * 2 ^ 40 % 2 ^ 64

/-! ### CATALOGUE_OP (R169 to R172) -/

/-- The status of a CATALOGUE_OP (R170): 4 before all, else the lowest that applies. -/
def Dev.catStatus (d : Dev) (o : CatOp) : Nat :=
  let limit := if o.op = 1 ∨ o.op = 3 then 64 else 65536
  let countOk := if o.op = 5 then o.count == 0 else 1 ≤ o.count && o.count ≤ limit
  let argOk := if o.op = 4 then o.arg == stAttached || o.arg == stLocked else o.arg == 0
  let lenOk := o.length == (if o.op = 1 then 16 + 128 * o.count else 16)
  let bad1 := o.op == 0 || 5 < o.op || !argOk || !countOk || 8388608 < o.first + o.count || !lenOk
  let imgs := o.images.zip (List.range o.images.length)
  let bad2 := o.op == 1 && imgs.any (fun x =>
    entCat x.1 != o.first + x.2 || entState x.1 == stEmpty || entState x.1 == stStale)
  let bad3 := o.op == 1 && o.images.any (fun b => !sigOk b 0 || !sigOk b 1)
  if d.a P.memState ≠ 0 then 4 else if bad1 then 1 else if bad2 then 2 else if bad3 then 3 else 0

/-- The 24 bytes of a CATALOGUE_OP response (R492). -/
def Dev.catResponse (d : Dev) (o : CatOp) (status : Nat) : List Byte :=
  leBytes 1 o.op ++ leBytes 1 status ++ zeros 2 ++ leBytes 4 o.first ++ leBytes 4 o.count ++ leBytes 4 o.tag
    ++ leBytes 8 (d.a P.catGeneration)

/-- Refuse an operation with its status: nothing changes (R170). -/
def Dev.catRefuse (d : Dev) (port : Nat) (o : CatOp) (status : Nat) : Dev :=
  (d.inc P.catOpRefusedCount).send port 1 tCatOp true (d.catResponse o status)

/-- The stored image of a WRITE: the one given, its reserved bits included, with the stored HISTORY where the image's is zero (R171).
[Log: 95 DEDUCED] -/
def writeImage (old img : List Byte) : List Byte :=
  if field img 8 8 = 0 then setBytes img 8 (slice old 8 8) else img

/-- Store entries one after another, each read as it stands. -/
def Dev.storeAll (d : Dev) (m : Memory) (l : List (Nat × (List Byte → Option (List Byte)))) : Dev × List MemOp :=
  l.foldl (fun acc x =>
    let old := m.entry x.1
    match x.2 old with
    | none => acc
    | some new =>
      let (d, op) := acc.1.storeEntry x.1 old new
      (d, acc.2 ++ [op])) (d, [])

/-- Entries of an operation whose read yields an uncorrectable burst, by burst address, become STALE (R151, R162). -/
def Dev.catSpoil (d : Dev) (m : Memory) (o : CatOp) (bad : List Nat) : Dev × List MemOp :=
  (bad.filter (fun a => (o.op == 3 || o.op == 4) && o.first ≤ a / 128 && a / 128 < o.first + o.count)).foldl (fun acc a =>
    let (d, ops) := acc.1.readEntry (m.applyAll acc.2) (a / 128) .uncorrectable (a % 128 / 32)
    (d.spoilNow (a / 128), acc.2 ++ ops)) (d, [])

/-- What an operation changes (R171), and the bytes it moves (R172). -/
def Dev.catApply (d : Dev) (m : Memory) (o : CatOp) : Dev × List MemOp :=
  let nums := (List.range o.count).map (fun i => o.first + i)
  match o.op with
  | 1 =>
    let d := d.served 6 (128 * o.count)
    d.storeAll m ((nums.zip o.images).map (fun x => (x.1, fun old => some (writeImage old x.2))))
  | 2 =>
    let d := d.served 6 (128 * o.count)
    d.storeAll m (nums.map (fun c => (c, fun _ => some (bareEntry c stEmpty 0))))
  | 4 =>
    let (d, ops) := d.storeAll m (nums.map (fun c => (c, fun old =>
      let st := entState old
      if st = stEmpty ∨ st = stStale ∨ st = o.arg then none else some (setState old o.arg))))
    (d.served 6 (32 * (o.count + ops.length)), ops)
  | 3 => (d.served 6 (128 * o.count), [])
  | _ => (d, [])

/-- Complete an operation: its effect and its response (R171, R172, R492). -/
def Dev.catComplete (d : Dev) (m : Memory) (port : Nat) (o : CatOp) (bad : List Nat) : Dev × List MemOp :=
  let (d, ops0) := d.catSpoil m o bad
  let m := m.applyAll ops0
  let (d, ops) := d.catApply m o
  let d := d.inc P.catOpCount
  let r := d.catResponse o 0
  let d := d.iff (o.op == 3) (fun d =>
    d.send port 3 tCatOp true (r ++ (List.range o.count).flatMap (fun i => m.entry (o.first + i))))
  let counts := if o.op = 5 then (d.entries P.catStateCounts 4).flatMap (leBytes 4) else []
  (d.send port 1 tCatOp true (r ++ counts), ops0 ++ ops)

/-! ### The order of VC1 (R167) -/

/-- Take the head message off VC1 and free its credit. -/
def Dev.vc1Pop (d : Dev) : Dev :=
  match d.cat.vc1 with
  | [] => d
  | x :: rest => ({ d with cat := { d.cat with vc1 := rest } }).freeUnits x.port 1 (msgUnits x.body.length)

/-- Serve VC1 from its head until it is empty or an operation that takes time stands there: plan segments and refused
operations end at once. -/
def Dev.vc1Run : Nat → Dev → Dev
  | 0, d => d
  | f + 1, d =>
    match d.cat.vc1 with
    | [] => d
    | x :: _ =>
      if x.type = tSlotPlan then Dev.vc1Run f (d.vc1Pop.segment false x.far x.body)
      else if x.type = tDlPlan then Dev.vc1Run f (d.vc1Pop.segment true x.far x.body)
      else if x.type = tCatOp then
        let o := catOp x.body
        let st := d.catStatus o
        if st = 0 then d else Dev.vc1Run f (d.vc1Pop.catRefuse x.port o st)
      else d

/-- Serve what stands on VC1. -/
def Dev.vc1Serve (d : Dev) : Dev := Dev.vc1Run (d.cat.vc1.length + 1) d

/-- A data message of VC1 arrives: it joins the queue when it passes the receive checks. -/
def Dev.vc1Take (d : Dev) (t : Nat) (h : Hdr) (body : List Byte) : Dev :=
  let (d, ok) := d.rxCheck h t body.length false
  let x : Vc1 := ⟨h.port, h.port != 0 && h.island == 0xFE, t, body⟩
  if ok then ({ d with cat := { d.cat with vc1 := d.cat.vc1 ++ [x] } }).vc1Serve else d

/-- The same, past Riptide's received rules. -/
def Dev.vc1In (d : Dev) (i : Hdr → List Byte → Instr) (t : Nat) (h : Hdr) (body : List Byte) : Dev :=
  match d.ripRx i h t body with
  | (d, none) => d
  | (d, some (h, b)) => d.vc1Take t h b

/-- CATALOGUE_OP WRITE arrives on VC1. -/
def execCatalogueOpWrite (dt : Nat) (hdr : Hdr) (body : List Byte) (s : State) : Host.Outcome State Fault Refusal :=
  onDev dt (·.vc1In (Instr.catalogueOpWrite 0) tCatOp hdr body) s

/-- CATALOGUE_OP CLEAR arrives on VC1. -/
def execCatalogueOpClear (dt : Nat) (hdr : Hdr) (body : List Byte) (s : State) : Host.Outcome State Fault Refusal :=
  onDev dt (·.vc1In (Instr.catalogueOpClear 0) tCatOp hdr body) s

/-- CATALOGUE_OP READ arrives on VC1. -/
def execCatalogueOpRead (dt : Nat) (hdr : Hdr) (body : List Byte) (s : State) : Host.Outcome State Fault Refusal :=
  onDev dt (·.vc1In (Instr.catalogueOpRead 0) tCatOp hdr body) s

/-- CATALOGUE_OP SET_STATE arrives on VC1. -/
def execCatalogueOpSetState (dt : Nat) (hdr : Hdr) (body : List Byte) (s : State) : Host.Outcome State Fault Refusal :=
  onDev dt (·.vc1In (Instr.catalogueOpSetState 0) tCatOp hdr body) s

/-- CATALOGUE_OP QUERY arrives on VC1. -/
def execCatalogueOpQuery (dt : Nat) (hdr : Hdr) (body : List Byte) (s : State) : Host.Outcome State Fault Refusal :=
  onDev dt (·.vc1In (Instr.catalogueOpQuery 0) tCatOp hdr body) s

/-- CATALOGUE_OP_COMPLETE (R172): the operation at the head of VC1 takes effect, and what waited behind it is served. `bad` are the
addresses of uncorrectable bursts met in reading entries. -/
def Dev.catOpDone (d : Dev) (m : Memory) (bad : List Nat) : Dev × List MemOp :=
  match d.cat.vc1 with
  | x :: _ =>
    if x.type ≠ tCatOp then (d, [])
    else if d.a P.memState = 0 then
      let (d, ops) := d.vc1Pop.catComplete m x.port (catOp x.body) bad
      (d.vc1Serve, ops)
    else (d.vc1Serve, [])
  | [] => (d, [])

def execCatalogueOpComplete (done : CatDone) (s : State) : Host.Outcome State Fault Refusal :=
  onMem done.dt (fun d m => d.catOpDone m done.bad) s

/-! ### Plan messages -/

/-- SLOT_PLAN: a segment arrives on VC1 (R193). -/
def execSlotPlan (dt : Nat) (hdr : Hdr) (body : List Byte) (s : State) : Host.Outcome State Fault Refusal :=
  onDev dt (·.vc1In (Instr.slotPlan 0) tSlotPlan hdr body) s

/-- SLOT_PLAN_DEADLINE (R194). -/
def execSlotPlanDeadline (dt group slot : Nat) (s : State) : Host.Outcome State Fault Refusal :=
  onDev dt (·.planDeadline false group slot) s

/-- DL_PLAN: a segment arrives on VC1 (R258). -/
def execDlPlan (dt : Nat) (hdr : Hdr) (body : List Byte) (s : State) : Host.Outcome State Fault Refusal :=
  onDev dt (·.vc1In (Instr.dlPlan 0) tDlPlan hdr body) s

/-- DL_PLAN_DEADLINE (R259). -/
def execDlPlanDeadline (dt group slot : Nat) (s : State) : Host.Outcome State Fault Refusal :=
  onDev dt (·.planDeadline true group slot) s

end Sys2Proof.Machine
end

