-- ==== Sys2Proof/Machine/Chain.lean ====
section
/-!
DEFINITION. What the receive filter chain and the channelizer form from converter samples (04_filters_channelizer.md R102 to R125).
A stream is a function of the sample's index from the zero-history point on. The commands that bring band outputs or bin samples
(THRESH_BLOCK_DONE, UL_DATA_SEND, SENTINEL_DETECTION, SLOT_BOUNDARY) bring what these functions give; the samples themselves are no
state of the device. Fixed filters whose taps the spec does not list take them from Config.
-/

namespace Sys2Proof.Machine

/-! ### Angles -/

/-- pi in units of 2^-100. [Log: 16 DEDUCED] -/
def piQ : Int := 3982441812995697363688351113952

/-- Terms of the power series of cosine (`j` = 0) or sine (`j` = 1) from order `n`, for an angle in units of 2^-100. [Log: 16 DEDUCED] -/
def trigTerms (x : Int) : Nat → Nat → Int → Int
  | 0, _, _ => 0
  | f + 1, n, t => t + trigTerms x f (n + 2) (-(t * x / 2 ^ 100 * x / 2 ^ 100 / ((n + 1) * (n + 2))))

/-- (cos, sin) of k / 2^m of a turn in units of 2^-60, for the first eighth of a turn. [Log: 16 DEDUCED] -/
def trigOctant (k m : Nat) : CPair :=
  let x : Int := 2 * piQ * k / 2 ^ m
  (rhe (trigTerms x 16 0 (2 ^ 100)) (2 ^ 40), rhe (trigTerms x 16 1 x) (2 ^ 40))

/-- (cos, sin) of k / 2^m of a turn, m at least 3, in units of 2^-60. [Log: 16 DEDUCED] -/
def turnPair (k m : Nat) : CPair :=
  let k := k % 2 ^ m
  let e := 2 ^ (m - 3)
  let r := k % e
  let a := trigOctant r m
  let b := trigOctant (e - r) m
  match k / e with
  | 0 => a
  | 1 => (b.2, b.1)
  | 2 => (-a.2, a.1)
  | 3 => (-b.1, b.2)
  | 4 => (-a.1, -a.2)
  | 5 => (-b.2, -b.1)
  | 6 => (a.2, -a.1)
  | _ => (b.1, -b.2)

/-- The angle of an integer number of 2^-m turns, negative ones too. -/
def turnOf (k : Int) (m : Nat) : CPair := turnPair (ux m k) m

/-! ### Converter samples and streams (R106, R123) -/

/-- A stream of native words by index. -/
abbrev Stream18 := Int → Nat

/-- A 14-bit converter code pair as a native word (R106), with the tags the converter sample carries. -/
def codeWord (i q : Int) (tags : Nat) : Nat := mkWord (16 * i) (16 * q) tags

/-- A stream that begins at its zero-history point: before it stand zeros, and a span that reaches there carries SETTLE (R123). -/
def fromZero (x : Stream18) : Stream18 := fun k => if k < 0 then 1 else x k

/-- The tags an output passes on from its span: SETTLE, CLIP and CAL (R123). -/
def spanTags (x : Stream18) (newest : Int) (taps : Nat) : Nat :=
  (List.range taps).foldl (fun t m => maskOr 4 t (wordTags (x (newest - (m : Nat))) % 8)) 0

/-- One output of a filter stage with real taps in units of 1 / den, newest input first (R106, R123). -/
def firOut (taps : List Int) (den : Nat) (x : Stream18) (newest : Int) : Nat :=
  let at_ (m : Nat) : Nat := x (newest - (m : Nat))
  let s := (taps.zip (List.range taps.length)).foldl
    (fun (a : Int × Int) t => (a.1 + t.1 * wordI (at_ t.2), a.2 + t.1 * wordQ (at_ t.2))) (0, 0)
  roundWord s.1 s.2 den (spanTags x newest taps.length)

/-! ### The stages (R102, R105, R107, R112) -/

/-- The NCO: the mix brings f to the band centre 0; its tags pass unchanged (R107, R110, R123). [Log: 91 DEDUCED] -/
def ncoOut (phase : Int → Nat) (x : Stream18) : Stream18 := fun k =>
  let c := turnPair (phase k) 40
  let w := x k
  roundWord (wordI w * c.1 + wordQ w * c.2) (wordQ w * c.1 - wordI w * c.2) (2 ^ 60) (wordTags w)

/-- The phase accumulator of an NCO with word W (R107, R110): `p0` at sample 0. -/
def ncoAcc (p0 W : Nat) : Int → Nat := fun k => ux 40 ((p0 : Int) + (sx 40 W) * k)

/-- The taps of a fixed half-band stage of `n` taps (R102, R105): 1/2 at the centre, zero at every other even offset, the rest by
Config, in units of 2^-60. [Log: 91 DEDUCED] -/
def halfBand (stage n : Nat) : List Int :=
  (List.range n).map (fun k =>
    let off := if k < n / 2 then n / 2 - k else k - n / 2
    if off = 0 then 2 ^ 59 else if off % 2 = 0 then 0 else Config.halfBandTap stage off)

/-- A half-band stage that decimates by 2: output k is formed from inputs up to 2 k (R124). -/
def halfOut (stage n : Nat) (x : Stream18) : Stream18 := fun k => firOut (halfBand stage n) (2 ^ 60) x (2 * k)

/-- The coefficients of a bank (R112): the first L entries, weight 2^-17. -/
def Dev.firTaps (d : Dev) (g b : Nat) : List Int :=
  let base := (if g = 0 then P.firCoefA0 else P.firCoefB0) + b * 2 ^ 24
  (List.range (d.a (gk P.firLengthA g + b))).map (fun e => sx 18 (d.a (base + e)))

/-- The FIR with a bank, decimating by d_F (R102, R103, R124). -/
def Dev.firBank (d : Dev) (g b : Nat) (x : Stream18) : Stream18 := fun k =>
  let dF : Nat := if d.a (gk P.bandRateCodeA g) = 0 then 1 else d.decim g / 4
  firOut (d.firTaps g b) (2 ^ 17) x (k * dF)

/-- The input of the FIR: converter samples through the NCO, HB0 in wide mode, HB1, and HB2 but at 200 MS/s (R102, R105). -/
def Dev.firInput (d : Dev) (g : Nat) (phase : Int → Nat) (x : Stream18) : Stream18 :=
  let y := ncoOut phase (fromZero x)
  let y := fromZero (if d.wide then halfOut 0 47 y else y)
  let y := fromZero (halfOut 1 47 y)
  if d.a (gk P.bandRateCodeA g) = 0 then y else fromZero (halfOut 2 31 y)

/-- Band output k of a chain: the active bank's, and inside a cross-fade that began at output k0 the mix of R116. -/
def Dev.bandOut (d : Dev) (g : Nat) (phase : Int → Nat) (fade : Option (Nat × Int)) (x : Stream18) : Stream18 := fun k =>
  let y := d.firInput g phase x
  let new := d.firBank g (d.a (gk P.firBankActiveA g)) y k
  match fade with
  | none => new
  | some (oldBank, k0) =>
    if k < k0 ∨ k0 + 256 ≤ k then new
    else
      let old := d.firBank g oldBank y k
      let n : Int := k - k0 + 1
      roundWord ((256 - n) * wordI old + n * wordI new) ((256 - n) * wordQ old + n * wordQ new) 256
        (maskOr 4 (wordTags old) (wordTags new))

/-! ### The channelizer (R119 to R122) -/

/-- The taps of the prototype for N bins, newest first: 8 N of them, linear-phase, in units of 2^-60 with unit sum
(R121). [Log: 91 DEDUCED] -/
def prototype (n : Nat) : List Int := (List.range (8 * n)).map (fun m => Config.prototypeTap n (min m (8 * n - 1 - m)))

/-- The centre of bin b of a group, in Hz from the band centre: the numerator over N (R119). -/
def Dev.binCentre (d : Dev) (g b : Nat) : Int := ((b : Int) - (d.chanN g / 2 : Nat)) * (d.fb g * 100000 : Nat)

/-- The width of a bin in Hz: the numerator over N (R119). -/
def Dev.binWidth (d : Dev) (g : Nat) : Nat := d.fb g * 100000

/-- Bin sample j of bin b from the band outputs (R120 to R123): a tone at the bin's centre comes out with amplitude A 2^(n - sc) and its
phase at the reference instant, (8 N - 1) / 2 band samples before the newest. -/
def Dev.binOut (d : Dev) (g b : Nat) (y : Stream18) : Stream18 := fun j =>
  let n := d.a (gk P.chanLog2BinsA g)
  let big := 2 ^ n
  let newest : Int := j * (d.hop g : Nat)
  let s := ((prototype big).zip (List.range (8 * big))).foldl (fun (a : Int × Int) t =>
    let w := y (newest - (t.2 : Nat))
    let c := turnOf (-((b : Int) - (big / 2 : Nat)) * ((8 * big : Nat) - 1 - 2 * (t.2 : Nat))) (n + 1)
    (a.1 + t.1 * (wordI w * c.1 - wordQ w * c.2), a.2 + t.1 * (wordI w * c.2 + wordQ w * c.1))) (0, 0)
  let sc := d.a (gk P.chanScaleA g)
  roundWord (s.1 * 2 ^ n) (s.2 * 2 ^ n) (2 ^ (120 + sc)) (spanTags y newest (8 * big))

/-! ### Settling bounds (R125, R126) -/

/-- The most band outputs that a run of n SETTLE converter samples tags. -/
def Dev.runSettle (d : Dev) (g n : Nat) : Nat := cdiv (n + d.span g - 1) (d.decim g)

/-- The most bin samples of each bin that a run of m tagged band outputs tags. -/
def Dev.binRunSettle (d : Dev) (g m : Nat) : Nat := cdiv (m + 8 * d.chanN g - 1) (d.hop g)

/-! ### Thresholds (R133) -/

/-- The sum of I^2 + Q^2 over block m of 2^k band outputs counted from the zero-history point. -/
def blockPower (y : Stream18) (k m : Nat) : Nat :=
  ((List.range (2 ^ k)).map (fun i => let w := y ((m * 2 ^ k + i : Nat) : Int)
    ((wordI w) * (wordI w) + (wordQ w) * (wordQ w)).toNat)).sum

end Sys2Proof.Machine
end

