-- ==== Sys2Proof/Machine/Uplink.lean ====
section
/-!
DEFINITION. Uplink combining (06_uplink_combining.md R198 to R219): ATTACH and refresh computed exactly over integers, HOLD
snapshots, the output of a slot, shedding (16_lanes.md R470) and backpressure.
-/

namespace Sys2Proof.Machine

/-! ### Complex integers -/

/-- A complex integer. -/
abbrev CInt := Int × Int

/-- Product. -/
def cmul (a b : CInt) : CInt := (a.1 * b.1 - a.2 * b.2, a.1 * b.2 + a.2 * b.1)

/-- Sum. -/
def cadd (a b : CInt) : CInt := (a.1 + b.1, a.2 + b.2)

/-- Conjugate. -/
def cconj (a : CInt) : CInt := (a.1, -a.2)

/-- Squared magnitude. -/
def cabs2 (a : CInt) : Nat := (a.1 * a.1 + a.2 * a.2).toNat

/-- The complex value of a native word. -/
def cword (w : Nat) : CInt := (wordI w, wordQ w)

/-- Product of a matrix and a vector. -/
def cmatvec (m : List (List CInt)) (v : List CInt) : List CInt :=
  m.map (fun row => (row.zip v).foldl (fun acc p => cadd acc (cmul p.1 p.2)) (0, 0))

/-- Sum of squared magnitudes of a vector. -/
def cnorm2 (v : List CInt) : Nat := (v.map cabs2).sum

/-- v^h m v, a real number for a Hermitian m. -/
def cquad (m : List (List CInt)) (v : List CInt) : Nat :=
  ((cmatvec m v).zip v).foldl (fun acc p => acc + (cmul p.1 (cconj p.2)).1) 0 |>.toNat

/-- Sum over vectors of t t^h. -/
def covOf (n : Nat) (ts : List (List CInt)) : List (List CInt) :=
  (List.range n).map (fun i => (List.range n).map (fun k =>
    ts.foldl (fun acc t => cadd acc (cmul (t.getD i (0, 0)) (cconj (t.getD k (0, 0))))) (0, 0)))

/-- round(2^15 a / sqrt n2), saturated to 16 bits (R210). -/
def unitCoef (a : Int) (n2 : Nat) : Int :=
  let r : Nat := (isqrt (2 ^ 32 * (a * a).toNat / n2) + 1) / 2
  clampI (-32768) 32767 (if a < 0 then -(r : Int) else r)

/-- round(-100 log10 (num / den)), clamped to 1 to 4,095, for num above 0 (R210). -/
def residOf (num den : Nat) : Nat :=
  let le (r : Nat) : Bool := r == 0 || num ^ 200 * 10 ^ (2 * r - 1) ≤ den ^ 200
  max 1 ((List.range 12).foldl (fun r i => let c := r + 2 ^ (11 - i); if le c then c else r) 0)

/-- Beams in descending power, the lower index first among equals. -/
def byPower (d : List Nat) : List Nat :=
  let top := d.foldl max 0
  (List.range d.length).foldl (fun acc b => insertBy (fun x => top - d.getD x 0) b acc) []

/-- A tap of a beam with the coefficient conj(v) / |v| (R210); where the norm is 0 the spec states no value: free.
[Log: 28 DEDUCED] -/
def Dev.tapOfV (d : Dev) (beam : Nat) (v : CInt) (n2 : Nat) (walked : Bool) : Tap × Dev :=
  if n2 = 0 then
    let (x, d) := d.free (200 + beam) 32
    (⟨beam, sx 16 x, sx 16 (x / 65536), true, walked⟩, d)
  else (⟨beam, unitCoef v.1 n2, unitCoef (-v.2) n2, true, walked⟩, d)

/-- RESID of num / den; a logarithm of 0 is not stated: a free value clamped as R210 says. [Log: 28 DEDUCED] -/
def Dev.residual (d : Dev) (num den : Nat) : Nat × Dev :=
  if num = 0 ∨ den = 0 then let (x, d) := d.free 300 12; (max 1 x, d) else (residOf num den, d)

/-- The taps of a list of beams with their vector, in descending magnitude (R160). -/
def Dev.orderTaps (d : Dev) (beams : List Nat) (v : List CInt) (walk : Option (Nat × Nat)) : List Tap × Dev :=
  let n2 := cnorm2 v
  let order := byPower (v.map cabs2)
  order.foldl (fun acc j =>
    let b := beams.getD j 0
    let (beam, walked) := match walk with
      | some (from_, to_) => if b = from_ then (to_, true) else (b, false)
      | none => (b, false)
    let (t, d) := acc.2.tapOfV beam (v.getD j (0, 0)) n2 walked
    (acc.1 ++ [t], d)) ([], d)

/-- An entry image with the signature of a group replaced (R211, R216). -/
def setSig (b : List Byte) (g : Nat) (taps : List Tap) (resid : Nat) : List Byte :=
  let words := (taps.map tapWord ++ List.replicate (8 - taps.length) 0).take 8
  let b := setBytes b (16 + 40 * g) (words.flatMap (leBytes 5))
  let s := field b 96 8
  let s := s - bits s (63 - 4 * g) (60 - 4 * g) * 2 ^ (60 - 4 * g) + taps.length * 2 ^ (60 - 4 * g)
  let s := s - bits s (55 - 12 * g) (44 - 12 * g) * 2 ^ (44 - 12 * g) + resid % 4096 * 2 ^ (44 - 12 * g)
  let b := setBytes b 96 (leBytes 8 s)
  setBytes b 0 (leBytes 8 (putBit (entHeader b) (38 - g) true))

/-- An entry image with HISTORY set (R157). -/
def setHistory (b : List Byte) (slot count : Nat) : List Byte :=
  setBytes b 8 (leBytes 8 (slot % 2 ^ 48 * 65536 + count % 65536))

/-! ### ATTACH (R209 to R213) -/

/-- ATTACH arrives on VC1. -/
def execAttach (dt : Nat) (hdr : Hdr) (body : List Byte) (s : State) : Host.Outcome State Fault Refusal :=
  onDev dt (·.vc1In (Instr.attach 0) tAttach hdr body) s

/-- The address of a HOLD snapshot (R206). -/
def snapAddr (k : Nat) : Nat := 0x40000000 + 320 * (k % 1048576)

/-- The HOLD record of a slot and group that covers a range of bins. -/
def Dev.holdFor (d : Dev) (r : AttachReq) : Option HoldRec :=
  d.ul.holdHist.find? (fun h => d.slotNow ≤ h.slot + 1024 && h.slot == r.slot && h.group == r.group && h.first ≤ r.first &&
    r.first + r.count ≤ h.first + h.count)

/-- The ring positions of the named snapshots, in bin order and then by instant (R206, R210). -/
def snapsOf (h : HoldRec) (r : AttachReq) : List Nat :=
  (List.range r.count).flatMap (fun b => (List.range h.instants).map (fun i =>
    h.index + i * h.count + (r.first + b - h.first)))

/-- The 64 beam words of a snapshot. -/
def Memory.snap (m : Memory) (k : Nat) : List Nat := readNative 64 (m.read (snapAddr k) 320)

/-- The signature ATTACH derives from snapshots (R210). -/
def Dev.attachSig (d : Dev) (snaps : List (List Nat)) : (List Tap × Nat) × Dev :=
  let pw := (List.range 64).map (fun b => (snaps.map (fun s => cabs2 (cword (s.getD b 0)))).sum)
  let order := byPower pw
  let first := pw.getD (order.getD 0 0) 0
  let floor := d.a P.attachTapFloor
  let good (b : Nat) : Bool := first ^ 100 ≤ pw.getD b 0 ^ 100 * 10 ^ floor
  let taps := order.take 1 ++ ((order.drop 1).takeWhile good).take (d.a P.attachMaxTaps - 1)
  let n := taps.length
  let cov := covOf n (snaps.map (fun s => taps.map (fun b => cword (s.getD b 0))))
  let e0 : List CInt := (List.range n).map (fun i => if i = 0 then (1, 0) else (0, 0))
  let v := cmatvec cov (cmatvec cov (cmatvec cov (cmatvec cov e0)))
  let total := pw.sum * cnorm2 v
  let (ts, d) := d.orderTaps taps v none
  let (resid, d) := d.residual (total - cquad cov v) total
  ((ts, resid), d)

/-- An ATTACH response (R491). -/
def Dev.attachResponse (d : Dev) (r : AttachReq) (status taps resid : Nat) : List Byte :=
  leBytes 4 r.cat ++ leBytes 1 status ++ leBytes 1 taps ++ leBytes 2 resid ++ leBytes 8 (d.a P.catGeneration)
    ++ leBytes 4 r.tag ++ zeros 4

/-- ATTACH fails (R212). -/
def Dev.attachFail (d : Dev) (port : Nat) (r : AttachReq) (reason : Nat) : Dev :=
  let d := (d.inc P.apAttachFailCount).raise 38 (r.group * 65536 + reason)
  d.send port 1 tAttach true (d.attachResponse r reason 0 0)

/-- A snapshot of the ring has been overwritten: more than its 1,048,576 places were written since (R206); indices count modulo
2^40. -/
def Dev.overwritten (d : Dev) (k : Nat) : Bool := 1048576 < (d.a P.apHoldWriteIndex + 2 ^ 40 - k % 2 ^ 40) % 2 ^ 40

/-- Complete an ATTACH, the causes of R212 tested in their order: `unreadable` are the ring positions whose bursts cannot be corrected,
`ecc` and `burst` what the read of the entry met. [Log: 92 DEDUCED] -/
def Dev.attachDone (d : Dev) (m : Memory) (port : Nat) (r : AttachReq) (unreadable : List Nat) (ecc : Ecc) (burst : Nat) :
    Dev × List MemOp :=
  if r.count = 0 ∨ 32768 < r.count ∨ d.chanN r.group < r.first + r.count ∨ !d.groupExists r.group then
    (d.attachFail port r 1, [])
  else match d.holdFor r with
    | none => (d.attachFail port r 2, [])
    | some h =>
      let ks := snapsOf h r
      if ks.any d.overwritten then (d.attachFail port r 3, [])
      else
        let bad := ks.filter (fun k => unreadable.contains k)
        let d := d.each bad (fun k d => d.eccUncorrectable (snapAddr k) false)
        let d := d.served 5 (320 * ks.length)
        let snaps := ((ks.filter (fun k => !unreadable.contains k)).map (fun k => m.snap k)).filter (fun s => s.all cleanTags)
        if snaps.isEmpty then (d.attachFail port r 4, [])
        else if entState (m.entry r.cat) = stLocked then (d.attachFail port r 5, [])
        else if d.a P.memState ≠ 0 then (d.attachFail port r 6, [])
        else
          let (d, stale) := d.readEntry m r.cat ecc burst
          let d := d.iff (!stale.isEmpty) (·.spoilNow r.cat)
          let old := (m.applyAll stale).entry r.cat
          let ((taps, resid), d) := d.attachSig (snaps.take 256)
          let base := if entState old = stEmpty ∨ entState old = stStale then bareEntry r.cat stAttached 0 else old
          let img := setHistory (setSig (setState base stAttached) r.group taps resid) r.slot 0
          let (d, op) := (d.served 5 128).storeEntry r.cat old img
          let d := (d.inc P.apAttachCount).raise 37 (r.group * 65536 + taps.length)
          (d.send port 1 tAttach true (d.attachResponse r 0 taps.length resid), stale ++ [op])

/-- ATTACH_COMPLETE: the ATTACH at the head of VC1 ends, and what waited behind it is served. -/
def Dev.attachComplete (d : Dev) (m : Memory) (unreadable : List Nat) (ecc : Ecc) (burst : Nat) : Dev × List MemOp :=
  match d.cat.vc1 with
  | x :: _ =>
    if x.type = tAttach then
      let (d, ops) := d.vc1Pop.attachDone m x.port (attachReq x.body) unreadable ecc burst
      (d.vc1Serve, ops)
    else (d, [])
  | [] => (d, [])

def execAttachComplete (dt : Nat) (reads : AttachReads) (s : State) : Host.Outcome State Fault Refusal :=
  onMem dt (fun d m => d.attachComplete m reads.unreadable reads.entry.ecc reads.entry.burst) s

/-! ### The beam transform (R180 to R188) -/

/-- Rows and columns of a shape (R180). -/
def shapeDims (code : Nat) : Nat × Nat :=
  [(8, 8), (4, 16), (16, 4), (1, 64), (4, 8), (2, 16), (1, 32)].getD code (8, 8)

/-- cos(2 pi k / 64) in units of 2^-60, first quadrant. [Log: 16 DEDUCED] -/
def cosTab : List Nat := [1152921504606846976, 1147369872436662991, 1130768441178740757, 1103277091691359535,
  1065160580698383124, 1016785991037278313, 958619196450722178, 891220374967787610, 815238614083298888,
  731405659690429196, 640528868967736374, 543483435088187080, 441203958630471860, 334675446864527722,
  224923827593068887, 113006068906017470, 0]

/-- cos(2 pi k / 64) in units of 2^-60. -/
def cos64 (k : Nat) : Int :=
  let i := k % 64
  if i ≤ 16 then (cosTab.getD i 0 : Nat)
  else if i ≤ 32 then -((cosTab.getD (32 - i) 0 : Nat) : Int)
  else if i ≤ 48 then -((cosTab.getD (i - 32) 0 : Nat) : Int)
  else (cosTab.getD (64 - i) 0 : Nat)

/-- sin(2 pi k / 64) in units of 2^-60. -/
def sin64 (k : Nat) : Int := cos64 (k + 48)

/-- The coefficient of a path in a beam (R183, R185; F of R270): in MATRIX mode in units of 2^-15, in FFT mode of 2^-63, where 1 /
sqrt(32) = cos(2 pi 8 / 64) / 4 enters as a sum of two angles, so that what is rational stays exact. [Log: 16 DEDUCED; 27 DEDUCED] -/
def Dev.beamFactor (d : Dev) (g b p : Nat) : CInt :=
  if d.a (gk P.beamModeA g) = 1 then
    let m := d.a (gk P.beamMatrixA g + (64 * b + p))
    (sx 16 (bits m 31 16), sx 16 (bits m 15 0))
  else
    let (nr, nc) := shapeDims (d.a (gk P.beamShapeA g))
    let e := d.a (gk P.elementMapA g + p)
    let pol := b / (nr * nc)
    let u := b % (nr * nc) / nc
    let v := b % nc
    if bits e 10 10 ≠ pol then (0, 0)
    else
      let k := u * bits e 9 6 * (64 / nr) + v * bits e 5 0 * (64 / nc)
      let s : Int := if bit e 11 then -1 else 1
      if nr * nc = 64 then (s * cos64 k, -s * sin64 k)
      else (s * (cos64 (k + 8) + cos64 (k + 56)), -s * (sin64 (k + 8) + sin64 (k + 56)))

/-- A beam sample from the bin samples of the 64 paths (R183, R185, R188), times 2^shift (R241): the paths of the mask contribute
where their coefficient is not zero, and pass their tags on; another path contributes nothing (R218).
[Log: 16 DEDUCED; 27 DEDUCED] -/
def Dev.beamWord (d : Dev) (g mask shift b : Nat) (xs : List Nat) : Nat :=
  let sum : Int × Int × Nat := (List.range 64).foldl (fun acc p =>
    let f := d.beamFactor g b p
    if !bit mask p || f == (0, 0) then acc
    else
      let w := xs.getD p 0
      let y := cmul f (cword w)
      (acc.1 + y.1, acc.2.1 + y.2, maskOr 4 acc.2.2 (wordTags w))) (0, 0, 0)
  roundWord (sum.1 * 2 ^ shift) (sum.2.1 * 2 ^ shift) (if d.a (gk P.beamModeA g) = 1 then 2 ^ 15 else 2 ^ 63) sum.2.2

/-- The 64 beam samples of one bin sample, the paths of a mask contributing. -/
def Dev.beamWords (d : Dev) (g mask : Nat) (xs : List Nat) : List Nat :=
  (List.range 64).map (fun b => d.beamWord g mask 0 b xs)

/-! ### Instants and their samples (R124, R129, R176) -/

/-- An instant no run reaches: the present grid has no end. -/
def farPs : Nat := 2 ^ 100

/-- The grids of a group, oldest first, each with the reference instants it holds: from, to. -/
def Dev.gridRuns (d : Dev) (g : Nat) : List (Grid × Nat × Nat) :=
  let old := (d.rx.grids.filter (·.group == g)).reverse
  let starts := 0 :: old.map (·.till)
  ((old ++ [d.gridNow g]).zip starts).map (fun x => (x.1, x.2, if x.1.till = 0 then farPs else x.1.till))

/-- A grid's instants, period and delay of band outputs or bin samples. -/
def Grid.axis (x : Grid) (band : Bool) : Nat × Nat × Nat := if band then x.raw else x.bins

/-- How many samples of one grid have their reference instant in [a, b). -/
def Grid.count (x : Grid) (band : Bool) (a b : Nat) : Nat :=
  let (z, per, delay) := x.axis band
  if a < b then countGrid z per delay a b else 0

/-- How many band outputs or bin samples of a group have their reference instant in [a, b) (R176). -/
def Dev.instants (d : Dev) (g : Nat) (band : Bool) (a b : Nat) : Nat :=
  ((d.gridRuns g).map (fun x => x.1.count band (max a x.2.1) (min b x.2.2))).sum

/-- Sample `i` of those, with its grid: elapsed ps of its newest converter sample. -/
def instantNth (band : Bool) (a b : Nat) : List (Grid × Nat × Nat) → Nat → Option (Grid × Nat)
  | [], _ => none
  | x :: xs, i =>
    let lo := max a x.2.1
    let n := x.1.count band lo (min b x.2.2)
    if i < n then
      let (z, per, delay) := x.1.axis band
      some (x.1, z + (cdiv (lo + delay - z) per + i) * per)
    else instantNth band a b xs (i - n)

/-- A sample precedes the first its group forms: the group was not yet ACTIVE (R56). -/
def Dev.notFormed (d : Dev) (g : Nat) (x : Grid) (hi : Nat) : Bool :=
  x.till == 0 && (!d.active g || hi < d.rx.upAt.getD g 0)

/-- The samples of the 64 paths with the tags of what they were formed from (R123, R339): SETTLE by path, CAL for all. A group not yet
ACTIVE gives zeros tagged SETTLE (R56). -/
def Dev.tagSamples (d : Dev) (g : Nat) (x : Grid) (hi len : Nat) (xs : List Nat) : List Nat :=
  if d.notFormed g x hi then List.replicate 64 1
  else
    let cal := 4 * b2n (d.calReach (hi - len) hi)
    (List.range 64).map (fun p =>
      let w := xs.getD p 0 % 2 ^ 40
      w / 16 * 16 + maskOr 4 (w % 16) (cal + b2n (d.settleFrom x.zero g p hi len)))

/-- How far the span of a sample reaches back. -/
def Dev.spanPs (d : Dev) (g : Nat) (band : Bool) : Nat := if band then d.bandSpanPs g else d.binSpanPs g

/-- An output word of a group not yet ACTIVE carries SETTLE (R56); one whose reference instant lies in a Collimation window is zero and
carries CAL (R339). Tags that hold beside it stand (R11). -/
def Dev.outWord (d : Dev) (g : Nat) (band : Bool) (x : Grid) (hi w : Nat) : Nat :=
  let w := if d.notFormed g x hi then maskOr 4 (w % 16) 1 else w
  let ref := hi - (x.axis band).2.2
  if d.calReach ref ref then maskOr 4 (w % 16) 4 else w

/-- The mask of paths that contribute to a slot that began at `a` and ends at `b` (R98, R99, R291): where the group became ACTIVE inside
it, the mask of that instant. -/
def Dev.slotMask (d : Dev) (g a b : Nat) : Nat :=
  let up := d.rx.upAt.getD g 0
  d.maskAt g (if a < up ∧ up < b then up else a)

/-! ### Refresh (R214 to R216) -/

/-- The neighbours of a beam (R184); none in MATRIX mode. -/
def Dev.neighbours (d : Dev) (g b : Nat) : List Nat :=
  if d.a (gk P.beamModeA g) = 1 then []
  else
    let (nr, nc) := shapeDims (d.a (gk P.beamShapeA g))
    let pol := b / (nr * nc)
    let u := b % (nr * nc) / nc
    let v := b % nc
    let at_ (u v : Nat) : Nat := pol * nr * nc + u % nr * nc + v % nc
    ([at_ (u + 1) v, at_ (u + nr - 1) v, at_ u (v + 1), at_ u (v + nc - 1)].filter (· != b)).eraseDups

/-- The pair of a tap and a neighbour with the largest power ratio, where that ratio meets the margin (R215). -/
def Dev.walkPair (d : Dev) (g : Nat) (beams : List Nat) (pw : List Nat) : Option (Nat × Nat) :=
  let p (b : Nat) : Nat := pw.getD b 0
  let pairs := beams.flatMap (fun j => ((d.neighbours g j).filter (fun n => !beams.contains n)).map (fun n => (j, n)))
  let live := pairs.filter (fun x => p x.2 != 0)
  let best := live.foldl (fun acc x =>
    match acc with
    | none => some x
    | some y => if p y.2 * p x.1 < p x.2 * p y.1 then some x else some y) none
  best.filter (fun x => p x.1 ^ 100 * 10 ^ d.a P.refreshWalkMargin ≤ p x.2 ^ 100)

/-- The refreshed signature from an entry image and clean samples (R214, R215). -/
def Dev.refreshSig (d : Dev) (g : Nat) (img : List Byte) (samples : List (List Nat)) : (List Tap × Nat) × Dev :=
  let taps := sigOf img g
  let beams := taps.map (·.beam)
  let n := taps.length
  let a : List CInt := taps.map (fun t => (t.i, -t.q))
  let n0 := cnorm2 a
  let c := covOf n (samples.map (fun s => beams.map (fun b => cword (s.getD b 0))))
  let pw := (List.range 64).map (fun b => (samples.map (fun s => cabs2 (cword (s.getD b 0)))).sum)
  let pt := (beams.map (fun b => pw.getD b 0)).sum
  let f := d.a P.refreshForget
  let eff : List (List CInt) := (List.range n).map (fun i => (List.range n).map (fun k =>
    let x := (c.getD i []).getD k (0, 0)
    let y := cmul (a.getD i (0, 0)) (cconj (a.getD k (0, 0)))
    let s : Int := ((256 - f) * n0 : Nat)
    let t : Int := (f * pt : Nat)
    (s * x.1 + t * y.1, s * x.2 + t * y.2)))
  let v : List CInt := if pt = 0 then a.map (fun _ => (0, 0)) else cmatvec eff (cmatvec eff a)
  let total := pw.sum * cnorm2 v
  let walk := if entNoWalk img then none else d.walkPair g beams pw
  let (ts, d) := d.orderTaps beams v walk
  let (resid, d) := d.residual (total - cquad c v) total
  ((ts, resid), d)

/-- Compute the refresh of one REFRESH placement at the end of its slot, or skip it (R214). -/
def Dev.refreshOne (d : Dev) (slot g : Nat) (p : Place) (samples : List (List Nat)) : Dev :=
  match d.ul.fetched.find? (fun f => f.slot == slot && f.group == g && f.cat == p.cat) with
  | none => d
  | some f =>
    if f.miss then d
    else
      let clean := samples.filter (fun s => s.all cleanTags)
      if clean.length < d.a P.refreshMinSamples then d.inc P.apRefreshSkipCount
      else
        let ((taps, resid), d) := d.refreshSig g f.image clean
        let r : Refresh := ⟨slot, g, p.cat, entGen f.image, taps.map tapWord, resid⟩
        { d with ul := { d.ul with refresh := d.ul.refresh ++ [r] } }

/-- REFRESH_WRITEBACK: a computed write-back commits, or is discarded (R168, R216). -/
def Dev.writeback (d : Dev) (m : Memory) (g c : Nat) (ecc : Ecc) (burst : Nat) : Dev × List MemOp :=
  match d.ul.refresh.find? (fun r => r.group == g && r.cat == c) with
  | none => (d, [])
  | some r =>
    let d := { d with ul := { d.ul with refresh := d.ul.refresh.erase r } }
    if d.a P.memState ≠ 0 then (d, [])
    else
      let (d, stale) := d.readEntry m c ecc burst
      let old := (m.applyAll stale).entry c
      if !stale.isEmpty || entGen old != r.gen || entState old == stLocked then
        ((d.iff (!stale.isEmpty) (·.spoilNow c)).inc P.catRefreshDiscardCount, stale)
      else
        let count := sat 65535 (field old 8 2 + 1)
        let img := setHistory (setSig old g (r.taps.map tapOf) r.resid) r.slot count
        let (d, op) := (d.served 5 128).storeEntry c old img
        (d.inc P.apRefreshWriteCount, stale ++ [op])

def execRefreshWriteback (dt group : Nat) (entry : EntryRead) (s : State) : Host.Outcome State Fault Refusal :=
  onMem dt (fun d m => d.writeback m group entry.catnum entry.read.ecc entry.read.burst) s

/-! ### HOLD (R206) -/

/-- The beam words of snapshot `j` of a HOLD item over `count` bins in the slot from `a` to `b` (R206, R339): in order of instant, then
of bin. -/
def Dev.holdWords (d : Dev) (g a b count j : Nat) (xs : List Nat) : List Nat :=
  match instantNth false a b (d.gridRuns g) (j / count) with
  | none => []
  | some (x, hi) => d.beamWords g (d.slotMask g a b) (d.tagSamples g x hi (d.spanPs g false) xs)

/-- The beam words of a REFRESH placement over `count` bins in the slot that ends, in the order of R207 (R214). -/
def Dev.refreshWords (d : Dev) (g count : Nat) (samples : List (List Nat)) : List (List Nat) :=
  let n := count * d.instants g false d.ul.began d.now
  ((samples.take n).zip (List.range n)).map (fun x => d.holdWords g d.ul.began d.now count x.2 x.1)

/-- Write the snapshots of one HOLD item of the slot that ends into the ring, one per bin sample of each bin (R176, R206), and remember
where they lie. `snaps` are the samples of the 64 paths; a snapshot it does not bring is one of no signal. [Log: 16 DEDUCED] -/
def Dev.holdItem (d : Dev) (slot g : Nat) (i : ModeItem) (snaps : List (List Nat)) : Dev × List MemOp :=
  let a := d.ul.began
  let inst := d.instants g false a d.now
  let n := i.count * inst
  let k := d.a P.apHoldWriteIndex
  let rcd : HoldRec := ⟨slot, g, i.first, i.count, inst, k⟩
  let ops := (List.range n).map (fun j =>
    MemOp.put (snapAddr (k + j)) (nativeBytes (d.holdWords g a d.now i.count j (snaps.getD j []))))
  let hist := d.ul.holdHist.filter (fun r => r.group != g || slot < r.slot + 1024)
  let d := { d with ul := { d.ul with holdHist := hist ++ [rcd] } }
  ((d.w P.apHoldWriteIndex ((k + n) % 2 ^ 40)).served 5 (320 * n), ops)

/-- Write the snapshots of every HOLD item of the slot that ends, plan by plan as they were accepted. [Log: 92 DEDUCED] -/
def Dev.holdAll (d : Dev) (plans : List Plan) (hs : List HoldIn) : Dev × List MemOp :=
  plans.foldl (fun acc p =>
    (p.items.zip (List.range p.items.length)).foldl (fun acc x =>
      if x.1.kind = 2 then
        let given := hs.find? (fun h => h.group == p.group && h.item == x.2)
        let (d, ops) := acc.1.holdItem p.slot p.group x.1 ((given.map (·.snaps)).getD [])
        (d, acc.2 ++ ops)
      else acc) acc) (d, [])

/-! ### The output of a slot (R203 to R208, R470, R487, R488) -/

/-- A stream of a slot's output: its group and kind, words per instant block and load in 2^-18 b/s. -/
structure Stream where
  group : Nat
  kind : Nat
  words : Nat
  load : Nat
  deriving DecidableEq, Repr

/-- The streams of the plans of a slot, class by class in stream order (R487): PLACED, GRID, RAW. A member sends the
placements of a group plan as partial words. -/
def Dev.planStreams (d : Dev) (kind : Nat) (plans : List Plan) : List Stream :=
  plans.flatMap (fun p =>
    let e := eighths (if p.fwd then false else p.compact)
    let g := p.group
    if kind = 1 then p.places.map (fun x => ⟨g, 1, x.count, d.binRate g x.count 1 * e⟩)
    else if kind = 2 then (p.items.filter (·.kind == 1)).flatMap (fun i =>
      List.replicate 64 ⟨g, 2, i.count, d.binRate g i.count 1 * e⟩)
    else (p.items.filter (·.kind == 3)).flatMap (fun i =>
      List.replicate (popc 16 i.mask) ⟨g, 3, 1, d.fb g * 100000 * 32768 * e⟩))

/-- The streams of an open wake window (R237). [Log: 41 DEDUCED] -/
def Dev.wakeStreams (d : Dev) (slot : Nat) : List Stream :=
  match d.sen.win with
  | none => []
  | some (a, b) =>
    if d.sen.emit && a ≤ slot && slot ≤ b then
      let n := d.a P.raBinCount
      List.replicate 64 ⟨0, 5, n, d.binRate 0 n 1 * eighths (d.a P.sentinelWakeCompact == 1)⟩
    else []

/-- Shed streams in the order given until the rest fits (R470): what is shed. -/
def shedLoop (allow : Nat) : Nat → List Stream → List Stream
  | _, [] => []
  | total, s :: rest => if total ≤ allow then [] else s :: shedLoop allow (total - s.load) rest

/-- Where the reference instants of a kind begin in a slot that began at `a`: the wake's GRID at the clean instant (R237). -/
def Dev.kindFrom (d : Dev) (kind a : Nat) : Nat := if kind = 5 then max a d.sen.cleanAt else a

/-- Instants of a kind in [a, b). -/
def Dev.kindInstants (d : Dev) (g kind a b : Nat) : Nat := d.instants g (kind == 3) (d.kindFrom kind a) b

/-- Instant `i` of a kind in [a, b). -/
def Dev.kindNth (d : Dev) (g kind a b i : Nat) : Option (Grid × Nat) :=
  instantNth (kind == 3) (d.kindFrom kind a) b (d.gridRuns g) i

/-- OFFSET0 of a kind in a slot from `a` to `b` (R486): the first reference instant, in 0.25 ns. -/
def Dev.offset0 (d : Dev) (g kind a b : Nat) : Nat :=
  match d.kindNth g kind a b 0 with
  | none => 0
  | some (x, hi) => (rnear ((hi - (x.axis (kind == 3)).2.2 - a : Nat)) 250).toNat

/-- Elapsed ps at which a slot starts, from the present Meridian (may lie before power-up). -/
def Dev.slotStart (d : Dev) (slot : Nat) : Int := (d.now : Int) + (slot * d.slotNs * 1000 : Nat) - (d.merPs : Nat)

/-- Elapsed ps at which a slot starts and ends, no earlier than power-up. -/
def Dev.slotSpan (d : Dev) (slot : Nat) : Nat × Nat := ((d.slotStart slot).toNat, (d.slotStart (slot + 1)).toNat)

/-- INSTANTS of a kind in a slot. -/
def Dev.slotInstants (d : Dev) (slot g kind : Nat) : Nat :=
  let (a, b) := d.slotSpan slot
  d.kindInstants g kind a b

/-- Whether SENTINEL_REPLAY and CAPTURE_DATA are shed in the slot in progress: RAW alone did not make its output fit (R470). -/
def Dev.histShed (d : Dev) : Bool := d.ul.noHist.isSome && d.ul.noHist == d.ul.slot

/-- Start the output of a slot: shed what the link does not carry, and note what each kind sends (R470, R488). -/
def Dev.startOutput (d : Dev) (slot : Nat) : Dev :=
  let plans := d.ul.cur
  let placed := d.planStreams 1 plans
  let grid := d.planStreams 2 plans
  let raw := d.planStreams 3 plans
  let wake := d.wakeStreams slot
  let total := ((placed ++ grid ++ raw ++ wake).map (·.load)).sum
  let order := raw.reverse ++ grid.reverse ++ wake.reverse ++ placed.reverse
  let cut := shedLoop (d.allowance d.planPort) total order
  let mk (g kind : Nat) (all : List Stream) (compact : Bool) : List OutKind :=
    let mine := all.filter (·.group == g)
    let n := (cut.filter (fun s => s.group == g && s.kind == kind)).length
    let kept := mine.take (mine.length - n)
    if mine.isEmpty then [] else [⟨slot, g, kind, kept.length, n, (kept.map (·.words)).sum, compact, 0⟩]
  let comp (g : Nat) : Bool := ((plans.find? (fun p => p.group == g && !p.fwd)).map (·.compact)).getD false
  let outs := [0, 1].flatMap (fun g =>
    mk g 1 placed (comp g) ++ mk g 2 grid (comp g) ++ mk g 3 raw (comp g)
      ++ mk g 5 wake (d.a P.sentinelWakeCompact == 1))
  let words := (cut.map (fun s => s.words * d.slotInstants slot s.group s.kind)).sum
  let keep := d.ul.outs.filter (fun (o : OutKind) => slot ≤ o.slot + 3)
  let d := { d with ul := { d.ul with outs := keep ++ outs, noHist := if raw.length < cut.length then some slot else none } }
  d.iff (!cut.isEmpty) (fun d => (d.add P.laneShedCount words).inc P.laneShedSlotCount)

/-- The wake's GRID joins the slot in progress where the clean instant falls into it: its streams beyond what the link still carries are
shed (R237, R470). [Log: 41 DEDUCED] -/
def Dev.wakeOutput (d : Dev) : Dev :=
  match d.ul.slot with
  | none => d
  | some slot =>
    let wake := d.wakeStreams slot
    if wake.isEmpty ∨ d.ul.outs.any (fun o => o.slot == slot && o.kind == 5) then d
    else
      let load := ((d.planStreams 1 d.ul.cur ++ d.planStreams 2 d.ul.cur ++ d.planStreams 3 d.ul.cur).map (·.load)).sum
      let cut := shedLoop (d.allowance d.planPort) (load + (wake.map (·.load)).sum) wake.reverse
      let kept := wake.take (wake.length - cut.length)
      let one : OutKind := ⟨slot, 0, 5, kept.length, cut.length, (kept.map (·.words)).sum, d.a P.sentinelWakeCompact == 1, 0⟩
      let words := (cut.map (fun s => s.words * d.slotInstants slot 0 5)).sum
      let d := { d with ul := { d.ul with outs := d.ul.outs ++ [one] } }
      d.iff (!cut.isEmpty) (fun d => (d.add P.laneShedCount words).inc P.laneShedSlotCount)

/-- The words of a slot's output of a kind. -/
def Dev.outWords (d : Dev) (o : OutKind) : Nat := o.block * d.slotInstants o.slot o.group o.kind

/-- The words of it that have formed: the newest converter sample of their spans has passed (R129). -/
def Dev.outFormed (d : Dev) (o : OutKind) : Nat :=
  let (a, b) := d.slotSpan o.slot
  let delay := if o.kind = 3 then d.bandDelay o.group else d.binDelay o.group
  o.block * d.kindInstants o.group o.kind a (min b (d.now + 1 - delay))

/-- Words of a kind wait for credit. -/
def Dev.outWaits (d : Dev) (o : OutKind) : Bool := o.sent < d.outFormed o

/-- The slots of a group whose output waits for credit, oldest first. -/
def Dev.waitingSlots (d : Dev) (g : Nat) : List Nat :=
  ((d.ul.outs.filter (fun o => o.group == g && d.outWaits o)).map (·.slot)).foldl (fun l n =>
    if l.contains n then l else insertBy id n l) []

/-- What of a slot's output of a group has not left. -/
def Dev.leftOver (d : Dev) (slot g : Nat) : Nat :=
  ((d.ul.outs.filter (fun o => o.slot == slot && o.group == g)).map (fun o => d.outWords o - o.sent)).sum

/-- UL_DATA of at most two slots of a group waits for credit: where output of a third has formed, the rest of the oldest is discarded
(R208). -/
def Dev.holdOutput (d : Dev) (g : Nat) : Dev :=
  match d.waitingSlots g with
  | slot :: _ :: _ :: _ =>
    let n := d.leftOver slot g
    let outs := d.ul.outs.filter (fun (o : OutKind) => !(o.slot == slot && o.group == g))
    (({ d with ul := { d.ul with outs := outs } }).add P.apOutputDiscardCount n).raise 40 (g * 65536 + sat 65535 (n / 1024))
  | _ => d

/-- The same for both groups. -/
def Dev.holdOutputs (d : Dev) : Dev := (d.holdOutput 0).holdOutput 1

/-- End the slot in progress of every group at once: its remaining output, and what waits of the slots before it, is discarded and
counted (R47, R179). The words of the slot are those of the instants to come too, which its plan asked for. -/
def Dev.cutSlot (d : Dev) : Dev :=
  let n := (d.ul.outs.map (fun o => d.outWords o - o.sent)).sum
  ({ d with ul := { d.ul with cur := [], fetched := [], outs := [] }, dl := { d.dl with cur := [] } }).add P.apOutputDiscardCount n

/-! ### UL_DATA (R486 to R489) -/

/-- The placement that word `pos` of an instant block belongs to. -/
def placeAt : Nat → List Place → Option Place
  | _, [] => none
  | pos, p :: ps => if pos < p.count then some p else placeAt (pos - p.count) ps

/-- The taps a placement is combined with in a slot; none for a miss or a late fetch (R149, R161). -/
def Dev.slotTaps (d : Dev) (slot g c : Nat) : Option (List Tap) :=
  match d.ul.fetched.find? (fun f => f.slot == slot && f.group == g && f.cat == c) with
  | none => none
  | some f => if f.miss || d.ul.missed.contains (slot, g, c) then none else some (sigOf f.image g)

/-- One PLACED word from its beam words (R203). -/
def Dev.placedAt (d : Dev) (slot g : Nat) (places : List Place) (pos : Nat) (beams : List Nat) : Nat :=
  match placeAt pos places with
  | none => partialZero
  | some p =>
    match d.slotTaps slot g p.cat with
    | none => partialZero
    | some taps => placedWord taps beams

/-- The placements of a slot and group in plan order: the current or held plan, the group plan first. -/
def Dev.slotPlaces (d : Dev) (slot g : Nat) : List Place :=
  ((d.ul.cur ++ d.ul.past).filter (fun p => p.slot == slot && p.group == g)).flatMap (·.places)

/-- The beam of word `pos` of an instant block of GRID (R204, R487). -/
def gridBeam : Nat → List ModeItem → Nat
  | _, [] => 0
  | pos, i :: is => if pos < 64 * i.count then pos / i.count else gridBeam (pos - 64 * i.count) is

/-- The GRID items of a slot and group in plan order. -/
def Dev.slotGrid (d : Dev) (slot g : Nat) : List ModeItem :=
  ((d.ul.cur ++ d.ul.past).filter (fun p => p.slot == slot && p.group == g)).flatMap (fun p => p.items.filter (·.kind == 1))

/-- The path of word `pos` of an instant block of RAW (R205, R487). -/
def rawPath : Nat → List ModeItem → Nat
  | _, [] => 0
  | pos, i :: is =>
    let ps := bitList 16 i.mask
    if pos < ps.length then 16 * i.quad + ps.getD pos 0 else rawPath (pos - ps.length) is

/-- The RAW items of a slot and group in plan order. -/
def Dev.slotRaw (d : Dev) (slot g : Nat) : List ModeItem :=
  ((d.ul.cur ++ d.ul.past).filter (fun p => p.slot == slot && p.group == g)).flatMap (fun p => p.items.filter (·.kind == 3))

/-- One output word of a kind at position `pos` of its instant block, formed on grid `x` at `hi`, from what the operand gives for it: for
PLACED, GRID and the wake's GRID the bin samples of the 64 paths, for RAW the band output of its path (R203 to R205, R237). -/
def Dev.kindWord (d : Dev) (slot g kind pos mask : Nat) (x : Grid) (hi : Nat) (xs : List Nat) : Nat :=
  let band := kind == 3
  let path := rawPath pos (d.slotRaw slot g)
  let given := if band then List.replicate path 0 ++ [xs.headD 0] else xs
  let s := d.tagSamples g x hi (d.spanPs g band) given
  d.outWord g band x hi
    (if kind = 1 then d.placedAt slot g (d.slotPlaces slot g) pos (d.beamWords g mask s)
     else if kind = 2 then d.beamWord g mask 0 (gridBeam pos (d.slotGrid slot g)) s
     else if kind = 3 then (if bit mask path then s.getD path 0 else 0)
     else d.beamWord g mask 0 (pos / d.a P.raBinCount) s)

/-- The words of a UL_DATA message. -/
def Dev.ulWords (d : Dev) (o : OutKind) (x : UlSeg) : List Nat :=
  let (a, b) := d.slotSpan x.slot
  let mask := d.slotMask x.group a b
  (x.words.zip (List.range x.words.length)).map (fun w =>
    let k := x.offset + w.2
    match d.kindNth x.group x.kind a b (k / o.block) with
    | none => 0
    | some (y, hi) => d.kindWord x.slot x.group x.kind (k % o.block) mask y hi w.1)

/-- The 40-byte header of UL_DATA (R486). -/
def ulHeader (slot g kind count offset instants offset0 missing block shed : Nat) (compact last : Bool) : List Byte :=
  leBytes 8 slot ++ leBytes 1 (g + 2 * b2n compact + 4 * b2n last) ++ leBytes 1 kind ++ leBytes 2 count
    ++ leBytes 4 offset ++ leBytes 4 instants ++ leBytes 4 offset0 ++ leBytes 8 missing ++ leBytes 4 block ++ leBytes 4 shed

/-- Put words into a UL_DATA body in a format. -/
def ulBody (compact : Bool) (ws : List Nat) : List Byte :=
  if compact then compactBytes (cdiv ws.length 64) ws else nativeBytes ws

/-- Whether a message of so many words at an offset has a shape R486 allows. -/
def ulShape (compact : Bool) (offset n : Nat) : Bool :=
  0 < n && (if compact then n ≤ 3008 && offset % 64 == 0 else n ≤ 1835)

/-- Count the words of a kind that left. -/
def Dev.sentWords (d : Dev) (slot g kind n : Nat) : Dev :=
  let d := d.wx (auxKey 7 0) (d.x (auxKey 7 0) + n)
  { d with ul := { d.ul with
      outs := d.ul.outs.map (fun (o : OutKind) =>
        if o.slot = slot ∧ o.group = g ∧ o.kind = kind then { o with sent := o.sent + n } else o) } }

/-- The body of a UL_DATA message of a slot block. -/
def Dev.ulMsg (d : Dev) (o : OutKind) (offset missing : Nat) (ws : List Nat) : List Byte :=
  let n := d.slotInstants o.slot o.group o.kind
  let (a, b) := d.slotSpan o.slot
  ulHeader o.slot o.group o.kind ws.length offset n (d.offset0 o.group o.kind a b) missing o.block o.shed
    o.compact (offset + ws.length == o.block * n) ++ ulBody o.compact ws

/-- Send one UL_DATA message of a slot block, when credit allows. -/
def Dev.ulEmit (d : Dev) (o : OutKind) (offset missing : Nat) (ws : List Nat) : Dev :=
  let body := d.ulMsg o offset missing ws
  if d.canSend d.egress (d.homeMsg 3 0x0B false body) then
    (d.sendHome 3 0x0B false body).sentWords o.slot o.group o.kind ws.length
  else d

end Sys2Proof.Machine
end

