-- ==== Sys2Proof/Machine/Transmit.lean ====
section
/-!
DEFINITION. Downlink, synthesisers, RF sequencing, power steps and coexistence (08_downlink_transmit.md R248 to R281,
09_synthesisers_sequencing.md R283 to R309).
-/

namespace Sys2Proof.Machine

/-! ### Slots and windows of a quadrant (R255, R276, R278) -/

/-- The Collimation windows in Meridian ns: the open one and those of the entries to come (R338, R339). -/
def Dev.colWindows (d : Dev) : List (Nat × Nat) :=
  d.col.win.toList ++ (d.eph.ent.filter (fun e => e.2.action == 5)).map (fun e =>
    (e.2.ns, e.2.ns + 1000 * (e.2.arg % 2 ^ 24)))

/-- Whether a slot overlaps a Collimation window (R278). -/
def Dev.inCollim (d : Dev) (slot : Nat) : Bool :=
  d.colWindows.any (fun w => slot * d.slotNs < w.2 && w.1 < (slot + 1) * d.slotNs)

/-- Whether a group fits the TX window of a quadrant (R255), in units of 2^-40 of 800 MHz against half of Fb. -/
def Dev.fitsWindow (d : Dev) (g q : Nat) : Bool :=
  let f := (sx 40 (d.a (gk P.txNcoActiveA g + q))).natAbs
  -- |f| + Fb / 2 <= 320 MHz, times 2^41 / 100 kHz
  f * 16000 + d.fb g * 2 ^ 40 ≤ 6400 * 2 ^ 40

/-- Whether a quadrant has an enabled path. -/
def Dev.txAnyPath (d : Dev) (q : Nat) : Bool := bits d.dl.pathEff (16 * q + 15) (16 * q) != 0

/-- Whether group `g` transmits in a slot by its plan. -/
def Dev.dlPlanned (d : Dev) (slot g : Nat) : Bool :=
  d.groupExists g && (d.slotPlans true slot g).any (fun p => !p.places.isEmpty)

/-- Whether a quadrant has a plan to transmit in a slot. -/
def Dev.txPlanned (d : Dev) (slot q : Nat) : Bool := d.txAnyPath q && (d.dlPlanned slot 0 || d.dlPlanned slot 1)

/-- Whether some planned group fits the TX window of a quadrant (R278). -/
def Dev.txFits (d : Dev) (slot q : Nat) : Bool :=
  [0, 1].any (fun g => d.dlPlanned slot g && d.fitsWindow g q)

/-- Whether a quadrant transmits in a slot (R276, R278): planned, with a group that fits, outside every Collimation window. -/
def Dev.txEmits (d : Dev) (slot q : Nat) : Bool := d.txPlanned slot q && d.txFits slot q && !d.inCollim slot

/-- The first slot after a run of slots in which the quadrant transmits that begins at `slot`. -/
def Dev.runEnd (d : Dev) (q : Nat) : Nat → Nat → Nat
  | 0, slot => slot
  | f + 1, slot => if d.txEmits slot q then d.runEnd q f (slot + 1) else slot

/-- Elapsed ps of the end of the run of slots that holds `slot`. -/
def Dev.burstEndAt (d : Dev) (q slot : Nat) : Int := d.slotStart (d.runEnd q 33 slot)

/-! ### DL bin instants and data (R249, R252, R265 to R268) -/

/-- Elapsed instant at which the bin grid of a group stands at zero: the zero-history point, or on a member of a reduction
tree the epoch (R516). -/
def Dev.gridZero (d : Dev) (g : Nat) : Int :=
  if d.a P.redState = 1 ∨ d.a P.redState = 2 then (d.now : Int) - (d.merPs : Nat) else (d.rx.zeroAt.getD g 0 : Nat)

/-- c_j: the consumption instant of DL bin instant `j` of a slot, elapsed ps; none where the slot has no such instant. -/
def Dev.consumeAt (d : Dev) (slot g j : Nat) : Option Int :=
  let per : Int := (d.binPs g : Nat)
  let delay : Int := (d.binDelay g : Nat)
  let z := d.gridZero g
  let s := d.slotStart slot
  let k0 := -((-(s + delay - z)).fdiv per)
  let t := z + (k0 + j) * per - delay
  if t < s + (d.slotNs * 1000 : Nat) then some (t - (d.dlLeadPs g : Nat)) else none

/-- The words of an instant block of a plan (R266). -/
def Plan.block (p : Plan) : Nat := (p.places.map (·.count)).sum

/-- The words of a DL_DATA message (R489); none where its shape breaks R265, R267 or R490. -/
def dlWords (r : DlDataReq) (block : Nat) : Option (List Nat) :=
  if r.compact then
    let whole := r.off % 64 == 0 && (r.count % 64 == 0 || r.off + r.count == block)
    if whole && r.words.length == 193 * cdiv r.count 64 then some ((readCompact (cdiv r.count 64) r.words).take r.count)
    else none
  else if r.words.length = 5 * r.count then some (readNative r.count r.words)
  else none

/-- DL_DATA that passed the receive checks. Its credit is freed when its block is consumed or it is discarded. -/
def Dev.dlDataTake (d : Dev) (port : Nat) (far : Bool) (b : List Byte) : Dev :=
  let u := msgUnits b.length
  let drop (d : Dev) : Dev := d.freeUnits port 3 u
  let r := dlDataReq b
  let d := d.iff (d.a P.redState == 2 || (d.a P.redState == 1 && far)) (·.forwardDown 3 tDlData b)
  match (d.slotPlans true r.slot r.group).head?, d.consumeAt r.slot r.group r.inst with
  | some p, some c =>
    if b.length < 32 ∨ r.compact ≠ p.compact ∨ p.block < r.off + r.count then drop (d.inc P.dlDataOrphanCount)
    else match dlWords r p.block with
      | none => drop (d.inc P.dlDataOrphanCount)
      | some ws =>
        if (d.now : Int) < c - 1000000000 then
          let us := ((c - 1000000000 - d.now).toNat + 999999) / 1000000
          drop ((d.inc P.dlDataEarlyCount).raise 44 (r.group * 65536 + 49152 + sat 16383 us))
        else if c < d.now then drop d
        else
          let one : DlBlk := ⟨r.slot, r.group, r.inst, r.off, ws, port, u⟩
          { d with dl := { d.dl with got := d.dl.got ++ [one] } }
  | _, _ => drop (d.inc P.dlDataOrphanCount)

/-- DL_DATA arrives on VC3. -/
def Dev.dlDataIn (d : Dev) (h : Hdr) (body : List Byte) : Dev :=
  let (d, ok) := d.rxCheck h tDlData body.length false
  d.iff ok (·.dlDataTake h.port (h.port != 0 && h.island == 0xFE) body)

def execDlData (dt : Nat) (hdr : Hdr) (body : List Byte) (s : State) : Host.Outcome State Fault Refusal :=
  onDev dt (fun d =>
    match d.ripRx (Instr.dlData 0) hdr tDlData body with
    | (d, none) => d
    | (d, some (h, b)) => d.dlDataIn h b) s

/-- Positions of an instant block that blocks of words cover. -/
def coverage (bs : List DlBlk) (block : Nat) : Nat :=
  ((List.range block).filter (fun i => bs.any (fun b => b.off ≤ i && i < b.off + b.words.length))).length

/-- The report of missing words of both groups at the end of a slot (R268). -/
def Dev.dlMissingReport (d : Dev) (slot : Nat) : Dev :=
  let n := ((d.dl.used.filter (fun u => u.1 == slot)).map (fun u => u.2.2.1)).sum
  let d := d.iff (n != 0) (·.raise 44 (32768 + sat 16383 (n / 64)))
  let bs := d.dl.got.filter (fun b => b.slot ≤ slot)
  let d := d.each bs (fun b d => d.freeUnits b.port 3 b.units)
  let got := d.dl.got.filter (fun b => slot < b.slot)
  let used := d.dl.used.filter (fun u => slot < u.1)
  let sc := d.dl.scale.filter (fun u => slot < u.1)
  { d with dl := { d.dl with got := got, used := used, scale := sc } }

/-! ### Path load and ceiling scaling (R270 to R274) -/

/-- The largest x with x^m * 10^n at most v^m: v * 10^(-n/m) cut to an integer below 2^80. -/
def powDown (v n m : Nat) : Nat :=
  (List.range 80).foldl (fun r i => let c := r + 2 ^ (79 - i); if c ^ m * 10 ^ n ≤ v ^ m then c else r) 0

/-- The weight t(q, p) of a signature on a path, in units of 1 / `weightDen` (R270). -/
def Dev.pathWeight (d : Dev) (g p : Nat) (taps : List Tap) : CInt :=
  taps.foldl (fun acc t => cadd acc (cmul (t.i, t.q) (d.beamFactor g t.beam p))) (0, 0)

/-- The unit of a weight: the coefficients' 2^-15 times that of the beam factors. -/
def Dev.weightDen (d : Dev) (g : Nat) : Nat := if d.a (gk P.beamModeA g) = 1 then 2 ^ 30 else 2 ^ 78

/-- |t|^2 of a signature on a path: a numerator over `loadDen` (R270). -/
def Dev.pathGain (d : Dev) (g p : Nat) (taps : List Tap) : Nat := cabs2 (d.pathWeight g p taps)

/-- The denominator of `pathGain`. -/
def Dev.loadDen (d : Dev) (g : Nat) : Nat := d.weightDen g * d.weightDen g

/-- The smallest x with x^m * 10^n at least v^m: v * 10^(-n/m) raised to an integer. -/
def powUp (v n m : Nat) : Nat := let r := powDown v n m; if r ^ m * 10 ^ n = v ^ m then r else r + 1

/-- e of R271, as a power step. -/
def stepOf (p : Place) (hint : Int) : Nat :=
  if p.tag = 1 then p.gain else (clampI 0 255 ((p.gain : Nat) + hint)).toNat

/-- The fetched entry of a downlink placement, no miss and read by c_0 (R269). -/
def Dev.dlFetch (d : Dev) (slot g c : Nat) : Option Fetch :=
  d.ul.fetched.find? (fun f => f.slot == slot && f.group == g && f.cat == c && !f.miss &&
    decide ((f.at_ : Int) ≤ (d.consumeAt slot g 0).getD d.now))

/-- The scaling factor k of a slot and group in units of 2^-60 (R272, R274): 1 where none applies. -/
def Dev.scaleK (d : Dev) (g slot : Nat) : Nat :=
  match d.dl.scale.find? (fun x => x.1 == slot && x.2.1 == g) with
  | some (_, _, num, _) => if num + num / 2 ^ 44 < 2 ^ 64 then isqrt (num * 2 ^ 56) else 2 ^ 60
  | none => 2 ^ 60

/-- The placements of a plan that are no miss in its slot, each with its first word in an instant block, k a_q in units of 2^-120 and its
taps (R266, R269, R271). -/
def Dev.liveTerms (d : Dev) (g slot : Nat) (places : List Place) : List (Place × Nat × Nat × List Tap) :=
  let k := d.scaleK g slot
  ((places.zip (List.range places.length)).filterMap (fun x =>
    match d.dlFetch slot g x.1.cat with
    | none => none
    | some f => some (x.1, ((places.take x.2).map (·.count)).sum, k * powDown (2 ^ 60) (stepOf x.1 (entHint f.image)) 80, sigOf f.image g)))

/-- The precoder output of a path and bin at one instant (R272), rounded as R106 says: `words` gives the words of the instant block; nothing on
a path whose bit in DlPathEnable is clear. -/
def Dev.precode (d : Dev) (g : Nat) (terms : List (Place × Nat × Nat × List Tap)) (words : Nat → Nat) (p b : Nat) : Nat :=
  if !bit d.dl.pathEff p then 0
  else
    let s := terms.foldl (fun (acc : CInt) x =>
      if x.1.first ≤ b ∧ b < x.1.first + x.1.count then
        let y := cmul (d.pathWeight g p x.2.2.2) (cword (words (x.2.1 + (b - x.1.first))))
        (acc.1 + x.2.2.1 * y.1, acc.2 + x.2.2.1 * y.2)
      else acc) (0, 0)
    roundWord s.1 s.2 (2 ^ 120 * d.weightDen g) 0

/-- Word `i` of an instant block; what has not come is zero (R268). -/
def blockWord (bs : List DlBlk) (i : Nat) : Nat :=
  match bs.find? (fun b => b.off ≤ i && i < b.off + b.words.length) with
  | none => 0
  | some b => b.words.getD (i - b.off) 0

/-- Saturated samples of the enabled paths are counted (R250): those of the precoder's outputs at this instant, and those of the stages
behind it, whose taps the spec does not list: a free value for each path. [Log: 17 DESIGN CHOICE] -/
def Dev.txClips (d : Dev) (g slot : Nat) (places : List Place) (bs : List DlBlk) : Dev :=
  let k := d.clk.free
  let d := { d with clk := { d.clk with free := k + 1 } }
  let terms := d.liveTerms g slot places
  let bins := (places.flatMap (fun x => (List.range x.count).map (x.first + ·))).eraseDups
  d.each (bitList 64 d.dl.pathEff) (fun p d =>
    let here := (bins.filter (fun b => bit (d.precode g terms (blockWord bs) p b) 1)).length
    d.add (P.dlClipCount + p) (here + Config.freeValue k (900 + p) % 2 ^ 32))

/-- DL_CONSUME (R268, R272): at c_j the words of an instant not received count as zero, and the instant is precoded.
[Log: 17 DESIGN CHOICE] -/
def Dev.dlConsume (d : Dev) (g slot j : Nat) : Dev :=
  match (d.slotPlans true slot g).head?, d.consumeAt slot g j with
  | some p, some c =>
    let rcd := (d.dl.used.find? (fun u => u.1 == slot && u.2.1 == g)).getD (slot, g, 0, 0)
    if (d.now : Int) < c ∨ rcd.2.2.2 ≠ j then d
    else
      let mine (b : DlBlk) : Bool := b.slot == slot && b.group == g && b.inst == j
      let bs := d.dl.got.filter mine
      let missing := p.block - coverage bs p.block
      let d := d.each bs (fun b d => d.freeUnits b.port 3 b.units)
      let used := d.dl.used.filter (fun u => !(u.1 == slot && u.2.1 == g)) ++ [(slot, g, rcd.2.2.1 + missing, j + 1)]
      let keep := d.dl.got.filter (fun b => !mine b)
      (({ d with dl := { d.dl with got := keep, used := used } }).add P.dlDataMissingCount missing).txClips g slot p.places bs
  | _, _ => d

def execDlConsume (dt group slot instant : Nat) (s : State) : Host.Outcome State Fault Refusal :=
  onDev dt (·.dlConsume group slot instant) s

/-- The load of each path, times 2^60 and `loadDen` (R273): misses and entries not fetched are excluded; a_q^2 is rounded up in units of
2^-60, so that no path lies above its ceiling (R274). -/
def Dev.pathLoads (d : Dev) (g slot : Nat) (places : List Place) : List Nat :=
  let ok := places.filterMap (fun p =>
    match d.dlFetch slot g p.cat with
    | none => none
    | some f => some (p.count * powUp (2 ^ 60) (stepOf p (entHint f.image)) 40, sigOf f.image g))
  (List.range 64).map (fun p =>
    if bit d.dl.pathEff p then (ok.map (fun x => x.1 * d.pathGain g p x.2)).sum else 0)

/-- The ratio C / L of each path in units of 2^-64; none for a path without load. -/
def Dev.ceilRatios (d : Dev) (g slot : Nat) (places : List Place) : List (Option Nat) :=
  ((d.pathLoads g slot places).zip (List.range 64)).map (fun x =>
    if x.1 = 0 then none
    else some (powDown (d.chanN g * 2 ^ 60) (d.a (gk P.dlPathCeilingA g + x.2)) 100 * d.loadDen g * 2 ^ 64 / x.1))

/-- The smallest r with 10^(-r / m) at most num / 2^64, below 2^17. -/
def dbUp (num m : Nat) : Nat :=
  let bad (r : Nat) : Bool := num ^ m * 10 ^ r < (2 ^ 64) ^ m
  (List.range 17).foldl (fun r i => let c := r + 2 ^ (16 - i); if bad (c - 1) then c else r) 0

/-- DL_CEILING_SCALE (R274): the factor of a slot and group, rounded down. Ratios that differ by less than 2^-44 of them are equals, and
one so near to 1 scales nothing. [Log: 17 DESIGN CHOICE] -/
def Dev.ceilScale (d : Dev) (g slot : Nat) : Dev :=
  if d.dl.scale.any (fun x => x.1 == slot && x.2.1 == g) then d
  else match (d.slotPlans true slot g).head? with
    | none => d
    | some p =>
      let rs := d.ceilRatios g slot p.places
      let least := rs.foldl (fun acc r => match acc, r with
        | none, x => x
        | some a, some b => some (min a b)
        | some a, none => some a) none
      let num := least.getD (2 ^ 64)
      let worst := ((List.range 64).find? (fun i => match rs.getD i none with
        | some r => r ≤ num + num / 2 ^ 44
        | none => false)).getD 0
      let d := { d with dl := { d.dl with scale := d.dl.scale ++ [(slot, g, num, 2 ^ 64)] } }
      let shown : Nat := num + num / 2 ^ 44
      if shown < 2 ^ 64 then
        let d := (d.w (gk P.dlLastScaleA g) (sat 65535 (dbUp shown 1000))).inc P.dlScaledSlotCount
        d.raise 63 (g * 65536 + worst + 64 * sat 1023 (dbUp shown 100))
      else d.w (gk P.dlLastScaleA g) 0

def execDlCeilingScale (dt group slot : Nat) (s : State) : Host.Outcome State Fault Refusal :=
  onDev dt (·.ceilScale group slot) s

/-! ### Front-end control outputs (R297 to R300) -/

/-- Drive an RFCTL output asserted or not (R297). -/
def Dev.rfctl (d : Dev) (i : Nat) (assert : Bool) : Dev :=
  let level := assert != bit (d.a (P.rfctlConfig + i)) 2
  if bit (d.a P.rfctlLevels) i = level then d
  else (d.w P.rfctlLevels (putBit (d.a P.rfctlLevels) i level)).pin (.rfctl i) level

/-- Whether an output stands asserted. -/
def Dev.rfctlOn (d : Dev) (i : Nat) : Bool := bit (d.a P.rfctlLevels) i != bit (d.a (P.rfctlConfig + i)) 2

/-- LEAD and LAG of an output in ps. -/
def Dev.rfLead (d : Dev) (i : Nat) : Nat := bits (d.a (P.rfctlConfig + i)) 39 24 * 2500
def Dev.rfLag (d : Dev) (i : Nat) : Nat := bits (d.a (P.rfctlConfig + i)) 23 8 * 2500
def Dev.rfSource (d : Dev) (i : Nat) : Nat := bits (d.a (P.rfctlConfig + i)) 7 5
def Dev.rfQuad (d : Dev) (i : Nat) : Nat := bits (d.a (P.rfctlConfig + i)) 4 3

/-- Whether an output's TX source asks for it now (R294, R298, R299). -/
def Dev.rfTx (d : Dev) (i : Nat) : Bool :=
  let q := d.rfQuad i
  let b := d.burst q
  let src := d.rfSource i
  (src == 1 || src == 4) &&
    (b.st == 2 || b.st == 4 || b.st == 5 ||
      (b.st == 1 && !b.held && d.slotStart b.slot ≤ (d.now : Int) + (d.rfLead i : Nat)) ||
      (match b.ended with | some t => d.now < t + d.rfLag i | none => false))

/-- Whether the RX interval of a group covers a quadrant at the slot in progress (R298). -/
def Dev.rxRuns (d : Dev) (g q slot : Nat) : Bool :=
  (d.slotPlans false slot g).any (fun p => p.modes != 0) ||
    (g == 0 && (match d.sen.win with | some (a, b) => a ≤ slot && slot ≤ b | none => false)) ||
    (g == 0 && d.sentinelRuns && bits (d.a P.sentinelPathMask) (16 * q + 15) (16 * q) != 0)

/-- Bookkeeping: the end of the last RX interval of a group on a quadrant. -/
def rxEndKey (g q : Nat) : Nat := auxKey 5 (4 * g + q)

/-- Whether an output's RX source asks for it now. -/
def Dev.rfRx (d : Dev) (i : Nat) : Bool :=
  let q := d.rfQuad i
  let src := d.rfSource i
  let n := d.slotNow
  [0, 1].any (fun g => (src == 4 || src == 2 + g) &&
    (d.rxRuns g q n ||
      (d.rxRuns g q (n + 1) && d.slotStart (n + 1) ≤ (d.now : Int) + (d.rfLead i : Nat)) ||
      (d.x (rxEndKey g q) != 0 && d.now < d.x (rxEndKey g q) - 1 + d.rfLag i)))

/-- Whether an output is asserted by its sources now. -/
def Dev.rfWanted (d : Dev) (i : Nat) : Bool := d.rfTx i || d.rfRx i

/-- RFCTL_EDGE (R298): an edge its sources call for. -/
def execRfctlEdge (dt output : Nat) (assert : Bool) (s : State) : Host.Outcome State Fault Refusal :=
  onDev dt (fun d => d.iff (output < 32 && d.rfWanted output == assert) (·.rfctl output assert)) s

/-- An RX interval begins without lead, at a sentinel detection or at entry to WATCH (R299). -/
def Dev.rfShort (d : Dev) : Dev :=
  d.each (List.range 32) (fun i d =>
    let src := d.rfSource i
    d.iff ((src == 2 || src == 4) && d.rxRuns 0 (d.rfQuad i) d.slotNow && !d.rfctlOn i) (fun d =>
      (d.rfctl i true).iff (d.rfLead i != 0) (·.inc P.rfctlLeadShortCount)))

/-- Every output at its inactive level (R300). -/
def Dev.rfIdle (d : Dev) : Dev := d.each (List.range 32) (fun i d => d.rfctl i false)

/-- Every output at the level its sources ask for under its new configuration (R297, R298). -/
def Dev.rfFollow (d : Dev) : Dev := d.each (List.range 32) (fun i d => d.rfctl i (d.rfWanted i))

/-- On a rail fault or in thermal shutdown every RFCTL output returns to its inactive level, whatever LAG is left (R300). -/
def Dev.rfStop (d : Dev) : Dev :=
  (d.each [0, 1, 2, 3] (fun q d => d.setBurst q (fun b => { b with ended := none }))).rfIdle

/-! ### Coexistence (R306 to R309) -/

/-- Drive COEX_REQ and COEX_PRI (R306, R307). -/
def Dev.coexDrive (d : Dev) (req pri : Bool) : Dev :=
  let pol := d.a P.coexPolarity
  let d := d.iff (d.coex.pri != pri) (·.pin .coexPri (pri != bit pol 2))
  let d := d.iff (d.coex.req != req) (·.pin .coexReq (req != bit pol 0))
  { d with coex := { d.coex with req := req, pri := pri } }

/-- A new polarity moves the pins whose sense it turns (R310). -/
def Dev.coexRepolar (d : Dev) (old : Nat) : Dev :=
  let pol := d.a P.coexPolarity
  let d := d.iff (bit old 2 != bit pol 2) (·.pin .coexPri (d.coex.pri != bit pol 2))
  d.iff (bit old 0 != bit pol 0) (·.pin .coexReq (d.coex.req != bit pol 0))

/-- Whether a burst of a quadrant holds COEX_REQ now. -/
def Dev.coexHolds (d : Dev) (q : Nat) : Bool :=
  let b := d.burst q
  d.a P.coexEnable == 1 && (b.st == 2 || b.st == 4 || b.st == 5 ||
    (b.st == 1 && !b.held && d.slotStart b.slot ≤ (d.now : Int) + (d.a P.coexLeadTime * 1000 : Nat)))

/-- COEX_PRI of the bursts that hold the request (R307). -/
def Dev.coexPriority (d : Dev) : Bool := [0, 1, 2, 3].any (fun q => d.coexHolds q && (d.burst q).pri)

/-- Bring the two outputs up to date. -/
def Dev.coexUpdate (d : Dev) : Dev :=
  d.coexDrive ([0, 1, 2, 3].any d.coexHolds) d.coexPriority


/-- Whether COEX_GNT stands at its active level. -/
def Dev.gntActive (d : Dev) : Bool := d.coex.gnt != d.ab P.coexPolarity 1

/-- The grant is present (R308, R309). -/
def Dev.granted (d : Dev) : Bool := d.a P.coexEnable == 0 || (d.gntActive && d.coex.gntAt + 50000 ≤ d.now)

/-- Whether the grant was present at an instant up to now, COEX_GNT not having changed since (R308). -/
def Dev.grantedAt (d : Dev) (t : Nat) : Bool := d.a P.coexEnable == 0 || (d.gntActive && d.coex.gntAt + 50000 ≤ t)

/-- A probe step of a Collimation run needs the grant at its first sample; a run without it is given up (R345, R347). -/
def Dev.probeJudge (d : Dev) : Dev :=
  match d.coex.probe with
  | none => d
  | some t =>
    if d.now < t then d
    else
      let ok := d.grantedAt t
      let d := { d with coex := { d.coex with probe := none } }
      if ok then d else d.colAbandon 4

/-- The edges of COEX_REQ for a TX probe step of a Collimation run, which asserts it as a burst does (R345). -/
def Dev.probeEdge (d : Dev) (assert : Bool) : Dev :=
  let d := if assert then { d with coex := { d.coex with probe := some (d.now + d.a P.coexLeadTime * 1000) } }
    else { d.probeJudge with coex := { d.coex with probe := none } }
  d.coexDrive assert (assert && d.coexPriority)

/-- COEX_REQ_EDGE (R306, R345). -/
def execCoexReqEdge (dt : Nat) (assert : Bool) (s : State) : Host.Outcome State Fault Refusal :=
  onDev dt (fun d =>
    if d.col.run.isSome && d.a P.coexEnable == 1 then d.probeEdge assert
    else d.iff ([0, 1, 2, 3].any d.coexHolds == assert) (·.coexUpdate)) s

/-- COEX_GNT_EDGE (R308). -/
def execCoexGntEdge (dt : Nat) (level : Bool) (s : State) : Host.Outcome State Fault Refusal :=
  onDev dt (fun d => d.iff (d.coex.gnt != level) (fun d =>
    let d := d.probeJudge
    { d with coex := { d.coex with gnt := level, gntAt := d.now } })) s

/-! ### Bursts (R276 to R280, R293 to R296) -/

/-- E of R293 in ps. -/
def Dev.burstLead (d : Dev) (q : Nat) : Nat :=
  let c := if d.a P.coexEnable = 1 then d.a P.coexLeadTime * 1000 else 0
  ((List.range 32).filter (fun i => (d.rfSource i == 1 || d.rfSource i == 4) && d.rfQuad i == q)).foldl
    (fun m i => max m (d.rfLead i)) c

/-- Whether the TX paths of a quadrant are READY. -/
def Dev.txReady (d : Dev) (q : Nat) : Bool := d.txIdleState q == 3

/-- The next burst of a quadrant at or after the present slot. -/
def Dev.nextBurst (d : Dev) (q : Nat) : Option Nat :=
  ((List.range 34).map (fun i => d.slotNow + i)).find? (fun s =>
    d.txEmits s q && !(s != 0 && d.txEmits (s - 1) q))

/-- COEX_PRI of a burst: a group of its first slot has priority. -/
def Dev.burstPri (d : Dev) (slot q : Nat) : Bool :=
  [0, 1].any (fun g => d.dlPlanned slot g && d.fitsWindow g q && d.ab P.coexPriority g)

/-- TX_REQUEST_INSTANT (R293, R294): at r the burst is requested; paths not READY hold its edges. -/
def Dev.txRequest (d : Dev) (q : Nat) : Dev :=
  match d.nextBurst q with
  | none => d
  | some s =>
    if (d.burst q).st = 0 ∧ d.slotStart s ≤ (d.now : Int) + (d.burstLead q : Nat) then
      d.setBurst q (fun b => { b with st := 1, slot := s, held := !d.txReady q, req := true, pri := d.burstPri s q })
    else d

def execTxRequestInstant (dt quadrant : Nat) (s : State) : Host.Outcome State Fault Refusal :=
  onDev dt (·.txRequest quadrant) s

/-- Issue the edges of a burst that were held until its paths became READY, each counted that is late (R294). -/
def Dev.issueHeld (d : Dev) (q : Nat) : Dev :=
  let b := d.burst q
  if b.st = 1 ∧ b.held ∧ d.txReady q then
    let d := d.setBurst q (fun b => { b with held := false })
    let late (lead : Nat) : Bool := d.slotStart b.slot < (d.now : Int) + (lead : Nat)
    let was := d.coex
    let d := d.coexUpdate
    let n := b2n (d.coex.req && !was.req) + b2n (d.coex.pri && !was.pri)
    let d := d.iff (late (d.a P.coexLeadTime * 1000)) (·.add P.rfctlLeadShortCount n)
    d.each (List.range 32) (fun i d =>
      d.iff ((d.rfSource i == 1 || d.rfSource i == 4) && d.rfQuad i == q && d.rfTx i && !d.rfctlOn i) (fun d =>
        (d.rfctl i true).iff (late (d.rfLead i)) (·.inc P.rfctlLeadShortCount)))
  else d

/-- Withdraw the edges issued for a burst of a quadrant. -/
def Dev.withdrawEdges (d : Dev) (q : Nat) : Dev :=
  let d := d.each (List.range 32) (fun i d =>
    d.iff (d.rfQuad i == q && (d.rfSource i == 1 || d.rfSource i == 4) && !d.rfWanted i) (·.rfctl i false))
  d.coexUpdate

/-- Drop a whole burst at its first sample time (R277, R280). -/
def Dev.dropBurst (d : Dev) (q cause : Nat) : Dev :=
  ((d.setBurst q (fun b => { b with st := 3, ended := none })).reportDrop q cause).withdrawEdges q

/-- A slot emits nothing on a quadrant and ends its burst (R278), reported once: the next slot that emits begins another. -/
def Dev.endBurst (d : Dev) (q slot cause : Nat) : Dev :=
  let b := d.burst q
  if b.silent = some slot then d
  else
    let d := ((d.dpdAbandon q).leaveOn q).setBurst q (fun b => { b with
      st := 0, silent := some slot, ended := if b.st = 0 ∨ b.st = 3 then b.ended else some d.now })
    ((d.reportDrop q cause).refreshTx q).coexUpdate

/-- The cause for which a planned slot emits nothing (R278). -/
def Dev.silentCause (d : Dev) (slot : Nat) : Nat := if d.inCollim slot then 4 else 3

/-- A Collimation window opens: every burst ends there (R278). -/
def Dev.burstsEnd (d : Dev) : Dev :=
  d.each [0, 1, 2, 3] (fun q d => if (d.burst q).st = 2 ∨ (d.burst q).st = 4 then d.endBurst q d.slotNow 4 else d)

/-- A requested burst whose plan is gone is no burst: its edges are withdrawn. -/
def Dev.unrequest (d : Dev) (q : Nat) : Dev :=
  d.iff ((d.burst q).st == 1) (fun d => (d.setBurst q (fun b => { b with st := 0 })).withdrawEdges q)

/-- BURST_START (R277): the first sample time of a burst. -/
def Dev.burstStart (d : Dev) (q : Nat) : Dev :=
  let n := d.slotNow
  let st := (d.burst q).st
  if d.txPlanned n q ∧ (st = 0 ∨ st = 1) then
    if !d.txEmits n q then d.endBurst q n (d.silentCause n)
    else if !d.active (2 + q) && d.txHeld q then d.dropBurst q 5
    else if !d.txReady q then (d.dropBurst q 1).raise 51 q
    else if !d.granted then ((d.dropBurst q 2).inc P.coexDeniedCount).raise 52 q
    else
      (d.setBurst q (fun b => { b with
        st := 2, slot := n, held := false, on := d.now, ended := none, pri := if b.st = 1 then b.pri else d.burstPri n q })).refreshTx q
  else d

def execBurstStart (dt quadrant : Nat) (s : State) : Host.Outcome State Fault Refusal :=
  onDev dt (·.burstStart quadrant) s

/-- RAMP_START (R295): TxRampTime before the planned end; a capture does not reach into RAMP (R316). -/
def execRampStart (dt quadrant : Nat) (s : State) : Host.Outcome State Fault Refusal :=
  onDev dt (fun d =>
    let b := d.burst quadrant
    let end_ := d.burstEndAt quadrant d.slotNow
    d.iff (b.st == 2 && end_ ≤ (d.now : Int) + (d.a P.txRampTime * 1000 : Nat)) (fun d =>
      (((d.dpdAbandon quadrant).leaveOn quadrant).setBurst quadrant (fun b => { b with st := 4 })).refreshTx quadrant)) s

/-- A TX quadrant without a further planned burst leaves ACTIVE (R57). -/
def Dev.txLeave (d : Dev) (q : Nat) : Dev :=
  let more := d.dl.plans.any (fun p => !p.places.isEmpty && d.slotNow < p.slot) && d.txAnyPath q
  d.iff ((!more || d.txHeld q) && d.active (2 + q)) (·.dropUnits (2 ^ (2 + q)))

/-- BURST_END (R276, R279, R295): at its planned end, or after the RAMP of a stop, whose rest stays dropped. -/
def Dev.burstEnd (d : Dev) (q : Nat) : Dev :=
  let b := d.burst q
  if b.st = 5 then
    (((d.setBurst q (fun b => { b with st := 3, ended := some d.now })).refreshTx q).coexUpdate).txLeave q
  else if (b.st = 2 ∨ b.st = 4) ∧ !d.txEmits d.slotNow q then
    (((((d.dpdAbandon q).leaveOn q).setBurst q (fun b => { b with st := 0, ended := some d.now })).refreshTx q).coexUpdate).txLeave q
  else d

def execBurstEnd (dt quadrant : Nat) (s : State) : Host.Outcome State Fault Refusal :=
  onDev dt (·.burstEnd quadrant) s

/-- COEX_GRANT_WITHDRAWN (R308): COEX_GNT has stood inactive for 50 ns during a burst; every quadrant in ON stops. -/
def Dev.grantLost (d : Dev) : Dev :=
  let on := maskOf 4 (fun q => (d.burst q).st == 2)
  let probe := d.col.run.isSome && d.coex.req
  if d.a P.coexEnable = 1 ∧ (on ≠ 0 ∨ probe) then
    let d := if d.gntActive then
        { d with coex := { d.coex with gnt := !d.coex.gnt, gntAt := d.now - 50000 } } else d
    let d := d.each (bitList 4 on) (fun q d => d.stopBurst q 6)
    let d := d.iff (on != 0) (fun d => (d.add P.coexLostCount (popc 4 on)).raise 53 on)
    d.colAbandon 4
  else d

def execCoexGrantWithdrawn (dt : Nat) (s : State) : Host.Outcome State Fault Refusal :=
  onDev dt (·.grantLost) s

/-- What the start of a slot means for the bursts of every quadrant (R277, R278). -/
def Dev.burstBoundary (d : Dev) (slot : Nat) : Dev :=
  d.each [0, 1, 2, 3] (fun q d =>
    let st := (d.burst q).st
    let emits := d.txEmits slot q
    if emits then d
    else if d.txPlanned slot q then d.endBurst q slot (d.silentCause slot)
    else if st = 3 then d.setBurst q (fun b => { b with st := 0 })
    else if st = 2 ∨ st = 4 then d.burstEnd q
    else d.iff ((d.burst q).slot ≤ slot) (·.unrequest q))

/-! ### Synthesisers (R283 to R291) -/

/-- Set entry `k` of a list of per-synthesiser numbers. -/
def setNth {α : Type} (l : List α) (k : Nat) (v : α) : List α := modAt l k (fun _ => v)

/-- A synthesiser begins a calibration attempt. -/
def Dev.synthTry (d : Dev) (k : Nat) : Dev :=
  { d.w (P.synthState + k) 1 with syn := { d.syn with tried := setNth d.syn.tried k d.now } }

/-- The pre-alignments that a retune of an RX LO abandons (R85, R94). -/
def Dev.retunePrealign (d : Dev) (q g : Nat) : Dev :=
  d.each (List.range 16) (fun i d =>
    let p := 16 * q + i
    d.iff (d.chainRuns g p) (fun d => d.prealignOff (p / 4) (d.rolesOf g p)))

/-- A synthesiser is not locked from here on: its chains carry SETTLE until it locks (R127, R290). -/
def Dev.synthOpen (d : Dev) (k : Nat) : Dev :=
  if d.a (P.synthState + k) = 3 ∨ d.a (P.synthState + k) = 0 then { d with syn := { d.syn with since := setNth d.syn.since k d.actAt } }
  else d

/-- At its lock the run of SETTLE converter samples of its 16 chains ends. -/
def Dev.synthRuns (d : Dev) (k : Nat) : Dev :=
  if k % 3 = 2 then d
  else d.each (List.range 16) (fun i d => d.settleRun (k % 3) (16 * (k / 3) + i) (d.syn.since.getD k 0) d.now)

/-- A commit that changes the channel of synthesiser `k` (R285 to R287). -/
def Dev.channelCommit (d : Dev) (k : Nat) : Dev :=
  let d := d.synthOpen k
  let d := { d with syn := { d.syn with
    commit := setNth d.syn.commit k d.actAt, change := setNth d.syn.change k true, fails := setNth d.syn.fails k 0 } }
  let d := (d.synthTry k).w P.synthFailedMask (putBit (d.a P.synthFailedMask) k false)
  if k % 3 = 2 then (d.stopBurst (k / 3) 6).refreshTx (k / 3) else d.retunePrealign (k / 3) (k % 3)

/-- Whether synthesiser `k` runs: not OFF. -/
def Dev.synthOn (d : Dev) (k : Nat) : Bool := d.a (P.synthState + k) != 0

/-- Commit one LO word (R285): a synthesiser that runs changes channel only where the value differs. -/
def Dev.commitLo (d : Dev) (k shadow active : Nat) : Dev :=
  if d.a shadow = d.a active then d
  else
    let d := d.w active (d.a shadow)
    d.iff (d.synthOn k) (·.channelCommit k)

/-- The synthesisers of a mask begin the calibration of a transition into WATCH or READY, at their active frequencies and without an
EV48 (R287). -/
def Dev.synthsCal (d : Dev) (mask : Nat) : Dev :=
  d.each (bitList 12 mask) (fun k d =>
    let d := ((d.synthOpen k).synthTry k).w P.synthFailedMask (putBit (d.a P.synthFailedMask) k false)
    { d with syn := { d.syn with fails := setNth d.syn.fails k 0, change := setNth d.syn.change k false } })

/-- The calibration of a transition ends inside it: the synthesisers of a mask that still calibrate for it lock, silently (R287). One
that a commit retunes goes on under R286, and a FAILED one stays so (R288). -/
def Dev.synthsLock (d : Dev) (mask : Nat) : Dev :=
  d.each (bitList 12 mask) (fun k d =>
    let st := d.a (P.synthState + k)
    d.iff ((st == 1 || st == 2) && !d.syn.change.getD k false) (fun d =>
      let d := ((d.synthRuns k).w (P.synthState + k) 3).w P.synthFailedMask (putBit (d.a P.synthFailedMask) k false)
      { d with syn := { d.syn with fails := setNth d.syn.fails k 0 } }))

/-- Synthesisers of a mask go OFF. -/
def Dev.synthsOff (d : Dev) (mask : Nat) : Dev :=
  d.each (bitList 12 mask) (fun k d => (d.w (P.synthState + k) 0).w P.synthFailedMask (putBit (d.a P.synthFailedMask) k false))

/-- SYNTH_LOCK (R286, R289). -/
def Dev.synthLocked (d : Dev) (k : Nat) : Dev :=
  let st := d.a (P.synthState + k)
  if st = 1 ∨ st = 2 then
    let t := d.now - d.syn.commit.getD k 0
    let chg := d.syn.change.getD k false
    let d := d.synthRuns k
    let d := (d.w (P.synthState + k) 3).w P.synthFailedMask (putBit (d.a P.synthFailedMask) k false)
    let d := { d with syn := { d.syn with fails := setNth d.syn.fails k 0, change := setNth d.syn.change k false } }
    let d := d.iff chg (fun d => (d.w (P.synthLockTime + k) (t / 1000)).raise 48 (k + 16 * (t / 100000 % 2 ^ 13)))
    if k % 3 = 2 then (d.refreshTx (k / 3)).issueHeld (k / 3) else d
  else d

def execSynthLock (dt synth : Nat) (s : State) : Host.Outcome State Fault Refusal := onDev dt (·.synthLocked synth) s

/-- SYNTH_CAL_FAIL (R288): repeated at most twice, then FAILED. -/
def Dev.synthCalFail (d : Dev) (k : Nat) : Dev :=
  let st := d.a (P.synthState + k)
  if st = 1 ∨ st = 2 then
    let n := d.syn.fails.getD k 0 + 1
    let d := { d with syn := { d.syn with fails := setNth d.syn.fails k n } }
    if n < 3 then d.synthTry k
    else
      let d := (d.w (P.synthState + k) 4).w P.synthFailedMask (putBit (d.a P.synthFailedMask) k true)
      (d.raise 50 k).iff (k % 3 == 2) (·.refreshTx (k / 3))
  else d

def execSynthCalFail (dt synth : Nat) (s : State) : Host.Outcome State Fault Refusal := onDev dt (·.synthCalFail synth) s

/-- SYNTH_UNLOCK (R289, R296): counted and reported; the synthesiser recalibrates at its active frequency under R286. -/
def Dev.synthUnlock (d : Dev) (k : Nat) : Dev :=
  if d.a (P.synthState + k) = 3 then
    let d := ((d.inc (P.synthUnlockCount + k)).raise 49 k).synthOpen k
    let d := { d with syn := { d.syn with
      commit := setNth d.syn.commit k d.now, change := setNth d.syn.change k true, fails := setNth d.syn.fails k 0 } }
    let d := d.synthTry k
    if k % 3 = 2 then ((d.dpdAbandon (k / 3)).stopBurst (k / 3) 6).refreshTx (k / 3) else d
  else d

def execSynthUnlock (dt synth : Nat) (s : State) : Host.Outcome State Fault Refusal := onDev dt (·.synthUnlock synth) s

/-- Chains of FAILED RX synthesisers contribute zero from a slot boundary, and again samples from one after the lock
(R291). -/
def Dev.synthBoundary (d : Dev) (slot : Nat) : Dev :=
  ({ d with syn := { d.syn with zeroed := d.a P.synthFailedMask } } : Dev).maskNote (d.slotStart slot).toNat

/-! ### TX hand-over (R254, R285, R304, R305) -/

/-- Commit the power steps of a quadrant, with EV54 for the lowest path below its limit. -/
def Dev.commitSteps (d : Dev) (q : Nat) (events : Bool) : Dev :=
  let paths := (List.range 16).map (fun i => 16 * q + i)
  let d := d.each paths (fun p d => (d.w (P.txStepActive + p) (d.a (P.txStepShadow + p))).restep p)
  match paths.find? (fun p => d.a (P.txStepActive + p) < d.stepLimit p) with
  | some p => d.iff events (·.raise 54 (p + 64 * ((d.stepLimit p - d.a (P.txStepActive + p)) % 256)))
  | none => d

/-- Commit the TX shadow values of a quadrant. -/
def Dev.commitTx (d : Dev) (q : Nat) (events : Bool) : Dev :=
  let d := d.each [0, 1] (fun g d => d.commitNco (8 + 4 * g + q) (gk P.txNcoShadowA g + q) (gk P.txNcoActiveA g + q))
  let d := d.commitLo (3 * q + 2) (P.txLoShadow + q) (P.txLoActive + q)
  d.commitSteps q events

/-- Commit the RX shadow values of a group (R75, R79, R109, R115, R285). In wide mode group B does not exist: there is nothing to commit
(R92). [Log: 89 DEDUCED] -/
def Dev.commitRx (d : Dev) (g : Nat) (events : Bool) : Dev :=
  if !d.groupExists g then d else
  let d := d.commitGain g events
  let d := d.each [0, 1, 2, 3] (fun q d =>
    let d := d.commitNco (4 * g + q) (gk P.ncoShadowA g + q) (gk P.ncoActiveA g + q)
    d.commitLo (3 * q + g) (gk P.rxLoShadowA g + q) (gk P.rxLoActiveA g + q))
  d.commitBank g

end Sys2Proof.Machine
end

