-- ==== Sys2Proof/Machine/Dpd.lean ====
section
/-!
DEFINITION. Predistortion: visits, captures, new models, warm starts (10_predistortion.md R314 to R328). The measured
figures and the new model of an adaptation are operands of the commands that report them.
-/

namespace Sys2Proof.Machine

/-- The predistortion record of a quadrant. -/
def Dev.dpdQ (d : Dev) (q : Nat) : DpdQ := d.dpd.quads.getD q {}

/-- Change it. -/
def Dev.setDpdQ (d : Dev) (q : Nat) (f : DpdQ → DpdQ) : Dev := { d with dpd := { d.dpd with quads := modAt d.dpd.quads q f } }

/-- The predistortion record of a path. -/
def Dev.dpdP (d : Dev) (p : Nat) : DpdP := d.dpd.paths.getD p {}

/-- Change it. -/
def Dev.setDpdP (d : Dev) (p : Nat) (f : DpdP → DpdP) : Dev := { d with dpd := { d.dpd with paths := modAt d.dpd.paths p f } }

/-- The key of a path's model (R313). -/
def modelKey (p : Nat) : Nat := P.dpdModel0 + p * 2 ^ 24

/-- Write all 448 entries of a path's model. -/
def Dev.setModel (d : Dev) (p : Nat) (m : List Nat) : Dev :=
  d.wList (modelKey p) ((List.range 448).map (fun i => m.getD i 0 % 2 ^ 40))

/-- The identity model (R313). -/
def identityModel : List Nat := (List.range 448).map (fun i => if i < 64 then 262144 * 2 ^ 20 else 0)

/-! ### Visits and captures (R315 to R317, R322) -/

/-- The next eligible path of a quadrant after the last one visited. -/
def Dev.nextVisit (d : Dev) (q : Nat) : Option Nat :=
  let last := (d.dpdQ q).last
  (((List.range 16).map (fun i => 16 * q + (last + 1 + i) % 16)).find? (fun p => bit d.dl.pathEff p))

/-- ON time of a quadrant since its ORX took the last visit, in ps (R315). -/
def Dev.onSince (d : Dev) (q : Nat) : Nat := (d.dpdQ q).onTime + (d.now - (d.burst q).on)

/-- DPD_VISIT (R315, R316, R322), once in 2.0 ms of ON time: a path that waits out of turn comes first; the order is not moved by it. A
burst is ON only while the synthesiser is locked and no Collimation window stands. -/
def Dev.dpdVisit (d : Dev) (q : Nat) : Dev :=
  let x := d.dpdQ q
  if (d.burst q).st = 2 ∧ d.dpd.modes.getD q 0 = 2 ∧ x.cap.isNone ∧ d.synthSt (3 * q + 2) = 3 ∧ 2000000000 ≤ d.onSince q then
    -- the ON time counts on from here
    let d := (d.setDpdQ q (fun x => { x with onTime := 0 })).setBurst q (fun b => { b with on := d.now })
    match x.turn.find? (fun p => bit d.dl.pathEff p) with
    | some p => d.setDpdQ q (fun x => { x with turn := x.turn.erase p, cap := some (p, d.now) })
    | none => match d.nextVisit q with
      | some p => d.setDpdQ q (fun x => { x with last := p % 16, cap := some (p, d.now) })
      | none => d
  else d

def execDpdVisit (dt quadrant : Nat) (s : State) : Host.Outcome State Fault Refusal := onDev dt (·.dpdVisit quadrant) s

/-- A completed capture is skipped (R317). -/
def Dev.dpdSkip (d : Dev) (p : Nat) (clipped : Bool) : Dev :=
  let d := d.inc (P.dpdSkipCount + p)
  d.iff clipped (·.raiseRate 57 p (10 ^ 12) 1 (fun n => p + 64 * sat 2047 n))

/-- DPD_CAPTURE_DONE (R317): `power` is the sum of I^2 + Q^2 of x over the capture. [Log: 31 DEDUCED] -/
def Dev.dpdCaptureDone (d : Dev) (p : Nat) (clipped : Bool) (power : Nat) : Dev :=
  let q := p / 16
  let c := d.a P.dpdCaptureLog2
  match (d.dpdQ q).cap with
  | none => d
  | some (p', t) =>
    if p' ≠ p ∨ d.now < t + 2 ^ c * 1250 then d
    else
      let d := d.setDpdQ q (fun x => { x with cap := none })
      if clipped ∨ !atLeastLevel c power (d.a P.dpdMinCapturePower) then d.dpdSkip p clipped
      else d.setDpdP p (fun x => { x with busy := true })

def execDpdCaptureDone (dt path : Nat) (clipped : Bool) (power : Nat) (s : State) : Host.Outcome State Fault Refusal :=
  onDev dt (·.dpdCaptureDone path clipped power) s

/-- round(-10 nmse), clamped to 0 to 2,047 (R320), from 0.001 dB. -/
def nmseField (nmse : Int) : Nat := (clampI 0 2047 (rhe (-nmse) 100)).toNat

/-- The new model of a path (R318): each entry less DpdStepSize / 256 of its increment, in units of 2^-18 and (0, 0) for an entry not hit,
all scaled so that the mean of G_0[0] to G_0[7] is 1; rounded to nearest and saturated to 20 bits. Where that mean is 0 the spec states no
result: free values. [Log: 31 DEDUCED] -/
def Dev.newModel (d : Dev) (p : Nat) (incs : List (Int × Int)) : List Nat :=
  let step : Int := (d.a P.dpdStepSize : Nat)
  let g := (List.range 448).map (fun i =>
    let e := d.a (modelKey p + i)
    let x := incs.getD i (0, 0)
    ((256 * sx 20 (bits e 39 20) - step * x.1, 256 * sx 20 (bits e 19 0) - step * x.2) : CInt))
  let s := (g.take 8).foldl cadd (0, 0)
  let n := cabs2 s
  let entry (v : Int) : Nat := ux 20 (clampI (-524288) 524287 v)
  (g.zip (List.range 448)).map (fun x =>
    if n = 0 then Config.freeValue d.clk.free (1000 + x.2) % 2 ^ 40
    else
      let y := cmul x.1 (cconj s)
      entry (rhe (8 * 2 ^ 18 * y.1) n) * 2 ^ 20 + entry (rhe (8 * 2 ^ 18 * y.2) n))

/-- DPD_COMPUTE_DONE (R318 to R321): `nmse` in 0.001 dB, `aclr` in 0.1 dB, `incs` the increments the least squares found. The model waits
for the slot boundary; a quadrant no longer in mode 2 adapts no more (R314). [Log: 31 DEDUCED] -/
def Dev.dpdComputeDone (d : Dev) (p : Nat) (nmse : Int) (aclr : Nat) (incs : List (Int × Int)) : Dev :=
  let x := d.dpdP p
  if !x.busy then d
  else if d.dpd.modes.getD (p / 16) 0 ≠ 2 then d.setDpdP p (fun x => { x with busy := false })
  else
    let model := d.newModel p incs
    let d := { d with clk := { d.clk with free := d.clk.free + 1 } }
    let d := d.setDpdP p (fun x => { x with busy := false, pend := some (model, nmseField nmse, aclr) })
    d.iff (-(100 * (d.a P.dpdNmseThreshold : Int)) < nmse) (·.raiseRate 56 p (10 ^ 12) 0 (fun _ => p + 64 * nmseField nmse))

def execDpdComputeDone (dt path : Nat) (nmse : Int) (aclr : Nat) (incs : List (Int × Int)) (s : State) :
    Host.Outcome State Fault Refusal :=
  onDev dt (·.dpdComputeDone path nmse aclr incs) s

/-! ### Warm starts (R323 to R327) -/

/-- The present temperature bin of a path's quadrant. -/
def Dev.binOf (d : Dev) (q : Nat) : Nat := tempBin (d.quadTemp q)

/-- The active Chart of the records. -/
def Dev.warmChart (d : Dev) : Nat := d.a P.chartActive % 4

/-- A point of a record from a model entry: weight 2^-10, saturated (R324). -/
def pointOf (e : Nat) : Nat :=
  let c (v : Nat) : Nat := ux 12 (clampI (-2048) 2047 (rhe (sx 20 v) 256))
  c (bits e 39 20) * 2 ^ 12 + c (bits e 19 0)

/-- The points of a model: G_m[4 i]. -/
def pointsOf (m : List Nat) : List Nat := (List.range 112).map (fun i => pointOf (m.getD (64 * (i / 16) + 4 * (i % 16)) 0))

/-- A model from the points of a record, interpolated (R325). -/
def modelOf (pts : List Nat) : List Nat :=
  (List.range 448).map (fun j =>
    let m := j / 64
    let k := j % 64
    let i := k / 4
    let f : Int := if i = 15 then 0 else ((k % 4 : Nat) : Int)
    let a := pts.getD (16 * m + i) 0
    let b := pts.getD (16 * m + min 15 (i + 1)) 0
    -- a quarter of the weight 2^-10 is the weight 2^-18 times 64
    let mix (x y : Int) : Nat := ux 20 (64 * ((4 - f) * x + f * y))
    mix (sx 12 (bits a 23 12)) (sx 12 (bits b 23 12)) * 2 ^ 20 + mix (sx 12 (bits a 11 0)) (sx 12 (bits b 11 0)))

/-- The record a quadrant's path loads: the nearest bin with one, the lower of two equally near (R326). -/
def Dev.warmFor (d : Dev) (p chart bin : Nat) : Option Warm :=
  let mine := d.dpd.warm.filter (fun w => w.path == p && w.chart == chart)
  let order := (List.range 15).flatMap (fun i => if i = 0 then [bin] else (if i ≤ bin then [bin - i] else []) ++ [bin + i])
  (order.filterMap (fun b => mine.find? (fun w => w.bin == b))).head?

/-- One path on its quadrant's entry to ACTIVE: keep the model of SRAM, or load the warm start (R326). -/
def Dev.warmLoad (d : Dev) (p : Nat) : Dev :=
  let q := p / 16
  let x := d.dpdP p
  let chart := d.warmChart
  let bin := d.binOf q
  if d.dpd.modes.getD q 0 = 0 then d
  else if x.kept ∧ x.chart = chart ∧ x.bin = bin then
    d.w (P.dpdWarmSource + p) (d.a (P.dpdWarmSource + p) % 64 + 64)
  else
    let (m, src) := match d.warmFor p chart bin with
      | some w => (modelOf w.points, w.bin + 16 * chart)
      | none => (identityModel, 15 + 16 * chart)
    let d := (d.setModel p m).w (P.dpdWarmSource + p) src
    d.setDpdP p (fun x => { x with kept := true, chart := chart, bin := bin, updated := false })

/-- Every path of a quadrant (R326). -/
def Dev.warmLoadQuad (d : Dev) (q : Nat) : Dev := d.each (List.range 16) (fun i d => d.warmLoad (16 * q + i))

/-- Store a path's model as the newer record of its pair (R324, R327). [Log: 18 DEDUCED] -/
def Dev.warmStore (d : Dev) (p : Nat) : Dev :=
  let chart := d.warmChart
  let bin := d.binOf (p / 16)
  let same (w : Warm) : Bool := w.path == p && w.chart == chart && w.bin == bin
  let old := d.dpd.warm.find? same
  let one : Warm := ⟨p, chart, bin, ((old.map (·.seq)).getD 0 + 1) % 2 ^ 32, d.secs, d.a (P.dpdNmse + p),
    pointsOf (d.entries (modelKey p) 448)⟩
  let keep := d.dpd.warm.filter (fun w => !same w)
  let d := d.mramWrite 384 (fun d => ({ d with dpd := { d.dpd with warm := one :: old.toList ++ keep } }).inc P.dpdStoreCount)
  let now := d.now
  d.setDpdP p (fun x => { x with updated := false, stored := now + 1 })

/-- The 384 bytes of a record (R324). -/
def Warm.bytes (w : Warm) : List Byte :=
  let body := leBytes 4 w.seq ++ leBytes 8 w.secs ++ leBytes 1 w.path ++ leBytes 1 w.chart ++ leBytes 1 w.bin ++ zeros 1
    ++ leBytes 2 w.nmse ++ zeros 2 ++ w.points.flatMap (leBytes 3) ++ zeros 24
  body ++ leBytes 4 (crc32c body)

/-- A byte of the warm-start area of MRAM at an offset (R138, R324): pair (60 path + 15 Chart + bin) holds record A, then B, and the
first record of a pair, SEQ 1, is its A; a record never written reads free bytes. [Log: 25 DESIGN CHOICE] -/
def Dev.warmByte (d : Dev) (off : Nat) : Byte :=
  let pair := off / 768
  let half := off % 768 / 384
  let held := (d.nvm.before.map (·.warm)).getD d.dpd.warm
  match held.find? (fun w => 60 * w.path + 15 * w.chart + w.bin == pair && w.seq % 2 == 1 - half) with
  | some w => w.bytes.getD (off % 384) 0#8
  | none => Config.mramByte [] [] (0x01004C0000 + off)

/-- DPD_WARM_STORE (R327): after DpdStorePeriod. -/
def execDpdWarmStore (dt path : Nat) (s : State) : Host.Outcome State Fault Refusal :=
  onDev dt (fun d =>
    let x := d.dpdP path
    let due := x.stored == 0 || x.stored - 1 + d.a P.dpdStorePeriod * 10 ^ 12 ≤ d.now
    d.iff (d.up && x.updated && due && path < 64) (·.warmStore path)) s

/-- Every model updated since its last store is stored on entry to DEEP (R327); SRAM keeps none (R53). -/
def Dev.warmDeep (d : Dev) : Dev :=
  let d := d.each (List.range 64) (fun p d => d.iff (d.dpdP p).updated (·.warmStore p))
  { d with dpd := { d.dpd with
    paths := d.dpd.paths.map (fun (x : DpdP) => { x with kept := false, busy := false, pend := none }), writes := [] } }

/-! ### The slot boundary (R314, R320, R326) -/

/-- A new model is committed with its figures (R320). [Log: 31 DEDUCED] -/
def Dev.dpdCommit (d : Dev) (slot p : Nat) : Dev :=
  match (d.dpdP p).pend with
  | none => d
  | some (m, nmse, aclr) =>
    let q := p / 16
    let d := ((d.setModel p m).w (P.dpdNmse + p) nmse).w (P.dpdAclr + p) aclr
    let d := (d.inc (P.dpdUpdateCount + p)).w (P.dpdLastUpdate + p) (slot % 2 ^ 40)
    let chart := d.warmChart
    let bin := d.binOf q
    let d := d.setDpdP p (fun x => { x with pend := none, updated := true, kept := true, chart := chart, bin := bin })
    d.raiseRate 55 q (10 ^ 12) 1 (fun n => q + 4 * sat 32767 n)

/-- What waits for the slot boundary: new models, modes, written models, Chart reloads. -/
def Dev.dpdBoundary (d : Dev) (slot : Nat) : Dev :=
  let d := d.each (List.range 64) (fun p d => d.dpdCommit slot p)
  let wr := d.dpd.writes
  let d := d.wAll wr
  let chart := d.warmChart
  let d := d.each (List.range 64) (fun p d =>
    let bin := d.binOf (p / 16)
    d.iff (wr.any (fun w => keyId w.1 == keyId (modelKey p))) (fun d =>
      d.setDpdP p (fun x => { x with kept := true, chart := chart, bin := bin })))
  let d := { d with dpd := { d.dpd with writes := [], modes := d.entries P.dpdMode 4 } }
  d.each [0, 1, 2, 3] (fun q d => d.iff (d.dpdQ q).reload (fun d =>
    (d.setDpdQ q (fun x => { x with reload := false })).iff (d.active (2 + q)) (·.warmLoadQuad q)))

end Sys2Proof.Machine
end

