-- ==== Sys2Proof/Machine/Power.lean ====
section
/-!
DEFINITION. Transitions up between power states, units coming up, wake causes (02_supplies_clocks_sleep.md R54 to R65).
Transitions complete in the order they began, each with STATE_ENTERED.
-/

namespace Sys2Proof.Machine

/-! ### Transitions -/

/-- A transition down is in progress. -/
def Dev.goingDown (d : Dev) : Bool := d.pwr.jobs.any (·.kind == 3)

/-- The target of a transition down. -/
def Dev.downTo (d : Dev) : Nat := ((d.pwr.jobs.find? (·.kind == 3)).map (·.arg)).getD 0

/-- A transition up to a base state is in progress. -/
def Dev.goingUp (d : Dev) : Bool := d.pwr.jobs.any (·.kind == 0)

/-- Begin a transition. [Log: 29 DEDUCED] -/
def Dev.begin (d : Dev) (kind arg : Nat) : Dev :=
  let one : Job := ⟨kind, arg, d.now⟩
  { d with pwr := { d.pwr with jobs := d.pwr.jobs ++ [one] } }

/-- The synthesisers that stay locked in WATCH: RX A of every quadrant (R52). -/
def watchSynths : Nat := maskOf 12 (fun k => k % 3 == 0)

/-- The RX B synthesisers, unused in wide mode (R92). -/
def bSynths : Nat := maskOf 12 (fun k => k % 3 == 1)

/-- The synthesisers of a base state (R52). -/
def Dev.baseSynths (d : Dev) (base : Nat) : Nat :=
  if base = 2 then (if d.wide then maskSub 12 (2 ^ 12 - 1) bSynths else 2 ^ 12 - 1) else if base = 1 then watchSynths else 0

/-- Those of them that are OFF or FAILED: a transition into the state calibrates them (R287, R288). [Log: 70 DEDUCED] -/
def Dev.synthsDue (d : Dev) (base : Nat) : Nat :=
  maskOf 12 (fun k => bit (d.baseSynths base) k && (d.a (P.synthState + k) == 0 || d.a (P.synthState + k) == 4))

/-- Begin a transition up to a base state. -/
def Dev.beginUp (d : Dev) (target : Nat) : Dev := (d.begin 0 target).synthsCal (d.synthsDue target)

/-- PwrState follows what runs (R54). -/
def Dev.showPw (d : Dev) : Dev := d.w P.pwrState (if d.a P.pwrActiveMask = 0 then d.pwr.base else 3)

/-- Ask for a base state above the present one (R61): during a transition down it is latched, during one up the highest
target counts. -/
def Dev.goUp (d : Dev) (target cause : Nat) : Dev :=
  if d.goingDown then { d with pwr := { d.pwr with latched := d.pwr.latched ++ [(cause, target)] } }
  else if target ≤ d.pwr.base then d
  else if d.goingUp then { d with pwr := { d.pwr with goal := max d.pwr.goal target } }
  else d.beginUp target

/-- A unit leaves READY for ACTIVE; the paths of a quadrant take their models meanwhile (R326). Carrier group A from WATCH brings READY's
synthesisers up beside it, without waiting for them (R287, R291). [Log: 70 DEDUCED] -/
def Dev.startUnit (d : Dev) (u : Nat) : Dev :=
  ((d.begin 1 u).iff (2 ≤ u) (·.warmLoadQuad (u - 2))).iff (d.pwr.base == 1) (fun d => d.synthsCal (d.synthsDue 2))

/-- Begin to bring one unit into ACTIVE (R55): from READY, carrier group A also from WATCH, everything else through
READY. -/
def Dev.bringUnit (d : Dev) (u : Nat) : Dev :=
  if d.active u || bit d.bringing u || (2 ≤ u && d.txHeld (u - 2)) then d
  else if !d.goingDown && !d.goingUp && (d.pwr.base == 2 || (d.pwr.base == 1 && u == 0)) then d.startUnit u
  else ({ d with pwr := { d.pwr with after := putBit d.pwr.after u true } }).goUp 2 255

/-- Begin to bring units into ACTIVE. -/
def Dev.bringUnits (d : Dev) (mask : Nat) : Dev := (d.each (bitList 6 mask) (fun u d => d.bringUnit u)).noteIdle

/-! ### Wake causes (R59 to R62) -/

/-- The states a wake cause acts from. -/
def causeFrom (bit_ : Nat) : List Nat :=
  if bit_ = 1 then [1] else if bit_ = 2 ∨ bit_ = 3 then [0] else [0, 1]

/-- Whether the device can leave its state for a wake cause: not in reset or shutdown (R62), REFCLK runs (R44), and no rail
holds it in DEEP (R30). -/
def Dev.mayWake (d : Dev) : Bool := d.pwr.phase == .running && !d.clk.onLpo && d.pwr.railBad == 0

/-- Serve a wake cause: record it and go to its target, 3 standing for carrier group A. -/
def Dev.serveWake (d : Dev) (cause target : Nat) : Dev :=
  let d := d.iff (cause != 255) (·.w P.wakeLastSource cause)
  if target = 3 then d.bringUnits 1 else d.goUp target cause

/-- Note the state a cause or a request names (R240, R340). [Log: 30 DEDUCED] -/
def Dev.nameState (d : Dev) (target : Nat) : Dev := { d with pwr := { d.pwr with named := max d.pwr.named (target % 3) } }

/-- A wake cause arrives (R59, R61). [Log: 30 DEDUCED] -/
def Dev.wake (d : Dev) (cause target : Nat) : Dev :=
  let from_ := if d.goingDown then d.downTo else d.pwr.base
  let d := d.iff (d.mayWake && d.ab P.wakeSourceMask cause && ((causeFrom cause).contains 1 || (causeFrom cause).contains from_))
    (·.nameState target)
  if !d.mayWake || !d.ab P.wakeSourceMask cause || d.a P.pwrActiveMask != 0 || !(causeFrom cause).contains from_ then d
  else if d.goingDown then { d with pwr := { d.pwr with latched := d.pwr.latched ++ [(cause, target)] } }
  else if target ≤ from_ then d
  else d.serveWake cause target

/-- The R63 maximum of a transition up, ns. -/
def upMax (from_ target : Nat) : Nat :=
  if from_ = 0 then (if target = 1 then 2500000 else 3000000)
  else if from_ = 1 then (if target = 2 then 150000 else 0)
  else 0

/-- The R63 maximum for bringing a unit up from the present state, ns (R55). -/
def Dev.unitMax (d : Dev) (u : Nat) : Nat :=
  if d.pwr.base = 2 then 20000
  else if d.pwr.base = 1 then (if u = 0 then 25000 else 170000)
  else 3020000

/-! ### Sentinel chains (R223, R231 to R233) -/

/-- Depth of the ring in ns (R232). -/
def Dev.ringDepthNs (d : Dev) : Nat := d.ringRecords * 10000 / d.fb 0

/-- SentinelState (R247). -/
def Dev.sentinelSt (d : Dev) : Nat :=
  if d.a P.sentinelEnable = 0 then 0 else if d.sen.win.isSome then 2 else if d.sentinelRuns then 1 else 3

/-- Start or stop the sentinel chains as the state of the device says (R223, R233). The NCO phase of a chain that starts is
not stated: a free value. [Log: 78 DEDUCED] -/
def Dev.sentinelFollow (d : Dev) : Dev :=
  if d.sentinelRuns then
    if d.sen.startAt.isSome then d
    else
      let fresh := !d.active 0
      let d := { d with sen := { d.sen with startAt := some d.now } }
      (·.rfShort) <| d.iff fresh (fun d =>
        let d := { d with rx := { d.rx with zeroAt := modAt d.rx.zeroAt 0 (fun _ => d.now) } }
        let d := (d.bankAtOnce 0).latchRates
        (d.each [0, 1, 2, 3] (fun q d => let (v, d) := d.free (100 + q) 40; d.setPhase q v)).updateQuads)
  else d.sentinelStop

end Sys2Proof.Machine
end

