-- ==== Sys2Proof/Machine/Sentinel.lean ====
section
/-!
DEFINITION. Sentinel watch: detections, wake windows, replay (07_sentinel_watch.md R226 to R245).
-/

namespace Sys2Proof.Machine

/-! ### The history ring (R224, R231, R233) -/

/-- The n-th sentinel path in ascending order. -/
def Dev.sentinelPath (d : Dev) (n : Nat) : Nat := (bitList 64 (d.a P.sentinelPathMask)).getD n 0

/-- The word of a path in record `j` of the present run (R224, R231): what the antenna brought, zero on a path that contributes
nothing, with SETTLE and CAL by its span (R123, R339). Before record 0 stand zeros, and a span that reaches there carries SETTLE.
[Log: 41 DEDUCED] -/
def Dev.ringWord (d : Dev) (j : Int) (p : Nat) : Nat :=
  let hi := d.ringZero + j.toNat * d.latched.bandPs 0
  let len := d.latched.bandSpanPs 0
  if j < 0 then 1
  else if !bit (d.maskAt 0 (hi - d.latched.bandDelay 0)) p then 0
  else
    let w := Config.ringWord (d.sen.startAt.getD 0) j.toNat p % 2 ^ 40
    w / 16 * 16 + 2 * (w / 2 % 2) + b2n (d.settleIn 0 p hi len) + 4 * b2n (d.calReach (hi - len) hi)

/-- A byte of the ring (R231, R233): of a record of the present run, zero where scrub rewrote its burst since (R152), or of what an earlier
run left at its place. -/
def Dev.ringAt (d : Dev) (m : Memory) (a : Nat) : Byte :=
  let off := a - 0x6C000000
  let size := 5 * d.sentinelN
  let z := (d.sen.zeroed.find? (fun e => e.1 == a / 32 * 32)).map (·.2)
  match d.ringLast (off / size) with
  | some j =>
    if j < z.getD 0 then 0#8
    else BitVec.ofNat 8 (d.ringWord j (d.sentinelPath (off % size / 5)) / 256 ^ (off % 5) % 256)
  | none => if d.sen.runs = 0 then m.get a else if z.isSome then 0#8 else Config.ringByte d.sen.runs a

/-! ### Detections (R226 to R230) -/

/-- Elapsed ps of band output t of the sentinel chains, `back` outputs before the newest. -/
def Dev.sentinelT (d : Dev) (back : Nat) : Nat := d.newestBand 0 - back * d.latched.bandPs 0

/-- Whether the detector forms the metric of sequence `k` at band output t: no output of the window carries SETTLE or CAL on a sentinel
path (R226); a path that contributes nothing carries no tag (R98). -/
def Dev.metricForms (d : Dev) (k hi : Nat) : Bool :=
  let len := (d.a (P.sentinelSeqLength + k) - 1) * d.latched.bandPs 0 + d.latched.bandSpanPs 0
  !d.calReach (hi - len) hi &&
    (bitList 64 (maskAnd 64 (d.a P.sentinelPathMask) (d.contrib 0))).all (fun p => !d.settleIn 0 p hi len)

/-- Whether sequence `k` meets the level at band output t with a metric num / den (R226, R227). -/
def Dev.correlates (d : Dev) (hi k : Nat) (m : Nat × Nat) : Bool :=
  d.ab P.sentinelSeqEnable k && m.2 != 0 && m.1 ≤ m.2 && d.a P.sentinelDetectLevel * m.2 ≤ 1024 * m.1 && d.metricForms k hi

/-- What a detection would report (R227, R228, R230): the band output t, the sequence and its metric x 1,023; the lowest sequence counts. In
mode 2 t is the last output of the block that completed the condition. -/
def Dev.detects (d : Dev) (ms : List (Nat × Nat)) (back : Nat) : Option (Nat × Nat × Nat) :=
  let mode := d.a P.sentinelTriggerMode
  let hi := if mode = 2 then d.sen.rose.getD 0 else d.sentinelT back
  let fresh := hi ≤ d.now && decide (d.now ≤ hi + 2000000)
  if !fresh then none
  else if mode = 2 then (if d.sen.rose.isSome then some (hi, 0, 0) else none)
  else if mode = 1 ∧ d.aboveCount < d.a P.sentinelGateCount then none
  else ((ms.zip (List.range 4)).find? (fun x => d.correlates hi x.2 x.1)).map (fun x =>
    (hi, x.2, (rnear (1023 * x.1.1 : Nat) x.1.2).toNat))

/-- Elapsed ps, before t_r, at which a replay begins, and the missing span in us: the ring holds only its depth, and nothing
before the chains' start (R241, R243). [Log: 41 DEDUCED] -/
def Dev.replaySpan (d : Dev) (tr : Nat) : Nat × Nat :=
  let depth := d.a P.sentinelReplayDepth * 10 ^ 6
  let oldest := max d.ringZero (d.now - 1000 * d.ringDepthNs) - d.latched.bandDelay 0
  if oldest + depth ≤ tr then (tr - depth, 0) else (oldest, cdiv (oldest + depth - tr) (10 ^ 6))

/-- EV43 for history that is missing (R243, R245). [Log: 41 DEDUCED] -/
def Dev.historyMissing (d : Dev) (us : Nat) : Dev := d.iff (us != 0) (·.raise 43 (sat 65535 us))

/-- A detection in WATCH begins the wake of group A (R234, R237, R241). -/
def Dev.sentinelWake (d : Dev) (tr : Nat) : Dev :=
  let emit := d.ab P.apGroupEnable 0 && d.ab P.apModeEnableA 1
  let replay := emit && d.a P.sentinelReplayDepth != 0
  let (at_, missing) := d.replaySpan tr
  let d := { d with sen := { d.sen with wakeAt := some d.now, noReplay := !replay, emit := emit, replayAt := at_, replay := 0, replayAll := 0 } }
  let d := { d with pwr := { d.pwr with named := 0 } }
  ((d.inc P.sentinelWakeCount).iff replay (·.historyMissing missing)).serveWake 1 3

/-- A detection after a transition to DEEP has begun is latched; it offers no replay (R245). -/
def Dev.sentinelLatch (d : Dev) : Dev :=
  let emit := d.ab P.apGroupEnable 0 && d.ab P.apModeEnableA 1
  let d := { d with sen := { d.sen with wakeAt := some d.now, noReplay := true, emit := emit, replay := 0, replayAll := 0 } }
  let d := { d with pwr := { d.pwr with named := 0, latched := d.pwr.latched ++ [(1, 3)] } }
  (d.inc P.sentinelWakeCount).historyMissing (d.a P.sentinelReplayDepth)

/-- What a detection on band output t does (R229, R230, R234, R238, R244, R245). -/
def Dev.detection (d : Dev) (hi k m : Nat) : Dev :=
  let energy := d.a P.sentinelTriggerMode == 2
  let tr := hi - d.latched.bandDelay 0
  let trPs := d.merPs - (d.now - tr)
  let deep := d.goingDown && d.downTo == 0
  let may := d.ab P.wakeSourceMask 1 && d.pw == 1 && d.sen.win.isNone && !d.sen.wakeAt.isSome && d.mayWake
  let wakes := may && (deep || !d.goingDown)
  let d := { d with sen := { d.sen with holdTill := d.now + d.a P.sentinelHoldoff * 10 ^ 6, rose := none } }
  let d := (d.inc P.sentinelDetectCount).w P.sentinelLastDetect (d.timeAtPs trPs)
  let d := d.w P.sentinelLastMetric m
  let d := d.raise 41 (k + 4 * b2n energy + 8 * b2n (!wakes) + 16 * m)
  if wakes then (if deep then d.sentinelLatch else d.sentinelWake tr)
  else match d.sen.win with
    | some (a, b) =>
      { d with sen := { d.sen with win := some (a, max b (d.slotOfPs trPs + d.a P.sentinelWakeSlots)) } }
    | none => d

/-- SENTINEL_DETECTION (R226 to R230): the metrics num / den of the four sequences at the band output `back` outputs before the newest. -/
def Dev.sentinelDetection (d : Dev) (ms : List (Nat × Nat)) (back : Nat) : Dev :=
  if !d.up || d.sen.startAt.isNone || d.now < d.sen.holdTill then d
  else match d.detects ms back with
    | none => d
    | some (hi, k, m) => d.detection hi k m

/-- The metrics num / den of the four sequences from those that were formed; 0 / 0 for a sequence without one. -/
def metricsOf (seqs num den : List Nat) : List (Nat × Nat) :=
  (List.range 4).map (fun k => (((seqs.zip (num.zip den)).find? (fun x => x.1 == k)).map (·.2)).getD (0, 0))

def execSentinelDetection (dt : Nat) (seqs num den : List Nat) (back : Nat) (s : State) : Host.Outcome State Fault Refusal :=
  onDev dt (·.sentinelDetection (metricsOf seqs num den) back) s

/-- SENTINEL_HOLDOFF_END (R229): from here on a detection may be declared. -/
def execSentinelHoldoffEnd (dt : Nat) (s : State) : Host.Outcome State Fault Refusal :=
  onDev dt (fun d => d.iff (d.sen.holdTill ≤ d.now) (fun d => { d with sen := { d.sen with holdTill := 0 } })) s

/-! ### The wake window (R235 to R240) -/

/-- The first bin sample of group A from `hi` on that lies in none of a list of intervals. -/
def firstFree (base per : Nat) (blocks : List (Nat × Nat)) : Nat → Nat → Nat
  | 0, hi => hi
  | f + 1, hi => match blocks.find? (fun b => b.1 ≤ hi && hi < b.2) with
    | none => hi
    | some b => firstFree base per blocks f (gridFrom base per b.2)

/-- The bin sample of group A whose reference instant is t_c (R236), as far as is known by now: the first from `up` on that carries SETTLE
on no path that contributes. A chain that is not locked carries it up to now at the least. -/
def Dev.cleanHi (d : Dev) (up : Nat) : Nat :=
  let len := d.latched.binSpanPs 0
  let mask := d.contrib 0
  let quad (q : Nat) : Bool := bits mask (16 * q + 15) (16 * q) != 0
  let runs := (d.rx.settle.filter (fun s => s.1 < 64 && bit mask s.1)).map (fun s => (s.2.1, s.2.2 + len))
  let ncos := (d.rx.nco.filter (fun s => s.1 < 4 && quad s.1)).map (fun s => (s.2, s.2 + len))
  let conv := if d.pwr.convBad then [(d.pwr.convSince, d.now + 1 + len)] else []
  let los := ((List.range 4).filter (fun q => quad q &&
    (let st := d.a (P.synthState + 3 * q); st == 1 || st == 2 || st == 4))).map (fun q =>
      (d.syn.since.getD (3 * q) 0, d.now + 1 + len))
  let blocks := (0, d.rx.zeroAt.getD 0 0 + len) :: (runs ++ ncos ++ conv ++ los)
  let per := d.latched.binPs 0
  let base := d.gridBase 0 per
  firstFree base per blocks (blocks.length + 1) (gridFrom base per up)

/-- The wake window and the replay follow the clean instant until its sample has formed (R236, R237, R241). -/
def Dev.cleanFollow (d : Dev) : Dev :=
  match d.sen.seek with
  | none => d
  | some up =>
    let hi := d.cleanHi up
    let l := d.latched
    let tc := hi - l.binDelay 0
    let slot := ((d.merPs : Int) + tc - d.now).toNat / (1000 * d.slotNs)
    let last := slot + d.a P.sentinelWakeSlots - 1
    let z := d.gridBase 0 (l.binPs 0)
    let span := if d.sen.noReplay then 0 else countGrid z (l.binPs 0) (l.binDelay 0) d.sen.replayAt (tc + 1)
    let all := 64 * d.a P.raBinCount * span
    let sent := d.sen.replayAll - d.sen.replay
    { d with sen := { d.sen with
      win := some (slot, match d.sen.win with | some (_, b) => max b last | none => last), cleanAt := tc,
      replayAll := all, replay := all - sent, seek := if hi ≤ d.now then none else some up } } |>.wakeOutput

/-- Group A is ACTIVE after a sentinel wake (R234 to R236, R241): EV42, the window and the replay by t_c. -/
def Dev.wakeDone (d : Dev) : Dev :=
  match d.sen.wakeAt with
  | none => d
  | some t =>
    ({ d with sen := { d.sen with wakeAt := none, win := none, seek := some d.now } }).cleanFollow.rfShort.raise 42
      (sat 131071 ((d.now - t) / 10000))

/-! ### Replay (R241 to R243) -/

/-- Where the next replay word stands (R241, R242, R486): its slot, its offset in that slot's block, the instants of the
block, the first of them after the slot start in ps, the words of an instant block, and the bin sample it begins with: elapsed ps of
its newest converter sample. -/
structure ReplayPos where
  slot : Nat
  offset : Nat
  instants : Nat
  first : Nat
  block : Nat
  hi : Nat

/-- The position of the next replay word. -/
def Dev.replayPos (d : Dev) : ReplayPos :=
  let per := d.latched.binPs 0
  let z := d.gridBase 0 per
  let delay := d.latched.binDelay 0
  let at_ := d.sen.replayAt
  let block := 64 * d.a P.raBinCount
  let pos := d.sen.replayAll - d.sen.replay
  -- reference instant of the first replayed sample, and of the one that holds `pos`
  let t0 := z + cdiv (at_ + delay - z) per * per - delay
  let t := t0 + pos / block * per
  let slot := ((d.merPs : Int) + t - d.now).toNat / (1000 * d.slotNs)
  let a := (d.slotStart slot).toNat
  let before := countGrid z per delay at_ (max at_ a)
  let mine := countGrid z per delay (max at_ a) (min (d.sen.cleanAt + 1) (a + 1000 * d.slotNs))
  ⟨slot, pos - before * block, mine, t0 + before * per - a, block, t + delay⟩

/-- A replay message as UL_DATA of KIND 4 (R242, R486, R487). -/
def Dev.replayMsg (d : Dev) (p : ReplayPos) (ws : List Nat) : List Byte :=
  let compact := d.a P.sentinelWakeCompact == 1
  ulHeader p.slot 0 4 ws.length p.offset p.instants (rnear (p.first : Nat) 250).toNat 0 p.block 0 compact
    (p.offset + ws.length == p.instants * p.block) ++ ulBody compact ws

/-- A word of the ring as a replay read finds it: record `j` of a path, zero with PARTIAL where its burst cannot be corrected
(R151, R243), zero where scrub rewrote it (R152). -/
def Dev.replayRead (d : Dev) (bad : Option Nat) (j : Int) (p : Nat) : Nat :=
  let size := 5 * d.sentinelN
  let n := popc p (d.a P.sentinelPathMask)
  let off := j.toNat % d.ringRecords * size + 5 * n
  let within (burst : Nat) : Bool := off < burst + 32 && burst < off + 5
  if 0 ≤ j && bad.any (fun b => within (32 * b)) then partialZero
  else if 0 ≤ j && d.sen.zeroed.any (fun e => within (e.1 - 0x6C000000) && j.toNat < e.2) then 0
  else d.ringWord j p

/-- The words of a replay message (R241): the ring's band outputs through group A's channelizer, the beam transform over the sentinel
paths and the shift; every word carries PARTIAL. [Log: 41 DEDUCED] -/
def Dev.replayWords (d : Dev) (p : ReplayPos) (n : Nat) (bad : Option Nat) : List Nat :=
  let l := d.latched
  let mask := d.a P.sentinelPathMask
  let bins := d.a P.raBinCount
  (List.range n).map (fun i =>
    let k := p.offset + i
    let hi := p.hi + (k / p.block - p.offset / p.block) * l.binPs 0
    let rcd : Int := ((hi : Int) - d.ringZero).fdiv (l.bandPs 0 : Nat)
    let bin := d.a P.raBinFirst + k % p.block % bins
    let xs := (List.range 64).map (fun q => if bit mask q then l.binOut 0 bin (fun t => d.replayRead bad (rcd + t) q) 0 else 0)
    let w := d.beamWord 0 mask (d.a P.sentinelReplayShift) (k % p.block / bins) xs
    w / 16 * 16 + maskOr 4 (w % 16) 8)

/-- The rest of a replay is discarded at the end of the wake window or when the ring is about to overwrite it (R243). -/
def Dev.replayDiscard (d : Dev) : Dev :=
  let n := d.sen.replay
  if n = 0 then d
  else (({ d with sen := { d.sen with replay := 0 } }).add P.sentinelReplayDiscardCount n).raise 43
    (65536 + sat 65535 (n / 1024))

/-- The ring is about to overwrite the record at the reference instant of the next replay word (R243). [Log: 41 DEDUCED] -/
def Dev.replayLost (d : Dev) : Bool :=
  let p := d.replayPos
  let l := d.latched
  d.sen.replay != 0 &&
    (d.sen.startAt.isNone || p.hi + l.bandDelay 0 + (d.ringRecords - 1) * l.bandPs 0 < d.newestBand 0 + l.binDelay 0)

/-- Live UL_DATA waits: on the egress port, gathered from below, or formed and not yet sent (R242). -/
def Dev.liveWaits (d : Dev) : Bool :=
  (d.port.getD d.egress {}).wait.any (fun w => w.type == 0x0B) || !d.arch.gather.isEmpty || d.ul.outs.any d.outWaits

/-- SENTINEL_REPLAY_SEND (R242, R243): the next `n` replay words leave, only when no other UL_DATA waits; `ecc` and `burst` say what the
reads of the ring met (R151). [Log: 41 DEDUCED] -/
def Dev.replaySend (d : Dev) (n : Nat) (ecc : Ecc) (burst : Nat) : Dev :=
  let d := d.cleanFollow.holdOutputs
  let d := d.iff d.replayLost (·.replayDiscard)
  let compact := d.a P.sentinelWakeCompact == 1
  let p := d.replayPos
  if d.sen.win.isNone || d.sen.replay < n || d.liveWaits || d.histShed || !ulShape compact p.offset n || p.instants * p.block < p.offset + n then d
  else
    let bad := match ecc with | .uncorrectable => some burst | _ => none
    let body := d.replayMsg p (d.replayWords p n bad)
    if d.canSend d.egress (d.homeMsg 3 0x0B false body) then
      let d := match ecc with
        | .ok => d
        | .corrected => d.eccCorrected
        | .uncorrectable => d.eccUncorrectable (0x6C000000 + 32 * burst) false
      let reads := ((p.offset + n - 1) / p.block - p.offset / p.block) * d.latched.hop 0 + 8 * d.latched.chanN 0
      let d := (d.served 4 (5 * d.sentinelN * reads)).sendHome 3 0x0B false body
      { d with sen := { d.sen with replay := d.sen.replay - n } }
    else d

def execSentinelReplaySend (dt n : Nat) (r : BurstEcc) (s : State) : Host.Outcome State Fault Refusal :=
  onDev dt (·.replaySend n r.ecc r.burst) s

end Sys2Proof.Machine
end

