-- ==== Sys2Proof/Machine/Collim.lean ====
section
/-!
DEFINITION. Collimation: when it is due, its window, the run's release and the delay walk (11_collimation.md R334 to R354).
What a run measures comes with COLLIM_RELEASE.
-/

namespace Sys2Proof.Machine

/-! ### Settings -/

/-- The local duration of a run in us without Release (R343). -/
def Dev.colLocal (d : Dev) : Nat := 200 + popc 2 d.colGroups * (if d.a P.collimTxProbeMode = 1 then 5900 else 1900)

/-- CollimRequiredWindow in us of a local run, or of one across the islands of the reduction group (R343, R349). -/
def Dev.colRequired (d : Dev) (arch : Bool) : Nat :=
  let n := d.a P.redGroupSize
  if arch && n != 0 then n * d.colLocal + 400 * (n - 1) + 50 else d.colLocal + 50

/-- Whether this island is the root (R505). -/
def Dev.isRoot (d : Dev) : Bool := d.a P.archRoot == 1

/-- CollimRequiredWindow as shown. -/
def Dev.colShown (d : Dev) : Nat := d.colRequired (d.isRoot && d.a P.collimArchipelago == 1)

/-- The band centre of the chains of a group and quadrant in 2^-8 Hz (R107). -/
def Dev.bandCentre (d : Dev) (g q : Nat) : Nat :=
  let f := rnear (sx 40 (d.a (gk P.ncoActiveA g + q)) * ((if d.wide then 800000000 else 400000000) * 256)) (2 ^ 40)
  ((d.a (gk P.rxLoActiveA g + q) : Nat) + f).toNat

/-- The RX band centre of a group, by the chains of Q0 whose synthesiser the probe uses (R111, R330). -/
def Dev.rxCentre (d : Dev) (g : Nat) : Nat := d.bandCentre g 0

/-- The TX centre of a group on a quadrant in 2^-8 Hz (R335, R253). -/
def Dev.txCentre (d : Dev) (g q : Nat) : Nat :=
  let f := rnear (sx 40 (d.a (gk P.txNcoActiveA g + q)) * (800000000 * 256)) (2 ^ 40)
  ((d.a (P.txLoActive + q) : Nat) + f).toNat

/-! ### Due (R335 to R337) -/

/-- The quadrants whose temperature left the record's value by more than CollimDeltaT. -/
def Dev.movedQuads (d : Dev) (r : ColRec) : Nat :=
  maskOf 4 (fun q => d.a P.collimDeltaT < (d.quadTemp q - sx 16 (r.temp.getD q 0)).natAbs)

/-- A centre of a measured group left the record's value. -/
def Dev.centreMoved (d : Dev) (r : ColRec) : Bool :=
  let tol := d.a P.collimFreqTolerance * 256000
  let far (a b : Nat) : Bool := tol < ((a : Int) - (b : Int)).natAbs
  [0, 1].any (fun g => bit d.colGroups g && bit r.groups g &&
    (far (d.rxCentre g) (r.rxCentre.getD g 0) ||
      [0, 1, 2, 3].any (fun q => far (d.txCentre g q) (r.txCentre.getD (4 * g + q) 0))))

/-- The causes that hold now, without 2 and 4, which their own events set (R335). -/
def Dev.colCauses (d : Dev) : Nat :=
  match d.col.rcd with
  | none => 8
  | some r =>
    let old := d.a P.collimMaxAge != 0 && r.time % 2 ^ 64 + d.a P.collimMaxAge < d.secs
    b2n (d.movedQuads r != 0) + 2 * b2n (d.centreMoved r) + 32 * b2n old

/-- Whether a COLLIMATE entry is pending in the Ephemeris (R337). -/
def Dev.colPending (d : Dev) : Bool := d.eph.ent.any (fun e => e.2.action == 5)

/-- EV59 with the causes and quadrants (R337). -/
def Dev.colReport (d : Dev) : Dev :=
  d.iff (!d.colPending) (·.raise 59 (d.a P.collimDue % 64 + 64 * d.col.dueQuads))

/-- Set causes; becoming due is reported (R335, R337). -/
def Dev.colSet (d : Dev) (causes : Nat) : Dev :=
  let old := d.a P.collimDue
  let d := d.w P.collimDue (maskOr 6 old causes)
  d.iff (old == 0 && causes != 0) (·.colReport)

/-- Evaluate the causes (R336). -/
def Dev.colEval (d : Dev) : Dev :=
  let q := match d.col.rcd with | none => 0 | some r => d.movedQuads r
  let d := { d with col := { d.col with dueQuads := maskOr 4 d.col.dueQuads q } }
  d.colSet d.colCauses

/-- A commit may move a centre past the record's tolerance (R335). -/
def Dev.colCentres (d : Dev) : Dev :=
  match d.col.rcd with
  | none => d
  | some r => d.iff (d.centreMoved r) (·.colSet 2)

/-- The first complete scan after boot or an exit from DEEP (R336, R337). -/
def Dev.colFirstScan (d : Dev) : Dev :=
  if d.col.scanSeen then d
  else
    let was := d.a P.collimDue
    let d := ({ d with col := { d.col with scanSeen := true } }).colEval
    d.iff (was != 0) (·.colReport)

/-! ### The window (R339 to R342) -/

/-- The TX quadrants that are not held out of ACTIVE (R348). -/
def Dev.freeQuads (d : Dev) : Nat := maskOf 4 (fun q => !d.txHeld q)

/-- A COLLIMATE entry fires at the Meridian ns `w` (R339, R341, R342). [Log: 73 DEDUCED] -/
def Dev.colOpen (d : Dev) (w length : Nat) (force arch : Bool) : Dev :=
  match d.col.win with
  | some (a, b) =>
    let one : Nat × Nat := (a, max b (w + 1000 * length))
    { d with col := { d.col with win := some one, wins := one :: d.col.wins.drop 1 } }
  | none =>
    let one : Nat × Nat := (w, w + 1000 * length)
    let past := d.col.wins.filter (fun x => d.merNs < x.2 + settleMemory / 1000)
    let d : Dev := { d with col := { d.col with win := some one, wins := one :: past, arch := arch } }
    let d : Dev := d.each [0, 1, 2, 3] (fun q d => d.dpdAbandon q)
    if d.a P.collimDue = 0 ∧ !force then d.showCol
    else if length < d.colRequired arch then ((d.incN P.collimAbandonCount).raise 58 2).showCol
    else
      let d := ({ d with col := { d.col with run := some d.now, skip := maskSub 4 15 d.freeQuads } }).w P.collimFiguresStale 1
      let d := (d.bringUnits (d.colGroups + 4 * d.freeQuads)).showCol
      d.iff (!d.measurable) (·.colAbandon 3)

/-! ### Release (R331, R332, R334, R353, R354) -/

/-- DELAY of a correction word, in steps. -/
def corrDelay (w : Nat) : Int := sx 12 (bits w 39 28)

/-- A result word with its DELAY saturated (R333). -/
def satCorr (w : Nat) : Nat := ux 12 (clampI (-448) 448 (corrDelay w)) * 2 ^ 28 + w % 2 ^ 28

/-- The effective step of a path's transmit probe (R345). -/
def Dev.probeStep (d : Dev) (p : Nat) : Nat := min 255 (max (d.a P.collimProbeStep) (d.stepLimit p) + d.a P.txThrottleSteps)

/-- The target delay of entry 64 g + p: CORR plus BRIDGE, saturated (R332). -/
def Dev.delayTarget (d : Dev) (i : Nat) : Int :=
  clampI (-448) 448 (corrDelay (d.a (P.collimCorrection + i)) + corrDelay (d.a (P.collimBridge + i / 64)))

/-- CollimWalkRemaining (R355). -/
def Dev.showWalk (d : Dev) : Dev :=
  (d.w P.collimWalkRemaining ((List.range 128).foldl (fun m i =>
    max m (d.delayTarget i - d.col.delays.getD i 0).natAbs) 0)).showCol

/-- Show a record in force; its figures stand per group. -/
def Dev.colShow (d : Dev) (r : ColRec) : Dev :=
  let d := (d.wList P.collimCorrection r.corr).wList P.collimBridge r.bridge
  let d := d.each [0, 1] (fun g d =>
    ((d.w (P.collimResidPhase + g) (r.figures.getD (3 * g) 0)).w (P.collimResidDelay + g) (r.figures.getD (3 * g + 1) 0)).w
      (P.collimResidGainSpread + g) (r.figures.getD (3 * g + 2) 0))
  (d.w P.collimLastRun r.time).w P.collimRecordSeq r.seq

/-- Load the stored record at boot or at an exit from DEEP and apply it whole (R334, R353). -/
def Dev.colLoad (d : Dev) : Dev :=
  let d := { d with col := { d.col with rcd := d.col.store, scanSeen := false } }
  match d.col.store with
  | none => d.colSet 8
  | some r =>
    let d := d.colShow r
    ({ d with col := { d.col with delays := (List.range 128).map d.delayTarget } }).showWalk

/-- A run measured a path of a group: it could, and brought a result (R346). -/
def Dev.colDid (d : Dev) (r : CollimResult) (g p : Nat) : Bool := bit r.groups g && d.colPathOk g p && !bit r.unmeasured p

/-- Whether a run measured anything in a group. -/
def Dev.colDidGroup (d : Dev) (r : CollimResult) (g : Nat) : Bool := (List.range 64).any (fun p => d.colDid r g p)

/-- The quadrants with a path that a run left unmeasured in a group it measured (R346). -/
def Dev.colMissed (d : Dev) (r : CollimResult) : Nat :=
  maskOf 4 (fun q => [0, 1].any (fun g => d.colDidGroup r g && (List.range 16).any (fun i => !d.colDid r g (16 * q + i))))

/-- The record a run makes (R346, R351). [Log: 40 DEDUCED] -/
def Dev.colRecord (d : Dev) (r : CollimResult) : ColRec :=
  let old := d.col.rcd.getD ⟨0, 0, 0, 0, [], [], [], [], [0, 0], List.replicate 128 0⟩
  let on (g : Nat) : Bool := d.colDidGroup r g
  { seq := ((d.col.store.map (·.seq)).getD 0 + 1) % 2 ^ 32,
    time := d.timeNow,
    groups := maskOr 2 old.groups (maskOf 2 on),
    flags := b2n r.bridgeIncomplete + 2 * b2n (d.colMissed r != 0),
    temp := (List.range 4).map (fun q => ux 16 (r.temp.getD q (d.quadTemp q))),
    rxCentre := [0, 1].map (fun g => if on g then d.rxCentre g else old.rxCentre.getD g 0),
    txCentre := (List.range 8).map (fun i => if on (i / 4) then d.txCentre (i / 4) (i % 4) else old.txCentre.getD i 0),
    figures := (List.range 6).map (fun i => if on (i / 3) then r.figures.getD i 0 % 65536 else old.figures.getD i 0),
    bridge := [0, 1].map (fun g => if on g && d.col.arch && !r.bridgeIncomplete then satCorr (r.bridge.getD g 0)
      else old.bridge.getD g 0),
    corr := (List.range 128).map (fun i =>
      if d.colDid r (i / 64) (i % 64) then satCorr (r.corr.getD i 0) else old.corr.getD i 0) }

/-- The causes that stay due after a run: those of quadrants and groups it did not measure, and cause 3 where the record is
PARTIAL (R335, R346). [Log: 73 DEDUCED] -/
def Dev.dueAfter (d : Dev) (r : CollimResult) : Nat :=
  let missed := d.colMissed r
  let partly := missed != 0 || maskSub 2 d.colGroups r.groups != 0
  let old := d.a P.collimDue
  b2n (bit old 0 && maskAnd 4 d.col.dueQuads missed != 0) + 2 * b2n (bit old 1 && partly) + 4 * b2n (bit old 2 && partly)
    + 8 * b2n (missed != 0)

/-- COLLIM_RELEASE (R354): the new record comes into force, the delays begin to walk, the store begins. [Log: 18 DEDUCED] -/
def Dev.colRelease (d : Dev) (r : CollimResult) : Dev :=
  match d.col.run with
  | none => d
  | some _ =>
    if !d.colDidGroup r 0 && !d.colDidGroup r 1 then d.colAbandon 3
    else
      let missed := d.colMissed r
      let groups := maskOf 2 (d.colDidGroup r)
      let due := d.dueAfter r
      let new := d.colRecord r
      let phase := [0, 1].foldl (fun m g => if bit groups g then max m (r.figures.getD (3 * g) 0) else m) 0
      let d := { d with col := { d.col with run := none, rcd := some new, dueQuads := maskAnd 4 d.col.dueQuads missed } }
      let d := ((d.colShow new).w P.collimDue due).w P.collimRequest 0
      let d := (d.w P.collimFiguresStale 0).incN P.collimRunCount
      let d := d.mramWrite 748 (fun d => { d with col := { d.col with store := some new } })
      let partly := r.bridgeIncomplete || missed != 0
      d.showWalk.raise 58 (8 * groups + 32 * b2n partly + 64 * sat 2047 (rhe (phase : Nat) 10).toNat)

def execCollimRelease (dt : Nat) (res : CollimResult) (s : State) : Host.Outcome State Fault Refusal :=
  onDev dt (·.colRelease res) s

/-- COLLIM_DELAY_WALK_STEP (R334): one step toward the target. -/
def Dev.walkStep (d : Dev) (i : Nat) : Dev :=
  let t := d.delayTarget i
  let x := d.col.delays.getD i 0
  let y := if x < t then x + 1 else if t < x then x - 1 else x
  ({ d with col := { d.col with delays := modAt d.col.delays i (fun _ => y) } }).showWalk

def execCollimDelayWalkStep (dt group path : Nat) (s : State) : Host.Outcome State Fault Refusal :=
  onDev dt (fun d => d.iff d.up (·.walkStep (64 * group + path))) s

/-- The end of the window (R339, R340): a run that has not reached Release is given up, and the units that follow no plan
leave ACTIVE. The return to the state before the window is its caller's. -/
def Dev.colClose (d : Dev) : Dev :=
  let d := d.colAbandon 3
  let d := ({ d with col := { d.col with win := none } }).showCol
  let next := d.slotNow + 1
  let idle := maskOf 6 (fun u =>
    if u < 2 then !(d.slotPlans false next u).any (fun p => p.modes != 0) && !(d.slotPlans false d.slotNow u).any (fun p => p.modes != 0)
    else (d.burst (u - 2)).st == 0 && !d.txPlanned next (u - 2) && !d.txPlanned d.slotNow (u - 2))
  d.dropUnits (maskAnd 6 idle (d.a P.pwrActiveMask))

end Sys2Proof.Machine
end

