-- ==== Sys2Proof/Machine/Bias.lean ====
section
/-!
DEFINITION. Bias outputs: loading, clamping, commits, immediate codes, range changes and faults (12_bias_outputs.md R357 to
R368). The park of R362 stands in Common.
-/

namespace Sys2Proof.Machine

/-- The outputs of a group. -/
def groupOuts (g : Nat) : List Nat := (List.range 16).map (fun j => 16 * g + j)

/-- BIAS_FAULT (R368): counted each time, raised at most once per output per 1 s. -/
def Dev.biasFault (d : Dev) (i cause : Nat) : Dev :=
  (d.incN P.biasFaultCount).raiseRate 62 i (10 ^ 12) 0 (fun _ => i + 128 * cause)

/-- Whether the supply of a group meets the headroom of a range, as the supply monitor reads it (R357). -/
def Dev.headroom (d : Dev) (g range : Nat) : Bool :=
  let mv (i : Nat) : Int := sx 16 (d.a (P.hkSupplyVoltage + i))
  if range = 0 then mv (20 + g) ≤ -10500
  else if range = 1 then mv (20 + g) ≤ -5500
  else if range = 2 then 5500 ≤ mv (15 + g)
  else 10500 ≤ mv (15 + g)

/-- A CLAMPED group goes to its park values (R360). -/
def Dev.unclamp (d : Dev) (g : Nat) : Dev :=
  d.each (groupOuts g) (fun i d => d.iff (d.a (P.biasOutputState + i) == 0) (·.biasTo i 1))

/-- BIAS_PARK_LOAD (R360): `stored` and `headroom` per group, true where the check passes. -/
def Dev.biasParkLoad (d : Dev) (stored headroom : List Bool) : Dev :=
  if !d.pwr.pwrOk || d.pwr.biasDone then d
  else
    let d := { d with pwr := { d.pwr with biasDone := true } }
    d.each (List.range 5) (fun g d =>
      if !stored.getD g true then d.biasFault (16 * g) 2
      else if !headroom.getD g true then d.biasFault (16 * g) 3
      else d.unclamp g)

def execBiasParkLoad (dt : Nat) (stored headroom : List Bool) (s : State) : Host.Outcome State Fault Refusal :=
  onDev dt (·.biasParkLoad stored headroom) s

/-- BIAS_CLAMP_ENGAGE (R361): 20 us after PWR_OK fell, every output is CLAMPED. -/
def execBiasClampEngage (dt : Nat) (s : State) : Host.Outcome State Fault Refusal :=
  onDev dt (fun d =>
    d.iff (!d.pwr.pwrOk) (fun d => d.each (List.range 80) (fun i d => d.biasTo i 0))) s

/-- BIAS_CURRENT_LIMIT (R357): a driver that is on exceeds 20 mA. -/
def execBiasCurrentLimit (dt output : Nat) (s : State) : Host.Outcome State Fault Refusal :=
  onDev dt (fun d => d.iff (output < 80 && d.a (P.biasOutputState + output) != 0) (·.biasFault output 1)) s

/-- An output takes a code and drives it. -/
def Dev.biasDrive (d : Dev) (i code : Nat) : Dev :=
  let d := (d.w (P.biasCodeActive + i) code).biasTo i 2
  { d with bias := { d.bias with byCause := putBit d.bias.byCause i false } }

/-- A hand-over commits the shadow codes of a group (R363, R365). -/
def Dev.commitBias (d : Dev) (g : Nat) : Dev :=
  d.each (groupOuts g) (fun i d =>
    let st := d.a (P.biasOutputState + i)
    let sh := d.a (P.biasCodeShadow + i)
    if st = 2 then (if sh = d.a (P.biasCodeActive + i) then d else d.biasDrive i sh)
    else if st = 1 ∧ d.a (P.biasParkCause + g) = 0 then d.biasDrive i sh
    else d)

/-- An accepted write of an immediate code (R364); a CLAMPED output keeps its clamp (R359). -/
def Dev.biasWritten (d : Dev) (i v : Nat) : Dev :=
  let d := (d.w (P.biasCodeShadow + i) v).w (P.biasCodeActive + i) v
  d.iff (d.a (P.biasOutputState + i) != 0) (·.biasDrive i v)

/-- An accepted write of a park value (R358, R360). -/
def Dev.parkWritten (d : Dev) (i : Nat) : Dev :=
  let d := d.iff (d.pwr.pwrOk && d.pwr.biasDone) (·.unclamp (i / 16))
  d.iff (d.a (P.biasOutputState + i) == 1) (·.driveBias i)

/-- The whole sequence of a range change (R367): outputs DRIVEN before it take their shadow codes, the others are PARKED. -/
def Dev.rangeChange (d : Dev) (g range : Nat) : Dev :=
  let d := d.each (groupOuts g) (fun i d =>
    if d.a (P.biasOutputState + i) = 2 then d.biasDrive i (d.a (P.biasCodeShadow + i))
    else if d.a (P.biasOutputState + i) = 0 && !(d.pwr.pwrOk && d.pwr.biasDone) then d
    else d.biasTo i 1)
  d.raise 61 (g + 8 * range)

/-- An accepted write of group bits to BiasParkCommand: cause 5, which clears at once (R362, R363). -/
def Dev.parkCommand (d : Dev) (groups : Nat) : Dev :=
  let d := d.park groups 5
  d.each (bitList 5 groups) (fun g d => d.endCause g 5)

/-- At boot completion the shadow codes become active with the outputs left PARKED (R692). -/
def Dev.biasBoot (d : Dev) : Dev :=
  d.each (List.range 80) (fun i d => d.w (P.biasCodeActive + i) (d.a (P.biasCodeShadow + i)))

end Sys2Proof.Machine
end

