-- ==== Sys2Proof/Machine/House.lean ====
section
/-!
DEFINITION. The housekeeping converter and the temperatures (13_housekeeping_thermal.md R370 to R403): scan, limits, injected
conversions, self-calibration, checks, junction value, levels, throttling, failed sensors, the MRAM write window. What a
shutdown does to the rest of the device stands in Effects.
-/

namespace Sys2Proof.Machine

/-! ### Numbers -/

/-- 2^96, the scale of the logarithm. -/
def lnUnit : Nat := 2 ^ 96

/-- 2 atanh(num / den) in units of 2^-96, by `n` further terms from term `k` of the series on the power `p`. -/
def atanhSum : Nat → Nat → Nat → Nat → Nat → Nat
  | 0, _, _, _, _ => 0
  | n + 1, k, p, num, den => 2 * p / (2 * k + 1) + atanhSum n (k + 1) (p * num * num / (den * den)) num den

/-- ln 2 in units of 2^-96. -/
def ln2Fix : Nat := atanhSum 60 0 (lnUnit / 3) 1 3

/-- Halve or double num / den into [1, 2), counting the steps. -/
def lnReduce : Nat → Nat → Nat → Int → Nat × Nat × Int
  | 0, a, b, k => (a, b, k)
  | f + 1, a, b, k =>
    if a < b then lnReduce f (2 * a) b (k - 1) else if 2 * b ≤ a then lnReduce f a (2 * b) (k + 1) else (a, b, k)

/-- ln(a / b) in units of 2^-96. [Log: 32 DEDUCED] -/
def lnFix (a b : Nat) : Int :=
  let (a, b, k) := lnReduce 200 a b 0
  k * (ln2Fix : Nat) + (atanhSum 60 0 (lnUnit * (a - b) / (a + b)) (a - b) (a + b) : Nat)

/-- The temperature of a thermistor reading in 0.1 degrees C (R375); none where the formula gives no value. [Log: 32 DEDUCED] -/
def thermOf (code pullup nominal beta : Nat) : Option Int :=
  if code = 0 ∨ 4095 ≤ code ∨ pullup = 0 ∨ nominal = 0 ∨ beta = 0 then none
  else
    let s : Int := ((lnUnit * 100 / 29815 : Nat) : Int) + (lnFix (pullup * code) (nominal * (4095 - code))).fdiv beta
    if s ≤ 0 then none else some (rhe (20 * (lnUnit : Nat) - 5463 * s) (2 * s).toNat)

/-- VALUE of a conversion (R376): mV single-ended, 0.1 mV referred to the input when paired. -/
def hkValue (code : Nat) (paired : Bool) (gain : Nat) : Int :=
  if paired then rhe (sx 12 code * 18000) (2048 * [1, 4, 16, 16].getD gain 1) else rhe ((code * 1800 : Nat)) 4095

/-! ### Failed sensors (R393 to R397) -/

/-- The record of a die sensor. -/
def Dev.sens (d : Dev) (n : Nat) : DieSens := d.thm.sens.getD n {}

/-- Change it. -/
def Dev.setSens (d : Dev) (n : Nat) (f : DieSens → DieSens) : Dev := { d with thm := { d.thm with sens := modAt d.thm.sens n f } }

/-- Whether a die sensor has failed. -/
def Dev.sensFailed (d : Dev) (n : Nat) : Bool := d.ab P.thermSensorFailedMask n

/-- The hottest other sensor of a quadrant among those a frame read a valid value of. -/
def Dev.hottestOther (d : Dev) (read : Nat → Bool) (n : Nat) : Option Int :=
  ((List.range 4).map (fun i => 4 * (n / 4) + i)).foldl (fun acc m =>
    let s := d.sens m
    if m = n ∨ !s.lastValid ∨ !read m then acc
    else match acc with
      | none => some s.last
      | some a => some (if a < s.last then s.last else a)) none

/-- A die sensor fails (R393, R394), with a substitute where R397 gives it one. A learned offset without a difference to
learn from is not stated: a free value. [Log: 35 DEDUCED] -/
def Dev.sensFail (d : Dev) (n cause : Nat) : Dev :=
  let subst := d.ab P.thermState 1 && d.a P.thermHottestSensor == n
  let offs := ((d.sens n).offs.filter (fun x => d.now < x.1 + 60 * 10 ^ 12)).map (·.2)
  let (off, d) :=
    if offs.isEmpty then let (v, d) := d.free (400 + n) 16; (sx 16 v, d) else (rhe offs.sum offs.length, d)
  let d := d.setSens n (fun s => { s with lastValid := subst, subOff := if subst then some off else none })
  let d := d.w P.thermSensorFailedMask (putBit (d.a P.thermSensorFailedMask) n true)
  let d := d.iff subst (fun d =>
    ({ d with thm := { d.thm with holdTill := d.now + 10 ^ 13, holdSteps := d.a P.txThrottleSteps } }).w P.thermSubstituteMask
      (putBit (d.a P.thermSubstituteMask) n true))
  d.raise 69 (n + 64 * cause + 256 * b2n subst)

/-! ### The scan list (R373 to R378) -/

/-- Fields of a scan entry. -/
def hkHigh (e : Nat) : Nat := bits e 39 28
def hkLow (e : Nat) : Nat := bits e 27 16
def hkDwell (e : Nat) : Nat := max 1 (bits e 15 12)
def hkOc (e : Nat) : Nat := bits e 11 9
def hkTherm (e : Nat) : Bool := bit e 8
def hkGain (e : Nat) : Nat := bits e 7 6
def hkPaired (e : Nat) : Bool := bit e 5
def hkInput (e : Nat) : Nat := e % 32

/-- An external thermistor fails: OPEN in its results, and EV69 (R396). -/
def Dev.thermFail (d : Dev) (n cause : Nat) : Dev :=
  if d.ab P.thermSensorFailedMask (16 + n) then d
  else
    let mine (e : Nat) : Bool := let x := d.a (P.hkScanList + e); hkTherm x && hkInput x == n
    let d := d.each ((List.range (d.a P.hkScanLength)).filter mine) (fun e d => d.w (P.hkResult + e) (putBit (d.a (P.hkResult + e)) 38 true))
    (d.w P.thermSensorFailedMask (putBit (d.a P.thermSensorFailedMask) (16 + n) true)).raise 69 (32 + n + 64 * cause)

/-- Report a limit state of an entry, with EV79 and the park for an overcurrent (R377, R378); `dir` 0 ABOVE, 1 BELOW. -/
def Dev.limReport (d : Dev) (e dir : Nat) (st : Bool) : Dev :=
  let k := auxKey 6 (2 * e + dir)
  let oc := hkOc (d.a (P.hkScanList + e))
  let d := d.wx k (2 * (d.now + 1) + b2n st)
  if dir = 0 && st && oc != 0 then d.raise 79 (e + 64 * (oc - 1)) else d.raise (72 + dir) (e + 64 * b2n st)

/-- One limit after a reading: the run against the present state, and the change it makes. -/
def Dev.limUpdate (d : Dev) (e dir : Nat) (beyond : Bool) : Dev :=
  let entry := d.a (P.hkScanList + e)
  let res := d.a (P.hkResult + e)
  let old := bit res (37 - dir)
  let lim := d.hk.lims.getD e {}
  let run := if beyond == old then 0 else (if dir = 0 then lim.hi else lim.lo) + 1
  let change := hkDwell entry ≤ run
  let keep := if change then 0 else run
  let d := { d with hk := { d.hk with lims := modAt d.hk.lims e (fun l =>
    if dir = 0 then { l with hi := keep } else { l with lo := keep }) } }
  if !change then d
  else
    let d := d.w (P.hkResult + e) (putBit res (37 - dir) beyond)
    let last := d.x (auxKey 6 (2 * e + dir))
    let d := d.iff (last == 0 || last / 2 - 1 + 10 ^ 10 ≤ d.now) (·.limReport e dir beyond)
    let oc := hkOc entry
    if dir ≠ 0 ∨ oc = 0 ∨ 5 < oc then d
    else if beyond then d.park (2 ^ (oc - 1)) 3
    else
      let others := (List.range (d.a P.hkScanLength)).any (fun x =>
        hkOc (d.a (P.hkScanList + x)) == oc && bit (d.a (P.hkResult + x)) 37)
      d.iff (!others) (·.endCause (oc - 1) 3)

/-- VALUE and OPEN of a scan conversion, with the thermistor checks (R375, R396). [Log: 35 DEDUCED] -/
def Dev.scanValue (d : Dev) (entry code : Nat) : Int × Dev :=
  let n := hkInput entry
  if hkTherm entry then
    match thermOf code (d.a (P.hkThermPullup + n)) (d.a (P.hkThermNominal + n)) (d.a (P.hkThermBeta + n)) with
    | none => let (v, d) := d.free 460 16; (sx 16 v, d.thermFail n 0)
    | some t => (t, d.iff (t < -600 || 1750 < t) (·.thermFail n 0))
  else (hkValue code (hkPaired entry) (hkGain entry), d)

/-- HK_SCAN_CONVERSION (R374 to R378): the next entry is converted. -/
def Dev.hkScan (d : Dev) (code : Nat) : Dev :=
  let len := d.a P.hkScanLength
  let single := d.a P.hkScanMode == 1
  if !d.hk.running || d.a P.hkCalState == 2 || len == 0 || (single && d.hk.passDue == 0) then d
  else
    let e := if d.hk.pos < len then d.hk.pos else 0
    let entry := d.a (P.hkScanList + e)
    let code := code % 4096
    let n := hkInput entry
    let (v, d) := d.scanValue entry code
    let open_ := d.ab P.hkOpenWireResult n || (hkPaired entry && d.ab P.hkOpenWireResult (n + 1)) || (hkTherm entry && d.ab P.thermSensorFailedMask (16 + n))
    let old := d.a (P.hkResult + e)
    let d := d.w (P.hkResult + e)
      (b2n open_ * 2 ^ 38 + b2n (bit old 37) * 2 ^ 37 + b2n (bit old 36) * 2 ^ 36 + ux 16 v * 2 ^ 16 + code)
    let val (c : Nat) : Int := if hkPaired entry then sx 12 c else (c : Nat)
    let d := d.limUpdate e 0 (val (hkHigh entry) < val code)
    let d := d.limUpdate e 1 (val code < val (hkLow entry))
    if e + 1 < len then { d with hk := { d.hk with pos := e + 1 } }
    else
      let d := { d with hk := { d.hk with pos := 0, passDue := d.hk.passDue - 1, checkDue := d.a P.hkCheckMask != 0 } }
      let d := d.inc P.hkScanPassCount
      let n := sat 131071 (d.a P.hkScanPassCount)
      if single then d.raise 78 n else d.raiseRate 78 0 (10 ^ 12) 0 (fun _ => n)

def execHkScanConversion (dt code : Nat) (s : State) : Host.Outcome State Fault Refusal := onDev dt (·.hkScan code) s

/-- HK_LIMIT_WINDOW_END (R377): 10 ms after a report, the present state is reported where it differs. -/
def execHkLimitWindowEnd (dt entry : Nat) (high : Bool) (s : State) : Host.Outcome State Fault Refusal :=
  onDev dt (fun d =>
    let dir := if high then 0 else 1
    let last := d.x (auxKey 6 (2 * entry + dir))
    let now := bit (d.a (P.hkResult + entry)) (37 - dir)
    d.iff (last != 0 && last / 2 - 1 + 10 ^ 10 ≤ d.now && now != (last % 2 == 1)) (·.limReport entry dir now)) s

/-- HK_CHECK_CONVERSION (R385). -/
def Dev.hkCheck (d : Dev) (code : Nat) : Dev :=
  let mask := d.a P.hkCheckMask
  match ((List.range 32).map (fun i => (d.hk.checkPos + 1 + i) % 32)).find? (bit mask) with
  | none => d
  | some n =>
    if !d.hk.running || !d.hk.checkDue || d.a P.hkCalState == 2 then d
    else
      let want := (rhe ((4095 * d.a P.hkCheckLevel : Nat)) 255).toNat
      let diff := if want ≤ code then code - want else want - code
      let fail := d.a P.hkCheckTolerance < diff
      let d := { d with hk := { d.hk with checkPos := n, checkDue := false } }
      let d := d.w P.hkCheckFailMask (putBit (d.a P.hkCheckFailMask) n fail)
      d.iff fail (·.raise 75 (n + 32 * sat 4095 diff))

def execHkCheckConversion (dt code : Nat) (s : State) : Host.Outcome State Fault Refusal :=
  onDev dt (·.hkCheck (code % 4096)) s

/-! ### Injected conversions (R379 to R382) -/

/-- HK_INJECT_CONVERSION (R381): the CONVERTING slot converts. -/
def Dev.hkInject (d : Dev) (code : Nat) : Dev :=
  match (List.range 4).find? (fun i => d.a (P.hkInjectState + i) == 2) with
  | none => d
  | some i =>
    if !d.hk.running then d
    else
      let c := d.a (P.hkInjectConfig + i)
      let v := hkValue (code % 4096) (bit c 5) (bits c 17 16)
      let open_ := d.ab P.hkOpenWireResult (c % 32) || (bit c 5 && d.ab P.hkOpenWireResult (c % 32 + 1))
      let d := d.w (P.hkInjectResult + i) (b2n open_ * 2 ^ 38 + ux 16 v * 2 ^ 16 + code % 4096)
      let d := d.w (P.hkInjectTime0 + 65536 * i) d.timeNow
      let armed := d.ab P.hkInjectArm i
      let again := bit c 6 && armed
      let d := { d with hk := { d.hk with calWait := putBit d.hk.calWait i false } }
      (d.w (P.hkInjectState + i) (b2n again)).w P.hkInjectArm (putBit (d.a P.hkInjectArm) i again)

def execHkInjectConversion (dt code : Nat) (s : State) : Host.Outcome State Fault Refusal := onDev dt (·.hkInject code) s

/-- A write of HkInjectArm (R380): slots arm and disarm. -/
def Dev.injectArmWritten (d : Dev) (v : Nat) : Dev :=
  let d := d.w P.hkInjectArm (v % 16)
  d.each (List.range 4) (fun i d =>
    let st := d.a (P.hkInjectState + i)
    if bit v i then d.iff (st == 0) (·.w (P.hkInjectState + i) 1)
    else
      let d := { d with hk := { d.hk with calWait := putBit d.hk.calWait i (bit d.hk.calWait i && st == 2) } }
      d.iff (st == 1) (·.w (P.hkInjectState + i) 0))

/-! ### Self-calibration (R383, R384) -/

/-- A self-calibration is requested. -/
def Dev.hkCalAsk (d : Dev) : Dev :=
  if !d.hk.running then d
  else if d.a P.hkCalState = 2 then { d with hk := { d.hk with calNext := true } }
  else if d.a P.hkCalState = 1 then d
  else
    let wait := maskOf 4 (fun i => d.a (P.hkInjectState + i) != 0)
    ({ d with hk := { d.hk with calWait := wait } }).w P.hkCalState 1

/-- The running time of the converter since it first ran or last asked for its periodic self-calibration (R383). -/
def Dev.hkRan (d : Dev) : Nat := d.hk.ran + if d.hk.running then d.now - d.hk.upAt else 0

/-- Whether HkCalPeriod seconds of running time are over (R383). -/
def Dev.hkPeriodOver (d : Dev) : Bool := d.hk.running && decide (d.a P.hkCalPeriod * 10 ^ 12 ≤ d.hkRan)

/-- HK_CAL_PERIODIC (R383). -/
def execHkCalPeriodic (dt : Nat) (s : State) : Host.Outcome State Fault Refusal :=
  onDev dt (fun d =>
    d.iff d.hkPeriodOver (fun d =>
      { d with hk := { d.hk with ran := d.hkRan - d.a P.hkCalPeriod * 10 ^ 12, upAt := d.now } }.hkCalAsk)) s

/-- Set or clear STALE on a run of entries. -/
def Dev.setStale (d : Dev) (k n : Nat) : Dev := d.each (List.range n) (fun i d => d.w (k + i) (putBit (d.a (k + i)) 39 true))

/-- HK_CAL_START (R383, R384): the values hold, marked STALE. -/
def execHkCalStart (dt : Nat) (s : State) : Host.Outcome State Fault Refusal :=
  onDev dt (fun d =>
    d.iff (d.hk.running && d.a P.hkCalState == 1 && d.hk.calWait == 0) (fun d =>
      ((((d.w P.hkCalState 2).setStale P.hkResult 64).setStale P.hkInjectResult 4).setStale P.hkDieTemp 16).setStale
        P.hkSupplyVoltage 25)) s

/-- HK_CAL_DONE (R384). -/
def execHkCalDone (dt : Nat) (ok : Bool) (s : State) : Host.Outcome State Fault Refusal :=
  onDev dt (fun d =>
    d.iff (d.hk.running && d.a P.hkCalState == 2) (fun d =>
      let again := d.hk.calNext
      let d := { d with hk := { d.hk with calNext := false } }
      ((d.w P.hkCalState 0).raise 77 (b2n (!ok))).iff again (·.hkCalAsk))) s

/-- The converter starts: its list begins anew and a self-calibration is requested (R383). -/
def Dev.hkStart (d : Dev) : Dev :=
  if d.hk.running then d
  else (({ d with hk := { d.hk with running := true, upAt := d.now, pos := 0, passDue := 0, checkDue := false } }).w P.hkCalState 0).hkCalAsk

/-- The converter stops. -/
def Dev.hkStop (d : Dev) : Dev := ({ d with hk := { d.hk with running := false, calNext := false, ran := d.hkRan } }).w P.hkCalState 0

/-! ### Open wires (R386, R396) -/

/-- The result of an open-wire test over the inputs of HkOpenWireMask. -/
def Dev.openWires (d : Dev) (found : Nat) : Dev :=
  let open_ := maskAnd 32 found (d.a P.hkOpenWireMask)
  let d := d.w P.hkOpenWireResult open_
  d.each (bitList 32 open_) (fun n d =>
    let d := d.raise 74 n
    let uses (e : Nat) : Bool := let x := d.a (P.hkScanList + e)
      hkInput x == n || (hkPaired x && hkInput x + 1 == n)
    let d := d.each ((List.range (d.a P.hkScanLength)).filter uses) (fun e d =>
      d.w (P.hkResult + e) (putBit (d.a (P.hkResult + e)) 38 true))
    let therm := (List.range (d.a P.hkScanLength)).any (fun e =>
      let x := d.a (P.hkScanList + e)
      hkInput x == n && hkTherm x)
    d.iff therm (·.thermFail n 2))

/-- Whether the two readings of an open-wire test, in mV, find the input open (R386). -/
def openFound (up down : Int) : Bool := decide (1700 < up) && decide (down < 100)

/-- An open-wire test outside a boot: the codes an input reads with the pull-up and with the pull-down come from outside, free
values. [Log: 35 DEDUCED] -/
def Dev.openWireTest (d : Dev) : Dev :=
  let (found, d) := (bitList 32 (d.a P.hkOpenWireMask)).foldl (fun acc n =>
    let (v, d) := acc.2.free (500 + n) 24
    (acc.1 + b2n (openFound (hkValue (v % 4096) false 0) (hkValue (v / 4096) false 0)) * 2 ^ n, d)) (0, d)
  d.openWires found

/-! ### The MRAM write window (R403, R404) -/

/-- Write the shutdown record held in the retention area before anything else (R404). -/
def Dev.flushShutRec (d : Dev) : Dev :=
  if d.nvm.deferring then d else { d with shutLog := keepLast 16 (d.shutLog ++ d.shutRec), shutRec := [] }

/-- One reading for the MRAM write window. -/
def Dev.nvmReading (d : Dev) (t : Int) : Dev :=
  if t < -400 ∨ 1250 < t then
    ({ d with nvm := { d.nvm with deferring := true, okRun := 0 } }).w P.thermState (putBit (d.a P.thermState) 2 true)
  else if !d.nvm.deferring then d
  else
    let run := if -370 ≤ t ∧ t ≤ 1220 then d.nvm.okRun + 1 else 0
    if run < 8 then { d with nvm := { d.nvm with okRun := run } }
    else
      let n := d.nvm.count
      let alm := d.nvm.alm.drop (fun k => k % 2 == 0)
      let d := ({ d with nvm := { alm := alm } }).w P.thermState (putBit (d.a P.thermState) 2 false)
      (d.flushShutRec).iff (n != 0) (·.raise 71 (sat 131071 n))

/-! ### Levels (R389 to R392) -/

/-- A level: 0 warning, 1 throttle, 2 shutdown. -/
def Dev.level (d : Dev) (i : Nat) : Int :=
  sx 16 (d.a (if i = 0 then P.thermWarnLevel else if i = 1 then P.thermThrottleLevel else P.thermShutdownLevel))

/-- The state of a level. -/
def Dev.levelSt (d : Dev) (i : Nat) : Bool := if i = 2 then d.thm.shut else d.ab P.thermState i

/-- The EV64 to EV68 argument. -/
def thermArg (sensor : Nat) (t : Int) : Nat := sensor + 32 * ux 12 t

/-- Count one value against one level (R390): the device and whether the state changed. -/
def Dev.countLevel (d : Dev) (i : Nat) (t : Int) : Dev × Bool :=
  let st := d.levelSt i
  let up := if d.level i ≤ t then d.thm.above.getD i 0 + 1 else 0
  let down := if t < d.level i - (d.a (P.thermHysteresis + i) : Nat) then d.thm.below.getD i 0 + 1 else 0
  let change := if st then 8 ≤ down else 8 ≤ up
  let put (l : List Nat) (v : Nat) : List Nat := modAt l i (fun _ => v)
  let d := { d with thm := { d.thm with above := put d.thm.above (min up 8), below := put d.thm.below (min down 8) } }
  if !change then (d, false)
  else
    let d := if i = 2 then { d with thm := { d.thm with shut := !st } } else d.w P.thermState (putBit (d.a P.thermState) i (!st))
    (d, true)

/-- The warning or throttle level on a value, with its events (R391). -/
def Dev.levelEvent (d : Dev) (i sensor : Nat) (t : Int) : Dev :=
  let (d, ch) := d.countLevel i t
  d.iff ch (·.raise (64 + 2 * i + b2n (!d.levelSt i)) (thermArg sensor t))

/-- TxThrottleSteps from a junction value (R392, R397). -/
def Dev.throttle (d : Dev) (t : Int) : Dev :=
  let want : Nat := if d.levelSt 1 then
      (clampI 0 48 (-((-(4 * (d.a P.thermThrottleSlope : Nat) * (t - d.level 1))).fdiv 1000))).toNat else 0
  d.w P.txThrottleSteps (if d.now < d.thm.holdTill then max want d.thm.holdSteps else want)

/-! ### The frame (R370, R387, R388) -/

/-- A value of the operand that stands for a reading that was skipped. [Log: 34 DESIGN CHOICE] -/
def skipped (t : Int) : Bool := 32767 < t

/-- One die sensor's reading: range and stuck checks (R393). [Log: 33 DEDUCED] -/
def Dev.readSensor (d : Dev) (n : Nat) (t : Int) : Dev :=
  if skipped t || d.sensFailed n then d
  else if t < -600 ∨ 1750 < t then d.sensFail n 0
  else
    let s := d.sens n
    d.setSens n (fun x => { x with last := t, lastValid := true, code := t, same := if t = s.code then s.same + 1 else 1 })

/-- Note which sensors saw another sensor of their quadrant change, and find those that are stuck (R393). [Log: 33 DEDUCED] -/
def Dev.stuckCheck (d : Dev) (old : List Int) : Dev :=
  let changed (n : Nat) : Bool := (d.sens n).code != old.getD n 0
  d.each (List.range 16) (fun n d =>
    let others := (List.range 4).any (fun i => 4 * (n / 4) + i != n && changed (4 * (n / 4) + i))
    let s := d.sens n
    let moved := if changed n then false else s.moved || others
    let d := d.setSens n (fun x => { x with moved := moved })
    d.iff (!d.sensFailed n && 65536 ≤ s.same && moved) (·.sensFail n 1))

/-- The substitute of a failed sensor at a reading after the failing one (R397). -/
def Dev.substitute (d : Dev) (read : Nat → Bool) (n : Nat) : Dev :=
  match (d.sens n).subOff, d.hottestOther read n with
  | some off, some t => d.setSens n (fun x => { x with last := t + off, lastValid := true })
  | _, _ => d

/-- Learn the offset of each valid sensor over the preceding 60 s (R395). -/
def Dev.learn (d : Dev) (read : Nat → Bool) : Dev :=
  d.each (List.range 16) (fun n d =>
    match d.hottestOther read n with
    | some t => d.iff (!d.sensFailed n && (d.sens n).lastValid && read n) (fun d =>
        d.setSens n (fun x => { x with offs := x.offs.filter (fun y => d.now < y.1 + 60 * 10 ^ 12) ++ [(d.now, x.last - t)] }))
    | none => d)

/-- The junction value of a frame and its sensor: the highest valid reading of the frame. -/
def Dev.junctionOf (d : Dev) (temps : List Int) : Option (Int × Nat) :=
  (List.range 16).foldl (fun acc n =>
    let s := d.sens n
    let here := s.lastValid && !skipped (temps.getD n 40000)
    if !here then acc
    else match acc with
      | none => some (s.last, n)
      | some (t, m) => if t < s.last then some (s.last, n) else some (t, m)) none

/-- The result of one frame for shutdown: the sensor, cause of R400 and reading, where it is declared. -/
structure Shut where
  sensor : Nat
  cause : Nat
  reading : Int

/-- HkDieTemp of a sensor (R406). -/
def Dev.showDie (d : Dev) (n : Nat) : Dev :=
  let s := d.sens n
  d.w (P.hkDieTemp + n) (ux 16 s.last + b2n (d.sensFailed n) * 2 ^ 38 + b2n s.subOff.isSome * 2 ^ 37)

/-- One housekeeping frame (the shutdown of R398 carries the latest junction value, a free value where none was ever formed): `temps` in 0.1 degrees C and `supplies` in mV, a value beyond 16 bits standing for a reading that
was skipped; while self-calibration runs every reading is skipped (R384). [Log: 34 DESIGN CHOICE] -/
def Dev.hkFrame (d : Dev) (temps : List Int) (supplies : List Nat) : Dev × Option Shut :=
  if !d.hk.running then (d, none)
  else
    let (temps, supplies) := if d.a P.hkCalState = 2 then ([], []) else (temps, supplies)
    let d := d.each (List.range 25) (fun i d =>
      let v := supplies.getD i 65536
      d.iff (v < 65536) (·.w (P.hkSupplyVoltage + i) v))
    let codes := (List.range 16).map (fun n => (d.sens n).code)
    let subs := (List.range 16).filter (fun n => (d.sens n).subOff.isSome)
    let d := d.each (List.range 16) (fun n d => d.readSensor n (temps.getD n 40000))
    let d := d.stuckCheck codes
    let read (n : Nat) : Bool := !skipped (temps.getD n 40000)
    let d := d.each subs (fun n d => d.iff (read n) (·.substitute read n))
    let d := d.learn read
    let d := d.each (List.range 16) (fun n d => d.iff (read n) (·.showDie n))
    let none_ := (List.range 16).all (fun n => d.sensFailed n && (d.sens n).subOff.isNone)
    match d.junctionOf temps with
    | none =>
      if !none_ then (d, none)
      else match d.thm.junction with
        | some t => (d, some ⟨31, 1, t⟩)
        | none => let (v, d) := d.free 470 16; (d, some ⟨31, 1, sx 16 v⟩)
    | some (t, n) =>
      let d := { d with thm := { d.thm with junction := some t } }
      let d := (d.w P.thermJunction (ux 16 t)).w P.thermHottestSensor n
      let d := ((d.levelEvent 0 n t).levelEvent 1 n t).throttle t
      let aon := sx 16 (d.a P.thermAonTemp)
      let (ts, ns) := if t < aon then (aon, 16) else (t, n)
      let (d, ch) := d.countLevel 2 ts
      let d := d.nvmReading t
      let d := d.colFirstScan.colEval
      (d, if ch && d.thm.shut then some ⟨ns, 0, ts⟩ else none)

/-- SUBSTITUTE_HOLD_END (R397): 10 s after the failure TxThrottleSteps may fall to what the last junction value gives. -/
def execSubstituteHoldEnd (dt : Nat) (s : State) : Host.Outcome State Fault Refusal :=
  onDev dt (fun d =>
    d.iff (d.thm.holdTill != 0 && d.thm.holdTill ≤ d.now) (fun d =>
      let d := { d with thm := { d.thm with holdTill := 0, holdSteps := 0 } }
      match d.thm.junction with
      | none => d
      | some t => d.throttle t)) s

/-- Every count restarts at zero at entry to DEEP (R390). -/
def Dev.thermCountsRestart (d : Dev) : Dev :=
  { d with thm := { d.thm with above := [0, 0, 0], below := [0, 0, 0], tsaAbove := 0, tsaBelow := 0 } }

/-! ### TSA (R388, R401) -/

/-- The warning level on TSA in WATCH: a crossing is the thermal wake cause (R59, R388). -/
def Dev.tsaWatch (d : Dev) (t : Int) : Dev :=
  let up := if d.level 0 ≤ t then d.thm.tsaAbove + 1 else 0
  let down := if t < d.level 0 - (d.a P.thermHysteresis : Nat) then d.thm.tsaBelow + 1 else 0
  let rise := !d.thm.tsaWarn && 8 ≤ up
  let fall := d.thm.tsaWarn && 8 ≤ down
  let d := { d with thm := { d.thm with
    tsaAbove := min up 8, tsaBelow := min down 8, tsaWarn := (d.thm.tsaWarn || rise) && !fall } }
  d.iff (rise && d.pw == 1) (·.wake 5 2)

/-- One reading of TSA: outside DEEP it joins at the next frame, in DEEP it stands in place of the junction value. -/
def Dev.tsaReading (d : Dev) (t : Int) : Dev × Option Shut :=
  let d := d.w P.thermAonTemp (ux 16 t)
  let cool := if t < d.level 2 - (d.a (P.thermHysteresis + 2) : Nat) then min 8 (d.thm.tsaCool + 1) else 0
  let d := { d with thm := { d.thm with tsaCool := cool } }
  if d.pwr.phase == .shutdown || d.pwr.phase == .restricted then
    let (d, _) := d.countLevel 2 t
    ((d.levelEvent 0 16 t).nvmReading t, none)
  else if d.pwr.phase != .running then (d, none)
  else if d.pw = 0 then
    let (d, ch0) := d.countLevel 0 t
    let d := d.iff ch0 (·.raise (64 + b2n (!d.levelSt 0)) (thermArg 16 t))
    let d := d.iff (ch0 && d.levelSt 0) (·.wake 5 2)
    let (d, ch) := d.countLevel 2 t
    (d.nvmReading t, if ch && d.thm.shut then some ⟨16, 0, t⟩ else none)
  else (d.tsaWatch t, none)

end Sys2Proof.Machine
end

