-- ==== Sys2Proof/Machine/Meridian.lean ====
section
/-!
DEFINITION. Meridian time: measurements, the servo, lock, holdover, the sources (14_meridian_time.md R408 to R432). What a time
step means for slots, deadlines, windows and the Ephemeris (R413, R691) stands in Ephemeris.
-/

namespace Sys2Proof.Machine

/-! ### QUALITY and states (R410, R415, R418) -/

/-- Report a change of QUALITY (R415). -/
def Dev.qualCheck (d : Dev) : Dev :=
  let q := d.quality / 256
  let old := d.tim.lastQual
  let flags (x : Nat) : Nat := x - bits x 12 12 * 2 ^ 12 - x % 256
  let moved := q % 256 + 2 ≤ old % 256 || old % 256 + 2 ≤ q % 256
  if flags q ≠ flags old ∨ (moved ∧ d.tim.lastQualAt + 10 ^ 12 ≤ d.now) then
    ({ d with tim := { d.tim with lastQual := q, lastQualAt := d.now } }).raise 94 q
  else d

/-- The source this island disciplines its time by (R416). -/
def Dev.timeSource (d : Dev) : Nat := if d.inArch && d.island != 0 then 3 else d.a P.timeSourceSelect

/-- Enter HOLDOVER after a loss, with EV81 (R414, R418). -/
def Dev.enterHoldover (d : Dev) (cause : Nat) : Dev :=
  if !d.tim.valid then d
  else
    let d :=
      if d.a P.timeState = 3 then d
      else
        let e := d.timeErr
        (({ d with tim := { d.tim with holdover := true, holdSince := d.now, holdErr := e, below := 0 } }).w P.timeState 3).inc
          P.timeHoldoverCount
    (d.raise 81 cause).qualCheck

/-- Exchanges in progress are discarded and the path delay is measured afresh (R427). [Log: 39 DEDUCED] -/
def Dev.timeRestart (d : Dev) : Dev :=
  { d with tim := { d.tim with syncSeq := none, pair := none, dreq := none, delays := [], skip := 16 } }

/-- The port the selected source's TIME messages use: the Mainland for source 1, the pinned Strait port for source 3. -/
def Dev.timePort (d : Dev) : Option Nat :=
  if d.timeSource = 1 then some 0
  else if d.timeSource = 3 ∧ d.a P.timeParentPort < 4 then some (d.a P.timeParentPort + 1)
  else none

/-- TIME messages go on the lowest ACTIVE lane of their port; where that lane or its rate differs from the one they last went on,
the path delay is measured afresh (R427). [Log: 39 DEDUCED] -/
def Dev.timeFollow (d : Dev) : Dev :=
  match d.timePort.bind d.timeLane with
  | none => d
  | some l =>
    let on := some (l, d.laneRate l)
    if d.tim.lane = on then d
    else
      let d := d.iff d.tim.lane.isSome (·.timeRestart)
      { d with tim := { d.tim with lane := on } }

/-! ### Steps and measurements (R411, R412, R414) -/

/-- Move the count by a number of ps, with EV86. -/
def Dev.stepBy (d : Dev) (delta : Int) : Dev :=
  let mer := ((d.clk.mer : Int) + (delta * (merUnit : Nat)).fdiv (10 ^ 12)).toNat
  let d := { d with clk := { d.clk with mer := mer }, tim := { d.tim with valid := true, stepped := true, stepAt := d.now } }
  (d.inc P.timeStepCount).raise 86 (65536 * b2n (delta < 0) + sat 65535 (cdiv delta.natAbs (10 ^ 6)))

/-- e of R414 from the measurements. -/
def Dev.measuredErr (d : Dev) : Option Nat :=
  let m := d.tim.thetas.foldl max 0
  if d.timeSource = 3 then d.tim.parentErr.map (fun e => m + e) else some (m + d.a P.timeSourceBound)

/-- Slew by the servo: F, held at its limit (R409, R411); true where the limit held it. [Log: 77 DESIGN CHOICE] -/
def Dev.slew (d : Dev) (theta : Int) : Dev × Bool :=
  let f := Config.servo d.freqCorr theta (d.a P.timeServoBandwidth)
  (d.w P.timeFreqCorrection (ux 40 (clampI (-(2 ^ 35)) (2 ^ 35) f)), f < -(2 ^ 35) || 2 ^ 35 < f)

/-- Declare lock (R412). -/
def Dev.timeLock (d : Dev) : Dev :=
  let was := d.tim.holdover
  let secs := (d.now - d.tim.holdSince) / 10 ^ 12
  let d := ({ d with tim := { d.tim with holdover := false } }).w P.timeState 2
  (d.raise 80 d.tim.source).iff was (·.raise 82 (sat 131071 secs))

/-- One complete measurement: a step, or a slew that may lock. The answer tells the count before a step. -/
def Dev.measure (d : Dev) (theta : Int) : Dev × Option Nat :=
  let src := d.timeSource
  let d := { d with tim := { d.tim with thetas := keepLast 16 (d.tim.thetas ++ [theta.natAbs]), source := src } }
  let d := { d with tim := { d.tim with err := d.measuredErr } }
  let d := d.w P.timeOffset (ux 40 theta)
  let d := d.iff (d.a P.timeState == 0 || d.a P.timeState == 3) (·.w P.timeState 1)
  if !d.tim.valid || d.a P.timeStepThreshold * 1000 ≤ theta.natAbs then
    let old := d.clk.mer
    let d := { d with tim := { d.tim with below := 0 } }
    ((d.stepBy (-theta)).qualCheck, some old)
  else
    let (d, limited) := d.slew theta
    let thr := if src = 3 then d.a P.timeLockThresholdStrait else d.a P.timeLockThreshold
    let below := if theta.natAbs < thr && !limited then d.tim.below + 1 else 0
    let d := { d with tim := { d.tim with below := min below 16 } }
    ((d.iff (16 ≤ below && d.a P.timeState == 1) (·.timeLock)).qualCheck, none)

/-! ### Time stamps (R422, R426) -/

/-- One ps in the units of a stamp. -/
def stampUnit : Nat := 2 ^ 40

/-- One second in the units of a stamp. -/
def stampSec : Nat := 10 ^ 12 * stampUnit

/-- The unit interval of a lane rate in 1/16 ps. -/
def unitInterval (rate : Nat) : Nat := [2000, 1000, 625, 500].getD rate 2000

/-- The egress and ingress correction of a lane rate in ps (R426). -/
def stampCorr (rate : Nat) (out : Bool) : Nat :=
  let (e, i) := [(4200, 7900), (2300, 4350), (1650, 3050), (1450, 2700)].getD rate (4200, 7900)
  if out then e else i

/-- The board delay of a lane in ps, of its TX pair or its RX pair (R433). -/
def Dev.boardDelay (d : Dev) (l : Nat) (out : Bool) : Nat :=
  if l < 8 then d.a ((if out then P.timeBoardDelayMlTx else P.timeBoardDelayMlRx) + l)
  else d.a ((if out then P.timeBoardDelayStTx else P.timeBoardDelayStRx) + (l - 8))

/-- What a stamp of a lane is moved by, later at egress and earlier at ingress (R426). -/
def Dev.laneCorr (d : Dev) (l : Nat) (out : Bool) : Int :=
  let c : Nat := (stampCorr (d.laneRate l) out + d.boardDelay l out) * stampUnit
  if out then c else -(c : Int)

/-- A corrected stamp of a TIME message on a port: Meridian at the marker, the bit offset of the first header byte, the ball and
the board (R426). -/
def Dev.stamp (d : Dev) (p : Nat) (out : Bool) (m : MacStamp) : Int :=
  let l := (d.timeLane p).getD ((portLanes p).headD 0)
  (d.clk.mer * stampSec / merUnit : Nat) + m.mark * (stampUnit : Nat) + (m.bit * unitInterval (d.laneRate l) * 2 ^ 36 : Nat)
    + d.laneCorr l out

/-- A 48-bit seconds value extended to 64 bits: the nearest to the device's own, the lower on a tie; while VALID is 0 bits
[63:48] are zero (R422). -/
def Dev.ptpSecs (d : Dev) (s : Nat) : Nat :=
  let s := s % 2 ^ 48
  let base := d.secs / 2 ^ 48 * 2 ^ 48 + s
  let off (x : Nat) : Nat := ((x : Int) - (d.secs : Nat)).natAbs
  if !d.tim.valid then s
  else
    ([base, base + 2 ^ 48].filter (fun x => x < 2 ^ 64)).foldl (fun best x => if off x < off best then x else best)
      (if 2 ^ 48 ≤ base then base - 2 ^ 48 else base)

/-- A PTP time as a stamp: its FRACTION is round(ns x 2^40 / 10^9) after correctionField has been added (R422). -/
def Dev.ptpStamp (d : Dev) (t : PtpTime) : Int :=
  (d.ptpSecs t.secs * stampSec : Nat) + rhe (((t.ns * 2 ^ 16 : Nat) + t.corr) * 2 ^ 40) (10 ^ 9 * 2 ^ 16) * 10 ^ 12

/-- One exchange of four stamps with an asymmetry in ps (R428): the mean path delay and the offset in ps; no offset applies while
the path delay is measured afresh (R427). [Log: 39 DEDUCED] -/
def Dev.exchange (d : Dev) (t1 t2 t3 t4 a : Int) : Dev × Option Nat :=
  let delays := keepLast 16 (d.tim.delays ++ [(t2 - t1) + (t4 - t3)])
  let n := 2 * delays.length
  let d := ({ d with tim := { d.tim with delays := delays } }).w P.timeMeanPathDelay (ux 40 (rhe delays.sum (n * stampUnit)))
  if d.tim.skip ≠ 0 then ({ d with tim := { d.tim with skip := d.tim.skip - 1 } }, none)
  else d.measure (rhe ((t2 - t1 - a * (stampUnit : Nat)) * n - delays.sum) (n * stampUnit))

/-! ### PTP (R419 to R423) -/

/-- Whether PTP on the Mainland is the source and its port is up. -/
def Dev.ptpRuns (d : Dev) : Bool := d.up && d.timeSource == 1 && d.portWidth 0 != 0

/-- Riptide's received rules on a TIME message: true where it is taken. One that a rule drops or corrupts is discarded, one
held for reordering is taken later (R651). -/
def Dev.ripTime (d : Dev) (i : Instr) : Dev × Bool :=
  let (who, d) := d.ripPick 0 0 0x01
  match who with
  | none => (d.ripPass false 0 0, true)
  | some k =>
    let r := d.a (P.riptideRules + k)
    if bits r 35 32 ≤ 3 then (d, false)
    else
      let one : RipHold := { sent := false, port := 0, vc := 0, left := bits r 21 19, since := d.now, instr := some i,
                             msg := none }
      ({ d with rip := { d.rip with held := d.rip.held ++ [one] } }, false)

/-- A TIME message is taken where its port is up and Riptide leaves it. -/
def Dev.onTime (d : Dev) (i : Instr) (f : Dev → Dev) : Dev :=
  if d.up && d.portWidth 0 != 0 then let (d, ok) := d.ripTime i; d.iff ok f else d

/-- PTP_SYNC: in another domain or beyond the accepted intervals it is ignored, one-step it is discarded and counted (R419). -/
def Dev.ptpSync (d : Dev) (s : PtpSync) : Dev :=
  if s.domain ≠ d.a P.ptpDomain then d
  else if !s.twoStep then d.inc P.ptpDiscardCount
  else d.iff (d.timeSource == 1 && decide (-7 ≤ s.logInt) && decide (s.logInt ≤ 1)) (fun d =>
    { d with tim := { d.tim with syncSeq := some (s.seqId, d.stamp 0 false s.t2, s.corr) } })

def execPtpSync (dt : Nat) (sync : PtpSync) (s : State) : Host.Outcome State Fault Refusal :=
  onDev dt (fun d => d.onTime (.ptpSync 0 sync) (·.ptpSync sync)) s

/-- PTP_FOLLOW_UP: t1 with the correctionField of the Sync and of the Follow_Up added (R422). -/
def Dev.ptpFollowUp (d : Dev) (seqId : Nat) (t1 : PtpTime) : Dev :=
  match d.tim.syncSeq with
  | none => d
  | some (n, t2, corr) =>
    if n = seqId then
      { d with tim := { d.tim with syncSeq := none, pair := some (seqId, d.ptpStamp { t1 with corr := t1.corr + corr }, t2) } }
    else d

def execPtpFollowUp (dt seqId : Nat) (t1 : PtpTime) (s : State) : Host.Outcome State Fault Refusal :=
  onDev dt (fun d => d.onTime (.ptpFollowUp 0 seqId t1) (·.ptpFollowUp seqId t1)) s

/-- PTP_UNSUPPORTED_MESSAGE (R419). -/
def execPtpUnsupportedMessage (dt : Nat) (s : State) : Host.Outcome State Fault Refusal :=
  onDev dt (fun d => d.onTime (.ptpUnsupportedMessage 0) (·.inc P.ptpDiscardCount)) s

/-- The `n` big-endian octets of a value, as inside a PTP message (R420). [Log: 24 PRESUMED] -/
def beBytes (n v : Nat) : List Byte := (leBytes n v).reverse

/-- A PTP message of this device in its TIME wrapper (R420, R497), with the time of a stamp: seconds and ns in its body and the
part below a ns in correctionField (R421). `extra` follows the time. The octets follow IEEE 1588-2019. [Log: 24 PRESUMED] -/
def Dev.ptpMsg (d : Dev) (p type flags seq control log : Nat) (t : Int) (extra : List Byte) : List Byte :=
  let ps := t.toNat / stampUnit
  let ns := ps / 1000
  let sub := t.toNat % (1000 * stampUnit) * 2 ^ 16 / (1000 * stampUnit)
  let len := 44 + extra.length
  let msg := beBytes 1 type ++ beBytes 1 0x12 ++ beBytes 2 len ++ beBytes 1 (d.a P.ptpDomain) ++ zeros 1 ++ beBytes 2 flags
    ++ beBytes 8 sub ++ zeros 4 ++ beBytes 8 d.fus.chipId ++ beBytes 2 (p + 1) ++ beBytes 2 seq ++ beBytes 1 control ++ beBytes 1 log
    ++ beBytes 6 (ns / 10 ^ 9 % 2 ^ 48) ++ beBytes 4 (ns % 10 ^ 9) ++ extra
  leBytes 1 1 ++ zeros 1 ++ leBytes 2 len ++ zeros 4 ++ msg

/-- A Delay_Req on a port (R421). [Log: 24 PRESUMED] -/
def Dev.delayReq (d : Dev) (p seq : Nat) (t3 : Int) : List Byte := d.ptpMsg p 0x01 0 seq 1 0x7F t3 []

/-- DELAY_REQ_SEND (R421, R426). -/
def execDelayReqSend (dt : Nat) (t3 : MacStamp) (s : State) : Host.Outcome State Fault Refusal :=
  onDev dt (fun d => d.iff d.ptpRuns (fun d =>
    let t3 := d.stamp 0 true t3
    let n := d.tim.dreqSeq
    let body := d.delayReq 0 n t3
    ({ d with tim := { d.tim with dreq := some (n, t3), dreqSeq := (n + 1) % 65536 } }).send 0 0 0x01 false body)) s

/-- PTP_DELAY_RESP (R428): the exchange it completes; the count before a step. -/
def Dev.ptpDelayResp (d : Dev) (seqId : Nat) (t4 : PtpTime) (logInterval : Int) : Dev × Option Nat :=
  match d.tim.dreq with
  | none => (d, none)
  | some (n, t3) =>
    if n ≠ seqId then (d, none)
    else
      let d := { d with tim := { d.tim with dreq := none, delayInt := logInterval } }
      match d.tim.pair with
      | none => (d, none)
      | some (_, t1, t2) =>
        ({ d with tim := { d.tim with pair := none } }).exchange t1 t2 t3 (d.ptpStamp t4) (sx 40 (d.a P.timeAsymmetryMl))

/-- The order of the data-set comparison (R419): the first field that differs decides. -/
def Master.better (a b : Master) : Bool :=
  let key (m : Master) : List Nat := [m.prio1, m.cls, m.accuracy, m.variance, m.prio2, m.identity, m.steps, m.portId]
  (((key a).zip (key b)).find? (fun p => p.1 != p.2)).elim false (fun p => p.1 < p.2)

/-- Select a master (R418, R433). -/
def Dev.setMaster (d : Dev) (m : Master) : Dev :=
  ({ d with tim := { d.tim with master := some m } }).wOctets P.ptpMasterIdentity (beBytes 8 m.identity ++ beBytes 2 m.portId)

/-- The UTC offset and leap flags of the selected master (R423). -/
def Dev.utcFrom (d : Dev) (a : PtpAnnounce) : Dev :=
  let v := ux 16 a.utcOffset
  if v = d.a P.ptpUtcOffset ∧ a.leap = d.tim.leap then d
  else (({ d with tim := { d.tim with leap := a.leap } }).w P.ptpUtcOffset v).raise 93 (v + 65536 * b2n a.leap)

/-- PTP_ANNOUNCE (R418, R419, R423). -/
def Dev.ptpAnnounce (d : Dev) (a : PtpAnnounce) : Dev :=
  let m : Master := ⟨a.identity, a.prio1, a.cls, a.accuracy, a.variance, a.prio2, a.steps, a.portId⟩
  if a.domain ≠ d.a P.ptpDomain || d.timeSource != 1 then d
  else match d.tim.master with
    | none => (d.setMaster m).utcFrom a
    | some old =>
      if old.identity = m.identity ∧ old.portId = m.portId then (d.setMaster m).utcFrom a
      else if m.better old then
        let d := (d.setMaster m).enterHoldover 2
        ((d.raise 84 (m.identity % 2 ^ 17)).timeRestart).utcFrom a
      else d

def execPtpAnnounce (dt : Nat) (ann : PtpAnnounce) (s : State) : Host.Outcome State Fault Refusal :=
  onDev dt (fun d => d.onTime (.ptpAnnounce 0 ann) (·.ptpAnnounce ann)) s

/-- TIME_SOURCE_LOST (R418): time-outs and ports that went down carry cause 1; the other causes come with their own
commands. -/
def Dev.sourceLost (d : Dev) (cause : Nat) : Dev :=
  let src := d.timeSource
  if cause = 1 ∧ (src = 1 ∨ src = 3) then
    let d := { d with tim := { d.tim with syncSeq := none, pair := none, dreq := none } }
    let d := d.iff (src == 1) (fun d => { d with tim := { d.tim with master := none } })
    d.enterHoldover 1
  else d

def execTimeSourceLost (dt cause : Nat) (s : State) : Host.Outcome State Fault Refusal :=
  onDev dt (·.sourceLost cause) s

/-- STEPPED_CLEAR (R413). -/
def execSteppedClear (dt : Nat) (s : State) : Host.Outcome State Fault Refusal :=
  onDev dt (fun d => d.iff (d.tim.stepped && d.tim.stepAt + 10 ^ 12 ≤ d.now) (fun d =>
    { d with tim := { d.tim with stepped := false } })) s

/-- HOLDOVER_BOUND_GROWTH (R414, R415). -/
def execHoldoverBoundGrowth (dt : Nat) (s : State) : Host.Outcome State Fault Refusal :=
  onDev dt (fun d => d.iff (d.a P.timeState == 3) (·.qualCheck)) s

/-! ### PPS (R424, R425) -/

/-- PPS_IN_EDGE (R424): `finePs` the measured part of a REFCLK period after the present edge. -/
def Dev.ppsIn (d : Dev) (finePs : Nat) : Dev × Option Nat :=
  let stamp : Int := (d.merPs : Int) + (finePs : Nat) - (d.a P.ppsInDelay : Nat)
  let near := rnear stamp (10 ^ 12)
  let off := stamp - near * 10 ^ 12
  let first : Bool := match d.tim.pps with | some (_, t) => decide (t + 10 ^ 9 ≤ d.now) | none => false
  if d.timeSource ≠ 2 || d.clk.onLpo then (d, none)
  else if first then
    let s := (d.tim.pps.map (·.1)).getD 0
    ({ d with tim := { d.tim with pps := none, ppsOn := true, ppsMiss := 0 } }).measure (stamp - (s * 10 ^ 12 : Nat))
  else if !d.tim.ppsOn || !d.tim.valid || d.a P.ppsInWindow * 1000 < off.natAbs then (d, none)
  else ({ d with tim := { d.tim with ppsMiss := 0 } }).measure off

/-- PPS_MISSING (R418, R424). -/
def execPpsMissing (dt : Nat) (s : State) : Host.Outcome State Fault Refusal :=
  onDev dt (fun d => d.iff (d.timeSource == 2 && d.tim.ppsOn && d.tim.valid) (fun d =>
    let n := d.tim.ppsMiss + 1
    let d := { d with tim := { d.tim with ppsMiss := n } }
    ((d.inc P.ppsMissCount).raise 83 (sat 131071 n)).iff (n == 2) (·.enterHoldover 5))) s

/-- PPS_OUT_EDGE (R425). -/
def execPpsOutEdge (dt : Nat) (s : State) : Host.Outcome State Fault Refusal :=
  onDev dt (fun d => d.iff (d.a P.ppsOutEnable == 1 && d.tim.valid && !d.clk.onLpo && !d.tim.ppsOut) (fun d =>
    ({ d with tim := { d.tim with ppsOut := true } }).pin .ppsOut true)) s

/-- PPS_OUT_PULSE_END (R425). -/
def execPpsOutPulseEnd (dt : Nat) (s : State) : Host.Outcome State Fault Refusal :=
  onDev dt (fun d => d.iff d.tim.ppsOut (fun d => ({ d with tim := { d.tim with ppsOut := false } }).pin .ppsOut false)) s

/-! ### Between islands (R429, R430) -/

/-- Whether TIME passes on a Strait port: up, within an Archipelago, and across a generation mismatch only where GEN_TIME matches
(R505, R529). -/
def Dev.timeCarries (d : Dev) (p : Nat) : Bool :=
  d.up && d.inArch && d.portWidth p != 0 && d.joinCarries p 0 0x01

/-- This device's part of an exchange as the master: Sync, its Follow_Up with the corrected t1, and Delay_Resp with the corrected
t4 (R426, R429). [Log: 24 PRESUMED] -/
def Dev.straitMaster (d : Dev) (p : Nat) (x : StraitExchange) : Dev :=
  let t1 := d.stamp p true x.sync
  let t4 := d.stamp p false x.req
  let rate := ux 8 (-(d.a P.straitTimeLog2Rate : Nat))
  let far := slice (d.port.getD p {}).far 0 8
  let d := d.send p 0 0x01 false (d.ptpMsg p 0x00 0x0200 x.seqId 0 rate 0 [])
  let d := d.send p 0 0x01 false (d.ptpMsg p 0x08 0 x.seqId 2 rate t1 [])
  d.send p 0 0x01 false (d.ptpMsg p 0x09 0 x.seqId 3 rate t4 (far.reverse ++ beBytes 2 1))

/-- STRAIT_TIME_EXCHANGE (R428, R429) on a Strait port, 0 to 3: as the child, on the pinned port, it sends its Delay_Req and
measures; toward an island that takes time from it, it is the master. -/
def Dev.straitExchange (d : Dev) (x : StraitExchange) : Dev × Option Nat :=
  let p := x.port + 1
  let pinned := d.timeSource == 3 && d.a P.timeParentPort == x.port
  if !d.timeCarries p then (d, none)
  else if x.child then
    if !pinned then (d, none)
    else
      let t2 := d.stamp p false x.sync
      let t3 := d.stamp p true x.req
      let d := d.send p 0 0x01 false (d.delayReq p x.seqId t3)
      ({ d with tim := { d.tim with parentErr := x.parentErr } }).exchange (d.ptpStamp x.t1) t2 t3 (d.ptpStamp x.t4)
        (sx 40 (d.a (P.timeAsymmetrySt + x.port)))
  else if pinned then (d, none)
  else (d.straitMaster p x, none)

/-- The time parent and port follow the routes (R429, R430): the neighbour on the route to island 0 and the lowest port
joined to it. -/
def Dev.timeRoute (d : Dev) : Dev :=
  if !d.inArch ∨ d.island = 0 then (d.w P.timeParentIsland 0xFF).w P.timeParentPort 0xFF
  else
    let (parent, port) := match d.routePort 0 with
      | none => (0xFF, 0xFF)
      | some p =>
        let n := d.a (P.archNeighbours + (p - 1)) % 256
        (n, ((List.range 4).find? (fun i => d.a (P.archNeighbours + i) % 256 == n)).getD (p - 1))
    let old := d.a P.timeParentIsland
    let oldPort := d.a P.timeParentPort
    if parent = old ∧ port = oldPort then d
    else
      let d := (d.w P.timeParentIsland parent).w P.timeParentPort port
      let d := { d with tim := { d.tim with lane := none } }
      if old = 0xFF then d.timeFollow
      else if parent = 0xFF then d.timeRestart.enterHoldover 1
      else (((d.enterHoldover 3).raise 85 (old % 64 + 64 * (port % 4))).timeRestart.timeFollow)

/-- The selection of a source is written (R416): a lock is declared anew. [Log: 39 DEDUCED] -/
def Dev.sourceWritten (d : Dev) : Dev :=
  let d := { d.timeRestart with tim := { d.timeRestart.tim with below := 0, master := none, skip := 0, ppsOn := false, lane := none } }
  if d.inArch ∧ d.island ≠ 0 then d
  else if d.a P.timeSourceSelect = 4 then
    (({ d with tim := { d.tim with source := 4 } }).w P.timeState 0).qualCheck
  else (d.iff (d.tim.valid && d.a P.timeState != 3) (·.w P.timeState 1)).qualCheck

/-- TimeSetTime is accepted (R417): the count before the step. -/
def Dev.setTime (d : Dev) (secs frac : Nat) : Dev × Option Nat :=
  let old := d.clk.mer
  let new : Nat := secs * merUnit + frac % 2 ^ 40 * 2 ^ 72
  let delta : Int := (new : Int) - (old : Nat)
  let us := cdiv (delta.natAbs) (merUnit * 10 ^ 6)
  let d := { d with
    clk := { d.clk with mer := new },
    tim := { d.tim with valid := true, stepped := true, stepAt := d.now, source := 4, holdover := false, err := none } }
  let d := (d.w P.timeState 0).inc P.timeStepCount
  ((d.raise 86 (65536 * b2n (delta < 0) + sat 65535 us)).qualCheck, some old)

/-- An accepted SYNC edge against the expected period (R432). -/
def Dev.syncAlign (d : Dev) : Dev :=
  let p := d.a P.syncExpectPeriod * 10 ^ 6
  if p = 0 ∨ !d.tim.valid then d
  else
    let t : Int := (d.merPs : Int) - (d.a P.archSyncDelay : Nat)
    let diff := t - rnear t p * (p : Nat)
    d.iff (d.a P.timeSyncTolerance < diff.natAbs) (fun d => d.raise 95 (ux 17 (clampI (-65536) 65535 (rhe diff 10))))

end Sys2Proof.Machine
end

