-- ==== Sys2Proof/Machine/Archipelago.lean ====
section
/-!
DEFINITION. The Archipelago: routed messages, discovery, numbering and routes, assignments, group plans and verdicts, reduction
and gather, SYNC stamps (18_archipelago.md R500 to R530), and UL_DATA_SEND (17_mainland_port.md R486, R526).
-/

namespace Sys2Proof.Machine

/-! ### Reduction (R515 to R524) -/

/-- s in force (R518). -/
def Dev.redScale (d : Dev) : Nat :=
  if d.a P.redScaleShift = 0xFF then clog2 (d.a P.redGroupSize) else d.a P.redScaleShift

/-- The accepted group plan of a slot and group: on a member the forwarded one, on the collector its own (R513). -/
def Dev.groupPlan (d : Dev) (slot g : Nat) : Option Plan :=
  if d.a P.redState = 1 then
    (d.ul.plans ++ d.ul.cur ++ d.ul.past).find? (fun p => p.slot == slot && p.group == g && p.fwd)
  else if d.a P.redState = 2 then
    (d.ul.plans ++ d.ul.cur ++ d.ul.past).find? (fun p => p.slot == slot && p.group == g && !p.fwd && !p.places.isEmpty)
  else none

/-- The members beyond a child port: the islands whose route leaves by it, at the root only those of this group (R522).
[Log: 37 DEDUCED] -/
def Dev.subtree (d : Dev) (c : Nat) : Nat :=
  maskOf 64 (fun i => d.a (P.archRouteTable + i) % 8 == c &&
    (!d.isRoot || d.arch.chips.any (fun x => x.number == i && x.group == d.a P.archReduceGroup)))

/-- Whether a child stream is expected at all: its port is up and carries REDUCE (R523, R529). -/
def Dev.kidGone (d : Dev) (c : Nat) : Bool := d.portWidth (c + 1) == 0 || (d.port.getD (c + 1) {}).mismatch

/-- A reduction at its start. -/
def Dev.newRed (d : Dev) (p : Plan) : Red :=
  let block := (p.places.map (·.count)).sum
  let out := d.ul.outs.find? (fun o => o.slot == p.slot && o.group == p.group && o.kind == 1)
  { slot := p.slot, group := p.group, total := block * d.slotInstants p.slot p.group 1, block := block,
    kept := (out.map (·.block)).getD block,
    kids := (bitList 4 (d.a P.redChildPorts)).map (fun c => { port := c, gone := d.kidGone c }) }

/-- The reduction of a slot and group, begun where there is a group plan and none runs yet. -/
def Dev.redOf (d : Dev) (slot g : Nat) : Option Red :=
  match d.arch.red.find? (fun r => r.slot == slot && r.group == g) with
  | some r => some r
  | none => (d.groupPlan slot g).map d.newRed

/-- Put a reduction in its place. -/
def Dev.setRed (d : Dev) (r : Red) : Dev :=
  { d with arch := { d.arch with red := d.arch.red.filter (fun x => !(x.slot == r.slot && x.group == r.group)) ++ [r] } }

/-- A child's word of an index: the word and its missing set; none where it is missing. -/
def RedKid.word (k : RedKid) (i : Nat) : Option (Nat × Nat) :=
  (k.runs.find? (fun r => r.off ≤ i && i < r.off + r.words.length)).map (fun r => (r.words.getD (i - r.off) 0, r.missing))

/-- The words of the slot block a child has settled. -/
def Red.settled (r : Red) (k : RedKid) : Nat := if k.gone || r.closed then r.total else k.next

/-- How many words can be formed: every child and the island itself has settled them (R521). -/
def Red.ready (r : Red) : Nat := r.kids.foldl (fun m k => min m (r.settled k)) r.own.length

/-- The own contribution to a word. -/
def Red.ownAt (r : Red) (i : Nat) : RedOwn := r.own.getD i ⟨0, 0, 0, 0⟩

/-- Form one word: the own contribution and the children's are added exactly and the sum saturates once; a child that misses adds zero
tagged PARTIAL (R15, R16, R518, R522). [Log: 37 DEDUCED] -/
def Red.form (r : Red) (sub : Nat → Nat) (i : Nat) : Nat × Nat :=
  let o := r.ownAt i
  let (x, y, flags, missing) := r.kids.foldl (fun (acc : Int × Int × Nat × Nat) k =>
    let (x, y, flags, missing) := acc
    match k.word i with
    | some (w, m) => (x + partI w, y + partQ w, maskOr 2 flags (w % 4), maskOr 64 missing m)
    | none => (x, y, maskOr 2 flags 2, maskOr 64 missing (sub k.port))) (o.i, o.q, o.flags, 0)
  (mkPartial x y (bit flags 1) (bit flags 0), missing)

/-- Runs of consecutive indices of a list of (index, word, missing), at most `cap` words each. -/
def redRuns (cap : Nat) (l : List (Nat × Nat × Nat)) : List (Nat × List Nat × Nat) :=
  l.foldr (fun x acc =>
    match acc with
    | (off, ws, m) :: rest =>
      if x.1 + 1 = off ∧ ws.length < cap then (x.1, x.2.1 :: ws, maskOr 64 x.2.2 m) :: rest
      else (x.1, [x.2.1], x.2.2) :: acc
    | [] => [(x.1, [x.2.1], x.2.2)]) []

/-- The 32-byte header of REDUCE (R520). -/
def redHeader (slot g offset count missing : Nat) (last void : Bool) : List Byte :=
  leBytes 8 slot ++ leBytes 1 (g + 2 * b2n last + 4 * b2n void) ++ zeros 3 ++ leBytes 4 offset ++ leBytes 2 count ++ zeros 6
    ++ leBytes 8 missing

/-- A member sends the words it formed to its parent (R518, R520); words it sheds are left out (R470). LAST marks the final message of
the slot block. [Log: 38 DEDUCED] -/
def Dev.redUp (d : Dev) (r : Red) (l : List (Nat × Nat × Nat)) : Dev :=
  let port := d.a P.redParentPort % 4 + 1
  let runs := redRuns 1836 (l.filter (fun x => x.1 % r.block < r.kept))
  let fin := if r.total ≤ r.formed then runs.getLast?.map (·.1) else none
  d.each runs (fun (x : Nat × List Nat × Nat) d =>
    let n := x.2.1.length
    let body := redHeader r.slot r.group x.1 n x.2.2 (fin == some x.1) false ++ nativeBytes x.2.1
    let sent := d.x (auxKey 7 0)
    ((d.send port 3 tReduce false body).sentWords r.slot r.group 1 n).wx (auxKey 7 0) sent)

/-- One UL_DATA message of a collector's reduced words, `n` of its queue (R519). -/
def Dev.redOut (d : Dev) (o : OutKind) (l : List (Nat × Nat)) : Dev :=
  let missing := l.foldl (fun m x => maskOr 64 m x.2) 0
  let d := d.wx (auxKey 7 1) (maskOr 64 (d.x (auxKey 7 1)) missing)
  (d.sendHome 3 0x0B false (d.ulMsg o o.sent missing (l.map (·.1)))).sentWords o.slot o.group 1 l.length

/-- Send what a collector formed: whole pairs while compact and not at the end (R486, R489). -/
def Dev.redFlush : Nat → Red → Dev → Red × Dev
  | 0, r, d => (r, d)
  | f + 1, r, d =>
    match d.ul.outs.find? (fun o => o.slot == r.slot && o.group == r.group && o.kind == 1) with
    | none => ({ r with queue := [] }, d)
    | some o =>
      let cap := if o.compact then 3008 else 1835
      let n := min cap r.queue.length
      let n := if o.compact && r.formed < r.total then n / 64 * 64 else n
      if n = 0 then (r, d) else Dev.redFlush f { r with queue := r.queue.drop n } (d.redOut o (r.queue.take n))

/-- Form every word that is ready, pass it on, and free the credit of words used up (R518 to R521). -/
def Dev.redAdvance (d : Dev) (r : Red) : Dev :=
  let hi := r.ready
  let idx := (List.range (hi - r.formed)).map (· + r.formed)
  let l : List (Nat × Nat × Nat) := idx.map (fun i => (i, r.form d.subtree i))
  let missing := l.foldl (fun m x => maskOr 64 m x.2.2) r.missing
  let r := { r with formed := max r.formed hi, missing := missing }
  let used := r.kids.flatMap (fun k => (k.runs.filter (fun x => x.off + x.words.length ≤ r.formed)).map (fun x => (k.port, x.units)))
  let d := d.each used (fun (u : Nat × Nat) d => d.freeUnits (u.1 + 1) 3 u.2)
  let kids := r.kids.map (fun (k : RedKid) => { k with runs := k.runs.filter (fun x => r.formed < x.off + x.words.length) })
  if d.a P.redState = 1 then
    (d.redUp r l).setRed { r with kids := kids }
  else
    let outs := (l.filter (fun x => x.1 % r.block < r.kept)).map (fun x =>
      (partialOut x.2.1 (r.ownAt x.1).tags, x.2.2))
    let r := { r with kids := kids, queue := r.queue ++ outs }
    let (r, d) := Dev.redFlush (r.queue.length + 1) r d
    d.setRed r

/-- The island's own contribution to word `k` of a slot block from the bin samples of the 64 paths (R16, R339, R518): a word whose value
is none of the sum's (R56, R203, R339) contributes zero. -/
def Dev.ownWord (d : Dev) (slot g block k : Nat) (xs : List Nat) : RedOwn :=
  let (a, b) := d.slotSpan slot
  match d.kindNth g 1 a b (k / block) with
  | none => ⟨0, 0, 2, 0⟩
  | some (x, hi) =>
    let mask := d.slotMask g a b
    let tags := wordTags (d.kindWord slot g 1 (k % block) mask x hi xs)
    let ref := hi - x.bins.2.2
    let taps := (placeAt (k % block) (d.slotPlaces slot g)).bind (fun p => d.slotTaps slot g p.cat)
    let (i, q) := match taps with
      | some t =>
        if d.notFormed g x hi || d.calReach ref ref then (0, 0)
        else ownPartial t (d.beamWords g mask (d.tagSamples g x hi (d.spanPs g false) xs)) d.redScale
      | none => (0, 0)
    ⟨i, q, partFlags tags, tags⟩

/-- The island's own words from an offset on (R518). -/
def Dev.redOwn (d : Dev) (slot g offset : Nat) (words : List (List Nat)) : Dev :=
  match d.redOf slot g with
  | none => d
  | some r =>
    if r.own.length ≠ offset ∨ r.total < offset + words.length then d
    else
      let own := r.own ++ (words.zip (List.range words.length)).map (fun x => d.ownWord slot g r.block (offset + x.2) x.1)
      let e := if own.length = r.total then some d.now else r.endAt
      d.redAdvance { r with own := own, endAt := e }

/-- A child's REDUCE words (R520 to R523). Words already settled came late: they are discarded and counted; none follows LAST. -/
def Dev.redWords (d : Dev) (r : Red) (c off missing units : Nat) (last : Bool) (words : List Nat) : Dev :=
  match r.kids.find? (fun k => k.port == c) with
  | none => (d.freeUnits (c + 1) 3 units).add P.redLateWordCount words.length
  | some k =>
    let from_ := r.settled k
    let lateN := min words.length (from_ - off)
    let keep := words.drop lateN
    let d := d.add P.redLateWordCount lateN
    let r := { r with late := r.late || lateN != 0 }
    if keep.isEmpty then (d.freeUnits (c + 1) 3 units).setRed r
    else
      let run : RedRun := ⟨off + lateN, keep, missing, units⟩
      d.redAdvance { r with kids := r.kids.map (fun (x : RedKid) =>
        if x.port = c then { x with runs := x.runs ++ [run], next := if last then r.total else off + words.length } else x) }

/-- REDUCE that passed the receive checks. -/
def Dev.reduce (d : Dev) (port : Nat) (b : List Byte) : Dev :=
  let units := msgUnits b.length
  let slot := field b 0 8
  let flags := field b 8 1
  let g := flags % 2
  let off := field b 12 4
  let n := field b 16 2
  let free (d : Dev) : Dev := d.freeUnits port 3 units
  if b.length < 32 ∨ 1836 < n ∨ b.length < 32 + 5 * n then free d
  else match d.redOf slot g with
    | none => (free d).add P.redLateWordCount n
    | some r =>
      if bit flags 2 then
        (free d).redAdvance { r with kids := r.kids.map (fun (k : RedKid) => if k.port + 1 = port then { k with gone := true } else k) }
      else d.redWords r (port - 1) off (field b 24 8) units (bit flags 1) (readNative n (b.drop 32))

/-- REDUCE arrives on VC3. -/
def Dev.reduceIn (d : Dev) (h : Hdr) (b : List Byte) : Dev :=
  let (d, ok) := d.rxCheck h tReduce b.length false
  d.iff ok (fun d => if h.port = 0 then d.freeUnits 0 3 (msgUnits b.length) else d.reduce h.port b)

/-- Take a message past Riptide's received rules. -/
def Dev.ripIn (d : Dev) (i : Hdr → List Byte → Instr) (t : Nat) (h : Hdr) (body : List Byte) (f : Dev → Hdr → List Byte → Dev) :
    Dev :=
  match d.ripRx i h t body with
  | (d, none) => d
  | (d, some (h, b)) => f d h b

def execReduce (dt : Nat) (hdr : Hdr) (body : List Byte) (s : State) : Host.Outcome State Fault Refusal :=
  onDev dt (fun d => d.ripIn (Instr.reduce 0) tReduce hdr body (fun d h b => d.reduceIn h b)) s

/-- REDUCTION_WINDOW_CLOSE (R522): RedWindow times HEIGHT after E. -/
def Dev.redClose (d : Dev) (g slot : Nat) : Dev :=
  match d.arch.red.find? (fun r => r.slot == slot && r.group == g) with
  | none => d
  | some r =>
    match r.endAt with
    | none => d
    | some e =>
      if !r.closed && e + d.a P.redWindow * 10 ^ 6 * d.a P.redHeight ≤ d.now then d.redAdvance { r with closed := true } else d

def execReductionWindowClose (dt group slot : Nat) (s : State) : Host.Outcome State Fault Refusal :=
  onDev dt (·.redClose group slot) s

/-- A Strait port fell to nothing, or its join stopped carrying REDUCE: its child is missing from the word reached (R523). -/
def Dev.redPortLost (d : Dev) (port : Nat) : Dev :=
  d.each d.arch.red (fun (r : Red) d =>
    d.iff (r.kids.any (fun k => k.port + 1 == port && !k.gone)) (fun d =>
      d.redAdvance { r with kids := r.kids.map (fun (k : RedKid) => if k.port + 1 = port then { k with gone := true } else k) }))

/-- EV105 for a slot and group that ends with missing islands (R524). [Log: 38 DEDUCED] -/
def Dev.redReport (d : Dev) (r : Red) : Dev :=
  if r.missing = 0 then d
  else
    let low := ((List.range 64).find? (bit r.missing)).getD 0
    ((d.inc P.redIncompleteSlotCount).w P.redMissingLast r.missing).raise 105
      (low + 64 * sat 16 (popc 64 r.missing) + 2048 * b2n r.late + 65536 * r.group)

/-- At a slot boundary the slots whose words have all been formed end (R524); what can no longer end is dropped after the
slots that may be held have passed. [Log: 38 DEDUCED] -/
def Dev.redBoundary (d : Dev) (slot : Nat) : Dev :=
  let past (r : Red) : Bool := r.slot < slot && (r.total ≤ r.formed || r.slot + 3 < slot)
  let ended := d.arch.red.filter past
  let d := { d with arch := { d.arch with red := d.arch.red.filter (fun r => !past r) } }
  d.each ended (fun (r : Red) d => d.redReport r)

/-- A member without an accepted group plan for a slot tells its parent (R515). [Log: 38 DEDUCED] -/
def Dev.redVoid (d : Dev) (slot : Nat) : Dev :=
  if d.a P.redState ≠ 1 then d
  else d.each [0, 1] (fun g d =>
    d.iff (d.groupExists g && (d.groupPlan slot g).isNone) (fun d =>
      d.send (d.a P.redParentPort % 4 + 1) 3 tReduce false (redHeader slot g 0 0 0 true true)))

/-! ### Gather and UL_DATA_SEND (R486, R519, R526) -/

/-- EV111 for a gathered message that has waited longer than ArchQueueWarn, once per slot (R526). -/
def Dev.gatherWarn (d : Dev) : Dev :=
  match d.arch.gather.find? (fun x => x.since + d.a P.archQueueWarn * 10 ^ 6 < d.now) with
  | none => d
  | some x =>
    if d.arch.warned = d.slotNow + 1 then d
    else
      let slot := d.slotNow
      ({ d with arch := { d.arch with warned := slot + 1 } }).raise 111 (x.source + 8 * sat 16383 ((d.now - x.since) / 10 ^ 6))

/-- The oldest waiting message of the source whose turn comes next. -/
def Dev.gatherNext (d : Dev) : Option Gather :=
  ((List.range 5).map (fun i => (d.arch.turn + 1 + i) % 5)).findSome? (fun s => d.arch.gather.find? (fun x => x.source == s))

/-- Send gathered messages while credit allows, one source after the other (R526). -/
def Dev.gatherFuel : Nat → Dev → Dev
  | 0, d => d
  | f + 1, d =>
    match d.gatherNext with
    | none => d
    | some x =>
      if d.canSend 0 x.msg then
        let wait := (d.now - x.since) / 10 ^ 6
        let d := d.iff (d.a P.gatherQueueMax < wait) (·.w P.gatherQueueMax wait)
        let d := { d with arch := { d.arch with gather := d.arch.gather.erase x, turn := x.source } }
        Dev.gatherFuel f (d.sendMsg 0 x.msg)
      else d

/-- Serve the gathered messages. [Log: 43 DEDUCED] -/
def Dev.gatherServe (d : Dev) : Dev := Dev.gatherFuel d.arch.gather.length d.gatherWarn

/-- Gathered UL_DATA of at most two slots of a source island and group waits for credit: where that of a third has arrived, the rest of
the oldest is discarded (R208, R526). -/
def Dev.gatherHold (d : Dev) (island g : Nat) : Dev :=
  let mine (x : Gather) : Bool := x.msg.island == island && field x.msg.body 8 1 % 2 == g
  let slots := ((d.arch.gather.filter mine).map (fun x => field x.msg.body 0 8)).eraseDups
  if slots.length ≤ 2 then d
  else
    let old := slots.foldl min (slots.headD 0)
    let out (x : Gather) : Bool := mine x && field x.msg.body 0 8 == old
    let n := ((d.arch.gather.filter out).map (fun x => field x.msg.body 10 2)).sum
    (({ d with arch := { d.arch with gather := d.arch.gather.filter (fun x => !out x) } }).add P.apOutputDiscardCount n).raise 40
      (g * 65536 + sat 65535 (n / 1024))

/-- Whether a slot's PLACED output of a group goes through the reduction tree. -/
def Dev.reduced (d : Dev) (slot g : Nat) : Bool := (d.groupPlan slot g).isSome

/-- UL_DATA_SEND: the next words of a kind, or the island's own part of a reduced block. -/
def Dev.ulSend (d : Dev) (x : UlSeg) : Dev :=
  let d := d.gatherServe.cleanFollow.holdOutputs
  if x.kind = 1 ∧ d.reduced x.slot x.group then d.redOwn x.slot x.group x.offset x.words
  else match d.ul.outs.find? (fun o => o.slot == x.slot && o.group == x.group && o.kind == x.kind) with
    | none => d
    | some o =>
      let n := x.words.length
      let all := d.outWords o
      let shape := ulShape o.compact x.offset n && (!o.compact || n % 64 == 0 || x.offset + n == all)
      if x.offset ≠ o.sent ∨ d.outFormed o < x.offset + n ∨ !shape then d
      else
        let ws := d.ulWords o x
        let d := { d with arch := { d.arch with turn := 0 } }
        d.ulEmit o x.offset 0 ws

def execUlDataSend (dt : Nat) (seg : UlSeg) (s : State) : Host.Outcome State Fault Refusal := onDev dt (·.ulSend seg) s

/-! ### Routed messages (R504, R526, R527) -/

/-- A routed message is discarded (R504). -/
def Dev.routeDrop (d : Dev) : Dev := d.inc P.archRoutedDiscardCount

/-- Send a message on toward an island. -/
def Dev.routeTo (d : Dev) (island hops : Nat) (m : Msg) : Dev :=
  match d.routePort island with
  | none => d.routeDrop
  | some p =>
    if hops = 0 || !d.joinCarries p m.vc m.type || island = d.island then d.routeDrop
    else d.sendMsg p { m with island := if m.island = 0xFF then island else m.island, hops := hops }

/-- The load a forwarded segment of a plan adds to the egress of this island (R527); DL_PLAN output does not load it.
[Log: 43 DEDUCED] -/
def Dev.segLoad (d : Dev) (b : List Byte) : Nat :=
  let h := segHdr false b
  d.planLoad { slot := h.slot, group := h.group, compact := h.compact, items := segItems b h.items,
               places := segPlaces false b h.items h.count }

/-- The load planned for the slot of a forwarded SLOT_PLAN segment beyond the allowance refuses it under reason 8 (R527): the
charged state where it passes. [Log: 43 DEDUCED] -/
def Dev.routeCharge (d : Dev) (t : Nat) (b : List Byte) : Dev × Bool :=
  if t ≠ tSlotPlan ∨ b.length < 32 then (d, true)
  else
    let h := segHdr false b
    let port := d.planPort
    let own := [0, 1].map (fun g => d.groupLoad g (d.slotPlans false h.slot g))
    let load := d.segLoad b
    if d.allowance port < load + d.heldLoad h.slot port + own.sum then (d.planRefused false h.group 8, false)
    else ({ d with arch := { d.arch with loads := d.arch.loads ++ [(h.slot, port, load)] } }, true)

/-- Mainland message types that go outward (R478). -/
def outward (port t : Nat) (resp : Bool) : Bool :=
  port != 0 && ((resp && (t == 0x04 || t == 0x05)) || t == 0x07 || t == 0x08 || t == 0x09 || t == 0x0B || t == 0x0D)

/-- An outward message of another island: onto the Mainland where it is up, else on toward the collector (R504, R526).
[Log: 43 DEDUCED] -/
def Dev.routeOut (d : Dev) (source hops : Nat) (m : Msg) : Dev :=
  if d.portWidth 0 = 0 then d.routeTo (d.a P.archCollector) (hops - 1) m
  else
    let m := { m with src := 0, hops := 0 }
    if m.type = 0x0B then
      let one : Gather := ⟨source, d.now, m⟩
      (({ d with arch := { d.arch with gather := d.arch.gather ++ [one] } }).gatherServe).gatherHold m.island (field m.body 8 1 % 2)
    else d.sendMsg 0 m

/-- ROUTED_FORWARD: a message this island passes on. -/
def Dev.routed (d : Dev) (h : Hdr) (t hops : Nat) (b : List Byte) : Dev :=
  let (d, ok) := d.rxBase h t b.length (typeOk h.port t h.vc h.resp)
  if !ok then d
  else
    let d := d.freeUnits h.port h.vc (msgUnits b.length)
    let m : Msg := { vc := h.vc, type := t, island := h.island, src := d.a P.archIslandNumber, hops := hops, resp := h.resp, body := b }
    if !d.inArch || !d.joinCarries h.port h.vc t then d
    else if outward h.port t h.resp then d.routeOut h.port hops m
    else
      let hops := if h.port = 0 then 16 else hops - 1
      if h.port = 0 ∧ h.island = 0xFF then
        d.each ((List.range 64).filter (fun i => (d.routePort i).isSome)) (fun i d => d.routeTo i hops m)
      else if h.island = d.island ∨ h.island = 0xFE then d
      else
        let (d, ok) := d.routeCharge t b
        d.iff ok (fun d => if 64 ≤ h.island then d.routeDrop else d.routeTo h.island hops m)

def execRoutedForward (dt : Nat) (hdr : Hdr) (msgType hops : Nat) (body : List Byte) (s : State) :
    Host.Outcome State Fault Refusal :=
  onDev dt (fun d => d.ripIn (fun h b => Instr.routedForward 0 h msgType hops b) msgType hdr body (fun d h b => d.routed h msgType hops b)) s

/-! ### Discovery (R505 to R507) -/

/-- The report of this island (R507). -/
def Dev.report (d : Dev) : List Byte :=
  let up (p : Nat) : Bool := d.portWidth (p + 1) != 0
  let rcd (p : Nat) : List Byte := (d.port.getD (p + 1) {}).far
  leBytes 8 d.fus.chipId ++ leBytes 1 (d.a P.archIslandNumber) ++ leBytes 1 (d.a P.archReduceGroup)
    ++ leBytes 1 (d.a P.archCollector) ++ zeros 1
    ++ [0, 1, 2, 3].flatMap (fun p => leBytes 1 (if up p then (field (rcd p) 9 1 % 8 + 7) % 8 % 4 + 8 else 0))
    ++ [0, 1, 2, 3].flatMap (fun p => if up p then padTo 8 (rcd p) else zeros 8)

/-- DISCOVER_REQUEST: answered with a report to island 0 (R507). -/
def Dev.discoverReq (d : Dev) (h : Hdr) : Dev :=
  let (d, ok) := d.rxCheck h tDiscover 0 false
  d.iff (ok && h.port != 0) (fun d =>
    let d := d.freeUnits h.port 1 (msgUnits 0)
    d.sendMsg h.port (d.mkMsg h.port 0 1 tDiscover true d.report))

def execDiscoverRequest (dt : Nat) (hdr : Hdr) (s : State) : Host.Outcome State Fault Refusal :=
  onDev dt (fun d => d.ripIn (fun h _ => Instr.discoverRequest 0 h) tDiscover hdr [] (fun d h _ => d.discoverReq h)) s

/-- Send a DISCOVER request out of a Strait port. -/
def Dev.discover (d : Dev) (port : Nat) : Dev := d.send port 1 tDiscover false []

/-- The root's record made of a report. -/
def chipOf (b : List Byte) : Chip :=
  { id := field b 0 8, number := 0xFF, group := field b 9 1, collector := field b 10 1,
    ports := [0, 1, 2, 3].map (fun p => field b (12 + p) 1), far := [0, 1, 2, 3].map (fun p => field b (16 + 8 * p) 8) }

/-- Put a report into the root's records; a chip keeps its number. -/
def Dev.learnChip (d : Dev) (x : Chip) : Dev :=
  let old := d.arch.chips.find? (fun c => c.id == x.id)
  let new : Chip := match old with
    | some o => { x with number := o.number, reach := o.reach }
    | none => { x with reach := false }
  { d with arch := { d.arch with chips := d.arch.chips.filter (fun c => c.id != x.id) ++ [new] } }

/-- The island pinned for a chip, lowest first (R506). -/
def Dev.pinOf (d : Dev) (id : Nat) : Option Nat :=
  (List.range 64).find? (fun n => id != 0 && field (d.octets (P.archPinTable + 8 * n) 8) 0 8 == id)

/-- The number for a chip (R506): pinned to it, else the lowest neither assigned nor pinned to another chip. A pinned number
that another chip holds is passed over. [Log: 42 DEDUCED] -/
def Dev.numberFor (d : Dev) (chips : List Chip) (id : Nat) : Option Nat :=
  let taken (n : Nat) : Bool := chips.any (fun c => c.number == n)
  match (d.pinOf id).filter (fun n => !taken n) with
  | some n => some n
  | none => (List.range 64).find? (fun n => !taken n &&
      (let p := field (d.octets (P.archPinTable + 8 * n) 8) 0 8; p == 0 || p == id))

/-- The neighbours of a chip by its own report: (port, far chip), ports ascending. -/
def Chip.joins (c : Chip) : List (Nat × Nat) :=
  (List.range 4).filterMap (fun p => if bit (c.ports.getD p 0) 3 && c.far.getD p 0 != 0 then some (p, c.far.getD p 0) else none)

/-- Number islands breadth first (R506): the chips, and those reached in the order reached. -/
def Dev.numberFuel (d : Dev) : Nat → List Nat → List Nat → List Chip → List Chip × List Nat
  | 0, _, seen, chips => (chips, seen)
  | _, [], seen, chips => (chips, seen)
  | f + 1, id :: queue, seen, chips =>
    let c := chips.find? (fun c => c.id == id)
    let (chips, fresh) := ((c.map (·.joins)).getD []).foldl (fun (acc : List Chip × List Nat) j =>
      if seen.contains j.2 ∨ acc.2.contains j.2 then acc
      else
        let known := acc.1.find? (fun x => x.id == j.2)
        match (known.map (·.number)).filter (· != 0xFF) with
        | some _ => (acc.1, acc.2 ++ [j.2])
        | none =>
          match d.numberFor acc.1 j.2 with
          | none => acc
          | some n =>
            let x : Chip := { (known.getD { id := j.2, number := n, reach := false }) with number := n }
            (acc.1.filter (fun x => x.id != j.2) ++ [x], acc.2 ++ [j.2])) (chips, [])
    d.numberFuel f (queue ++ fresh) (seen ++ fresh) chips

/-- Distances in hops from island `t` by rounds of relaxation: (number, hops) of the islands reached. -/
def distFuel (adj : Nat → List Nat) : Nat → List Nat → List (Nat × Nat) → Nat → List (Nat × Nat)
  | 0, _, known, _ => known
  | f + 1, front, known, k =>
    let next := ((front.flatMap adj).filter (fun n => !known.any (fun x => x.1 == n))).eraseDups
    if next.isEmpty then known else distFuel adj f next (known ++ next.map (fun n => (n, k + 1))) (k + 1)

/-- The topology the root computes: numbered reachable chips with their joins by number, and distances. -/
structure Topo where
  chips : List Chip
  joins : List (Nat × List (Nat × Nat))
  dist : List (Nat × List (Nat × Nat))

/-- The number of a chip, 255 none. -/
def numOf (chips : List Chip) (id : Nat) : Nat := ((chips.find? (fun c => c.id == id)).map (·.number)).getD 0xFF

/-- The topology of the reachable chips. -/
def topoOf (chips : List Chip) : Topo :=
  let live := chips.filter (fun c => c.reach && c.number != 0xFF)
  let joins := live.map (fun c => (c.number, (c.joins.map (fun j => (j.1, numOf live j.2))).filter (fun j => j.2 != 0xFF)))
  let adj (n : Nat) : List Nat := ((joins.find? (fun x => x.1 == n)).map (fun x => x.2.map (·.2))).getD []
  { chips := live, joins := joins, dist := live.map (fun c => (c.number, distFuel adj 64 [c.number] [(c.number, 0)] 0)) }

/-- Hops between two islands. -/
def Topo.hops (t : Topo) (a b : Nat) : Option Nat :=
  ((t.dist.find? (fun x => x.1 == b)).bind (fun x => x.2.find? (fun y => y.1 == a))).map (·.2)

/-- The next hop of island `a` toward `b` (R509): (own port, island). [Log: 42 DEDUCED] -/
def Topo.next (t : Topo) (a b : Nat) : Option (Nat × Nat) :=
  match t.hops a b with
  | none => none
  | some 0 => none
  | some (k + 1) =>
    (((t.joins.find? (fun x => x.1 == a)).map (·.2)).getD []).find? (fun j => t.hops j.2 b == some k)

/-- The ROUTES bytes of an island (R508). -/
def Topo.routes (t : Topo) (a : Nat) : List Nat :=
  (List.range 64).map (fun i =>
    if i = a then 4
    else match t.next a i, t.hops a i with
      | some (p, _), some h => p + 8 * h
      | _, _ => 7)

/-- The reduction tree of a group (R511, R512): the collector and the (member, parent, member's port, parent's port) that are
attached, members' numbers, or invalid; `cut` those that a join without REDUCE keeps from an attached parent (R529). -/
structure Tree where
  members : List Nat
  collector : Option Nat
  edges : List (Nat × Nat × Nat × Nat)
  cut : List (Nat × Nat × Nat × Nat)

/-- The port of the far end of a join. -/
def Topo.farPort (t : Topo) (a p : Nat) : Nat :=
  ((t.chips.find? (fun c => c.number == a)).map (fun c => c.ports.getD p 0 % 4)).getD 0

/-- The edges of members that may hang under their next hop, before the children are counted. -/
def Topo.candidates (t : Topo) (ms : List Nat) (c : Nat) : List (Nat × Nat × Nat × Nat) :=
  ms.filterMap (fun m =>
    if m = c then none
    else match t.next m c with
      | some (p, n) => if ms.contains n then some (m, n, p, t.farPort m p) else none
      | none => none)

/-- Attach members level by level from the collector: three children at most, by the parent's lower ports. -/
def attachFuel (cand : List (Nat × Nat × Nat × Nat)) : Nat → List Nat → List (Nat × Nat × Nat × Nat)
  | 0, _ => []
  | f + 1, front =>
    let here := front.flatMap (fun n => ((cand.filter (fun e => e.2.1 == n)).foldl (fun l e => insertBy (fun x => x.2.2.2) e l) []).take 3)
    if here.isEmpty then [] else here ++ attachFuel cand f (here.map (·.1))

/-- The tree of a reduction group; joins the root knows to carry no REDUCE are left out (R512, R529). [Log: 42 DEDUCED] -/
def Dev.treeOf (d : Dev) (t : Topo) (g : Nat) : Tree :=
  let own := t.chips.filter (fun c => c.group == g)
  let ms := own.map (·.number)
  match own.filter (fun c => c.collector == c.number) with
  | [c] =>
    let named := (own.filter (fun x => x.collector == c.number)).map (·.number)
    let bad (e : Nat × Nat × Nat × Nat) : Bool :=
      (e.2.1 == 0 && (d.port.getD (e.2.2.2 + 1) {}).mismatch) || (e.1 == 0 && (d.port.getD (e.2.2.1 + 1) {}).mismatch)
    let all := t.candidates named c.number
    let edges := attachFuel (all.filter (fun e => !bad e)) 64 [c.number]
    let cut := all.filter (fun e => bad e && (e.2.1 == c.number || edges.any (fun x => x.1 == e.2.1)))
    if 16 < edges.length + 1 then ⟨ms, none, [], []⟩ else ⟨ms, some c.number, edges, cut⟩
  | _ => ⟨ms, none, [], []⟩

/-- Reduction levels below an island. -/
def heightFuel (edges : List (Nat × Nat × Nat × Nat)) : Nat → Nat → Nat
  | 0, _ => 0
  | f + 1, n => ((edges.filter (fun e => e.2.1 == n)).map (fun e => 1 + heightFuel edges f e.1)).foldl max 0

/-- The assignment of a chip (R508) without EPOCH and SWITCH: bytes 0 to 15 and the routes. A child beyond a join that carries no REDUCE
stays among CHILD_PORTS, so that its parent marks it missing (R523, R529). [Log: 42 DEDUCED] -/
def Dev.assignOf (d : Dev) (t : Topo) (c : Chip) : List Byte × List Byte :=
  let tree := if c.group = 0xFF then ⟨[], none, [], []⟩ else d.treeOf t c.group
  let n := c.number
  let up := tree.edges.find? (fun e => e.1 == n)
  let kids := maskOf 4 (fun p => (tree.edges ++ tree.cut).any (fun e => e.2.1 == n && e.2.2.2 == p))
  let state := if c.group = 0xFF then 0
    else match tree.collector with
      | none => 4
      | some k => if k = n then 2 else if up.isSome then 1 else 3
  let size := if tree.collector.isNone then 0 else tree.edges.length + 1
  let height := heightFuel tree.edges 16 n
  (leBytes 8 c.id ++ leBytes 1 n ++ leBytes 1 ((up.map (fun e => e.2.2.1)).getD 0xFF) ++ leBytes 1 kids ++ leBytes 1 state
    ++ leBytes 1 size ++ leBytes 1 height ++ zeros 2, (t.routes n).flatMap (leBytes 1))

/-- An assignment read from its body (R508). -/
def assignIn (b : List Byte) : Assign :=
  { island := field b 8 1, parent := field b 9 1, children := field b 10 1 % 16, state := field b 11 1, size := field b 12 1,
    height := field b 13 1, epoch := field b 16 4, switch := field b 20 8,
    routes := (List.range 64).map (fun i => field b (28 + i) 1) }

/-- The neighbours by an assignment (R508): the routes of one hop, and ports joined to a chip of such a port.
[Log: 42 DEDUCED] -/
def Dev.neighboursOf (d : Dev) (a : Assign) : List Nat :=
  let byRoute (p : Nat) : Option Nat := (List.range 64).find? (fun i => a.routes.getD i 7 == p + 8)
  let id (p : Nat) : Nat := field ((d.port.getD (p + 1) {}).far) 0 8
  (List.range 4).map (fun p =>
    if d.portWidth (p + 1) = 0 then 0xFF
    else match byRoute p with
      | some i => i
      | none => (((List.range 4).filter (fun q => id q == id p && id p != 0)).findSome? byRoute).getD 0xFF)

/-- Take up an assignment (R508, R510, R416, R430). -/
def Dev.applyAssign (d : Dev) (a : Assign) : Dev :=
  let fresh := !d.inArch
  let moved := a.epoch != d.a P.archTopologyEpoch
  let d := { d with arch := { d.arch with wait := none } }
  let d := d.wAll [(P.archIslandNumber, a.island), (P.redParentPort, a.parent), (P.redChildPorts, a.children),
    (P.redState, a.state), (P.redGroupSize, a.size), (P.redHeight, a.height), (P.archTopologyEpoch, a.epoch)]
  let d := d.wList P.archRouteTable a.routes
  let d := d.wList P.archNeighbours (d.neighboursOf a)
  let d := d.iff moved (·.raise 102 (a.epoch % 4096))
  let d := d.timeRoute
  d.iff (fresh && a.island != 0) (fun d =>
    d.each ((List.range 4).filter (fun p => d.portWidth (p + 1) != 0)) (fun p d => d.discover (p + 1)))

/-- Hold an assignment, or take it up at once while time is not valid (R508). [Log: 42 DEDUCED] -/
def Dev.takeAssign (d : Dev) (a : Assign) : Dev :=
  if d.tim.valid then { d with arch := { d.arch with wait := some a } } else d.applyAssign a

/-- Send the assignments of a new topology, each to its chip, with the next EPOCH (R508). -/
def Dev.sendAssigns (d : Dev) (t : Topo) : Dev :=
  let new := t.chips.map (fun c => (c.id, let x := d.assignOf t c; x.1 ++ x.2))
  if new = d.arch.last then d
  else
    let epoch := (match d.arch.wait with | some a => a.epoch | none => d.a P.archTopologyEpoch) + 1
    let switch := d.secs + 3
    let d := { d with arch := { d.arch with last := new } }
    d.each t.chips (fun c d =>
      let x := d.assignOf t c
      let body := x.1 ++ leBytes 4 epoch ++ leBytes 8 switch ++ x.2
      if c.number = 0 then d.takeAssign (assignIn body)
      else match t.next 0 c.number with
        | none => d
        | some (p, _) => d.sendMsg (p + 1) (d.mkMsg (p + 1) c.number 1 tAssign false body))

/-- The root renews its topology: numbers, reachability, events, routes, trees (R506 to R512). -/
def Dev.rebuild (d : Dev) : Dev :=
  let me : Chip := { chipOf d.report with number := 0 }
  let chips := d.arch.chips.filter (fun c => c.id != me.id) ++ [me]
  let (chips, seen) := d.numberFuel 130 [me.id] [me.id] chips
  let isNow (c : Chip) : Bool := seen.contains c.id && c.number != 0xFF
  let joined := (chips.filter (fun c => isNow c && !c.reach && c.number != 0)).map (·.number)
  let lost := (chips.filter (fun c => !isNow c && c.reach && c.number != 0xFF)).map (·.number)
  let extra := (((chips.flatMap (fun c => if isNow c then c.joins.map (·.2) else [])).filter (fun id => !seen.contains id)).eraseDups)
  let newOver := extra.filter (fun id => !d.arch.extra.contains id)
  let chips := chips.map (fun (c : Chip) => { c with reach := isNow c })
  let d := { d with arch := { d.arch with chips := chips, extra := extra } }
  let d := d.w P.archIslandCount ((chips.filter (fun c => c.number != 0xFF)).length)
  let d := d.each joined (fun n d => d.raise 103 n)
  let d := d.each lost (fun n d => d.raise 104 n)
  let d := d.each newOver (fun _ d => d.raise 102 (2 ^ 13))
  d.sendAssigns (topoOf chips)

/-- DISCOVER_REPORT: the root takes a report up (R507). -/
def Dev.discoverReport (d : Dev) (h : Hdr) (b : List Byte) : Dev :=
  let (d, ok) := d.rxCheck h tDiscover b.length true
  d.iff ok (fun d =>
    let d := d.freeUnits h.port 1 (msgUnits b.length)
    d.iff (d.isRoot && h.port != 0 && b.length == 48 && field b 0 8 != 0 && field b 0 8 != d.fus.chipId) (fun d =>
      (d.learnChip (chipOf b)).rebuild))

def execDiscoverReport (dt : Nat) (hdr : Hdr) (body : List Byte) (s : State) : Host.Outcome State Fault Refusal :=
  onDev dt (fun d => d.ripIn (Instr.discoverReport 0) tDiscover hdr body (fun d h b => d.discoverReport h b)) s

/-- The width of a Strait port rose from 0 or fell to 0 (R507): the root renews its topology, a numbered island reports to it;
a port that rose is asked for the island beyond. -/
def Dev.archPortChanged (d : Dev) (port : Nat) (rose : Bool) : Dev :=
  if !d.inArch then d
  else
    let d := d.iff rose (·.discover port)
    if d.isRoot then d.rebuild
    else match d.routePort 0 with
      | none => d
      | some p => d.sendMsg p (d.mkMsg p 0 1 tDiscover true d.report)

/-- ASSIGN (R508): taken only where CHIP_ID matches. -/
def Dev.assign (d : Dev) (h : Hdr) (b : List Byte) : Dev :=
  let (d, ok) := d.rxCheck h tAssign b.length false
  d.iff ok (fun d =>
    let d := d.freeUnits h.port 1 (msgUnits b.length)
    d.iff (h.port != 0 && b.length == 92 && field b 0 8 == d.fus.chipId) (·.takeAssign (assignIn b)))

def execAssign (dt : Nat) (hdr : Hdr) (body : List Byte) (s : State) : Host.Outcome State Fault Refusal :=
  onDev dt (fun d => d.ripIn (Instr.assign 0) tAssign hdr body (fun d h b => d.assign h b)) s

/-- ASSIGN_APPLY: a slot boundary at or after SWITCH (R508). -/
def execAssignApply (dt : Nat) (s : State) : Host.Outcome State Fault Refusal :=
  onDev dt (fun d =>
    match d.arch.wait with
    | none => d
    | some a => d.iff (!d.tim.valid || a.switch ≤ d.secs) (·.applyAssign a)) s

/-! ### Verdicts (R514) -/

/-- PLAN_VERDICT: a member judges the forwarded plan, or removes it. -/
def Dev.verdict (d : Dev) (b : List Byte) : Dev :=
  let slot := field b 0 8
  let flags := field b 8 1
  let g := flags % 2
  let dl := bit flags 1
  let mine (f : Fwd) : Bool := f.slot == slot && f.group == g && f.dl == dl
  let d := d.forwardDown 1 tVerdict b
  match d.arch.fwd.find? mine with
  | none => d.iff (!bit flags 2) (fun d => d.setParts dl ((d.parts dl).filter (fun x => !x.is slot g true)))
  | some f =>
    let d := { d with arch := { d.arch with fwd := d.arch.fwd.filter (fun x => !mine x) } }
    d.iff (bit flags 2) (·.memberJudge f (field b 10 2))

/-- PLAN_VERDICT arrives on VC1. -/
def Dev.verdictIn (d : Dev) (h : Hdr) (b : List Byte) : Dev :=
  let (d, ok) := d.rxCheck h tVerdict b.length false
  d.iff ok (fun d =>
    let d := d.freeUnits h.port 1 (msgUnits b.length)
    d.iff (h.port != 0 && b.length == 16 && d.a P.redState == 1) (·.verdict b))

def execPlanVerdict (dt : Nat) (hdr : Hdr) (body : List Byte) (s : State) : Host.Outcome State Fault Refusal :=
  onDev dt (fun d => d.ripIn (Instr.planVerdict 0) tVerdict hdr body (fun d h b => d.verdictIn h b)) s

/-- VERDICT_DEADLINE: 100 us before a slot a forwarded plan without a verdict, or of which segments are missing, is late. -/
def Dev.verdictDeadline (d : Dev) (g slot : Nat) (dl : Bool) : Dev :=
  let mine (f : Fwd) : Bool := f.slot == slot && f.group == g && f.dl == dl
  let due := slot * d.slotNs ≤ d.merNs + 100000
  let some_ := d.arch.fwd.any mine || (d.parts dl).any (fun x => x.is slot g true)
  let us := (d.merNs - d.deadlineNs dl slot g) / 1000
  d.iff (d.tim.valid && due && some_) (fun d =>
    let d := { d with arch := { d.arch with fwd := d.arch.fwd.filter (fun x => !mine x) } }
    (d.setParts dl ((d.parts dl).filter (fun x => !x.is slot g true))).planLate dl g us)

def execVerdictDeadline (dt group slot : Nat) (dl : Bool) (s : State) : Host.Outcome State Fault Refusal :=
  onDev dt (·.verdictDeadline group slot dl) s

/-! ### SYNC stamps (R501) -/

/-- A Meridian time field in ps. -/
def stampPs (b : List Byte) : Nat := field b 0 8 * 10 ^ 12 + field b 8 5 * 10 ^ 12 / 2 ^ 40

/-- SYNC_STAMP from the upstream island: `upDelay` is that island's own SYNC delay. [Log: 36 DEDUCED] -/
def Dev.syncStamp (d : Dev) (h : Hdr) (b : List Byte) (upDelay : Nat) : Dev :=
  let (d, ok) := d.rxCheck h tSyncStamp b.length false
  d.iff ok (fun d =>
    let d := d.freeUnits h.port 0 (msgUnits b.length)
    let up := d.a P.archSyncUpstream
    match d.arch.myStamp with
    | none => d
    | some mine =>
      d.iff (h.port != 0 && b.length == 16 && up != 0xFF && d.a (P.archNeighbours + (h.port - 1)) == up) (fun d =>
        let hops := keepLast 16 (d.arch.hops ++ [(mine : Int) - (stampPs b : Nat)])
        let mean := rhe hops.sum hops.length
        ({ d with arch := { d.arch with hops := hops, myStamp := none } }).w P.archSyncDelay (ux 40 ((upDelay : Int) + mean))))

def execSyncStamp (dt : Nat) (hdr : Hdr) (body : List Byte) (upDelay : Nat) (s : State) : Host.Outcome State Fault Refusal :=
  onDev dt (fun d => d.ripIn (fun h b => Instr.syncStamp 0 h b upDelay) tSyncStamp hdr body (fun d h b => d.syncStamp h b upDelay)) s

/-- After an accepted SYNC edge: this island's stamp is kept for the upstream's message, and, where it drives SYNCO, sent to its
neighbours (R501). The island downstream takes it by its ArchSyncUpstream. [Log: 36 DEDUCED] -/
def Dev.syncStampOut (d : Dev) (ps : Nat) : Dev :=
  let d := { d with arch := { d.arch with myStamp := some ps } }
  if d.inArch ∧ d.a P.syncoEnable = 1 then
    d.each ((List.range 4).filter (fun p => d.portWidth (p + 1) != 0 && d.a (P.archNeighbours + p) != 0xFF)) (fun p d =>
      d.send (p + 1) 0 tSyncStamp false (leBytes 16 (d.timeAtPs ps)))
  else d

end Sys2Proof.Machine
end

