-- ==== Sys2Proof/Machine/Lanes.lean ====
section
/-!
DEFINITION. Lanes: bring-up, FFE, capabilities, port width and rate, frames and their errors, margin scans (16_lanes.md R451 to
R472). Lane and port numbers are those of the chapter: lanes 0 to 23, ports 0 Mainland, 1 to 4 S0 to S3.
-/

namespace Sys2Proof.Machine

/-! ### Lanes and their fields -/

/-- Whether a lane is in the port width. -/
def Dev.laneIn (d : Dev) (l : Nat) : Bool := d.ab (P.laneState + l) 5

/-- The record of a lane. -/
def Dev.laneRec (d : Dev) (l : Nat) : Lane := d.lane.getD l {}

/-- Change it. -/
def Dev.setLaneRec (d : Dev) (l : Nat) (f : Lane → Lane) : Dev := { d with lane := modAt d.lane l f }

/-- Put a lane into a stage at a rate, outside the width until the port takes it up. -/
def Dev.laneTo (d : Dev) (l stage rate : Nat) : Dev :=
  let v := d.a (P.laneState + l)
  let now := d.now
  (d.w (P.laneState + l) (stage + 8 * rate + 64 * bits v 6 6)).setLaneRec l (fun x => { x with since := now, resp := 0 })

/-- Whether the device holds a lane's top rate down to 8.0 Gb/s (R461, R463). -/
def Dev.laneHeld (d : Dev) (l : Nat) : Bool := l == 0 && d.pw ≤ 1

/-- The top rate of a lane (R461). -/
def Dev.topRate (d : Dev) (l : Nat) : Nat :=
  if d.laneHeld l then 0 else if l < 8 then min 3 (d.a P.mlMaxRate) else min 3 (d.a (P.stMaxRate + (portOf l - 1)))

/-- Whether a lane's enable and Riptide let it run (R460, R652). -/
def Dev.laneEnabled (d : Dev) (l : Nat) : Bool :=
  (if l < 8 then l == 0 || d.ab P.mlLaneEnable l else d.ab P.stEnable (portOf l - 1)) &&
    !(d.ripOn && d.ab P.riptideLaneDown l)

/-- Whether the power state lets a lane run (R463). -/
def Dev.lanePowered (d : Dev) (l : Nat) : Bool :=
  d.pwr.phase == .running && (2 ≤ d.pw || (d.pw == 1 && l == 0)) && !(d.goingDown && d.downTo == 0)

/-- The FFE presets of a rate (R464). -/
def ffePreset (rate : Nat) : Nat :=
  let (pre, main, post) := [(0, 31, 4), (2, 31, 6), (4, 31, 8), (4, 31, 10)].getD rate (0, 31, 4)
  pre * 1024 + main * 32 + post

/-! ### Width and rate of a port (R467 to R469) -/

/-- The lanes of a port ACTIVE at a rate within the skew limit. -/
def Dev.lanesAt (d : Dev) (p r : Nat) : List Nat :=
  (portLanes p).filter (fun l => d.laneSt l == 5 && d.laneRate l == r && !d.ab (P.laneState + l) 6)

/-- The largest width that fits. -/
def fitWidth (limit n : Nat) : Nat := ([8, 4, 2, 1].find? (fun w => w ≤ limit && w ≤ n)).getD 0

/-- Width and rate of a port: the largest payload, the higher rate between equals. -/
def Dev.bestLink (d : Dev) (p : Nat) : Nat × Nat :=
  let limit := if p = 0 then d.a P.mlWidth else 4
  [3, 2, 1, 0].foldl (fun best r =>
    let w := fitWidth limit (d.lanesAt p r).length
    if best.1 * laneMb best.2 < w * laneMb r then (w, r) else best) (0, 0)

/-- Set the width and rate of a port. -/
def Dev.setLink (d : Dev) (p w r : Nat) : Dev :=
  let d := if p = 0 then
      (d.w P.mlLinkWidth w).w P.mlPayload (w * laneMb r)
    else d.w (P.stLinkWidth + (p - 1)) w
  if w = 0 then d else if p = 0 then d.w P.mlLinkRate r else d.w (P.stLinkRate + (p - 1)) r

/-- A port's width went to or came from 0: its streams restart, the Archipelago learns of it (R418, R482, R496, R507, R523). -/
def Dev.linkToggled (d : Dev) (p : Nat) (up : Bool) : Dev :=
  let d := (d.restartPort p).iff (!up && d.timePort == some p) (·.sourceLost 1)
  -- R562: a send of a Transit record ends with the Mainland
  if p = 0 then (d.w P.mlPartnerState (if up then 2 else 0)).iff (!up) (·.w P.transitSendState 0)
  else
    let i := p - 1
    let d := if up then d.raise 100 (i + 4 * clog2 (d.portWidth p) + 16 * d.portRate p) else d.raise 101 i
    let d := d.iff (!up) (fun d => (d.redPortLost p).w (P.archNeighbours + i) 0xFF)
    d.archPortChanged p up

/-- Bring a port to the width its lanes give (R467, R468), with EV99 at a narrowing; TIME follows its lane (R427). ML0 held at 8.0 Gb/s by WATCH retrains once
it lies outside the width. -/
def Dev.portFollow (d : Dev) (p : Nat) : Dev :=
  let (w, r) := d.bestLink p
  let old := d.portWidth p
  let use := (d.lanesAt p r).take w
  let d := d.each (portLanes p) (fun l d => d.w (P.laneState + l) (putBit (d.a (P.laneState + l)) 5 (use.contains l)))
  let d := d.setLink p w r
  let d := d.iff (w < old) (·.raise 99 (p + 8 * (if w = 0 then 0 else clog2 w) + 32 * b2n (w == 0)))
  (d.iff ((old == 0) != (w == 0)) (·.linkToggled p (w != 0))).timeFollow

/-- A lane leaves ACTIVE (R469): 1 signal, 2 markers, 3 power state, 4 Riptide, 5 enable, 6 retrained. -/
def Dev.laneLeave (d : Dev) (l cause : Nat) : Dev :=
  (d.inc (P.laneDownCount + l)).iff (l < 8) (·.raise 97 (l + 8 * cause))

/-- A lane starts a cycle in DETECT at its top rate (R461). -/
def Dev.laneCycle (d : Dev) (l : Nat) : Dev :=
  let held := d.laneHeld l
  (d.laneTo l 1 (d.topRate l)).setLaneRec l (fun x => { x with toRate := 0, told := false, low := held })

/-- A lane begins a new cycle, leaving ACTIVE with a cause where it is there (R461, R462). -/
def Dev.laneRestart (d : Dev) (l cause : Nat) : Dev :=
  let was := d.laneSt l == 5
  let d := (d.iff was (·.laneLeave l cause)).laneCycle l
  d.iff was (·.portFollow (portOf l))

/-- ML0, held at 8.0 Gb/s by WATCH, retrains at its top rate once it lies outside the port width (R467). [Log: 46 DEDUCED] -/
def Dev.lane0Retrain (d : Dev) : Dev :=
  d.iff (d.laneSt 0 == 5 && (d.laneRec 0).low && !d.laneIn 0 && d.laneRate 0 < d.topRate 0 && d.portWidth 0 != 0) (·.laneRestart 0 6)

/-- A port follows its lanes, and ML0 retrains where it may. -/
def Dev.portUpdate (d : Dev) (p : Nat) : Dev := (d.portFollow p).iff (p == 0) (·.lane0Retrain)

/-- A lane goes DOWN with a cause. -/
def Dev.laneOff (d : Dev) (l cause : Nat) : Dev :=
  if d.laneSt l = 0 then d
  else
    let was := d.laneSt l == 5
    let d := (d.iff was (·.laneLeave l cause)).laneTo l 0 0
    d.iff was (·.portUpdate (portOf l))

/-- Bring one lane to what the power state, its enable and Riptide allow. -/
def Dev.laneFollow (d : Dev) (l cause : Nat) : Dev :=
  if !d.lanePowered l || !d.laneEnabled l then d.laneOff l cause
  else if d.laneSt l = 0 then d.laneCycle l
  else if d.laneHeld l && 0 < d.laneRate l then d.laneRestart l 3
  else d

/-- Every lane follows a change of the power state, of an enable, or of Riptide (R463, R652). -/
def Dev.lanesFollow (d : Dev) (cause : Nat) : Dev :=
  (d.each (List.range 24) (fun l d => d.laneFollow l cause)).lane0Retrain

/-! ### Bring-up -/

/-- LANE_DETECT_STEP (R460, R463): the step changes nothing the device holds. -/
def execLaneDetectStep (dt _lane : Nat) (s : State) : Host.Outcome State Fault Refusal := onDev dt (fun d => d) s

/-- LANE_TERMINATION_FOUND (R460, R464): the lane enters TRAIN with the presets of its rate. -/
def execLaneTerminationFound (dt lane : Nat) (s : State) : Host.Outcome State Fault Refusal :=
  onDev dt (fun d => d.iff (d.laneSt lane == 1) (fun d =>
    (d.laneTo lane 2 (d.laneRate lane)).w (P.laneFfe + lane) (ffePreset (d.laneRate lane)))) s

/-- LANE_TRAIN_DONE (R460). -/
def execLaneTrainDone (dt lane : Nat) (s : State) : Host.Outcome State Fault Refusal :=
  onDev dt (fun d => d.iff (d.laneSt lane == 2) (fun d => d.laneTo lane 3 (d.laneRate lane))) s

/-- LANE_LOCK_DONE (R460). -/
def execLaneLockDone (dt lane : Nat) (s : State) : Host.Outcome State Fault Refusal :=
  onDev dt (fun d => d.iff (d.laneSt lane == 3) (fun d => d.laneTo lane 4 (d.laneRate lane))) s

/-- A CAPS record is valid for a lane (R466). -/
def capsOk (l : Nat) (r : List Byte) : Bool :=
  let port := field r 9 1 % 8
  r.length == 32 && field r 28 4 == crc32c (r.take 28) && (if l < 8 then port == 0 else 1 ≤ port && port ≤ 4)

/-- The generations this device reports, those of the running FERRY image (R466, R616). -/
def Dev.myGens (d : Dev) : Nat × Nat × Nat :=
  let f := d.upd.run.getD 3 {}
  (f.genMain, f.genStrait, f.genTime)

/-- The partner's CAPS record on a Strait join: island 0 at both ends, and generations (R505, R529). -/
def Dev.straitCaps (d : Dev) (p : Nat) (r : List Byte) : Dev :=
  let clash := d.a P.archIslandNumber == 0 && field r 8 1 == 0
  let (gm, gs, gt) := d.myGens
  let bad := field r 13 1 != gs
  let kinds := 1 * b2n bad + 2 * b2n (field r 14 1 != gt) + 4 * b2n (field r 12 1 != gm)
  let was := d.port.getD p {}
  let d := d.setPort p (fun x => { x with conflict := clash, mismatch := bad })
  let d := d.iff (clash && !was.conflict) (·.raise 102 (2 ^ 12))
  d.iff (bad && !was.mismatch) (fun d => (d.raise 106 (p - 1 + 4 * kinds + 32 * field r 13 1)).redPortLost p)

/-- LANE_CAPS_DONE (R466 to R469, R471): the lane enters ACTIVE and is scanned. -/
def Dev.laneCaps (d : Dev) (l : Nat) (r : List Byte) : Dev :=
  if d.laneSt l ≠ 4 ∨ !capsOk l r then d
  else
    let p := portOf l
    let d := (d.laneTo l 5 (d.laneRate l)).setLaneRec l (fun x => { x with toRate := 0 })
    let d := d.w P.laneMarginScan (putBit (d.a P.laneMarginScan) l true)
    let d := d.setPort p (fun x => { x with far := r })
    let d := d.iff (p != 0) (·.straitCaps p r)
    let d := d.iff (l < 8) (·.raise 96 (l + 8 * d.laneRate l))
    d.portUpdate p

def execLaneCapsDone (dt lane : Nat) (record : List Byte) (s : State) : Host.Outcome State Fault Refusal :=
  onDev dt (·.laneCaps lane record) s

/-- The limit of a stage in ps (R460). -/
def stageLimit (st : Nat) : Nat := if st = 2 then 200 * 10 ^ 9 else if st = 3 then 10 * 10 ^ 9 else 50 * 10 ^ 9

/-- LANE_STAGE_TIMEOUT (R461). -/
def Dev.laneTimeout (d : Dev) (l : Nat) : Dev :=
  let st := d.laneSt l
  let x := d.laneRec l
  let r := d.laneRate l
  if st < 2 ∨ 4 < st ∨ d.now < x.since + stageLimit st then d
  else
    let d := d.inc (P.laneTrainTimeoutCount + l)
    let d := d.iff (!x.told) (·.raise 98 (l + 32 * r + 128 * (st - 2)))
    let n := x.toRate + 1
    let d := if n < 2 then d.laneTo l 1 r else if r = 0 then d.laneTo l 6 0 else d.laneTo l 1 (r - 1)
    d.setLaneRec l (fun x => { x with toRate := if n < 2 then n else 0, told := true })

def execLaneStageTimeout (dt lane : Nat) (s : State) : Host.Outcome State Fault Refusal := onDev dt (·.laneTimeout lane) s

/-- LANE_WAIT_END (R460). -/
def execLaneWaitEnd (dt lane : Nat) (s : State) : Host.Outcome State Fault Refusal :=
  onDev dt (fun d => d.iff (d.laneSt lane == 6 && (d.laneRec lane).since + 10 ^ 12 ≤ d.now) (·.laneCycle lane)) s

/-- LANE_LOSS_OF_SIGNAL (R462). -/
def Dev.laneLos (d : Dev) (l : Nat) : Dev :=
  let st := d.laneSt l
  if st = 5 then d.laneRestart l 1 else if 1 ≤ st ∧ st ≤ 4 then d.laneTo l 1 (d.laneRate l) else d

def execLaneLossOfSignal (dt lane : Nat) (s : State) : Host.Outcome State Fault Refusal := onDev dt (·.laneLos lane) s

/-- LANE_MARKER_LOSS (R462). -/
def execLaneMarkerLoss (dt lane : Nat) (s : State) : Host.Outcome State Fault Refusal :=
  onDev dt (fun d => d.iff (d.laneSt lane == 5) (·.laneRestart lane 2)) s

/-! ### Frames (R452, R454, R457 to R459, R465, R476) -/

/-- A request on a transmitter tap (R465): the new codes and the answer, 1 UPDATED, 2 AT_MIN, 3 AT_MAX. -/
def ffeStep (codes tap req : Nat) : Nat × Nat :=
  let pre := bits codes 14 10
  let main := bits codes 9 5
  let post := bits codes 4 0
  let v := if tap = 1 then pre else if tap = 2 then main else post
  let stop := if req = 1 then 3 else 2
  if (req = 1 ∧ v = 31) ∨ (req = 2 ∧ v = 0) then (codes, stop)
  else
    let n := if req = 1 then v + 1 else v - 1
    let (a, b, c) := if tap = 1 then (n, main, post) else if tap = 2 then (pre, n, post) else (pre, main, n)
    if b < a + c + 8 then (codes, if tap = 2 ∧ req = 2 then 2 else 3) else (a * 1024 + b * 32 + c, 1)

/-- The request of a good header. -/
def Dev.ffeRequest (d : Dev) (l hdr : Nat) : Dev :=
  let tap := bits hdr 18 17
  let req := bits hdr 16 15
  if req = 0 then d.setLaneRec l (fun x => { x with resp := 0 })
  else if (d.laneRec l).resp ≠ 0 ∨ tap = 0 ∨ req = 3 then d
  else
    let (codes, resp) := ffeStep (d.a (P.laneFfe + l)) tap req
    (d.w (P.laneFfe + l) codes).setLaneRec l (fun x => { x with resp := resp })

/-- 1,024 UI in ps (R459). -/
def skewLimit (rate : Nat) : Nat := [128000, 64000, 40000, 32000].getD rate 128000

/-- The skew flag of an ACTIVE lane by the frames of one FCOUNT (R459). [Log: 46 DEDUCED] -/
def Dev.skewCheck (d : Dev) (l fcount : Nat) : Dev :=
  let now := d.now
  let d := d.setLaneRec l (fun x => { x with fcount := fcount, frameAt := now })
  if d.laneSt l ≠ 5 then d
  else
    let p := portOf l
    let late := (portLanes p).any (fun k => d.laneIn k && (d.laneRec k).fcount == fcount &&
      (d.laneRec k).frameAt + skewLimit (d.laneRate l) < now)
    if d.ab (P.laneState + l) 6 = late then d
    else (d.w (P.laneState + l) (putBit (d.a (P.laneState + l)) 6 late)).portUpdate p

/-- The data bytes of a frame of an FCOUNT take their place in the byte stream of the port: the lanes in use in ascending number,
506 bytes of each; those of a frame that was discarded keep their places (R455, R473). A FCOUNT of which no frame was good is
counted at the width of this frame. [Log: 96 DEDUCED] -/
def Dev.rxPlace (d : Dev) (l fcount width : Nat) (data : List Byte) : Dev :=
  d.setPort (portOf l) (fun x =>
    if x.rxData.isEmpty then { x with rxCount := fcount, rxWidth := width, rxData := [(l, data)] }
    else if x.rxCount = fcount then
      { x with rxData := insertBy (·.1) (l, data) (x.rxData.filter (fun e => e.1 != l)) }
    else
      let gone := (fcount + 2 ^ 24 - x.rxCount) % 2 ^ 24 - 1
      { x with rxCount := fcount, rxWidth := width, rxData := [(l, data)], rxPos := x.rxPos + 506 * (x.rxWidth + gone * width) })

/-- The data bytes received of the present FCOUNT of a port, in stream order; none where a frame of a lane in use is missing
(R455). -/
def Dev.rxBytes (d : Dev) (p : Nat) : Option (List Byte) :=
  let x := d.port.getD p {}
  if x.rxData.length = x.rxWidth then some (x.rxData.flatMap (·.2)) else none

/-- The data bytes of a received payload (R453, R455). -/
def frameData (hdr : Nat) (pay : List Bool) : List Byte :=
  bitsToBytes 506 (unscramble (frameSeed (bits hdr 47 24) (bits hdr 23 21)) (pay.drop 48))

/-- The CAPS record a lane sends (R466). -/
def Dev.capsRecord (d : Dev) (l : Nat) : List Byte :=
  let p := portOf l
  let (gm, gs, gt) := d.myGens
  let body := leBytes 8 d.fus.chipId ++ leBytes 1 d.shownIsland ++ leBytes 1 (p + 8 * (l - (portLanes p).headD 0)) ++ leBytes 1 0x0F
    ++ leBytes 1 (if p = 0 then 0x0F else 0x07) ++ leBytes 1 gm ++ leBytes 1 gs ++ leBytes 1 gt ++ zeros 13
  body ++ leBytes 4 (crc32c body)

/-- The bits of the frame a lane in CAPS sends: its data begins with the record, the rest is zero (R466). -/
def Dev.capsFrame (d : Dev) (l fcount : Nat) : List Bool :=
  let pos := l - (portLanes (portOf l)).headD 0
  frameBits fcount pos (laneHeader fcount pos 2 0 0 (d.laneRec l).resp true 0) (padTo 506 (d.capsRecord l))

/-- The bits of the frames a port sends for one FCOUNT: its data bytes in the lanes in use (R455), with the header each lane sends
(R452, R468). -/
def Dev.txFrames (d : Dev) (p fcount : Nat) (data : List Byte) : List (Nat × List Bool) :=
  let used := (portLanes p).filter d.laneIn
  (used.zip (laneData used.length data)).map (fun e =>
    let pos := e.1 - (portLanes p).headD 0
    let header := laneHeader fcount pos 3 0 0 (d.laneRec e.1).resp true (clog2 used.length)
    (e.1, frameBits fcount pos header e.2))

/-- LANE_FRAME: `bs` the bits that follow the marker. -/
def Dev.laneFrame (d : Dev) (l : Nat) (bs : List Bool) : Dev :=
  if d.laneSt l < 2 ∨ 5 < d.laneSt l then d
  else
    let (pay, removed, bad) := destuff 4096 true 1 bs
    let hdr := bitsMsb (pay.take 48)
    let ok := !bad && pay.length == 4096 && crc8 (pay.take 40) == hdr % 256
    let d := (d.add (P.laneStuffCount + l) removed).setLaneRec l (fun x => { x with stuff := x.stuff + removed })
    if ok then
      let d := (d.ffeRequest l hdr).skewCheck l (bits hdr 47 24)
      d.iff (d.laneIn l) (·.rxPlace l (bits hdr 47 24) (2 ^ bits hdr 11 10) (frameData hdr pay))
    else
      let d := (d.inc (P.laneHeaderErrorCount + l)).setLaneRec l (fun x => { x with hdrErr := x.hdrErr + 1 })
      -- R476: the receiver of a port in use hunts after a discarded frame
      d.iff (l < 8 && d.laneIn l) (·.inc P.mlRxResyncCount)

def execLaneFrame (dt lane : Nat) (bits : List Bool) (s : State) : Host.Outcome State Fault Refusal :=
  onDev dt (·.laneFrame lane bits) s

/-- LANE_ERROR_SECOND (R457, R458, R484): the rates of the second that ends. -/
def Dev.laneSecond (d : Dev) : Dev :=
  let lim := d.a P.laneErrorLimit
  let d := d.each (List.range 24) (fun l d =>
    let x := d.laneRec l
    let d := d.iff (lim < x.hdrErr) (·.raise 107 (l + 32 * sat 4095 x.hdrErr))
    let d := d.iff (d.a P.laneStuffLimit < x.stuff) (·.raise 108 (l + 32 * sat 4095 (x.stuff / 16)))
    d.setLaneRec l (fun x => { x with hdrErr := 0, stuff := 0 }))
  d.each (List.range 5) (fun p d =>
    let n := (d.port.getD p {}).crcErr
    (d.iff (lim < n) (·.raise 107 (31 + 32 * sat 4095 n))).setPort p (fun x => { x with crcErr := 0 }))

def execLaneErrorSecond (dt : Nat) (s : State) : Host.Outcome State Fault Refusal := onDev dt (·.laneSecond) s

/-! ### Writes and scans -/

/-- A write to MlMaxRate or a StMaxRate entry stands (R461): a lowered one retrains lanes above it at once. -/
def Dev.maxRateWritten (d : Dev) (p old : Nat) : Dev :=
  let new := if p = 0 then d.a P.mlMaxRate else d.a (P.stMaxRate + (p - 1))
  if old ≤ new then d
  else d.each (portLanes p) (fun l d =>
    let st := d.laneSt l
    d.iff (2 ≤ st && st ≤ 5 && new < d.laneRate l) (·.laneRestart l 6))

/-- A write to LaneMarginScan stands (R471): only ACTIVE lanes are scanned. -/
def Dev.scanWritten (d : Dev) (v : Nat) : Dev :=
  d.w P.laneMarginScan (maskOr 24 (d.a P.laneMarginScan) (maskOf 24 (fun l => bit v l && d.laneSt l == 5)))

/-- LANE_MARGIN_SCAN_DONE (R471). -/
def execLaneMarginScanDone (dt lane width height : Nat) (s : State) : Host.Outcome State Fault Refusal :=
  onDev dt (fun d => d.iff (d.ab P.laneMarginScan lane && lane < 24) (fun d =>
    ((d.w (P.laneEyeWidth + lane) (width % 2 ^ keyBits P.laneEyeWidth)).w (P.laneEyeHeight + lane) (height % 2 ^ keyBits P.laneEyeHeight)).w
      P.laneMarginScan (putBit (d.a P.laneMarginScan) lane false))) s

end Sys2Proof.Machine
end

