-- ==== Sys2Proof/Machine/DmaEngine.lean ====
section
/-!
DEFINITION. The internal map as a reader sees it (05_package_memory_catalogue.md R137, R138) and the DMA engine (19_dma.md R531
to R547). A descriptor's beats take effect when it ends or its channel stops: R532 orders them against nothing else.
-/

namespace Sys2Proof.Machine

/-! ### The internal map (R137, R138) -/

/-- R_t for w words per instant (R552). -/
def ringInstants (w : Nat) : Nat := if w = 0 then 0 else 402653184 / (5 * w)

/-- The regions: first and last address, and whether DMA may write. -/
def regions : List (Nat × Nat × Bool) :=
  [(0x0000000000, 0x003FFFFFFF, false), (0x0040000000, 0x0053FFFFFF, false), (0x0054000000, 0x006BFFFFFF, false),
   (0x006C000000, 0x006FFFFFFF, false), (0x0070000000, 0x0070000FFF, false), (0x0070001000, 0x007FFFFFFF, true),
   (0x0100000000, 0x01007FFFFF, false), (0x0200000000, 0x02001FFFFF, false), (0x0200200000, 0x0200FFFFFF, true),
   (0x0300000000, 0x030FFFFFFF, false)]

/-- Whether a range lies wholly within one region, open to DMA write where asked. -/
def inRegion (write : Bool) (a n : Nat) : Bool :=
  regions.any (fun r => r.1 ≤ a && a + n ≤ r.2.1 + 1 && (!write || r.2.2))

/-- A byte of a ring of `cap` entries of `size` bytes in MRAM, of which `total` were ever written and the newest are held, oldest
first: the entry written as number k lies at place k mod `cap` (DEDUCED: the spec calls it a ring). [Log: 26 DEDUCED] -/
def ringByte (entries : List (List Byte)) (cap total size addr : Nat) : Byte :=
  let first := (total - entries.length) % cap
  let i := (addr / size + cap - first) % cap
  (entries.getD i (zeros size)).getD (addr % size) 0#8

/-- The entries the audit ring holds (R609). [Log: 26 DEDUCED] -/
def audCap : Nat := 65536

/-- The 32 bytes of an audit entry (R608). -/
def Aud.bytes (a : Aud) : List Byte :=
  let body := leBytes 4 a.seq ++ leBytes 4 (a.secs % 2 ^ 32) ++ leBytes 4 (a.frac / 256) ++ leBytes 1 a.kind ++ leBytes 1 a.who
    ++ leBytes 2 a.index ++ leBytes 1 a.sub ++ leBytes 1 a.result ++ leBytes 4 a.old ++ leBytes 4 a.new ++ zeros 2
  body ++ leBytes 4 (crc32c body)

/-- A byte of the Transit region (R552): the words of a complete record as stored; what else Transit has written there since the region
was initialised no command brings, and it is free. [Log: 48 DEDUCED] -/
def Dev.traRead (d : Dev) (m : Memory) (a : Nat) : Byte :=
  let held : Bool := match d.tra.kept with
    | none => false
    | some (w, j0, n) =>
      let r := ringInstants w
      let j := (a - 0x54000000) / (5 * w)
      decide (j < r) && decide ((j + r - j0) % r < n)
  if d.tra.wrote && !held then Config.freeByte d.clk.free a else m.get a

/-- The numbers of the records the areas of MRAM without a byte layout hold: Charts, the trim and Collimation records, the shutdown log,
the update record (R138). [Log: 25 DESIGN CHOICE] -/
def Dev.mramRecs (d : Dev) : List Nat :=
  d.cha.recs.map (fun r => (r.map (fun x => 2 * x.seq + b2n x.ok)).getD 0) ++
    [d.rx.trimSeq, (d.col.store.map (·.seq)).getD 0, d.shutLog.length, d.cat.genMram, d.nvm.count, d.nvm.used] ++ d.upd.slots

/-- A byte of the internal map. The log rings, the warm starts and the sentinel history read as their entries and records; MRAM without
a layout, the control block while it holds a copy, and the retention bank hold what the spec gives no bytes for: free bytes.
[Log: 25 DESIGN CHOICE] -/
def Dev.busByte (d : Dev) (m : Memory) (p : Places) (a : Nat) : Byte :=
  if 0x0100000000 ≤ a ∧ a < 0x0100200000 then 
    ringByte (d.aud.map Aud.bytes) audCap ((d.aud.getLast?.map (·.seq)).getD 0) 32 (a - 0x0100000000)
  else if 0x0100200000 ≤ a ∧ a < 0x01002C0000 then ringByte (p.log.map Ev.logBytes) logCap p.logged 24 (a - 0x0100200000)
  else if 0x01004C0000 ≤ a ∧ a < 0x0100790000 then d.warmByte (a - 0x01004C0000)
  else if 0x01002C0000 ≤ a ∧ a < 0x0100800000 then Config.mramByte d.alm d.mramRecs a
  else if 0x54000000 ≤ a ∧ a < 0x6C000000 then d.traRead m a
  else if 0x6C000000 ≤ a ∧ a < 0x70000000 then d.ringAt m a
  else if 0x70000000 ≤ a ∧ a < 0x70001000 then (if d.cat.ctlOk then Config.freeByte d.clk.free a else m.get a)
  else if 0x0200000000 ≤ a ∧ a < 0x0200200000 then Config.freeByte d.clk.free a
  else m.get a

/-- Read bytes of the internal map. -/
def Dev.busRead (d : Dev) (m : Memory) (p : Places) (a n : Nat) : List Byte := (List.range n).map (fun i => d.busByte m p (a + i))

/-! ### Channel state (R537, R546) -/

/-- A channel's record. -/
def Dev.dmaCh (d : Dev) (c : Nat) : DmaCh := d.dma.ch.getD c {}

/-- Change it. -/
def Dev.setDma (d : Dev) (c : Nat) (f : DmaCh → DmaCh) : Dev := { d with dma := { d.dma with ch := modAt d.dma.ch c f } }

/-- STATE of a channel: 0 IDLE, 1 QUEUED, 2 RUNNING, 3 TAIL_WAIT, 4 SUSPENDED, 5 HALTED. -/
def Dev.dmaSt (d : Dev) (c : Nat) : Nat := d.a (P.dmaState + c) % 8

/-- Set STATE. -/
def Dev.dmaTo (d : Dev) (c st : Nat) : Dev := let v := d.a (P.dmaState + c); d.w (P.dmaState + c) (v - v % 8 + st)

/-- Set bit 4 (EOC_SEEN) or 5 (CONTINUE). -/
def Dev.dmaBit (d : Dev) (c n : Nat) (b : Bool) : Dev := d.w (P.dmaState + c) (putBit (d.a (P.dmaState + c)) n b)

/-- Set LAST_STATUS. -/
def Dev.dmaStatus (d : Dev) (c st : Nat) : Dev := let v := d.a (P.dmaState + c); d.w (P.dmaState + c) (v - bits v 7 6 * 64 + st * 64)

/-- Bulk channels. -/
def bulk (c : Nat) : Bool := 8 ≤ c

/-- EV112 to EV119 (R541). -/
def Dev.dmaEvent (d : Dev) (c st : Nat) : Dev :=
  d.iff (bulk c) (·.raise (112 + (c - 8)) (st + 4 * sat 32767 (d.dmaCh c).done))

/-! ### Descriptors (R533 to R536) -/

/-- A descriptor of its 32 bytes. -/
def descOf (b : List Byte) : Desc where
  src := field b 0 5
  dst := field b 5 5
  next := field b 10 5
  op := field b 15 1 % 4
  count := field b 16 4
  flags := field b 20 1
  const := field b 24 5
  bad := field b 15 1 / 4 != 0 || field b 20 1 / 16 != 0 || field b 21 3 != 0 || field b 29 3 != 0

/-- EOC. -/
def Desc.eoc (x : Desc) : Bool := bit x.flags 0

/-- The address a descriptor fails its checks at; none where it passes (R535). -/
def Desc.fault (x : Desc) (addr : Nat) : Option Nat :=
  let n := x.count
  if x.op = 3 ∨ x.bad ∨ n = 0 ∨ (x.op = 1 ∧ n % 5 ≠ 0) then some addr
  else if x.op ≠ 1 ∧ !inRegion false x.src n then some x.src
  else if !inRegion (x.op != 2) x.dst n then some x.dst
  else if x.op = 0 ∧ x.src < x.dst + n ∧ x.dst < x.src + n then some x.dst
  else none

/-- Whether the address of a descriptor is one it may lie at (R533). -/
def descAddrOk (a : Nat) : Bool := a % 32 == 0 && inRegion false a 32

/-- The bytes a descriptor writes from byte `lo` to byte `hi` of its range. [Log: 47 DEDUCED] -/
def Dev.descMove (d : Dev) (m : Memory) (p : Places) (x : Desc) (lo hi : Nat) : List MemOp :=
  if hi ≤ lo then []
  else if x.op = 0 then [.put (x.dst + lo) (d.busRead m p (x.src + lo) (hi - lo))]
  else if x.op = 1 then [.put (x.dst + lo) (((List.range (hi - lo)).map (fun i => (leBytes 5 x.const).getD ((lo + i) % 5) 0#8)))]
  else []

/-- The first unequal byte of a COMPARE from `lo` to `hi`. -/
def Dev.descDiffer (d : Dev) (m : Memory) (p : Places) (x : Desc) (lo hi : Nat) : Option Nat :=
  ((List.range (hi - lo)).find? (fun i => d.busByte m p (x.src + lo + i) != d.busByte m p (x.dst + lo + i))).map (lo + ·)

/-- Package-memory bytes of a channel's traffic counted for its class (R148, R531). -/
def Dev.dmaServed (d : Dev) (c : Nat) (x : Desc) (n : Nat) : Dev :=
  let one (a : Nat) : Nat := if a < ipmEnd then n else 0
  d.served (if bulk c then 6 else 3) ((if x.op = 1 then 0 else one x.src) + one x.dst)

/-! ### Running a channel -/

/-- A descriptor ends with mismatch or error: the channel halts (R537, R541). One whose bytes were compared counts as completed.
[Log: 47 DEDUCED] -/
def Dev.dmaHalt (d : Dev) (c st fault : Nat) : Dev :=
  let d := (((d.w (P.dmaFaultAddr + c) fault).dmaStatus c st).dmaTo c 5).iff (st == 1) (·.inc (P.dmaDescCount + c))
  (d.setDma c (fun x => { x with desc := none, fetch := none, done := x.done + b2n (st == 1) })).dmaEvent c st

/-- Read the descriptor at an address, check it and run it (R534, R535). -/
def Dev.dmaBegin (d : Dev) (m : Memory) (p : Places) (c addr : Nat) : Dev :=
  let d := (d.w (P.dmaCurrentDesc + c) addr).setDma c (fun x => { x with fetch := none, moved := 0 })
  if !descAddrOk addr then d.dmaHalt c 2 addr
  else
    let x := descOf (d.busRead m p addr 32)
    let d := (d.w (P.dmaRemaining + c) x.count).dmaBit c 4 x.eoc
    match x.fault addr with
    | some f => d.dmaHalt c 2 f
    | none => (d.dmaTo c 2).setDma c (fun y => { y with desc := some x })

/-- A channel fetches a descriptor: a real-time one runs it, a bulk one joins the queue; a disabled one waits (R538, R540,
R544). -/
def Dev.dmaFetch (d : Dev) (m : Memory) (p : Places) (c addr : Nat) : Dev :=
  let d := d.setDma c (fun x => { x with desc := none, fetch := some addr })
  if !d.ab P.dmaEnable c then d
  else if bulk c then
    let d := d.dmaTo c 1
    { d with dma := { d.dma with queue := d.dma.queue.filter (· != c) ++ [c] } }
  else d.dmaBegin m p c addr

/-- Start a channel at a descriptor address (R538); the caller has checked its state. -/
def Dev.dmaStart (d : Dev) (m : Memory) (p : Places) (c addr : Nat) : Dev :=
  let d := ((d.dmaBit c 5 false).dmaBit c 4 false).dmaTo c 0
  (d.setDma c (fun x => { x with done := 0 })).dmaFetch m p c addr

/-- Whether a start is accepted. -/
def Dev.dmaMayStart (d : Dev) (c : Nat) : Bool := d.dmaSt c == 0 || d.dmaSt c == 3 || d.dmaSt c == 5

/-- CONTINUE of a parked channel: EOC and NEXT of the tail are read again (R543). -/
def Dev.dmaTail (d : Dev) (m : Memory) (p : Places) (c : Nat) : Dev :=
  if !d.ab P.dmaEnable c then d.dmaBit c 5 true
  else
    let d := d.dmaBit c 5 false
    let x := descOf (d.busRead m p (d.a (P.dmaCurrentDesc + c)) 32)
    if x.eoc then d.inc P.dmaContinueNoopCount else (d.dmaBit c 4 false).dmaFetch m p c x.next

/-- Ring CONTINUE on the channels of a mask. -/
def Dev.dmaContinueMask (d : Dev) (m : Memory) (p : Places) (mask : Nat) : Dev :=
  d.each (bitList 16 mask) (fun c d =>
    if d.dmaSt c = 3 then d.dmaTail m p c else d.iff (d.dmaSt c == 2) (·.dmaBit c 5 true))

/-- A real-time descriptor's pulse (R539). -/
def Dev.dmaPulse (d : Dev) (c : Nat) (x : Desc) : Dev :=
  d.iff (!bulk c && bits x.flags 3 2 != 0) (fun d =>
    (d.w (P.dmaPulseTime0 + 65536 * c) d.timeNow).inc (P.dmaPulseCount + c))

/-- A descriptor completes with status done (R541, R543). -/
def Dev.dmaDone (d : Dev) (m : Memory) (p : Places) (c : Nat) (x : Desc) : Dev :=
  let d := ((d.w (P.dmaRemaining + c) 0).dmaStatus c 0).inc (P.dmaDescCount + c)
  let d := (d.setDma c (fun y => { y with desc := none, moved := 0, done := y.done + 1 })).dmaPulse c x
  let ev := bit x.flags 1
  if !x.eoc then ((d.dmaBit c 5 false).iff ev (·.dmaEvent c 0)).dmaFetch m p c x.next
  else
    let cont := bit (d.a (P.dmaState + c)) 5
    let d := d.dmaTo c 3
    let d := d.iff (ev || !cont) (·.dmaEvent c 0)
    d.iff cont (·.dmaTail m p c)

/-- The byte offset at which an uncorrectable burst stops a descriptor: the start of the beat that meets it. [Log: 47 DEDUCED] -/
def badBeat (x : Desc) (a : Nat) : Nat :=
  let b := a / 32 * 32
  let off (base : Nat) : Option Nat := if base < b + 32 ∧ b < base + x.count then some ((b - base) / 40 * 40) else none
  (off x.src).getD ((off x.dst).getD x.count)

/-- DMA_DESCRIPTOR_DONE: the rest of the descriptor's beats are carried out. `badAt` is the address of an uncorrectable burst
met while reading. [Log: 47 DEDUCED] -/
def Dev.dmaFinish (d : Dev) (m : Memory) (p : Places) (c : Nat) (badAt : Option Nat) : Dev × List MemOp :=
  let ch := d.dmaCh c
  match ch.desc with
  | none => (d, [])
  | some x =>
    if d.dmaSt c ≠ 2 then (d, [])
    else
      let stop := match badAt with
        | some a => if x.op = 1 then x.count else max ch.moved (badBeat x a)
        | none => x.count
      let diff := if x.op = 2 then d.descDiffer m p x ch.moved stop else none
      match diff with
      | some i =>
        let d := (d.dmaServed c x (i + 1 - ch.moved)).w (P.dmaRemaining + c) (x.count - i / 40 * 40)
        (d.dmaHalt c 1 (x.dst + i), [])
      | none =>
        let ops := d.descMove m p x ch.moved stop
        let d := d.dmaServed c x (stop - ch.moved)
        if stop < x.count then
          let a := badAt.getD 0
          let d := d.w (P.dmaRemaining + c) (x.count - stop)
          let (d, stale) := if a < catBytes then d.readEntry m (a / 128) .uncorrectable (a % 128 / 32)
            else (d.eccUncorrectable a false, [])
          ((d.iff (a < catBytes) (·.spoilNow (a / 128))).dmaHalt c 2 a, ops ++ stale)
        else (d.dmaDone (m.applyAll ops) p c x, ops)

def execDmaDescriptorDone (dt channel : Nat) (badAt : Option Nat) (s : State) : Host.Outcome State Fault Refusal :=
  onAll dt (fun d m p => d.dmaFinish m p channel badAt) s

/-- DMA_QUEUE_TURN (R540): the front of the queue runs once no other bulk descriptor does. -/
def Dev.dmaTurn (d : Dev) (m : Memory) (p : Places) : Dev :=
  match d.dma.queue with
  | [] => d
  | c :: rest =>
    if (List.range 16).any (fun k => bulk k && d.dmaSt k == 2) then d
    else
      let d := { d with dma := { d.dma with queue := rest } }
      let ch := d.dmaCh c
      match ch.fetch with
      | some addr => d.dmaBegin m p c addr
      | none => if ch.desc.isSome then d.dmaTo c 2 else d.dmaTo c 0

def execDmaQueueTurn (dt : Nat) (s : State) : Host.Outcome State Fault Refusal :=
  onAll dt (fun d m p => (d.dmaTurn m p, [])) s

/-! ### Stopping (R538, R544, R545) -/

/-- A channel stops at `moved` bytes of its descriptor: what it moved, and what is left. [Log: 47 DEDUCED] -/
def Dev.dmaStopAt (d : Dev) (m : Memory) (p : Places) (c moved : Nat) : Dev × List MemOp :=
  let ch := d.dmaCh c
  match ch.desc with
  | none => (d, [])
  | some x =>
    let stop := max ch.moved (min moved x.count)
    let ops := d.descMove m p x ch.moved stop
    let d := d.dmaServed c x (stop - ch.moved)
    ((d.w (P.dmaRemaining + c) (x.count - stop)).setDma c (fun y => { y with moved := stop }), ops)

/-- Clear the enable of one channel (R544): RUNNING stops after `moved` bytes, QUEUED leaves the queue. -/
def Dev.dmaDisableOne (d : Dev) (m : Memory) (p : Places) (c moved : Nat) : Dev × List MemOp :=
  let st := d.dmaSt c
  let d := d.w P.dmaEnable (putBit (d.a P.dmaEnable) c false)
  if st = 2 then
    let (d, ops) := d.dmaStopAt m p c moved
    (((d.dmaTo c 4).iff (bulk c) (·.dmaStatus c 3)).dmaEvent c 3, ops)
  else if st = 1 then
    let d := { d with dma := { d.dma with queue := d.dma.queue.filter (· != c) } }
    (d.dmaTo c 4, [])
  else (d, [])

/-- Change channels one after the other, memory following. -/
def Dev.dmaEach (d : Dev) (m : Memory) (l : List Nat) (f : Dev → Memory → Nat → Dev × List MemOp) : Dev × List MemOp :=
  l.foldl (fun acc c =>
    let (d, ops) := f acc.1 (m.applyAll acc.2) c
    (d, acc.2 ++ ops)) (d, [])

/-- Clear enables (R544): `beats` per channel, those completed of its descriptor. -/
def Dev.dmaDisableMask (d : Dev) (m : Memory) (p : Places) (mask : Nat) (beats : List Nat) : Dev × List MemOp :=
  d.dmaEach m (bitList 16 mask) (fun d m c => d.dmaDisableOne m p c (40 * beats.getD c 0))

/-- Set enables (R544): a suspended descriptor resumes, a pending fetch or CONTINUE takes place. -/
def Dev.dmaEnableMask (d : Dev) (m : Memory) (p : Places) (mask : Nat) : Dev :=
  d.each (bitList 16 mask) (fun c d =>
    let was := d.ab P.dmaEnable c
    let d := d.w P.dmaEnable (putBit (d.a P.dmaEnable) c true)
    let ch := d.dmaCh c
    let st := d.dmaSt c
    if was then d
    else match ch.fetch with
      | some a => d.dmaFetch m p c a
      | none =>
        if st = 4 then
          if bulk c then { d.dmaTo c 1 with dma := { d.dma with queue := d.dma.queue.filter (· != c) ++ [c] } } else d.dmaTo c 2
        else d.iff (st == 3 && bit (d.a (P.dmaState + c)) 5) (·.dmaTail m p c))

/-- Take one channel to IDLE (R538). How far a running descriptor got is a matter of time: a free value. [Log: 47 DEDUCED] -/
def Dev.dmaAbortOne (d : Dev) (m : Memory) (p : Places) (c : Nat) : Dev × List MemOp :=
  let ch := d.dmaCh c
  let live := ch.desc.isSome
  let (n, d) := if d.dmaSt c = 2 then d.free (600 + c) 27 else (0, d)
  let (d, ops) := if d.dmaSt c = 2 then d.dmaStopAt m p c (ch.moved + 40 * n) else (d, [])
  let d := (d.dmaTo c 0).dmaBit c 5 false
  let d := { d with dma := { d.dma with queue := d.dma.queue.filter (· != c) } }
  let d := d.setDma c (fun y => { y with desc := none, moved := 0, fetch := none })
  (d.iff (live && bulk c) (fun d => (d.dmaStatus c 3).dmaEvent c 3), ops)

/-- Abort the channels of a mask. -/
def Dev.dmaAbortMask (d : Dev) (m : Memory) (p : Places) (mask : Nat) : Dev × List MemOp :=
  d.dmaEach m (bitList 16 mask) (fun d m c => d.dmaAbortOne m p c)

/-- A transition to DEEP stops every channel (R545); it is IDLE and disabled from then on. [Log: 75 DEDUCED] -/
def Dev.dmaDeep (d : Dev) (m : Memory) (p : Places) : Dev × List MemOp :=
  d.dmaEach m (List.range 16) (fun d m c =>
    let (n, d) := d.free (620 + c) 27
    let (d, ops) := d.dmaDisableOne m p c ((d.dmaCh c).moved + 40 * n)
    let d := { d with dma := { d.dma with queue := d.dma.queue.filter (· != c) } }
    (((d.dmaTo c 0).dmaBit c 5 false).setDma c (fun _ => {}), ops))

end Sys2Proof.Machine
end

