-- ==== Sys2Proof/Machine/Transit.lean ====
section
/-!
DEFINITION. Transit capture: arming, the trigger sequencer, records, reading out (20_transit_capture.md R548 to R563). What was
captured is an operand of the command that reports a record complete; a command that needs the count of instants captured
carries it.
-/

namespace Sys2Proof.Machine

/-! ### Sources (R548, R552) -/

/-- w of the present selection. -/
def Dev.traWords (d : Dev) : Nat :=
  let paths := popc 64 (d.a P.transitPathMask)
  let bins := d.a P.transitBinCount
  match d.a P.transitSource with
  | 0 => paths
  | 1 => paths
  | 2 => paths * bins
  | 3 => 64 * bins
  | 4 => d.sentinelN
  | _ => 0

/-- The capture rate of the present selection in bytes per second, times 2^15 (R548). -/
def Dev.traRate (d : Dev) : Nat :=
  let w := d.traWords
  let g := d.a P.transitGroup % 2
  let u := 2 ^ 15
  match d.a P.transitSource with
  | 0 => 5 * w * (if d.wide then 800000000 else 400000000) * u
  | 1 => 5 * w * d.fb g * 100000 * u
  | 2 => 5 * d.binRate g w 1
  | 3 => 5 * d.binRate g w 1
  | 4 => 5 * w * d.fb 0 * 100000 * u
  | _ => 0

/-! ### The sequencer (R556, R557) -/

/-- TransitState: 0 OFF, 1 ARMED, 2 TRIGGERED, 3 REARM, 4 HELD. -/
def Dev.traSt (d : Dev) : Nat := d.a P.transitState

/-- The condition entry of a sequencer state. -/
def Dev.seqEntry (d : Dev) (s : Nat) : Nat := d.a (P.transitStateCond + s)

/-- Enter a sequencer state: counter and timer restart. -/
def Dev.seqEnter (d : Dev) (s : Nat) : Dev :=
  { d.w P.transitSeqState s with tra := { d.tra with cnt := 0, timerAt := d.now } }

/-- Whether an occurrence meets the condition of a sequencer state (R556). -/
def Dev.condMet (d : Dev) (s cond arg : Nat) : Bool :=
  let e := d.seqEntry s
  let want := bits e 19 4
  cond != 0 && e % 16 == cond &&
    (match cond with
     | 2 => bits want 8 6 == bits arg 8 6 && (bit want 9 || bits want 5 0 == bits arg 5 0)
     | 4 => bit want 0 == bit arg 0
     | 7 => bits want 2 0 == bits arg 2 0
     | _ => true)

/-! ### Arming (R555) -/

/-- Whether an arm is accepted. -/
def Dev.traMayArm (d : Dev) : Bool :=
  (d.traSt == 0 || d.traSt == 4) && d.a P.transitEnable == 1 && d.a P.transitSource != 0xFF && d.a P.transitSendState == 0
    && d.a P.memState == 0

/-- Arm: the selection stands for the record, the sequencer enters state 0. -/
def Dev.traArm (d : Dev) : Dev :=
  let sel := [d.a P.transitSource, d.a P.transitGroup, b2n d.wide, d.a P.transitPathMask, d.a P.transitFirstBin,
    d.a P.transitBinCount, d.traWords, d.a P.transitPreDepth, d.a P.transitPostDepth]
  let d := { d with tra := { d.tra with trig := none, trigBy := 0, armed := sel, ignored := 0, lastEdge := none, wrote := true, kept := none } }
  (d.w P.transitState 1).seqEnter 0

/-- Field of the selection at the arm. -/
def Dev.traSel (d : Dev) (i : Nat) : Nat := d.tra.armed.getD i 0

/-! ### The trigger (R558 to R560) -/

/-- Drive TRIG_OUT for TransitTrigOutWidth; an overlapping pulse extends the one that runs (R559). -/
def Dev.trigOut (d : Dev) : Dev :=
  let w := d.a P.transitTrigOutWidth * 1000
  if w = 0 then d
  else
    let on := d.tra.trigOutTill != 0
    let d := d.iff (!on) (·.pin .trigOut true)
    { d with tra := { d.tra with trigOutTill := max d.tra.trigOutTill (d.now + w) } }

/-- Declare the trigger at a Meridian instant in ps with trigger index `t`. -/
def Dev.traTrigger (d : Dev) (cond t mer : Nat) : Dev :=
  let cur := d.a P.transitSeqState
  let by_ := cur % 8 + 8 * cond
  let d := { d with tra := { d.tra with trig := some (mer, t), trigBy := by_ } }
  ((d.w P.transitState 2).raise 120 (by_ + 128 * ((d.tra.rcd + 1) % 1024))).trigOut

/-- An occurrence ignored in REARM (R560). [Log: 48 DEDUCED] -/
def Dev.traIgnore (d : Dev) : Dev :=
  { d.inc P.transitIgnoredCount with tra := { (d.inc P.transitIgnoredCount).tra with ignored := d.tra.ignored + 1 } }

/-- TRANSIT_COND_OCCURRENCE (R557, R558): `t` instants precede the occurrence, which lies `backPs` before now.
[Log: 48 DEDUCED] -/
def Dev.traOccur (d : Dev) (cond arg t backPs : Nat) : Dev :=
  let s := d.a P.transitSeqState
  if d.traSt = 3 then d.iff (d.condMet 0 cond arg) (·.traIgnore)
  else if d.traSt ≠ 1 ∨ !d.condMet s cond arg then d
  else
    let edge := (d.now - backPs) / 10000
    if d.tra.lastEdge = some edge then d
    else
      let n := d.tra.cnt + 1
      let d := { d with tra := { d.tra with cnt := n, lastEdge := some edge } }
      if n < max 1 (d.a (P.transitStateCount + s)) then d
      else
        let e := d.seqEntry s
        if bit e 21 then
          d.traTrigger cond t (d.merPs - backPs - (if cond = 4 then d.a P.transitTrigInDelay else 0))
        else d.seqEnter (bits e 27 25)

def execTransitCondOccurrence (dt cond arg instants backPs : Nat) (s : State) : Host.Outcome State Fault Refusal :=
  onDev dt (·.traOccur cond arg instants backPs) s

/-- TRANSIT_STATE_TIMEOUT (R557). -/
def execTransitStateTimeout (dt : Nat) (s : State) : Host.Outcome State Fault Refusal :=
  onDev dt (fun d =>
    let cur := d.a P.transitSeqState
    let e := d.seqEntry cur
    d.iff (d.traSt == 1 && bit e 20 && d.tra.timerAt + 10000 * d.a (P.transitStateTimer + cur) ≤ d.now) (fun d =>
      d.seqEnter (bits e 24 22))) s

/-- TransitForce with 1 (R558, R560): `t` instants precede it. -/
def Dev.traForce (d : Dev) (t : Nat) : Dev :=
  if d.traSt = 1 then d.traTrigger 15 t d.merPs else if d.traSt = 3 then d.traIgnore else d

/-- TRIG_OUT_PULSE_END (R559). -/
def execTrigOutPulseEnd (dt : Nat) (s : State) : Host.Outcome State Fault Refusal :=
  onDev dt (fun d => d.iff (d.tra.trigOutTill != 0 && d.tra.trigOutTill ≤ d.now) (fun d =>
    ({ d with tra := { d.tra with trigOutTill := 0 } }).pin .trigOut false)) s

/-! ### Completion (R553, R554, R561) -/

/-- The record header. -/
def Dev.traHeader (d : Dev) (rcd flags j0 pre post phase : Nat) : List Byte :=
  let time := match d.tra.trig with
    | some (mer, _) => d.timeAtPs mer
    | none => 0
  let body := leBytes 4 rcd ++ leBytes 1 (d.traSel 0) ++ leBytes 1 flags ++ leBytes 1 d.tra.trigBy ++ zeros 1
    ++ leBytes 8 (d.traSel 3) ++ leBytes 2 (d.traSel 4) ++ leBytes 2 (d.traSel 5) ++ leBytes 4 (d.traSel 6)
    ++ leBytes 5 j0 ++ leBytes 5 pre ++ leBytes 5 post ++ zeros 1 ++ leBytes 16 time ++ leBytes 4 phase
  body ++ leBytes 4 (crc32c body)

/-- A record ends: its header, EV121, the counts; the state afterwards. -/
def Dev.traEnd (d : Dev) (trunc : Bool) (t pre post phase next : Nat) : Dev :=
  let rcd := (d.tra.rcd + 1) % 2 ^ 32
  let noTrig := d.tra.trig.isNone
  let flags := d.traSel 1 % 2 + 2 * d.traSel 2 + 4 * b2n trunc + 8 * b2n (pre < d.traSel 7) + 16 * b2n noTrig
  let j0 := (t - pre) % max 1 (ringInstants (d.traSel 6))
  let d := d.wOctets P.transitRecordHeader (d.traHeader rcd flags j0 pre post phase)
  let d := { d with tra := { d.tra with rcd := rcd, kept := if trunc then none else some (d.traSel 6, j0, pre + post) } }
  let d := (d.inc P.transitRecordCount).iff trunc (·.inc P.transitTruncatedCount)
  (d.w P.transitState next).raise 121 (bits flags 4 2 + 8 * (rcd % 2 ^ 14))

/-- Instant period, group delay and span of the source a record is captured from, in ps (R124, R128, R548). -/
def Dev.traAxis (d : Dev) : Nat × Nat × Nat :=
  let l := d.latched
  let g := d.traSel 1 % 2
  match d.traSel 0 with
  | 0 => (if d.traSel 2 = 1 then 1250 else 2500, 0, 0)
  | 1 => (l.bandPs g, l.bandDelay g, l.bandSpanPs g)
  | 4 => (l.bandPs 0, l.bandDelay 0, l.bandSpanPs 0)
  | _ => (l.binPs g, l.binDelay g, l.binSpanPs g)

/-- Elapsed ps of the trigger instant. -/
def Dev.traTrigAt (d : Dev) : Int := ((d.now + (d.tra.trig.map (·.1)).getD 0 : Nat) : Int) - (d.merPs : Nat)

/-- PHASE (R554): from the trigger instant to the first instant of the source's grid at or after it. -/
def Dev.traPhase (d : Dev) : Nat :=
  let (per, delay, _) := d.traAxis
  let at_ := d.traTrigAt.toNat + delay
  let base := if d.traSel 0 = 0 then 0 else d.latched.gridBase (if d.traSel 0 = 4 then 0 else d.traSel 1 % 2) per
  gridFrom base per at_ - at_

/-- An early close with `j` instants captured (R561); the grid of the source gives PHASE. [Log: 48 DEDUCED] -/
def Dev.traClose (d : Dev) (j : Nat) : Dev :=
  if d.traSt = 2 then
    let t := (d.tra.trig.map (·.2)).getD 0
    d.traEnd true t (min (d.traSel 7) t) (min (d.traSel 8) (j - t)) d.traPhase 4
  else if d.traSt = 1 then d.traEnd true j (min j (d.traSel 7)) 0 0 4
  else if d.traSt = 3 then d.w P.transitState 4
  else d

/-- The words of a record at their ring addresses, one store per instant (R552). -/
def traStores (w j0 : Nat) : Nat → List Nat → List MemOp
  | 0, _ => []
  | n + 1, ws =>
    if w = 0 ∨ ws.isEmpty then []
    else .put (0x54000000 + 5 * w * (j0 % ringInstants w)) (nativeBytes (ws.take w)) :: traStores w (j0 + 1) n (ws.drop w)

/-- The words of one instant at reference instant `ref` (elapsed ps) from what the chains brought (R98, R123, R549): a path that
contributes nothing gives zero, SETTLE and CAL stand by the span. For beam samples `xs` holds the bin samples of the 64 paths, path
by path; for the sentinel chains the words are those of the ring (R231). [Log: 48 DEDUCED] -/
def Dev.traInstant (d : Dev) (ref : Nat) (xs : List Nat) : List Nat :=
  let g := d.traSel 1 % 2
  let (_, delay, span) := d.traAxis
  let hi := ref + delay
  let mask := d.maskAt g ref
  let cal := 4 * b2n (d.calReach (hi - span) hi)
  let tagged (p w : Nat) : Nat :=
    let w := w % 2 ^ 40
    if bit mask p then w / 16 * 16 + maskOr 4 (w % 16) (cal + b2n (d.settleIn g p hi span)) else 0
  let paths := bitList 64 (d.traSel 3)
  let bins := max 1 (d.traSel 5)
  match d.traSel 0 with
  | 2 => (List.range d.traWords).map (fun i => tagged (paths.getD (i / bins) 0) (xs.getD i 0))
  | 3 => (List.range d.traWords).map (fun i =>
      d.beamWord g mask 0 (i / bins) ((List.range 64).map (fun p => tagged p (xs.getD (p * bins + i % bins) 0))))
  | 4 => (List.range d.traWords).map (fun i =>
      d.ringWord (((hi : Int) - (d.ringZero : Nat)).fdiv (d.latched.bandPs 0 : Nat)) (d.sentinelPath i))
  | _ => (List.range d.traWords).map (fun i => tagged (paths.getD i 0) (xs.getD i 0))

/-- The words of a record of `n` instants whose first lies at reference instant `ref`. -/
def Dev.traRecord (d : Dev) (w per : Nat) : Nat → Nat → List Nat → List Nat
  | 0, _, _ => []
  | n + 1, ref, xs => if xs.isEmpty then [] else d.traInstant ref (xs.take w) ++ Dev.traRecord d w per n (ref + per) (xs.drop w)

/-- Elapsed ps of the reference instant of the first instant of a record: PHASE behind the trigger instant, PRE instants back
(R553, R554). -/
def Dev.traFirst (d : Dev) (phase pre : Nat) : Nat :=
  (d.traTrigAt + (phase : Nat) - (pre * d.traAxis.1 : Nat)).toNat

/-- TRANSIT_RECORD_COMPLETE (R561): `data` what the source brought, instant by instant, from the record's first on; package memory
serves what was captured (R148). [Log: 48 DEDUCED] -/
def Dev.traComplete (d : Dev) (phase : Nat) (data : List Nat) : Dev × List MemOp :=
  if d.traSt ≠ 2 then (d, [])
  else
    let t := (d.tra.trig.map (·.2)).getD 0
    let pre := min (d.traSel 7) t
    let post := d.traSel 8
    let w := d.traSel 6
    let ops := traStores w (t - pre) (pre + post)
      (Dev.traRecord d w d.traAxis.1 (pre + post) (d.traFirst phase pre) data)
    let d := d.served 2 (5 * w * (t + post))
    let d := d.traEnd false t pre post phase (if d.a P.transitAutoRearm = 1 then 3 else 4)
    ({ d with tra := { d.tra with ignored := 0 } }, ops)

def execTransitRecordComplete (dt phase : Nat) (data : List Nat) (s : State) : Host.Outcome State Fault Refusal :=
  onMem dt (fun d _ => d.traComplete phase data) s

/-- TRANSIT_REARM_END (R555, R560). -/
def execTransitRearmEnd (dt : Nat) (s : State) : Host.Outcome State Fault Refusal :=
  onDev dt (fun d => d.iff (d.traSt == 3) (fun d =>
    let n := d.tra.ignored
    (d.iff (n != 0) (·.raise 122 (sat 131071 n))).traArm)) s

/-- A transition to DEEP closes an open record (R66, R561); how far it got is a matter of time: a free value.
[Log: 48 DEDUCED; 75 DEDUCED] -/
def Dev.traDeep (d : Dev) : Dev := let (j, d) := d.free 640 40; d.traClose j

/-! ### Reading a record out (R498, R562) -/

/-- Whether a record can be sent. -/
def Dev.traMaySend (d : Dev) (rcd : Nat) : Bool := d.traSt == 4 && d.tra.rcd == rcd && rcd != 0

/-- Begin a send. -/
def Dev.traSend (d : Dev) : Dev := { d.w P.transitSendState 1 with tra := { d.tra with sendOff := 0 } }

/-- A byte of the record's image: header, then its instants (R562). -/
def Dev.traByte (d : Dev) (m : Memory) (i : Nat) : Byte :=
  if i < 64 then BitVec.ofNat 8 (d.a (P.transitRecordHeader + i))
  else
    let h := d.octets P.transitRecordHeader 64
    let w := field h 20 4
    let k := i - 64
    d.traRead m (0x54000000 + 5 * w * ((field h 24 5 + k / (5 * w)) % max 1 (ringInstants w)) + k % (5 * w))

/-- CAPTURE_DATA_SEND (R470, R479, R498): the next message, once nothing of a higher class waits and output of stored history is not shed. -/
def Dev.captureSend (d : Dev) (m : Memory) : Dev :=
  let d := d.holdOutputs
  let h := d.octets P.transitRecordHeader 64
  let total := 64 + (field h 29 5 + field h 34 5) * 5 * field h 20 4
  let off := d.tra.sendOff
  let n := min 9192 (total - off)
  let last := off + n == total
  let body := leBytes 4 d.tra.rcd ++ zeros 4 ++ leBytes 8 off ++ leBytes 4 n ++ leBytes 4 (b2n last)
    ++ (List.range n).map (fun i => d.traByte m (off + i))
  if d.a P.transitSendState ≠ 1 ∨ d.sen.replay ≠ 0 ∨ d.liveWaits = true ∨ d.histShed = true ∨ n = 0 then d
  else if d.canSend d.egress (d.homeMsg 3 0x0D false body) then
    let d := d.sendHome 3 0x0D false body
    let d := { d with tra := { d.tra with sendOff := off + n } }
    d.iff last (·.w P.transitSendState 0)
  else d

def execCaptureDataSend (dt : Nat) (s : State) : Host.Outcome State Fault Refusal :=
  onMem dt (fun d m => (d.captureSend m, [])) s

end Sys2Proof.Machine
end

