-- ==== Sys2Proof/Machine/Ledger.lean ====
section
/-!
DEFINITION. The bandwidth ledger over the values in force (05_package_memory_catalogue.md R142): its terms are computed from
parameters, so the same functions serve a check of values not yet written (R143) and of a Chart (R144).
-/

namespace Sys2Proof.Machine

/-- 1 kB/s in the ledger's exact unit, 2^-15 bytes per second. -/
def ledgerUnit : Nat := 1000 * 2 ^ 15

/-- Term `i` of R142 in 2^-15 bytes per second. -/
def Dev.ledgerTerm (d : Dev) (i : Nat) : Nat :=
  let u := 2 ^ 15
  let mb := 1000000 * u
  match i with
  | 0 => d.a P.ledgerPlacementsA * 1000 * 128 * u
  | 1 => d.a P.ledgerPlacementsB * 1000 * 128 * u
  | 2 => d.a P.ledgerRefreshA * 1000 * 128 * u
  | 3 => d.a P.ledgerRefreshB * 1000 * 128 * u
  | 4 => 2 * d.a P.ledgerHoldA * 1000 * 320 * u
  | 5 => 2 * d.a P.ledgerHoldB * 1000 * 320 * u
  | 6 => if d.a P.sentinelEnable = 1 then 2 * popc 64 (d.a P.sentinelPathMask) * d.fb 0 * 100000 * 5 * u else 0
  | 7 => d.traRate
  | 8 => d.a P.ledgerDmaRt * mb
  | 9 => d.a P.ledgerDmaBulk * mb
  | _ => 100 * mb

/-- Every term of R142. -/
def Dev.ledgerAll (d : Dev) : List Nat := (List.range 11).map d.ledgerTerm

/-- The total of R142. -/
def Dev.ledgerSum (d : Dev) : Nat := d.ledgerAll.sum

/-- 48,000 MB/s. -/
def ledgerMax : Nat := 48000 * 1000 * ledgerUnit

/-- The excess over 48,000 MB/s in units of 16 MB/s, rounded up and saturating (R143, R144). -/
def Dev.ledgerExcess (d : Dev) : Nat := sat 4095 (cdiv (d.ledgerSum - ledgerMax) (16000 * ledgerUnit))

/-- LedgerTerms and LedgerTotal in kB/s. -/
def Dev.ledgerKb (d : Dev) (i : Nat) : Nat := d.ledgerTerm i / ledgerUnit
def Dev.ledgerTotalKb (d : Dev) : Nat := d.ledgerSum / ledgerUnit

/-- The index of the greatest of a list of figures, the lowest of those that tie. -/
def argMax (l : List Int) : Nat :=
  ((l.zip (List.range l.length)).foldl (fun (acc : Option (Int × Nat)) x =>
    match acc with
    | none => some x
    | some a => if a.1 < x.1 then some x else acc) none).elim 0 (·.2)

end Sys2Proof.Machine
end

