-- ==== Sys2Proof/Machine/Mainland.lean ====
section
/-!
DEFINITION. Credit, heartbeats, events and telemetry on the message ports (17_mainland_port.md R474, R481, R483, R494 to R496;
24_events_background_riptide.md R648).
-/

namespace Sys2Proof.Machine

/-! ### Credit -/

/-- CREDIT_RECEIVE (R474, R476, R480): a unit whose CRC fails loses the place; else what waits may leave. -/
def Dev.creditIn (d : Dev) (p : Nat) (u : List Byte) : Dev :=
  if !d.up || 4 < p || d.portWidth p == 0 then d
  else if !creditValid u then d.iff (p == 0) (·.inc P.mlRxResyncCount)
  else
    let vc := field u 1 1 % 4
    let d := (d.setChan p vc (fun c => { c with limit := field u 2 3, opened := true })).showCredit p vc
    (d.drain p).iff (p == 0 && vc == 3) (·.gatherServe)

def execCreditReceive (dt port : Nat) (unit : List Byte) (s : State) : Host.Outcome State Fault Refusal :=
  onDev dt (·.creditIn port unit) s

/-- CREDIT_SEND (R480, R481). -/
def Dev.creditOut (d : Dev) (p vc : Nat) : Dev :=
  if !d.up || 4 < p || 3 < vc || d.portWidth p == 0 then d
  else
    let l := d.limitOf p vc
    (d.setChan p vc (fun c => { c with limitSent := l })).emit (.credit p vc l)

def execCreditSend (dt port vc : Nat) (s : State) : Host.Outcome State Fault Refusal := onDev dt (·.creditOut port vc) s

/-! ### HEARTBEAT (R483, R496) -/

/-- Recover the credit of messages never seen (R483). CONSUMED counts what the sender sent before this heartbeat.
[Log: 44 DEDUCED] -/
def Dev.recover (d : Dev) (h : Hdr) (b : List Byte) (own vc : Nat) : Dev :=
  let c := d.chan h.port vc
  let mine := (c.received + 2 ^ 24 - (if vc = 2 then own else 0)) % 2 ^ 24
  let lost := (field b (16 + 4 * vc) 4 % 2 ^ 24 + 2 ^ 24 - mine) % 2 ^ 24
  if lost = 0 ∨ 2 ^ 23 ≤ lost then d
  else
    let d := d.setChan h.port vc (fun c => { c with received := (c.received + lost) % 2 ^ 24, freed := (c.freed + lost) % 2 ^ 24 })
    d.iff (h.port == 0) (·.add P.mlCreditRecoveredCount lost)

/-- HEARTBEAT arrives. -/
def Dev.heartbeatIn (d : Dev) (h : Hdr) (b : List Byte) : Dev :=
  let (d, ok) := d.rxCheck h tHeartbeat b.length false
  let own := msgUnits b.length
  d.iff ok (fun d =>
    let d := d.freeUnits h.port 2 own
    d.iff (b.length == 32) (fun d => d.each [0, 1, 2, 3] (fun vc d => d.recover h b own vc)))

def execHeartbeatReceive (dt : Nat) (hdr : Hdr) (body : List Byte) (s : State) : Host.Outcome State Fault Refusal :=
  onDev dt (fun d => d.ripIn (Instr.heartbeatReceive 0) tHeartbeat hdr body (fun d h b => d.heartbeatIn h b)) s

/-- HEARTBEAT_SEND (R496, R502). [Log: 44 DEDUCED] -/
def Dev.heartbeatOut (d : Dev) (p : Nat) : Dev :=
  if !d.up || 4 < p || d.portWidth p == 0 || !d.joinCarries p 2 tHeartbeat then d
  else d.send p 2 tHeartbeat false (leBytes 16 d.timeNow ++ [0, 1, 2, 3].flatMap (fun vc => leBytes 4 (d.chan p vc).consumed))

def execHeartbeatSend (dt port : Nat) (s : State) : Host.Outcome State Fault Refusal := onDev dt (·.heartbeatOut port) s

/-- PARTNER_SILENT (R496): no message for 8 periods. -/
def execPartnerSilent (dt : Nat) (s : State) : Host.Outcome State Fault Refusal :=
  onDev dt (fun d =>
    d.iff (d.portWidth 0 != 0 && (d.port.getD 0 {}).lastMsg + 8 * d.a P.mlHeartbeatPeriod * 10 ^ 6 ≤ d.now) (fun d =>
      d.w P.mlPartnerState 1)) s

/-! ### EVENT (R494) -/

/-- The body of an EVENT message over records. -/
def eventBody (es : List Ev) : List Byte :=
  leBytes 4 ((es.head?.map (·.seq)).getD 0) ++ leBytes 2 es.length ++ zeros 2 ++ es.flatMap Ev.bytes

/-- How many of the oldest records leave now: at most `count` and 512, none without credit. -/
def Dev.eventCount (d : Dev) (p : Places) (count : Nat) : Nat :=
  let n := min (min count 512) p.ml.length
  if n ≠ 0 && d.up && d.canSend d.egress (d.homeMsg 2 0x08 false (eventBody (p.ml.take n))) then n else 0

/-- EVENT_SEND: the oldest records of the Mainland queue leave. -/
def execEventSend (dt count : Nat) (s : State) : Host.Outcome State Fault Refusal :=
  onPlaces dt (fun d p => d.eventCount p count) (fun _ _ => 0) (fun d p =>
    let n := d.eventCount p count
    d.iff (n != 0) (fun d => d.sendHome 2 0x08 false (eventBody (p.ml.take n)))) s

/-! ### TELEMETRY (R495, R648) -/

/-- What a counter gained since the last telemetry, remembering its value. [Log: 97 DEDUCED] -/
def Dev.gained (d : Dev) (i v : Nat) : Nat × Dev :=
  (v - d.telem.getD i 0, { d with telem := d.telem.set i v })

/-- The telemetry record. -/
def Dev.telemetry (d : Dev) : List Byte × Dev :=
  let tseq := d.telem.getD 0 0
  let d := { d with telem := d.telem.set 0 (tseq + 1) }
  let (acc, d) := d.gained 1 (d.a P.apPlanAcceptedCount + d.a P.dlPlanAcceptedCount)
  let (late, d) := d.gained 2 (d.a P.apPlanLateCount + d.a P.dlPlanLateCount)
  let (ref, d) := d.gained 3 (d.a P.apPlanRefusedCount + d.a P.dlPlanRefusedCount)
  let (sent, d) := d.gained 4 (d.x (auxKey 7 0))
  let (shed, d) := d.gained 5 (d.a P.laneShedCount)
  let (miss, d) := d.gained 6 (d.a P.catMissCount)
  let (ecc, d) := d.gained 7 (d.a P.memCorrectedCount)
  let missing := d.x (auxKey 7 1)
  let d := d.wx (auxKey 7 1) 0
  let s16 (v : Nat) : List Byte := leBytes 2 (sat 65535 v)
  (leBytes 4 (tseq % 2 ^ 32) ++ leBytes 1 d.pw ++ leBytes 1 (d.a P.pwrActiveMask) ++ leBytes 1 (d.a P.timeState)
    ++ leBytes 1 d.bound ++ leBytes 2 (d.a P.thermJunction) ++ leBytes 1 (d.a P.txThrottleSteps) ++ leBytes 1 (d.a P.thermState)
    ++ [0, 1, 2, 3].flatMap (fun q => leBytes 2 (ux 16 (d.quadTemp q))) ++ leBytes 4 d.ledgerTotalKb
    ++ leBytes 4 (d.a P.mlPayload) ++ s16 acc ++ s16 late ++ s16 ref ++ leBytes 4 (sat (2 ^ 32 - 1) (sent / 1024))
    ++ leBytes 4 (sat (2 ^ 32 - 1) (shed / 1024)) ++ s16 miss ++ s16 ecc ++ leBytes 2 (d.a P.bgStarvedMask)
    ++ leBytes 4 (d.a P.eventSeq) ++ leBytes 4 (d.a P.catGeneration % 2 ^ 32) ++ leBytes 8 missing, d)

/-- TELEMETRY_SEND (R495): for the Meridian second that has begun, while a port carries it. -/
def execTelemetrySend (dt : Nat) (s : State) : Host.Outcome State Fault Refusal :=
  onDev dt (fun d =>
    d.iff (d.up && d.portWidth d.egress != 0) (fun d =>
      let (rcd, d) := d.telemetry
      d.sendHome 2 0x09 false (leBytes 16 (timeField d.secs 0 d.quality) ++ rcd))) s

end Sys2Proof.Machine
end

