-- ==== Sys2Proof/Machine/Sessions.lean ====
section
/-!
DEFINITION. Sessions, fuses and the audit log (22_roles_fuses_audit.md R593 to R611). The operations here answer a STATUS of R569
and the device after them; the Almanac engine frames them. What only a secret or the fuse array shows (whether a signature
verifies, SHA-384 of a key, what a programmed fuse reads back) is an operand of the command.
-/

namespace Sys2Proof.Machine

/-! ### The audit log (R607 to R611) -/

/-- WHO of an entry the device or the Ephemeris makes (R608). -/
def whoDevice : Nat := 7

/-- WHO of an entry a session or a port makes. -/
def whoOf (role port handle : Nat) : Nat := role % 4 + 4 * (port % 2) + 8 * (handle % 4)

/-- An audit entry that must be deferred finds no room (R610). -/
def Dev.auditFull (d : Dev) : Bool := d.nvm.deferring && nvmCap < d.nvm.used + 32

/-- Make one audit entry (R608, R609); a deferred one takes room of the buffer (R403). -/
def Dev.audit (d : Dev) (kind who index sub result old new : Nat) : Dev :=
  let seq := (d.a P.auditSeq + 1) % 2 ^ 32
  let e : Aud := ⟨seq, d.secs, d.frac, kind, who, index, sub, result, old, new⟩
  let d := d.w P.auditSeq seq
  let d := d.mramWrite 32 (fun d =>
    { d with aud := keepLast audCap (d.aud ++ [e]), nvm := if d.nvm.deferring then { d.nvm with audN := d.nvm.audN + 1 } else d.nvm })
  if seq % audCap = 0 then
    let d := d.incN P.auditWrapCount
    d.raise 124 (sat 131071 (d.a P.auditWrapCount))
  else d

/-- The first of 64 consecutive numbers a window shows (R611): the number asked for, or the oldest held. -/
def windowFrom (asked oldest : Nat) : Nat := if asked < oldest then oldest else asked

/-- A write to AuditReadFrom fills AuditWindow (R611). -/
def Dev.auditReadFrom (d : Dev) (n : Nat) : Dev :=
  let oldest := (d.aud.head?.map (·.seq)).getD 1
  let lo := windowFrom n oldest
  let bytes := ((List.range 64).map (fun i =>
    ((d.aud.find? (fun a => a.seq == lo + i)).map Aud.bytes).getD (zeros 32))).flatten
  (d.w P.auditReadFrom n).wOctets P.auditWindow bytes

/-! ### Sessions (R595 to R600) -/

/-- One handle. -/
def Dev.sesAt (d : Dev) (h : Nat) : Ses := d.ses.h.getD h {}

/-- Change one handle. -/
def Dev.setSes (d : Dev) (h : Nat) (f : Ses → Ses) : Dev := { d with ses := { d.ses with h := modAt d.ses.h h f } }

/-- EV123 (R600). -/
def Dev.sesEvent (d : Dev) (kind role port h : Nat) : Dev := d.raise 123 (kind + 8 * (role % 4) + 32 * (port % 2) + 64 * (h % 4))

/-- The open session a handle names on a port; using it restarts its idle time (R597, R598). -/
def Dev.sesOn (d : Dev) (port h : Nat) : Option Ses :=
  let x := d.sesAt h
  if h < 4 ∧ x.st = 2 ∧ x.port = port then some x else none

/-- An operation carried the handle. -/
def Dev.sesUsed (d : Dev) (h : Nat) : Dev := d.setSes h (fun x => { x with at_ := d.now })

/-- Close one handle with EV123 kind `kind`; a closed handle has nothing to close, a challenged one frees silently. -/
def Dev.sesClose (d : Dev) (h kind : Nat) : Dev :=
  let x := d.sesAt h
  let d' := d.setSes h (fun _ => {})
  if x.st = 2 then d'.sesEvent kind x.role x.port h else d'

/-- Close every session with EV123 kind 2 (R598). -/
def Dev.sesCloseAll (d : Dev) : Dev := d.each [0, 1, 2, 3] (fun h d => d.sesClose h 2)

/-- The sessions open, a bit per handle. -/
def Dev.sesOpenMask (d : Dev) : Nat := maskOf 4 (fun h => (d.sesAt h).st == 2)

/-- SessionState of a handle (R592). -/
def Dev.sesState (d : Dev) (h : Nat) : Nat :=
  let x := d.sesAt h
  if x.st = 0 then 0
  else x.st + 4 * x.role + 16 * x.port + 32 * sat 65535 (if x.st = 2 then (d.now - x.at_) / 10 ^ 12 else 0)

/-- SessionLockout (R599). -/
def Dev.showLockout (d : Dev) : Dev :=
  d.w P.sessionLockout (maskOf 2 (fun p => d.now < d.ses.lockTill.getD p 0))

/-- SESSION_OPEN after its record was found well formed: STATUS, the result data, and the device (R595, R597, R599, R610). -/
def Dev.sesOpen (d : Dev) (port role slot : Nat) : Nat × List Byte × Dev :=
  let free := (List.range 4).find? (fun h => (d.sesAt h).st == 0)
  let locked : Bool := d.now < d.ses.lockTill.getD port 0
  match locked, free with
  | false, some h =>
    let ch := (List.range 48).map (Config.challenge d.clk.free)
    let d := { d with clk := { d.clk with free := d.clk.free + 1 } }
    let d := d.setSes h (fun _ => { st := 1, role := role, slot := slot, port := port, at_ := d.now, challenge := ch })
    (0, leBytes 4 h ++ ch, d)
  | _, _ =>
    if d.auditFull then (9, [], d)
    else (6, [], (d.sesEvent 4 role port 0).audit 4 (whoOf role port 0) 0 0 6 0 0)

/-- Whether a role key slot can prove a session (R596, R601, R604). -/
def Dev.slotUsable (d : Dev) (s : Nat) : Bool :=
  (d.fus.keys.getD s []).any (· != 0#8) && !bit d.fus.revoked s && !bit d.fus.bad s

/-- SESSION_PROVE for a challenged handle (R596, R599). [Log: 15 DEDUCED; 49 DEDUCED] -/
def Dev.sesProve (d : Dev) (port h : Nat) (pubHash : List Byte) (sigOk : Bool) : Nat × List Byte × Dev :=
  let x := d.sesAt h
  let late : Bool := x.at_ + 10 ^ 13 < d.now
  if x.st ≠ 1 ∨ late then (4, [], d)
  else if d.auditFull then (9, [], d)
  else
    let s := 4 * x.role + x.slot
    let ok := (d.fus.lifecycle == 1 || d.fus.lifecycle == 2) && d.slotUsable s && d.fus.keys.getD s [] == pubHash && sigOk
      && x.port == port
    if ok then
      let d := d.setSes h (fun x => { x with st := 2, at_ := d.now, challenge := [] })
      let d := { d with ses := { d.ses with fails := modAt d.ses.fails port (fun _ => 0) } }
      (0, leBytes 4 x.role, (d.sesEvent 0 x.role port h).audit 2 (whoOf x.role port h) 0 0 0 0 0)
    else
      let n := d.ses.fails.getD port 0 + 1
      let d := (d.setSes h (fun _ => {})).incN P.sessionFailCount
      let d := { d with ses := { d.ses with
        fails := modAt d.ses.fails port (fun _ => if n < 8 then n else 0),
        lockTill := if n < 8 then d.ses.lockTill else modAt d.ses.lockTill port (fun _ => d.now + 60 * 10 ^ 12) } }
      (5, [], (d.showLockout.sesEvent 1 x.role port h).audit 3 (whoOf x.role port h) 0 0 5 0 0)

/-- SESSION_CHALLENGE_TIMEOUT (R596). -/
def execSessionChallengeTimeout (dt handle : Nat) (s : State) : Host.Outcome State Fault Refusal :=
  onDev dt (fun d =>
    let x := d.sesAt handle
    d.iff (x.st == 1 && x.at_ + 10 ^ 13 ≤ d.now) (fun d => (d.setSes handle (fun _ => {})).sesEvent 3 x.role x.port handle)) s

/-- SESSION_IDLE_TIMEOUT (R598). -/
def execSessionIdleTimeout (dt handle : Nat) (s : State) : Host.Outcome State Fault Refusal :=
  onDev dt (fun d =>
    let x := d.sesAt handle
    d.iff (x.st == 2 && x.at_ + 900 * 10 ^ 12 ≤ d.now) (·.sesClose handle 3)) s

/-- SESSION_LOCKOUT_END (R599). -/
def execSessionLockoutEnd (dt port : Nat) (s : State) : Host.Outcome State Fault Refusal :=
  onDev dt (fun d =>
    d.iff (d.ses.lockTill.getD port 0 ≤ d.now) (fun d =>
      ({ d with ses := { d.ses with lockTill := modAt d.ses.lockTill port (fun _ => 0) } }).showLockout)) s

/-! ### Fuses and the lifecycle (R601 to R604) -/

/-- The junction lies where fuses may be programmed (R604, R405). [Log: 34 DESIGN CHOICE] -/
def Dev.fuseTempOk (d : Dev) : Bool :=
  match d.thm.junction with
  | none => true
  | some t => 0 ≤ t && t ≤ 850

/-- EV15 for a row of R601 (R604). [Log: 50 DEDUCED] -/
def Dev.fuseAnomaly (d : Dev) (row : Nat) : Dev := d.raise 15 row

/-- Why a write to FuseKeyProgram is refused; 0 where it is not (R602, R604). -/
def Dev.keyProgramStatus (d : Dev) (v : List Byte) : Nat :=
  let s := field v 0 1
  if 7 < s ∨ (d.fus.keys.getD s []).any (· != 0#8) ∨ bit d.fus.revoked s then 5
  else if (d.fus.lifecycle ≠ 1 ∧ d.fus.lifecycle ≠ 2) ∨ !d.fuseTempOk then 6
  else 0

/-- Program a role key slot and read it back (R602, R604). [Log: 50 DEDUCED] -/
def Dev.keyProgram (d : Dev) (v readback : List Byte) : Dev :=
  let s := field v 0 1
  let back := padTo 48 readback
  let d := { d with fus := { d.fus with keys := modAt d.fus.keys s (fun _ => back) } }
  let d := d.incN P.fuseProgramCount
  if back = slice v 1 48 then d
  else ({ d with fus := { d.fus with bad := putBit d.fus.bad s true } }).fuseAnomaly 4

/-- Why a write to FuseKeyRevoke is refused; 0 where it is not (R602). [Log: 50 DEDUCED] -/
def Dev.keyRevokeStatus (d : Dev) (role own s : Nat) : Nat :=
  if 11 < s ∨ own = s ∨ (role = 1 ∧ 7 < s) then 5 else if !d.fuseTempOk then 6 else 0

/-- Revoke a slot for good; its sessions close (R598, R602). [Log: 50 DEDUCED] -/
def Dev.keyRevoke (d : Dev) (s : Nat) : Dev :=
  let d := ({ d with fus := { d.fus with revoked := putBit d.fus.revoked s true } }).incN P.fuseProgramCount
  d.each [0, 1, 2, 3] (fun h d =>
    let x := d.sesAt h
    d.iff (x.st == 2 && 4 * x.role + x.slot == s) (·.sesClose h 2))

/-- Why a write to LifecycleAdvance is refused; 0 where it is not (R603, R604). -/
def Dev.lifecycleStatus (d : Dev) (role v : Nat) : Nat :=
  let next := v % 256
  if v / 256 ≠ 0xA5 ∨ next ≠ d.fus.lifecycle + 1 ∨ 3 < next ∨ (next = 2 ∧ role ≠ 2) then 5
  else if !d.fuseTempOk then 6 else 0

/-- Take the step (R603): FIELD burns the debug lock; RETIRED burns every role key hash and closes every session. -/
def Dev.lifecycleStep (d : Dev) (next : Nat) : Dev :=
  let d := d.incN P.fuseProgramCount
  match next with
  | 2 => { d with fus := { d.fus with lifecycle := 2, debugLock := true } }
  | 3 =>
    let burnt := List.replicate 12 (List.replicate 48 0xFF#8)
    let gone := { d with fus := { d.fus with lifecycle := 3, keys := burnt, fleetKey := List.replicate 32 0xFF#8 } }
    gone.sesCloseAll
  | n => { d with fus := { d.fus with lifecycle := n } }

/-! ### Debug (R605, R606) -/

/-- Why an unlock token is refused; 0 where it is accepted. -/
def Dev.tokenStatus (d : Dev) (token pubHash : List Byte) (sigOk : Bool) : Nat :=
  if field token 0 8 = d.fus.chipId ∧ field token 8 4 = d.a P.resetCount ∧ pubHash = d.fus.signHash ∧ sigOk then 0 else 5

/-- Debug access opens until the next reset. -/
def Dev.tokenAccept (d : Dev) (port h : Nat) : Dev :=
  ({ d with fus := { d.fus with tokenOpen := true } }).sesEvent 5 2 port h

/-- DebugState (R605). -/
def Dev.debugSt (d : Dev) : Nat :=
  match d.fus.lifecycle with
  | 0 => 1
  | 1 => 1
  | 2 => if d.fus.tokenOpen then 2 else 0
  | _ => 0

end Sys2Proof.Machine
end

