-- ==== Sys2Proof/Machine/Effects.lean ====
section
/-!
DEFINITION. What acts on the whole device: transitions down (02_supplies_clocks_sleep.md R52 to R66), the five kinds of reset
(R36), the end of a Riptide run (24_events_background_riptide.md R649, R652) and thermal shutdown (13_housekeeping_thermal.md
R399, R400).
-/

namespace Sys2Proof.Machine

/-! ### Transitions down -/

/-- Lateness of a state asked for by a Meridian instant in ns, rounded up to us, from that instant on (R65): 0 where it is reached by
then. [Log: 84 DEDUCED] -/
def Dev.lateUs (d : Dev) (ns : Nat) : Nat := sat 131071 (cdiv (d.merNs - ns) 1000)

/-- Every transition up in progress is given up (R46). A WAKE entry written after its starting instant is reported here, its state
not being reached (R65). [Log: 84 DEDUCED] -/
def Dev.dropUp (d : Dev) : Dev :=
  let late := d.pwr.wakes.filter (fun (w : Nat × Nat × Bool) => w.2.2)
  let d := { d with pwr := { d.pwr with
    jobs := d.pwr.jobs.filter (fun j => j.kind == 2 || j.kind == 3), after := 0, goal := 0, wakes := [] } }
  d.each late (fun (w : Nat × Nat × Bool) d => d.raise 7 (d.lateUs w.2.1))

/-- Begin a transition to WATCH. -/
def Dev.goWatch (d : Dev) : Dev :=
  if d.pwr.base < 2 || d.goingDown then d else (d.begin 3 1).synthsOff (maskSub 12 (2 ^ 12 - 1) watchSynths)

/-- What was held of messages to be sent leaves (R652): on a port as a message, on FIELD as frames. -/
def Dev.ripLeave (d : Dev) (h : RipHold) : Dev :=
  match h.msg with
  | none => d
  | some m => if h.port = 5 then d.fieldOut m (crc32c m.body) else d.put h.port true m

/-- A Riptide run ends (R649, R652): 1 time elapsed, 2 write, 3 DEEP. Held messages of its own leave at once in order; received
ones are served next. -/
def Dev.ripOff (d : Dev) (cause : Nat) : Dev :=
  if !d.ripOn then d
  else
    let sent := d.rip.held.filter (fun (h : RipHold) => h.sent)
    let rest := (d.rip.held.filter (fun (h : RipHold) => !h.sent)).map (fun (h : RipHold) => { h with left := 0 })
    let d := ({ d with rip := { d.rip with held := rest } }).each sent (fun h d => d.ripLeave h)
    (((d.w P.riptideEnable 0).w P.riptideLeft 0).raise 126 (2 * cause + 16 * (d.rip.dur % 2 ^ 13))).lanesFollow 4

/-- Background activities that pause in DEEP are not starved there (R646). [Log: 51 DEDUCED] -/
def Dev.bgPause (d : Dev) : Dev :=
  let keep := [2, 6]
  let d := { d with bg := (d.bg.zip (List.range 8)).map (fun (x : Option Nat × Nat) => if keep.contains x.2 then x.1 else none) }
  d.w P.bgStarvedMask (maskOf 8 (fun a => bit (d.a P.bgStarvedMask) a && keep.contains a))

/-- What the receive buffers and queues of messages in progress hold is lost with the SRAM (R53). [Log: 51 DEDUCED] -/
def Dev.buffersLost (d : Dev) : Dev :=
  { d with
    cat := { d.cat with vc1 := [] },
    ul := { d.ul with part := [], cur := [], past := [], fetched := [], refresh := [], outs := [], slot := none,
                      missed := [], grpOff := 0, modeOffA := 0, modeOffB := 0, trustOff := false, dlOff := 0 },
    dl := { d.dl with part := [], cur := [], got := [], used := [], scale := [] },
    arch := { d.arch with fwd := [], red := [], loads := [], gather := [] },
    fld := {}, rip := { d.rip with held := [] } }

/-- A transition to DEEP begins (R66): DMA stops, Transit closes, a Collimation run is given up, plans are discarded, models,
trims and CatGeneration are stored, the lanes and synthesisers go off. -/
def Dev.deepActions (d : Dev) (m : Memory) (p : Places) : Dev × List MemOp :=
  let d := (d.dropUp).begin 3 0
  let (d, ops) := d.dmaDeep m p
  let d := ((d.traDeep.colAbandon 3).discardAllPlans).each [0, 1, 2, 3] (fun q d => d.unrequest q)
  let d := ({ d with col := { d.col with win := none } }).showCol
  let d := d.warmDeep.copyGeneration.trimStore
  let d := (d.replayDiscard.hkStop).thermCountsRestart
  let d := ({ d with sen := { d.sen with win := none, wakeAt := none, seek := none } }).synthsOff (2 ^ 12 - 1)
  let d := (d.ripOff 3).lanesFollow 3
  (d.buffersLost.bgPause.noteIdle, ops)

/-- Begin a transition to DEEP from the state the device is in; in DEEP, or with one in progress, nothing begins. -/
def Dev.goDeep (d : Dev) (m : Memory) (p : Places) : Dev × List MemOp :=
  if (d.goingDown && d.downTo == 0) || (d.pwr.base == 0 && !d.goingUp) then (d, [])
  else
    -- a transition to WATCH in progress goes on to DEEP
    let d := { d with pwr := { d.pwr with jobs := d.pwr.jobs.filter (fun j => j.kind != 3) } }
    d.deepActions m p

/-- Begin a transition to a lower state, no unit being ACTIVE. -/
def Dev.goDown (d : Dev) (m : Memory) (p : Places) (target : Nat) : Dev × List MemOp :=
  if target = 0 then d.goDeep m p else (d.goWatch, [])

/-- Every unit leaves ACTIVE at once, with its slot and burst (R57). On the way to a DEEP that is forced this is no transition of its
own: one EV6 reports DEEP (R67). [Log: 85 DEDUCED] -/
def Dev.haltUnits (d : Dev) : Dev :=
  let d := d.each [0, 1, 2, 3] (fun q d => d.killBurst q 6)
  let d := (d.cutSlot).dropUnits 63
  { d with pwr := { d.pwr with jobs := d.pwr.jobs.filter (fun j => j.kind != 2) } }

/-- DEEP at once, whatever runs (R30, R44, R399). -/
def Dev.forceDeep (d : Dev) (m : Memory) (p : Places) : Dev × List MemOp := (d.haltUnits.dropUp).goDeep m p

/-! ### Reset (R36) -/

/-- V-class parameters held in the always-on domain or the retention area, by the kind of the reset: 0 power-on, 1 RESET_N,
2 watchdog, 3 command, 4 thermal shutdown. -/
def keptV (kind k : Nat) : Bool :=
  let index := k / 2 ^ 24
  let time := 0x7000 ≤ index && index ≤ 0x7007 && keyId k != keyId P.ptpDiscardCount && keyId k != keyId P.ppsMissCount
  (kind != 0 && k == P.archIslandNumber) || (2 ≤ kind && (k == P.chartPinsSampled || k == P.archRoot)) || (2 ≤ kind && time) || (2 ≤ kind && keyId k == keyId P.eventPending)
    || ((kind == 2 || kind == 3) && keyId k == keyId P.catStateCounts)
    -- a failed sensor stays so until a power-on or RESET_N boot (R394, R397)
    || (2 ≤ kind && (k == P.thermSensorFailedMask || k == P.thermSubstituteMask))

/-- Whether a key keeps its value over a reset. A C-class parameter stands at its default until the Chart loads (R692).
[Log: 51 DEDUCED] -/
def keptKey (kind k : Nat) : Bool :=
  match rowOf (keyId k) with
  | none => false
  | some r => (match r.cls with
    | .N => true
    | .F => true
    | .V => keptV kind k
    | .C => false)

/-- Whether a key is one of an N-class parameter. -/
def isN (k : Nat) : Bool :=
  match rowOf (keyId k) with
  | none => false
  | some r => (match r.cls with
    | .N => true
    | _ => false)

/-- Deferred and held MRAM writes at a reset (R66, R403): a write discarded for want of room never reached MRAM; those in a buffer are
lost with the SRAM at a power-on or RESET_N reset, and MRAM holds what it held before them. [Log: 51 DEDUCED] -/
def Dev.nvmReset (d : Dev) (gone : Bool) : Dev :=
  let back := d.nvm.alm.filter (fun e => gone || e.1 % 2 == 1)
  let d := d.wAll ((back.map (fun e => (e.1 / 2, e.2))).filter (fun e => isN e.1))
  let aud := if gone then d.aud.take (d.aud.length - d.nvm.audN) else d.aud
  let d := match (if gone then d.nvm.before else none) with
    | none => d
    | some b => { d with cat := { d.cat with genMram := b.gen }, rx := { d.rx with trimSeq := b.trimSeq, trimRec := b.trims },
                         dpd := { d.dpd with warm := b.warm }, col := { d.col with store := b.col } }
  let d := { d with aud := aud, nvm := if gone then { logN := d.nvm.logN }
                                       else { d.nvm with alm := d.nvm.alm.filter (fun e => e.1 % 2 == 0) } }
  d.iff gone (·.w P.auditSeq ((aud.getLast?.map (·.seq)).getD 0))

/-- The pins the device drives go to their inactive levels. -/
def Dev.pinsIdle (d : Dev) : Dev :=
  let d := d.coexDrive false false
  let d := d.iff (d.tra.trigOutTill != 0) (·.pin .trigOut false)
  (d.iff d.tim.ppsOut (·.pin .ppsOut false)).iff (!d.pwr.syncoPend.isEmpty) (·.pin .synco false)

/-- The RX quads after a reset: a quad in retirement keeps its core map (R88), the others start with the default. -/
def Dev.quadsReset (d : Dev) (old : Dev) : Dev :=
  let ret := old.a P.rxRetiredMask
  let d := { d with rx := { d.rx with quads := (List.range 16).map (fun u => if bit ret u then { stage := 4 } else {}) } }
  d.each (bitList 16 ret) (fun u d => (d.w (P.rxCoreMap + u) (old.a (P.rxCoreMap + u))).w (P.rxQuadCalState + u) 2)

/-- A reset begins: everything the kind does not keep is lost, the outputs are parked, TX is disabled, the lanes are down.
[Log: 51 DEDUCED; 10 DESIGN CHOICE; 86 DEDUCED] -/
def Dev.reset (d : Dev) (kind : Nat) : Dev × List MemOp :=
  let old := d
  let gone := kind == 0 || kind == 1
  let d := d.pinsIdle
  let ripEv := if d.ripOn then [(126, 8 + 16 * (d.rip.dur % 2 ^ 13))] else []
  let shut := d.pwr.phase == .shutdown || d.pwr.phase == .restricted
  let d := { d with alm := d.alm.filter (fun e => keptKey kind e.1) }
  let d := d.nvmReset gone
  let levels := old.a P.rfctlLevels
  -- a warm reset boots at once; the others wait for the reset release (R31, R36)
  let phase : Phase := if gone then .inReset else if old.clk.onLpo then .waitRefclk else .booting
  let pwr : Pwr := { phase := phase, pwrOk := old.pwr.pwrOk, resetN := old.pwr.resetN, kind := kind, bootEvs := ripEv,
                     biasDone := kind != 0 && old.pwr.biasDone, releasedAt := d.now,
                     railBad := if kind = 0 then 0 else old.pwr.railBad, lpoSince := old.pwr.lpoSince, refo := old.pwr.refo }
  let d := { d with
    aux := [], pwr := pwr, rx := { trimSeq := d.rx.trimSeq, trimRec := d.rx.trimRec, trimAt := d.now },
    cat := { ctlGen := d.cat.ctlGen, ctlOk := d.cat.ctlOk, genMram := d.cat.genMram },
    ul := {}, sen := { runs := old.ringEnds.sen.runs, zeroed := old.ringEnds.sen.zeroed }, dl := {}, syn := {}, coex := { gnt := old.coex.gnt, gntAt := old.coex.gntAt },
    dpd := { warm := d.dpd.warm }, col := { store := d.col.store }, bias := {}, hk := {},
    thm := { shut := shut && d.thm.tsaCool < 8, tsaCool := d.thm.tsaCool,
             sens := (d.thm.sens.zip (List.range 16)).map (fun (x : DieSens × Nat) =>
               if gone || !old.ab P.thermSensorFailedMask x.2 then {} else { x.1 with offs := [] }) },
    shutRec := if kind = 0 then [] else d.shutRec,
    tim := if gone then {} else { d.tim with syncSeq := none, pair := none, dreq := none, pps := none, ppsOut := false },
    eph := if gone then {} else { ent := d.eph.ent },
    lane := List.replicate 24 {}, port := List.replicate 5 {}, arch := {}, dma := {},
    tra := { wrote := old.tra.wrote && !shut && (kind == 2 || kind == 3) }, ses := {}, fld := {},
    cha := { recs := d.cha.recs, last := if kind = 0 then none else d.cha.last },
    fus := { d.fus with tokenOpen := false }, rip := {}, bg := List.replicate 8 none, mgmt := [], telem := [], flush := 3,
    upd := { d.upd with waiting := false, readyAt := none } }
  let d := if gone then { d with clk := { d.clk with mer := 0 } } else d
  let d := (d.w P.rfctlLevels levels).rfIdle.quadsReset old
  let d := d.each (List.range 80) (fun i d =>
    if kind = 0 ∨ old.a (P.biasOutputState + i) = 0 then d.biasTo i 0 else d.biasTo i 1)
  let d := (d.w P.railStatus (old.a P.railStatus)).w P.refclkState (old.a P.refclkState)
  let d := d.w P.resetCount ((old.inc P.resetCount).a P.resetCount)
  let lost := kind == 0 || kind == 1 || kind == 4
  -- log entry 86: 1 from here until the initialisation of a memory that was lost ends; a failed one outlasts a warm reset
  let d := (d.w P.memState (if lost || shut then 1 else if old.a P.memState = 2 then 2 else 0)).refoFollow
  (d, (if lost then [.wipe 0 ipmEnd] else []) ++ [.wipe sramRetLo sramEnd])

/-! ### Thermal shutdown (R399, R400, R404) -/

/-- The 48 bytes of a shutdown record (R400). -/
def Dev.shutRecord (d : Dev) (x : Shut) : List Byte :=
  let newest := (d.shutRec.getLast?).getD ((d.shutLog.getLast?).getD (zeros 48))
  let body := leBytes 4 (field newest 0 4 + 1) ++ leBytes 16 d.timeNow ++ leBytes 1 x.sensor ++ leBytes 1 x.cause
    ++ leBytes 2 (ux 16 x.reading) ++ [0, 1, 2, 3].flatMap (fun q => leBytes 2 (ux 16 (d.quadTemp q)))
    ++ leBytes 1 (d.a P.txThrottleSteps) ++ zeros 11
  body ++ leBytes 4 (crc32c body)

/-- Shutdown is declared: EV68, TX stops, the outputs park, the record is written, DEEP with package memory off. -/
def Dev.shutdown (d : Dev) (m : Memory) (p : Places) (x : Shut) : Dev × List MemOp :=
  let rcd := d.shutRecord x
  let d := d.raise 68 (thermArg x.sensor x.reading)
  let d := d.haltUnits.rfStop.park 31 1
  let d := if d.nvm.deferring then { d with shutRec := d.shutRec ++ [rcd] } else { d with shutLog := keepLast 16 (d.shutLog ++ [rcd]) }
  let d := d.incN P.thermShutdownCount
  let (d, ops) := d.forceDeep m p
  let d := d.sesCloseAll
  let d := { d with pwr := { d.pwr with phase := .shutdown, jobs := d.pwr.jobs.filter (fun j => j.kind == 3), latched := [] } }
  (({ d with cat := { d.cat with ctlOk := false } }).w P.memState 1, ops ++ [.wipe 0 ipmEnd, .wipe sramGenLo sramEnd])

end Sys2Proof.Machine
end

