-- ==== Sys2Proof/Machine/SlotEdge.lean ====
section
/-!
DEFINITION. The slot boundary: what ends with a slot and what starts with the next (06_uplink_combining.md R175, R208, R214,
R217; 02_supplies_clocks_sleep.md R57; 05_package_memory_catalogue.md R149, R163; 07_sentinel_watch.md R240, R243;
08_downlink_transmit.md R268, R281; 17_mainland_port.md R485).
-/

namespace Sys2Proof.Machine

/-! ### The end of a slot -/

/-- Every REFRESH placement of the slot that ends is refreshed or skipped (R214). A group that does not run combined none. -/
def Dev.refreshAll (d : Dev) (slot : Nat) (rs : List RefreshIn) : Dev :=
  let all := d.ul.cur.flatMap (fun (p : Plan) => (p.places.filter (·.refresh)).map (fun (x : Place) => (p.group, x)))
  d.each all (fun (x : Nat × Place) d =>
    let given := (rs.find? (fun r => r.group == x.1 && r.cat == x.2.cat)).map (·.samples)
    d.iff (d.active x.1) (fun d => d.refreshOne slot x.1 x.2 (d.refreshWords x.1 x.2.count (given.getD []))))

/-- The disables that waited for the end of the slot act (R217, R281, R485). -/
def Dev.disablesAct (d : Dev) : Dev :=
  let grp := d.ul.grpOff
  let modes (g : Nat) : Nat := if g = 0 then d.ul.modeOffA else d.ul.modeOffB
  let trust := d.ul.trustOff
  let dl := d.ul.dlOff
  let gone (p : Plan) : Bool := trust || bit grp p.group || maskAnd 4 p.modes (modes p.group) != 0
  let d := if d.ul.plans.any gone then d.discardPlans gone else d
  let goneDl (p : Plan) : Bool := trust || bit dl p.group
  let d := if d.dl.plans.any goneDl then d.discardDl goneDl else d
  let d := { d with ul := { d.ul with grpOff := 0, modeOffA := 0, modeOffB := 0, trustOff := false, dlOff := 0 } }
  d.iff (grp != 0) (fun d => d.dropUnits (maskAnd 6 grp (d.a P.pwrActiveMask)))

/-- The wake window ends with slot `old` (R240, R243): the rest of the replay is discarded, group A leaves ACTIVE unless a
plan holds it, and the device goes to WATCH, or to READY. -/
def Dev.wakeWindowEnd (d : Dev) (old new : Nat) : Dev :=
  match d.sen.win with
  | none => d
  | some (_, last) =>
    if old < last then d
    else
      let d := d.replayDiscard
      let d := { d with sen := { d.sen with win := none, seek := none } }
      if d.ul.plans.any (fun (p : Plan) => p.group == 0 && p.slot == new) then d
      else
        let d := (d.dropUnits 1).sentinelFollow
        let back := d.a P.pwrActiveMask == 0 && d.bringing == 0 && d.ul.plans.isEmpty && d.dl.plans.isEmpty && d.pwr.named < 2
        if back then d.goWatch.sentinelFollow else d.goUp 2 255

/-- RX intervals that end with the slot (R298). -/
def Dev.rxEnds (d : Dev) (before : List Bool) (new : Nat) : Dev :=
  d.each (List.range 8) (fun i d =>
    d.iff (before.getD i false && !d.rxRuns (i / 4) (i % 4) new) (·.wx (rxEndKey (i / 4) (i % 4)) (d.now + 1)))

/-- What the end of slot `old` does. -/
def Dev.slotEnd (d : Dev) (old new : Nat) (inp : SlotIn) : Dev × List MemOp :=
  let d := d.refreshAll old inp.refresh
  let (d, ops) := d.holdAll d.ul.cur inp.hold
  let d := d.cleanFollow.holdOutputs
  let d := (d.dlMissingReport old).disablesAct
  let d := d.wakeWindowEnd old new
  (d, ops)

/-! ### The start of a slot -/

/-- The plans of a slot take effect; a plan of a slot that has passed can no longer serve and is discarded. -/
def Dev.takePlans (d : Dev) (new : Nat) : Dev :=
  let d := d.iff (d.ul.plans.any (fun (p : Plan) => p.slot < new)) (·.discardPlans (fun p => p.slot < new))
  let d := d.iff (d.dl.plans.any (fun (p : Plan) => p.slot < new)) (·.discardDl (fun p => p.slot < new))
  let past := (d.ul.past ++ d.ul.cur).filter (fun (p : Plan) => new ≤ p.slot + 3)
  let mine (p : Plan) : Bool := p.slot == new
  { d with
    ul := { d.ul with
      past := past, cur := d.ul.plans.filter mine, plans := d.ul.plans.filter (fun p => !mine p),
      fetched := d.ul.fetched.filter (fun (f : Fetch) => new ≤ f.slot + 3),
      missed := d.ul.missed.filter (fun (x : Nat × Nat × Nat) => new ≤ x.1 + 3),
      part := d.ul.part.filter (fun (x : PlanPart) => !(x.late && x.slot + 16 < new)),
      slot := some new, began := d.now },
    dl := { d.dl with
      cur := d.dl.plans.filter mine, plans := d.dl.plans.filter (fun p => !mine p),
      part := d.dl.part.filter (fun (x : PlanPart) => !(x.late && x.slot + 16 < new)) },
    arch := { d.arch with
      loads := d.arch.loads.filter (fun (l : Nat × Nat × Nat) => new ≤ l.1),
      fwd := d.arch.fwd.filter (fun (f : Fwd) => new ≤ f.slot) } }

/-- Late fetches (R149) and misses (R161, R163) of the slot that starts: an uplink placement's entry must have been read by now, a
downlink placement's by c_0, the instant its slot's precoding begins (R269). A late downlink fetch is a miss as well.
[Log: 52 DEDUCED] -/
def Dev.missesOf (d : Dev) (slot g : Nat) : Dev :=
  let mine (l : List Plan) : List Place := (l.filter (fun (p : Plan) => p.group == g)).flatMap (·.places)
  let got (c : Nat) : Option Fetch := d.ul.fetched.find? (fun f => f.slot == slot && f.group == g && f.cat == c)
  let c0 : Int := (d.consumeAt slot g 0).getD d.now
  let lateUl := (mine d.ul.cur).filter (fun (p : Place) => (got p.cat).isNone)
  let lateDl := (mine d.dl.cur).filter (fun (p : Place) => match got p.cat with | some f => c0 < (f.at_ : Nat) | none => true)
  let late := lateUl ++ lateDl
  let missed := ((mine d.ul.cur ++ mine d.dl.cur).filter (fun (p : Place) => match got p.cat with | some f => f.miss | none => false)).length
  let onTime := (lateDl.filter (fun (p : Place) => match got p.cat with | some f => !f.miss | none => true)).length
  let miss := missed + onTime
  let d := { d with ul := { d.ul with missed := d.ul.missed ++ (lateUl.map (fun (p : Place) => (slot, g, p.cat))).eraseDups } }
  let d := d.iff (!late.isEmpty) (·.raise 39 (g * 65536 + sat 65535 late.length))
  d.countMisses g miss

/-- Carrier groups without a further plan leave ACTIVE (R57); a wake window and a Collimation window hold them. -/
def Dev.groupsLeave (d : Dev) (new : Nat) : Dev :=
  let waking := d.sen.win.isSome || d.sen.wakeAt.isSome
  let idle := maskOf 2 (fun g => d.active g && d.col.win.isNone && !(g == 0 && waking) &&
    !(d.ul.plans ++ d.ul.cur).any (fun (p : Plan) => p.group == g && new ≤ p.slot && p.modes != 0))
  d.iff (idle != 0) (fun d => (d.dropUnits idle).sentinelFollow)

/-- TX quadrants without a burst in progress or to come leave ACTIVE (R57). -/
def Dev.quadsLeave (d : Dev) (new : Nat) : Dev :=
  d.each [0, 1, 2, 3] (fun q d =>
    d.iff (((d.burst q).st == 0 || (d.burst q).st == 3) && d.col.win.isNone && !d.txPlanned new q) (·.txLeave q))

/-- What the start of slot `new` does. -/
def Dev.slotStartEdge (d : Dev) (new : Nat) : Dev :=
  let d := (d.takePlans new).rxBoundary
  let d := { d with dl := { d.dl with pathEff := d.a P.dlPathEnable } }
  let d := (d.synthBoundary new).each (List.range 64) (fun p d => d.restep p)
  let d := d.dpdBoundary new
  let d := d.each [0, 1] (fun g d => d.missesOf new g)
  let d := ((d.groupsLeave new).redVoid new).cleanFollow
  let d := (d.startOutput new).burstBoundary new
  (d.quadsLeave new).showQueued.noteIdle

/-- SLOT_BOUNDARY: the slot in progress by Meridian is no longer the one the device serves. -/
def Dev.slotBoundary (d : Dev) (inp : SlotIn) : Dev × List MemOp :=
  let new := d.slotNow
  if !d.up || d.ul.slot == some new then (d, [])
  else
    let before := match d.ul.slot with
      | some old => (List.range 8).map (fun i => d.rxRuns (i / 4) (i % 4) old)
      | none => []
    let (d, ops) := match d.ul.slot with
      | some old => d.slotEnd old new inp
      | none => (d.disablesAct, [])
    ((d.slotStartEdge new |>.redBoundary new).rxEnds before new, ops)

def execSlotBoundary (dt : Nat) (inp : SlotIn) (s : State) : Host.Outcome State Fault Refusal :=
  onMem dt (fun d _ => d.slotBoundary inp) s

end Sys2Proof.Machine
end

