-- ==== Sys2Proof/Machine/Update.lean ====
section
/-!
DEFINITION. Firmware update: images, packages, the download, verification, confirmation and revert (23_firmware_update.md R613 to
R637). What the cryptography answers comes with UPD_VERIFY_DONE and BOOT_COMPLETE.
-/

namespace Sys2Proof.Machine

/-! ### Images and packages (R613 to R618) -/

/-- The largest LOAD_LENGTH of a component (R613). -/
def loadLimit (c : Nat) : Nat := [655360, 393216, 524288, 393216].getD c 0

/-- The window address of an image slot (R615). -/
def slotAddr (c s : Nat) : Nat := 0x0300000000 + (2 * c + s) * 0x400000

/-- The header of the image in a slot. -/
def Memory.imageHeader (m : Memory) (c s : Nat) : List Byte := m.read (slotAddr c s) 256

/-- What a header says (R616). -/
def imageOf (b : List Byte) : Image where
  comp := field b 4 1
  version := field b 8 4
  rollback := field b 12 4
  load := field b 20 4
  genMain := field b 24 1
  genStrait := field b 25 1
  genTime := field b 26 1
  schema := field b 28 4
  schemaMin := field b 32 4
  schemaMax := field b 36 4
  compat := [0, 1, 2, 3].map (fun k => (field b (40 + 8 * k) 4, field b (44 + 8 * k) 4))

/-- An entry of the package header: the offset and length of the image of a component, length 0 for none (R617). -/
def pkgImage (h : List Byte) (c : Nat) : Nat × Nat := (field h (16 + 8 * c) 4, field h (20 + 8 * c) 4)

/-- The components of a package, ascending. -/
def pkgComps (h : List Byte) : List Nat := [0, 1, 2, 3].filter (fun c => (pkgImage h c).2 != 0)

/-- LENGTH of a package. -/
def pkgLength (h : List Byte) : Nat := field h 12 4

/-- The chunks of a package (R621). -/
def pkgChunks (h : List Byte) : Nat := cdiv (pkgLength h) 8192

/-- The images lie one after another from an offset on; the answer is the first byte behind them. -/
def pkgEnd (h : List Byte) : List Nat → Nat → Option Nat
  | [], off => some off
  | c :: cs, off => let (o, n) := pkgImage h c; if o = off then pkgEnd h cs (off + n) else none

/-- A package header keeps R617. -/
def pkgOk (h : List Byte) : Bool :=
  let comps := pkgComps h
  field h 0 4 == 0x4B505358 && field h 4 1 == 1 && field h 5 1 == comps.length && !comps.isEmpty && field h 8 4 != 0 &&
    [0, 1, 2, 3].all (fun c => (pkgImage h c).2 != 0 || (pkgImage h c).1 == 0) &&
    pkgEnd h comps 64 == some (pkgLength h) && field h 60 4 == crc32c (h.take 60)

/-- BEGIN may take a header (R621). -/
def beginOk (h : List Byte) : Bool :=
  pkgOk h && pkgLength h ≤ 64 + 1024 + ((pkgComps h).map loadLimit).sum && pkgChunks h ≤ 1024

/-- The header of the image of a component keeps R616 and R617 (reason 1 of R624). -/
def imageShape (b : List Byte) (c len : Nat) : Bool :=
  field b 0 4 == 0x4D495358 && field b 4 1 == c && field b 5 1 == 1 && field b 12 4 ≤ 64 && field b 16 4 == field b 20 4 &&
    len == 256 + field b 16 4

/-- A combination of images is allowed (R618), with settings of a schema. -/
def comboOk (run : List Image) (schema : Nat) : Bool :=
  let img (c : Nat) : Image := run.getD c {}
  [0, 1, 2, 3].all (fun k => [0, 1, 2, 3].all (fun j => j == k ||
    (let r := (img k).compat.getD j (0, 0); r.1 ≤ (img j).version && (img j).version ≤ r.2))) &&
    (img 0).schemaMin ≤ schema && schema ≤ (img 0).schemaMax

/-- Every order of a list, in lexicographic order of its places. -/
def orders : Nat → List Nat → List (List Nat)
  | 0, _ => [[]]
  | n + 1, l => l.flatMap (fun x => (orders n (l.erase x)).map (x :: ·))

/-- The combinations after each step of an order are allowed. -/
def orderOk (schema : Nat) (new : Nat → Image) : List Image → List Nat → Bool
  | _, [] => true
  | run, c :: cs => let run := modAt run c (fun _ => new c); comboOk run schema && orderOk schema new run cs

/-- The first valid update order of a package (R618). -/
def Dev.updateOrder (d : Dev) (comps : List Nat) (new : Nat → Image) : Option (List Nat) :=
  (orders comps.length comps).find? (orderOk d.upd.schema new d.upd.run)

/-- UpdOrder of an order (R638). -/
def orderWord (l : List Nat) : Nat := ([0, 1, 2, 3].map (fun i => l.getD i 15 * 16 ^ i)).sum

/-- The component of a step of UpdOrder; 15 past the last. -/
def Dev.orderAt (d : Dev) (i : Nat) : Nat := bits (d.a P.updOrder) (4 * i + 3) (4 * i)

/-- The steps of UpdOrder. -/
def Dev.orderSteps (d : Dev) : List Nat := ([0, 1, 2, 3].map d.orderAt).takeWhile (· != 15)

/-- The confirmed slot of a component. -/
def Dev.confirmed (d : Dev) (c : Nat) : Nat := d.upd.slots.getD c 0

/-- The running slot of a component: during a trial the package's components run from their other slots, during an activation those replaced so far. -/
def Dev.runSlot (d : Dev) (c : Nat) : Nat :=
  let trial := d.a P.updStage == 5 || d.a P.updStage == 6
  let done := if trial then d.orderSteps else if d.a P.updStage = 4 then d.orderSteps.take d.upd.step else []
  if done.contains c && !d.upd.fell.contains c then 1 - d.confirmed c else d.confirmed c

/-! ### Stages (R619, R620) -/

/-- EV125. -/
def Dev.updEvent (d : Dev) (kind comp detail : Nat) : Dev := d.raise 125 (kind + 32 * comp + 128 * detail)

/-- Enter a stage, with its audit entry. -/
def Dev.updTo (d : Dev) (who stage : Nat) : Dev := (d.wN P.updStage stage).audit 7 who 0xFFFF stage 0 0 0

/-- The package is gone from the update record. -/
def Dev.updClear (d : Dev) : Dev :=
  let d := (d.wN P.updPackageId 0).wN P.updOrder 0xFFFF
  let d := (List.range 128).foldl (fun d i => d.wN (P.updChunkBitmap + i) 0) d
  { d with upd := { d.upd with hdr := [], waiting := false, readyAt := none, step := 0, fell := [] } }

/-- UpdNextMissing: the lowest chunk not present (R623). -/
def Dev.nextMissing (d : Dev) : Nat :=
  ((List.range (pkgChunks d.upd.hdr)).find? (fun k => !bit (d.a (P.updChunkBitmap + k / 8)) (k % 8))).getD 0xFFFF

/-! ### Download (R621 to R623) -/

/-- BEGIN: the inactive slots of the package's components are erased. -/
def Dev.updBegin (d : Dev) (who : Nat) : Dev × List MemOp :=
  let h := d.octets P.updPackageHeader 64
  let d := d.updClear
  let d := { d with upd := { d.upd with hdr := h } }
  let d := ((d.wN P.updPackageId (field h 8 4)).updTo who 1).updEvent 1 0 0
  (d, (pkgComps h).map (fun c => let a := slotAddr c (1 - d.confirmed c); .wipe a (a + 0x400000)))

/-- Why a chunk is refused, 0 where it is taken (R622). [Log: 55 DEDUCED] -/
def Dev.chunkStatus (d : Dev) (m : Memory) (chunk : Nat) (data : List Byte) : Nat :=
  if d.a P.updStage ≠ 1 then 6
  else if pkgChunks d.upd.hdr ≤ chunk then 5
  else if d.nvm.deferring then 9
  else if bit (d.a (P.updChunkBitmap + chunk / 8)) (chunk % 8) then
    let same := (data.zip (List.range 8192)).all (fun (e : Byte × Nat) =>
      let x := 8192 * chunk + e.2
      if x < 64 then e.1 == d.upd.hdr.getD x 0#8
      else if pkgLength d.upd.hdr ≤ x then e.1 == 0#8
      else (pkgComps d.upd.hdr).all (fun c =>
        let (o, n) := pkgImage d.upd.hdr c
        x < o || o + n ≤ x || m.get (slotAddr c (1 - d.confirmed c) + (x - o)) == e.1))
    if same then 0 else 5
  else 0

/-- Take a chunk: its bytes go to the inactive slots, its bit is set. -/
def Dev.chunkTake (d : Dev) (chunk : Nat) (data : List Byte) : Dev × List MemOp :=
  if bit (d.a (P.updChunkBitmap + chunk / 8)) (chunk % 8) then (d, [])
  else
    let lo := 8192 * chunk
    let ops := (pkgComps d.upd.hdr).filterMap (fun c =>
      let (o, n) := pkgImage d.upd.hdr c
      let a := max lo o
      let b := min (lo + 8192) (o + n)
      if a < b then some (.put (slotAddr c (1 - d.confirmed c) + (a - o)) (slice data (a - lo) (b - a))) else none)
    (d.wN (P.updChunkBitmap + chunk / 8) (putBit (d.a (P.updChunkBitmap + chunk / 8)) (chunk % 8) true), ops)

/-! ### Verification (R624) -/

/-- VERIFY with every chunk present. -/
def Dev.updVerify (d : Dev) (who : Nat) : Dev := (d.updTo who 2).updEvent 2 0 0

/-- The reason one image fails: `crypto` 0 passes, 2 a signature that does not verify, 3 a tag that fails. -/
def Dev.imageReason (d : Dev) (b : List Byte) (c len crypto : Nat) (keyOk : Bool) : Nat :=
  if !imageShape b c len then 1
  else if !keyOk || crypto == 2 then 2
  else if crypto == 3 then 3
  else if field b 12 4 < d.fus.rollback.getD c 0 then 4
  else if loadLimit c < field b 20 4 then 5
  else 0

/-- UPD_VERIFY_DONE: `crypto` by component. -/
def Dev.updVerifyDone (d : Dev) (m : Memory) (crypto : List Nat) (keyOk : Bool) : Dev :=
  if d.a P.updStage ≠ 2 then d
  else
    let comps := pkgComps d.upd.hdr
    let head (c : Nat) : List Byte := m.imageHeader c (1 - d.confirmed c)
    let bad := comps.findSome? (fun c =>
      let r := d.imageReason (head c) c (pkgImage d.upd.hdr c).2 (crypto.getD c 0) keyOk
      if r = 0 then none else some (c, r))
    match bad, d.updateOrder comps (fun c => imageOf (head c)) with
    | none, some l => ((d.wN P.updOrder (orderWord l)).updTo whoDevice 3).updEvent 3 0 0
    | bad, _ =>
      let r := (bad.map (·.2)).getD 6
      let d := (List.range 128).foldl (fun d i => d.wN (P.updChunkBitmap + i) 0) d
      ((d.w P.updVerifyResult r).updTo whoDevice 1).updEvent 4 0 r

def execUpdVerifyDone (dt : Nat) (crypto : List Nat) (keyOk : Bool) (s : State) : Host.Outcome State Fault Refusal :=
  onMem dt (fun d m => (d.updVerifyDone m crypto keyOk, [])) s

/-- ABANDON (R625). -/
def Dev.updAbandon (d : Dev) (who : Nat) : Dev := (d.updClear.updTo who 0).updEvent 10 0 0

/-! ### Activation (R626 to R630) -/

/-- FIRMWARE_ACTIVATE fires with a PACKAGE_ID: the result of R441. What keeps the device from READY is cleared away as for
SLEEP (R627). -/
def Dev.activateAsk (d : Dev) (arg : Nat) : Dev × Nat :=
  if d.a P.updStage ≠ 3 ∨ d.a P.updPackageId ≠ arg ∨ d.upd.waiting then (d.updEvent 6 0 2, 3)
  else
    let d := { d with upd := { d.upd with waiting := true } }
    let d := d.iff (d.a P.pwrActiveMask != 0) (·.discardAllPlans)
    (d.iff (d.pwr.base < 2) (·.goUp 2 255), 0)

/-- The device stands in READY with nothing in progress. -/
def Dev.standsReady (d : Dev) : Bool :=
  d.pwr.phase == .running && d.pwr.base == 2 && d.a P.pwrActiveMask == 0 && d.pwr.jobs.all (·.kind == 2) && d.col.win.isNone

/-- ACTIVATION_START (R628): READY is reached, the update record is written. -/
def Dev.activationStart (d : Dev) : Dev :=
  if d.upd.waiting && d.standsReady && d.a P.updStage == 3 then
    let d := { d with upd := { d.upd with waiting := false, readyAt := some d.now, step := 0 } }
    (d.wN P.updTrialBoots 1).updTo whoDevice 4
  else d

def execActivationStart (dt : Nat) (s : State) : Host.Outcome State Fault Refusal := onDev dt (·.activationStart) s

/-- Every lane goes DOWN and comes up anew under the new FERRY (R628). No cause of R469 is stated for it: a free value.
[Log: 69 DEDUCED] -/
def Dev.ferryRestart (d : Dev) : Dev :=
  let (c, d) := d.free 700 3
  let d := d.each (List.range 24) (fun l d => d.laneOff l c)
  d.lanesFollow 3

/-- A component runs another image. -/
def Dev.runImage (d : Dev) (c : Nat) (i : Image) : Dev :=
  let d := { d with upd := { d.upd with run := modAt d.upd.run c (fun _ => i) } }
  let d := d.iff (c == 0) (·.sesCloseAll)
  d.iff (c == 3) (·.ferryRestart)

/-! ### Trial settings (R632, R634) -/

/-- N-class values of the settings: those of the update record and of the logs stand outside. [Log: 69 DEDUCED] -/
def settingKey (k : Nat) : Bool :=
  let index := k / 2 ^ 24
  let logs := [P.auditSeq, P.auditWrapCount, P.eventLogWrapCount, P.thermShutdownLog, P.eventSeq].map keyId
  (match rowOf (keyId k) with | some r => (match r.cls with | .N => true | _ => false) | none => false) &&
    !(0x9400 ≤ index && index ≤ 0x94FF) && !logs.contains (keyId k)

/-- Put the settings of before the trial back. -/
def Dev.trialDiscard (d : Dev) : Dev :=
  match d.upd.old with
  | none => d
  | some (vals, recs) =>
    let d := { d with alm := d.alm.filter (fun (e : Nat × Nat) => !settingKey e.1) }
    let d := d.wAll vals
    { d with cha := { d.cha with recs := recs }, upd := { d.upd with old := none } }

/-- The first trial boot: settings go to the trial area from here on. -/
def Dev.trialKeep (d : Dev) : Dev :=
  if d.upd.old.isSome then d
  else { d with upd := { d.upd with old := some (d.alm.filter (fun (e : Nat × Nat) => settingKey e.1), d.cha.recs) } }

/-- Revert (R634): the old slots are confirmed, the stage is 0; the images run again from the reset that follows. -/
def Dev.updRevert (d : Dev) (m : Memory) (who detail : Nat) : Dev :=
  let d := (d.trialDiscard.updClear).wN P.updTrialBoots 0
  let d := { d with upd := { d.upd with run := [0, 1, 2, 3].map (fun c => imageOf (m.imageHeader c (d.confirmed c))) } }
  (d.updTo who 0).updEvent 9 0 detail

/-! ### Confirmation (R635, R636) -/

/-- A Strait join stands in generation mismatch (R529). -/
def Dev.anyMismatch (d : Dev) : Bool := [1, 2, 3, 4].any (fun p => (d.port.getD p {}).mismatch)

/-- Steps 2 to 4 of R635. -/
def Dev.confirmRest (d : Dev) (m : Memory) (who : Nat) : Dev :=
  let comps := d.orderSteps.filter (fun c => !d.upd.fell.contains c)
  let d := { d with upd := { d.upd with old := none, schema := (d.upd.run.getD 0 {}).schema } }
  let d := d.each comps (fun c d =>
    let r := (imageOf (m.imageHeader c (1 - d.confirmed c))).rollback
    if d.fus.rollback.getD c 0 < r then
      ({ d with fus := { d.fus with rollback := modAt d.fus.rollback c (fun _ => r) } }).incN P.fuseProgramCount
    else d)
  let d := { d with upd := { d.upd with slots := [0, 1, 2, 3].map (fun c =>
    if comps.contains c then 1 - d.confirmed c else d.confirmed c) } }
  ((d.updClear.wN P.updTrialBoots 0).updTo who 0).updEvent 8 0 0

/-- Confirm. [Log: 69 DEDUCED] -/
def Dev.updConfirm (d : Dev) (m : Memory) (who : Nat) : Dev := (d.updTo who 6).confirmRest m who

/-- UpdTrialElapsed in seconds. -/
def Dev.trialElapsed (d : Dev) : Nat := if d.a P.updStage = 5 then sat (2 ^ 32 - 1) ((d.merNs - d.upd.trialAt) / 10 ^ 9) else 0

/-- UPD_AUTO_CONFIRM (R633, R636). -/
def Dev.autoConfirm (d : Dev) (m : Memory) : Dev :=
  if d.a P.updStage == 5 && d.a P.updAutoConfirm == 1 && d.a P.updHealthWindow ≤ d.trialElapsed && !d.anyMismatch
      && d.fuseTempOk && !d.nvm.deferring then d.updConfirm m whoDevice
  else d

def execUpdAutoConfirm (dt : Nat) (s : State) : Host.Outcome State Fault Refusal :=
  onMem dt (fun d m => (d.autoConfirm m, [])) s

/-! ### Commands (R619) -/

/-- Why a write to UpdCommand is refused, 0 where it is taken. [Log: 55 DEDUCED] -/
def Dev.updCmdStatus (d : Dev) (v : Nat) : Nat :=
  let st := d.a P.updStage
  match v with
  | 1 => if st = 0 ∨ st = 1 ∨ st = 3 then (if d.upd.waiting then 6 else if beginOk (d.octets P.updPackageHeader 64) then 0 else 5) else 6
  | 2 => if st = 1 then (if d.nextMissing = 0xFFFF then 0 else 6) else 6
  | 3 => if (st = 1 ∨ st = 3) ∧ !d.upd.waiting then 0 else 6
  | 4 => if st ≠ 5 ∨ !d.fuseTempOk then 6 else if d.nvm.deferring then 9 else 0
  | 5 => if st = 5 then 0 else 6
  | _ => 5

/-- Carry out a write to UpdCommand; true where a command reset follows (R634). -/
def Dev.updCmd (d : Dev) (m : Memory) (who v : Nat) : (Dev × List MemOp) × Bool :=
  match v with
  | 1 => (d.updBegin who, false)
  | 2 => ((d.updVerify who, []), false)
  | 3 => ((d.updAbandon who, []), false)
  | 4 => ((d.updConfirm m who, []), false)
  | 5 => ((d.updRevert m who 2, []), true)
  | _ => ((d, []), false)

/-- UpdSlotHeaders (R638). -/
def Memory.slotHeaders (m : Memory) : List Byte :=
  [0, 1, 2, 3].flatMap (fun c => m.imageHeader c 0 ++ m.imageHeader c 1)

end Sys2Proof.Machine
end

