-- ==== Sys2Proof/Machine/Ephemeris.lean ====
section
/-!
DEFINITION. The Ephemeris: writing, preparing and firing entries, hand-overs and deferred shadow writes, passed entries
(15_ephemeris.md R434 to R449; 02_supplies_clocks_sleep.md R39, R65; 11_collimation.md R338 to R342).
-/

namespace Sys2Proof.Machine

/-! ### Entries -/

/-- The entry at a number; none where it is FREE. -/
def Dev.ephAt (d : Dev) (i : Nat) : Option EphEnt := (d.eph.ent.find? (fun x => x.1 == i)).map (·.2)

/-- Free an entry. -/
def Dev.ephFree (d : Dev) (i : Nat) : Dev :=
  { d with eph := { d.eph with ent := d.eph.ent.filter (fun (x : Nat × EphEnt) => x.1 != i) } }

/-- Put an entry at a number. -/
def Dev.ephPut (d : Dev) (i : Nat) (e : EphEnt) : Dev :=
  let d := d.ephFree i
  { d with eph := { d.eph with ent := insertBy (fun (x : Nat × EphEnt) => x.1) (i, e) d.eph.ent } }

/-- The lowest FREE entry (R437). -/
def Dev.ephLowest (d : Dev) : Option Nat := (List.range 1024).find? (fun i => (d.ephAt i).isNone)

/-- No entry fires now: a reset, a shutdown, the LPO, an unlocked PLL or an activation holds the Ephemeris (R39, R44, R47,
R627). -/
def Dev.ephHeld (d : Dev) : Bool :=
  d.pwr.phase != .running || d.clk.onLpo || d.pwr.convBad || d.pwr.coreBad || d.upd.waiting || d.a P.updStage == 4

/-- The place of an action in the order of R442. -/
def ephRank (action : Nat) : Nat := [12, 11, 10, 1, 7, 8, 2, 6, 5, 3, 4, 9].getD action 12

/-- Actions on the 2.5 ns grid (R436). [Log: 71 DEDUCED] -/
def ephFine (action : Nat) : Bool := [3, 6, 7, 9, 10].contains action

/-- The entry's instant has come: an action on the 2.5 ns grid may fall between this REFCLK edge and the next.
[Log: 71 DEDUCED] -/
def Dev.ephDue (d : Dev) (e : EphEnt) : Bool :=
  if ephFine e.action then decide (e.at_ < d.clk.mer + d.merInc) else decide (e.at_ ≤ d.clk.mer)

/-- Elapsed ps of what an entry acts on: for an action on the 2.5 ns grid the first converter sample at or after its time, else this
edge (R109, R131, R436). A time that lies behind acts now. [Log: 71 DEDUCED] -/
def Dev.ephInstant (d : Dev) (e : EphEnt) : Nat :=
  if ephFine e.action then d.now + 2500 * min 4 (cdiv ((e.at_ - d.clk.mer) * 4) d.merInc) else d.now

/-- Order of entries: by time, then by R442, then by number. -/
def ephKey (x : Nat × EphEnt) : Nat := (x.2.at_ * 16 + ephRank x.2.action) * 1024 + x.1

/-- No entry that is due comes before an entry: by the grid instant, then by R442, then by number (R132, R442). -/
def Dev.ephFirst (d : Dev) (i : Nat) (e : EphEnt) : Bool :=
  let key (i : Nat) (e : EphEnt) : Nat := (d.ephInstant e * 16 + ephRank e.action) * 1024 + i
  d.eph.ent.all (fun (x : Nat × EphEnt) => !d.ephDue x.2 || key i e ≤ key x.1 x.2)

/-- The entry's time less so many ns lies before an instant. -/
def EphEnt.before (e : EphEnt) (ns mer : Nat) : Bool := decide (e.at_ * 10 ^ 9 < mer * 10 ^ 9 + ns * merUnit)

/-- The preparation lead by which R439 judges, ns. -/
def passLead (action : Nat) : Nat := if action = 3 then 2000 else 0

/-- The entry has passed (R439). -/
def Dev.ephPast (d : Dev) (e : EphEnt) : Bool := e.before (passLead e.action) d.clk.mer

/-! ### Writing (R437 to R440) -/

/-- The entry of a body of R434, and its INDEX. -/
def ephBody (b : List Byte) : EphEnt × Nat :=
  (⟨field b 0 8, field b 8 5, field b 13 1, field b 14 1 % 4, 1, field b 16 4, field b 22 2⟩, field b 20 2)

/-- ARG keeps R436. -/
def Dev.ephArgOk (d : Dev) (action arg : Nat) : Bool :=
  match action with
  | 1 => arg == 1 || arg == 2
  | 2 => arg ≤ 1
  | 3 => 1 ≤ arg && arg < 2048
  | 4 => arg ≤ 3
  | 5 => arg / 2 ^ 27 == 0 && !bit arg 24 && (!bit arg 26 || (d.isRoot && d.a P.collimArchipelago == 1))
  | 6 => arg == 0
  | 7 => arg ≤ 2
  | 8 => arg ≤ 3
  | 9 => arg ≤ 15
  | 10 => arg ≤ 15
  | 11 => true
  | _ => false

/-- A write to EphWrite by R438 and R439: 0 stores, executes late or cancels; else the status it is refused with. -/
def Dev.ephStatus (d : Dev) (b : List Byte) : Nat :=
  let (e, i) := ephBody b
  let locked : Bool := match d.ephAt i with | some x => x.state == 2 | none => false
  if !d.tim.valid then 6
  else if !((e.action == 0 || d.ephArgOk e.action e.arg) && (i < 1024 || (i == 0xFFFF && e.action != 0))) then 5
  else if locked then 6
  else if e.action = 0 then (if (d.ephAt i).isNone then 5 else 0)
  else if e.action = 11 && e.before 2000000000 d.clk.mer then 5
  else if i = 0xFFFF && d.ephLowest.isNone then 6
  else if d.ephPast e && !bit e.flags 0 then 5
  else 0

/-- What a refused write leaves: EV90 for a full table, EV88 for a passed entry, the counts (R438 to R440). -/
def Dev.ephRefuse (d : Dev) (b : List Byte) : Dev :=
  let (e, i) := ephBody b
  let early := !d.tim.valid || !((e.action == 0 || d.ephArgOk e.action e.arg) && (i < 1024 || (i == 0xFFFF && e.action != 0)))
    || (match d.ephAt i with | some x => x.state == 2 | none => false)
    || e.action == 0 || (e.action == 11 && e.before 2000000000 d.clk.mer)
  if early then d.inc P.ephWriteRefusedCount
  else if i = 0xFFFF ∧ d.ephLowest.isNone then (d.inc P.ephWriteRefusedCount).raise 90 e.action
  else
    let n := if i = 0xFFFF then d.ephLowest.getD 0 else i
    (d.inc P.ephLateRejectedCount).raise 88 (n + 1024 * b2n (i == 0xFFFF) + 2048 * e.action)

/-! ### Hand-over (R443, R447 to R449) -/

/-- The unit of a shadow entry as HANDOVER's ARG numbers it. -/
def shadowUnit (k : Nat) : Option Nat :=
  let id := keyId k
  let e := keyEntry k
  let is (p : Nat) : Bool := keyId p == id
  if is P.rxGainShadowA || is P.rxBbBandwidthA || is P.ncoShadowA || is P.firBankShadowA || is P.rxLoShadowA then some 0
  else if is P.rxGainShadowB || is P.rxBbBandwidthB || is P.ncoShadowB || is P.firBankShadowB || is P.rxLoShadowB then some 1
  else if is P.txLoShadow || is P.txNcoShadowA || is P.txNcoShadowB then some (2 + e)
  else if is P.txStepShadow then some (2 + e / 16)
  else if is P.biasCodeShadow then some (6 + e / 16)
  else none

/-- The LOCKED hand-overs that name the unit of a shadow entry. -/
def Dev.lockers (d : Dev) (k : Nat) : List Nat :=
  match shadowUnit k with
  | none => []
  | some u => (d.eph.ent.filter (fun (x : Nat × EphEnt) => x.2.state == 2 && x.2.action == 3 && bit x.2.arg u)).map (·.1)

/-- A write of a shadow parameter that touches a locked entry waits (R448). `param` is its key without an entry. -/
def Dev.shadowDefer (d : Dev) (param : Nat) (ents : List Nat) (vals : List (Nat × Nat)) : Dev :=
  let old := d.eph.pend.find? (fun (x : EphPend) => x.param == param)
  let one : EphPend := ⟨param, ((old.map (·.ents)).getD [] ++ ents).eraseDups, vals⟩
  let rest := d.eph.pend.filter (fun (x : EphPend) => x.param != param)
  let d := { d with eph := { d.eph with pend := rest ++ [one] } }
  let index := param / 2 ^ 24
  if old.isSome then (d.inc P.ephPendingReplacedCount).raise 91 (index + 65536)
  else (d.inc P.ephShadowDeferredCount).raise 91 index

/-- The pending writes of an entry land in the shadow (R449): a hand-over locks shadow entries and no other. -/
def Dev.ephLand (d : Dev) (i : Nat) : Dev :=
  let mine := d.eph.pend.filter (fun (x : EphPend) => x.ents.contains i)
  let rest := d.eph.pend.filter (fun (x : EphPend) => !x.ents.contains i)
  let d := { d with eph := { d.eph with pend := rest } }
  d.each mine (fun (x : EphPend) d => d.wAll (x.vals.filter (fun v => (shadowUnit v.1).isSome)))

/-- A commit of a unit changes the channel of a synthesiser that runs (R347). -/
def Dev.changesLo (d : Dev) (u : Nat) : Bool :=
  let moves (k s a : Nat) : Bool := d.synthOn k && d.a s != d.a a
  if u < 2 then [0, 1, 2, 3].any (fun q => moves (3 * q + u) (gk P.rxLoShadowA u + q) (gk P.rxLoActiveA u + q))
  else if u < 6 then moves (3 * (u - 2) + 2) (P.txLoShadow + (u - 2)) (P.txLoActive + (u - 2))
  else false

/-- Commit one unit. -/
def Dev.commitUnit (d : Dev) (u : Nat) (events : Bool) : Dev :=
  let d := d.iff (d.changesLo u) (·.colAbandon 3)
  if u < 2 then (d.commitRx u events).colCentres
  else if u < 6 then (d.commitTx (u - 2) events).colCentres else d.commitBias (u - 6)

/-- A HANDOVER commits every named unit once on an instant of the 2.5 ns grid, and raises EV92 (R76, R443, R447). -/
def Dev.handover (d : Dev) (arg : Nat) : Dev :=
  let done := match d.eph.commits with
    | some (t, m) => if t = d.actAt then m else 0
    | none => 0
  let d := { d with eph := { d.eph with commits := some (d.actAt, maskOr 11 done arg) } }
  let d := d.each (bitList 11 (maskSub 11 arg done)) (fun u d => d.commitUnit u true)
  d.raise 92 (arg % 2048)

/-! ### Transitions an entry needs (R65, R340, R627) -/

/-- The state an entry has to reach by its time. -/
def EphEnt.target (e : EphEnt) : Option Nat :=
  match e.action with
  | 1 => some e.arg
  | 5 => some 2
  | 11 => some 2
  | _ => none

/-- The state the device is in or going down to. -/
def Dev.stands (d : Dev) : Nat := if d.goingDown then d.downTo else d.pwr.base

/-- The lead of an entry's preparation, ns; none where it needs none. -/
def Dev.ephLead (d : Dev) (e : EphEnt) : Option Nat :=
  if e.action = 3 then some 2000
  else match e.target with
    | some t => if d.stands < t then some (upMax d.stands t) else none
    | none => none

/-- Begin the transition of an entry; it is noted for EV7. -/
def Dev.ephBegin (d : Dev) (e : EphEnt) (late : Bool) : Dev :=
  match e.target with
  | none => d
  | some t =>
    let may := d.mayWake && (e.action != 1 || d.ab P.wakeSourceMask 0)
    let acts := may && d.a P.pwrActiveMask == 0 && d.stands < t
    let d := d.iff (e.action == 5) (fun d => { d with col := { d.col with before := d.stands }, pwr := { d.pwr with named := 0 } })
    let d := d.iff acts (fun d => { d with pwr := { d.pwr with wakes := d.pwr.wakes ++ [(t, e.ns, late)] } })
    if e.action = 1 then d.wake 0 t else d.iff acts (·.goUp t 255)

/-- EPH_PREPARE (R435): a hand-over locks its shadows, a transition begins. -/
def Dev.ephPrepare (d : Dev) (i : Nat) : Dev :=
  match d.ephAt i with
  | none => d
  | some e =>
    if e.state ≠ 1 ∨ d.ephHeld then d
    else match d.ephLead e with
      | none => d
      | some ns =>
        if e.before (ns + 10) d.clk.mer then ((d.ephPut i { e with state := 2 }).ephBegin e false).noteIdle else d

def execEphPrepare (dt index : Nat) (s : State) : Host.Outcome State Fault Refusal := onDev dt (·.ephPrepare index) s

/-! ### Firing (R436, R441) -/

/-- Ask for a Chart (R582, R585): a load waits while another load or a store runs. `how` is the way of R586. -/
def Dev.chartAsk (d : Dev) (chart how who : Nat) : Dev :=
  let d := d.iff (how == 3 || how == 4) (·.wN P.chartLastCommanded chart)
  let one : ChartLoad := ⟨chart, how, who⟩
  if d.cha.load.isSome ∨ d.cha.store.isSome then
    { d with cha := { d.cha with wait := d.cha.wait ++ [.load one] } }
  else { d with cha := { d.cha with load := some one } }

/-- Note an action for the completion of the next exit from DEEP (R436): its code, number and argument. -/
def Dev.ephDefer (d : Dev) (action i arg : Nat) : Dev :=
  { d with pwr := { d.pwr with deferredEph := d.pwr.deferredEph ++ [action + 16 * i + 16384 * arg] } }

/-- TX_ENABLE and TX_DISABLE (R446). [Log: 72 DEDUCED] -/
def Dev.ephTx (d : Dev) (on : Bool) (mask : Nat) : Dev :=
  let old := d.a P.ephTxDisabledMask
  if on then d.w P.ephTxDisabledMask (maskSub 4 old mask)
  else
    let d := d.w P.ephTxDisabledMask (maskOr 4 old mask)
    d.each (bitList 4 mask) (fun q d =>
      let d := (d.stopBurst q 6).colHold (2 ^ q)
      d.iff ((d.burst q).st != 5 && d.active (2 + q)) (·.dropUnits (2 ^ (2 + q))))

/-- A SYNC_RESET: a SYNC edge of the same REFCLK period asks for no reset of its own (R50). [Log: 88 DEDUCED] -/
def Dev.ephSyncReset (d : Dev) : Dev :=
  let x := d.cleanFollow.syncReset
  { x with pwr := { x.pwr with
    ephSync := some d.now, syncPend := if d.pwr.syncPend = some (d.now + 100000) then none else d.pwr.syncPend } }

/-- What an action does and its result (R441): 0 done, 1 no effect, 2 deferred, 3 failed. `j` instants of a Transit capture
precede it. -/
def Dev.ephAct (d : Dev) (i : Nat) (e : EphEnt) (j : Nat) : Dev × Nat :=
  let deep := d.pw == 0
  let arg := e.arg
  match e.action with
  | 1 => (if e.state = 2 then d else d.ephBegin e true, 0)
  | 2 =>
    if deep || (d.pwr.base ≤ arg && d.a P.pwrActiveMask == 0) then (d, 1)
    else
      let win := d.sen.win.map (fun (w : Nat × Nat) => (w.1, min w.2 d.slotNow))
      ({ d with sen := { d.sen with win := win }, pwr := { d.pwr with sleepTo := some (arg + 4) } }, 0)
  | 3 => if deep then (d.ephDefer 3 i arg, 2) else (d.handover arg, 0)
  | 4 => if deep then (d.ephDefer 4 i arg, 2) else (d.chartAsk (arg % 4) 4 whoDevice, 0)
  | 5 =>
    let d := d.iff (e.state != 2) (fun d =>
      d.iff (d.col.win.isNone) (fun d => { d with col := { d.col with before := d.stands }, pwr := { d.pwr with named := 0 } }))
    let d := d.iff (d.stands < 2) (·.ephBegin e true)
    let d := d.burstsEnd
    (d.colOpen e.ns (arg % 2 ^ 24) (bit arg 25) (bit arg 26), 0)
  | 6 => if deep then (d, 1) else (d.ephSyncReset, 0)
  | 7 =>
    if deep then (d, 3)
    else if arg = 0 then (if d.traMayArm then (d.traArm, 0) else (d, 3))
    else if arg = 1 then
      (let hit := (d.traSt == 1 && d.condMet (d.a P.transitSeqState) 5 0) || (d.traSt == 3 && d.condMet 0 5 0)
       (d.traOccur 5 0 j 0, b2n !hit))
    else (d.traClose j, b2n (d.traSt == 0 || d.traSt == 4))
  | 8 =>
    let n := arg % 4
    if d.a (P.hkInjectState + n) = 1 then
      (let d := d.injectTrigger (2 ^ n); (d, if d.a (P.hkInjectState + n) = 2 then 0 else 3))
    else (d, 1)
  | 9 => (d.ephTx true arg, if deep then 2 else 0)
  | 10 => (d.ephTx false arg, if deep then 2 else 0)
  | 11 => d.activateAsk arg
  | _ => (d, 1)

/-- An entry fires; `late` under R39 or R439. Its number is `i`, and its pending shadow writes land behind a commit.
[Log: 71 DEDUCED] -/
def Dev.ephFire (d : Dev) (i : Nat) (e : EphEnt) (late : Bool) (j : Nat) : Dev :=
  let r := (d.ephAct i e j).2
  let d := d.acting (d.ephInstant e) (fun d => (d.ephAct i e j).1)
  let d := d.iff (e.action == 3 && r != 2) (·.ephLand i)
  let d := d.inc P.ephFiredCount
  let d := d.iff late (fun d => (d.inc P.ephLateExecutedCount).raise 89 (i + 1024 * e.action))
  (d.iff (bit e.flags 1) (·.raise 87 (i + 1024 * e.action + 16384 * r))).noteIdle

/-- An entry of the table fires at its instant with one of some actions, after every entry due before it; `j` as in `ephAct`.
[Log: 72 DEDUCED] -/
def Dev.ephGo (d : Dev) (i action j : Nat) : Dev :=
  match d.ephAt i with
  | none => d
  | some e => if e.action = action ∧ d.ephDue e ∧ d.ephFirst i e ∧ !d.ephHeld then (d.ephFree i).ephFire i e false j else d

/-- A TRANSIT_ARM entry fires with one of its codes. -/
def Dev.ephTransit (d : Dev) (i code j : Nat) : Dev :=
  match d.ephAt i with
  | none => d
  | some e => d.iff (e.arg == code) (·.ephGo i 7 j)

/-- EPH_WAKE (R65, R436). -/
def execEphWake (dt index : Nat) (s : State) : Host.Outcome State Fault Refusal := onDev dt (·.ephGo index 1 0) s
/-- EPH_SLEEP (R445). -/
def execEphSleep (dt index : Nat) (s : State) : Host.Outcome State Fault Refusal := onDev dt (·.ephGo index 2 0) s
/-- EPH_HANDOVER (R447). -/
def execEphHandover (dt index : Nat) (s : State) : Host.Outcome State Fault Refusal := onDev dt (·.ephGo index 3 0) s
/-- EPH_CHART (R436, R582). -/
def execEphChart (dt index : Nat) (s : State) : Host.Outcome State Fault Refusal := onDev dt (·.ephGo index 4 0) s
/-- EPH_COLLIMATE (R339 to R342). -/
def execEphCollimate (dt index : Nat) (s : State) : Host.Outcome State Fault Refusal := onDev dt (·.ephGo index 5 0) s
/-- EPH_SYNC_RESET (R131). -/
def execEphSyncReset (dt index : Nat) (s : State) : Host.Outcome State Fault Refusal := onDev dt (·.ephGo index 6 0) s
/-- EPH_TRANSIT_ARM: code 0 (R555). -/
def execEphTransitArm (dt index : Nat) (s : State) : Host.Outcome State Fault Refusal := onDev dt (·.ephTransit index 0 0) s
/-- EPH_TRANSIT_CONDITION: code 1 (R556). -/
def execEphTransitCondition (dt index instants : Nat) (s : State) : Host.Outcome State Fault Refusal :=
  onDev dt (·.ephTransit index 1 instants) s
/-- EPH_TRANSIT_CLOSE: code 2 (R561). -/
def execEphTransitClose (dt index instants : Nat) (s : State) : Host.Outcome State Fault Refusal :=
  onDev dt (·.ephTransit index 2 instants) s
/-- EPH_HK_INJECT (R379). -/
def execEphHkInject (dt index : Nat) (s : State) : Host.Outcome State Fault Refusal := onDev dt (·.ephGo index 8 0) s
/-- EPH_TX_ENABLE (R446). -/
def execEphTxEnable (dt index : Nat) (s : State) : Host.Outcome State Fault Refusal := onDev dt (·.ephGo index 9 0) s
/-- EPH_TX_DISABLE (R446). -/
def execEphTxDisable (dt index : Nat) (s : State) : Host.Outcome State Fault Refusal := onDev dt (·.ephGo index 10 0) s
/-- EPH_FIRMWARE_ACTIVATE (R626, R627). -/
def execEphFirmwareActivate (dt index : Nat) (s : State) : Host.Outcome State Fault Refusal := onDev dt (·.ephGo index 11 0) s

/-- SYNCHRONISING_RESET (R131): the reset a SYNC edge asked for acts on the converter sample 100 ns after the edge; a hand-over due by
then commits first (R132). -/
def execSynchronisingReset (dt : Nat) (s : State) : Host.Outcome State Fault Refusal :=
  onDev dt (fun d =>
    match d.pwr.syncPend with
    | none => d
    | some t =>
      let waits := !d.ephHeld && d.eph.ent.any (fun (x : Nat × EphEnt) => x.2.action == 3 && d.ephDue x.2 && d.ephInstant x.2 ≤ t)
      if t ≤ d.now && !waits then
        let d := { d with pwr := { d.pwr with syncPend := none } }
        d.iff (d.pw != 0) (fun d => d.cleanFollow.acting t (·.syncReset))
      else d) s

/-! ### Passed entries (R39) -/

/-- One passed entry: executed late, or removed with EV88; the writes it locked land (R449). -/
def Dev.ephPassOne (d : Dev) (i : Nat) (e : EphEnt) : Dev :=
  let d := d.ephFree i
  if bit e.flags 0 then let (j, d) := d.free 720 40; d.ephFire i { e with state := 1 } true j
  else ((d.ephLand i).inc P.ephLateRejectedCount).raise 88 (i + 2048 * e.action)

/-- Every entry whose time has passed, in time order, and on one instant in the order of R442. [Log: 19 DEDUCED] -/
def Dev.ephPassed (d : Dev) : Dev :=
  let due := d.eph.ent.filter (fun (x : Nat × EphEnt) => x.2.at_ < d.clk.mer)
  let order := due.foldl (fun acc x => insertBy ephKey x acc) []
  (d.each order (fun (x : Nat × EphEnt) d => d.ephPassOne x.1 x.2)).noteIdle

/-! ### Accepted writes -/

/-- An accepted write to EphWrite (R437, R439): it cancels, stores or executes late. [Log: 72 DEDUCED] -/
def Dev.ephStore (d : Dev) (b : List Byte) : Dev :=
  let (e, i) := ephBody b
  if e.action = 0 then ((d.ephFree i).ephLand i).noteIdle
  else if d.ephPast e then
    let n := if i = 0xFFFF then d.ephLowest.getD 0 else i
    let d := d.iff (i != 0xFFFF) (·.ephFree i)
    let (j, d) := d.free 721 40
    d.ephFire n e true j
  else
    let n := if i = 0xFFFF then d.ephLowest.getD 0 else i
    let d := (d.ephPut n e).iff (i == 0xFFFF) (·.w P.ephInsertIndex n)
    match d.ephLead e with
    | none => d
    | some ns =>
      if e.before (ns + 10) d.clk.mer && !d.ephHeld then
        ((d.ephPut n { e with state := 2 }).ephBegin e (e.before ns d.clk.mer)).noteIdle
      else d

/-! ### Exit from DEEP (R436) -/

/-- The actions deferred in DEEP act at the completion of the exit, before any unit runs: hand-overs, then Charts. -/
def Dev.ephExit (d : Dev) : Dev :=
  let all := d.pwr.deferredEph
  let d := { d with pwr := { d.pwr with deferredEph := [] } }
  let code (x : Nat) : Nat := x % 16
  let d := d.each (all.filter (fun x => code x == 3)) (fun x d => (d.handover (x / 16384)).ephLand (x / 16 % 1024))
  d.each (all.filter (fun x => code x == 4)) (fun x d => d.chartAsk (x / 16384 % 4) 4 whoDevice)

/-! ### SLEEP takes effect (R445) -/

/-- SLEEP_TAKE_EFFECT: once every unit has left ACTIVE and no window is open, the device goes down. A request of
PwrRequestState that waited discards plans only where it goes to DEEP (R66). [Log: 30 DEDUCED] -/
def Dev.sleepNow (d : Dev) (m : Memory) (p : Places) : Dev × List MemOp :=
  match d.pwr.sleepTo with
  | none => (d, [])
  | some t =>
    if d.a P.pwrActiveMask != 0 || d.bringing != 0 || d.goingUp || d.col.win.isSome || d.sen.win.isSome || d.ephHeld then (d, [])
    else
      let d := { d with pwr := { d.pwr with sleepTo := none } }
      let d := d.iff (4 ≤ t) (·.discardAllPlans)
      let (d, ops) := d.goDown m p (t % 4)
      (d.noteIdle, ops)

def execSleepTakeEffect (dt : Nat) (s : State) : Host.Outcome State Fault Refusal :=
  onAll dt (fun d m p => d.sleepNow m p) s

/-! ### The end of a Collimation window (R339, R340) -/

/-- The window closes; the device returns to the state before it unless a higher one was named. [Log: 73 DEDUCED] -/
def Dev.colEnd (d : Dev) (m : Memory) (p : Places) : Dev × List MemOp :=
  let d := d.colClose
  let back := max d.col.before d.pwr.named
  let free := d.a P.pwrActiveMask == 0 && d.bringing == 0 && d.ul.plans.isEmpty && d.dl.plans.isEmpty
  if back < 2 && back < d.pwr.base && free && !d.goingUp && !d.upd.waiting then
    let (d, ops) := d.goDown m p back
    (d.noteIdle, ops)
  else (d.noteIdle, [])

/-- COLLIM_WINDOW_END. -/
def Dev.colWindowEnd (d : Dev) (m : Memory) (p : Places) : Dev × List MemOp :=
  match d.col.win with
  | some (_, b) => if b ≤ d.merNs then d.colEnd m p else (d, [])
  | none => (d, [])

def execCollimWindowEnd (dt : Nat) (s : State) : Host.Outcome State Fault Refusal :=
  onAll dt (fun d m p => d.colWindowEnd m p) s

/-! ### Time steps (R413, R691) -/

/-- Plans and data that a step leaves behind: plans of slots that start in the past are discarded, incomplete plans past
their deadline are late, DL_DATA past its consumption instant is discarded. [Log: 19 DEDUCED] -/
def Dev.stepPlans (d : Dev) : Dev :=
  let past (p : Plan) : Bool := p.slot * d.slotNs ≤ d.merNs
  let d := d.iff (d.ul.plans.any past) (·.discardPlans past)
  let d := d.iff (d.dl.plans.any past) (·.discardDl past)
  let late := d.dl.got.filter (fun (b : DlBlk) => match d.consumeAt b.slot b.group b.inst with
    | some c => c < (d.now : Int)
    | none => true)
  let d := d.each late (fun (b : DlBlk) d => d.freeUnits b.port 3 b.units)
  let d := { d with dl := { d.dl with got := d.dl.got.filter (fun b => !late.contains b) } }
  let d := d.each (d.ul.part.filter (fun (x : PlanPart) => !x.fwd)) (fun (x : PlanPart) d => d.planDeadline false x.group x.slot)
  d.each (d.dl.part.filter (fun (x : PlanPart) => !x.fwd)) (fun (x : PlanPart) d => d.planDeadline true x.group x.slot)

/-- What was due at a slot end acts at a forward step. [Log: 19 DEDUCED] -/
def Dev.stepEnds (d : Dev) : Dev :=
  let d := d.disablesAct.rxBoundary.maskNote d.now
  let last := d.slotNow - 1
  let d := d.wakeWindowEnd last d.slotNow
  (d.groupsLeave (d.slotNow + 1)).quadsLeave d.slotNow

/-- The count has stepped from `old` (R413, R691). [Log: 19 DEDUCED] -/
def Dev.timeStepped (d : Dev) (m : Memory) (p : Places) (old : Nat) : Dev × List MemOp :=
  let forward := old < d.clk.mer
  let served := d.up && d.ul.slot.isSome
  let d := d.cutSlot
  let d := d.iff forward (fun d => d.each [0, 1, 2, 3] (fun q d => d.stopBurst q 6))
  let d := { d with ul := { d.ul with slot := if served then some d.slotNow else none, began := d.now } }
  let d := d.stepPlans
  let d := d.iff forward (·.stepEnds)
  let (d, ops) := match d.col.win with
    | some (_, b) => if forward && b ≤ d.merNs then d.colEnd m p else (d, [])
    | none => (d, [])
  let d := d.iff (forward && !d.ephHeld) (·.ephPassed)
  (d.noteIdle, ops)

/-- Carry on after a measurement that may have stepped. -/
def Dev.afterStep (x : Dev × Option Nat) (m : Memory) (p : Places) : Dev × List MemOp :=
  match x.2 with
  | none => (x.1, [])
  | some old => x.1.timeStepped m p old

/-- A TIME message that may complete an exchange. -/
def Dev.delayRespIn (d : Dev) (m : Memory) (p : Places) (seqId : Nat) (t4 : PtpTime) (li : Int) : Dev × List MemOp :=
  if d.up && d.portWidth 0 != 0 then
    let (d, ok) := d.ripTime (.ptpDelayResp 0 seqId t4 li)
    if ok then Dev.afterStep (d.ptpDelayResp seqId t4 li) m p else (d, [])
  else (d, [])

/-- PTP_DELAY_RESP (R428). -/
def execPtpDelayResp (dt seqId : Nat) (t4 : PtpTime) (logInterval : Int) (s : State) : Host.Outcome State Fault Refusal :=
  onAll dt (fun d m p => d.delayRespIn m p seqId t4 logInterval) s

/-- PPS_IN_EDGE (R424). -/
def execPpsInEdge (dt finePs : Nat) (s : State) : Host.Outcome State Fault Refusal :=
  onAll dt (fun d m p => Dev.afterStep (d.ppsIn finePs) m p) s

/-- STRAIT_TIME_EXCHANGE (R429). -/
def execStraitTimeExchange (dt : Nat) (exch : StraitExchange) (s : State) : Host.Outcome State Fault Refusal :=
  onAll dt (fun d m p => Dev.afterStep (d.straitExchange exch) m p) s

end Sys2Proof.Machine
end

