-- ==== Sys2Proof/Machine/Settings.lean ====
section
/-!
DEFINITION. What a value of a parameter may be and when it may be written (21_almanac.md R564, R570, R690, and the rules of each
chapter that refuse a write). The operations here only judge; Written acts.
-/

namespace Sys2Proof.Machine

/-- One item of a write: its parameter (256 * index + subindex), the first entry it names and the values of its entries. -/
structure Chg where
  id : Nat
  first : Nat
  vals : List Nat
  deriving DecidableEq, Repr

/-- The 16-bit index of a key. -/
def indexOf (k : Nat) : Nat := k / 2 ^ 24

/-- Whether a key belongs to the parameter of another. -/
def isP (k p : Nat) : Bool := keyId k == keyId p

/-- The member of a run of parameters whose first is `p` (0x5420.01 to 0x545F.01, ...). -/
def member (k p : Nat) : Nat := indexOf k - indexOf p

/-- Whether a key belongs to a run of `n` parameters from `p` on. -/
def inRun (k p n : Nat) : Bool := indexOf p ≤ indexOf k && indexOf k < indexOf p + n && keyId k % 256 == keyId p % 256

/-! ### Values (R5, R690) -/

/-- A value with its reserved bits removed (R5). -/
def normVal (k v : Nat) : Nat :=
  if isP k P.rfctlConfig || inRun k P.txPowerTable0 64 then v - v % 4
  else if isP k P.hkInjectConfig then v % 2 ^ 18
  else if isP k P.transitStateCond then v % 2 ^ 28
  else if isP k P.riptideRules then v - bits v 18 16 * 2 ^ 16
  else if isP k P.elementMapA || isP k P.elementMapB then v % 2 ^ 12
  else if isP k P.biasPark then v % 2 ^ 16
  else match rowOf (keyId k) with
    | some r => (match r.range with | .mask m => maskAnd 64 v m | _ => v)
    | none => v

/-- The value a rule of the parameter's chapter defines, where the table's range column leaves it to the rule.
[Log: 57 DEDUCED] -/
def specialOk (k v : Nat) : Bool :=
  let i := indexOf k
  let lo := 350000000 * 256
  let hi := 3000000000 * 256
  let nco := decide (5 * (sx 40 v).natAbs ≤ 2 * 2 ^ 40)
  if 0x3410 ≤ i ∧ i ≤ 0x3413 ∨ 0x3418 ≤ i ∧ i ≤ 0x341B then decide (v < 2 ^ 18)
  else if isP k P.ncoShadowA || isP k P.ncoShadowB || isP k P.txNcoShadowA || isP k P.txNcoShadowB then nco
  else if isP k P.beamShapeA || isP k P.beamShapeB || isP k P.apSlotLengthCode then decide (v ≤ 6)
  else if isP k P.beamMatrixA || isP k P.beamMatrixB then decide (v < 2 ^ 32)
  else if inRun k P.sentinelSeq0 4 then decide (v < 2 ^ 16)
  else if isP k P.sentinelPathMask then let n := popc 64 v; 1 ≤ n && n ≤ 16
  else if isP k P.rxLoShadowA || isP k P.rxLoShadowB || isP k P.txLoShadow then lo ≤ v && v ≤ hi
  else if isP k P.rfctlConfig then decide (bits v 7 5 ≤ 4)
  else if inRun k P.txPowerTable0 64 then keyEntry k != 255 || bit v 3
  else if isP k P.biasPark then decide ((sx 16 v).natAbs ≤ 10000)
  else if isP k P.hkScanList then bits v 11 9 ≤ 5 && bits v 7 6 ≤ 2 && (!bit v 5 || v % 2 == 0)
  else if isP k P.hkInjectConfig then bits v 15 14 ≤ 2 && bits v 17 16 ≤ 2 && (!bit v 5 || v % 2 == 0)
  else if isP k P.mlLaneEnable then bit v 0
  else if isP k P.transitSource then v ≤ 4 || v == 0xFF
  else if isP k P.transitPostDepth then decide (1 ≤ v)
  else if isP k P.transitStateCond then
    let arg := bits v 19 4
    match v % 16 with
    | 2 => decide (arg < 2 ^ 10)
    | 4 => decide (arg < 2)
    | 7 => decide (arg < 8)
    | c => c ≤ 6 && arg == 0
  else if isP k P.riptideRules then
    let a := bits v 35 32
    bits v 39 37 ≤ 5 && a ≤ 4 && (a != 4 || bits v 21 19 != 0) && (a == 0 || bit v 22 || bits v 15 0 != 0)
  else if isP k P.eventLogMask then let e := keyEntry k; !(e == 0 || e == 1 || e == 8) || v == 255
  else if isP k P.dmaStartAddr then inRegion false v 1
  else true

/-- Whether an entry may hold a value at all (R690). -/
def valueOk (k v : Nat) : Bool :=
  specialOk k v && (match rowOf (keyId k) with
    | none => false
    | some r =>
      v < 2 ^ (8 * r.ty.width) &&
        (match r.ty with | .bool => decide (v ≤ 1) | _ => true) &&
        (match r.range with
         | .between lo hi => lo ≤ v && v ≤ hi
         | .oneOf vs => vs.contains v
         | _ => true))

/-! ### The present state (status 6) -/

/-- Whether some unit is ACTIVE. -/
def Dev.anyActive (d : Dev) : Bool := d.a P.pwrActiveMask != 0

/-- The banks of a group whose coefficients and length stand still (R113). -/
def Dev.bankHeld (d : Dev) (g b : Nat) : Bool :=
  let s := gk P.firBankShadowA g
  d.a (gk P.firBankStateA g + b) != 0 || (d.a s == b && !(d.lockers s).isEmpty)

/-- The group and bank of a coefficient table. -/
def firOf (k : Nat) : Nat × Nat := if indexOf k < 0x3418 then (0, indexOf k - 0x3410) else (1, indexOf k - 0x3418)

/-- Parameters of one carrier group that stand still while it is ACTIVE (R104, R187). -/
def groupHeld : List Nat :=
  [P.bandRateCodeA, P.chanLog2BinsA, P.chanOversampleA, P.chanScaleA, P.beamModeA, P.beamShapeA, P.elementMapA, P.beamMatrixA]

/-- A write of an entry is refused in the present state. [Log: 55 DEDUCED] -/
def Dev.stateHeld (d : Dev) (k v : Nat) : Bool :=
  let i := indexOf k
  let rx := d.active 0 || d.active 1
  if (groupHeld.any (isP k)) then d.active 0
  else if groupHeld.any (fun p => isP k (gk p 1)) then d.active 1
  else if isP k P.rxWideMode || isP k P.apSlotLengthCode then rx
  else if 0x3410 ≤ i ∧ i ≤ 0x3413 ∨ 0x3418 ≤ i ∧ i ≤ 0x341B then let (g, b) := firOf k; d.bankHeld g b
  else if isP k P.firLengthA then d.bankHeld 0 (keyEntry k)
  else if isP k P.firLengthB then d.bankHeld 1 (keyEntry k)
  else if isP k P.rfctlConfig then d.anyActive
  else if isP k P.sentinelPathMask then d.sentinelRuns || d.a P.memState == 2
  else if isP k P.sentinelEnable then v == 1 && d.a P.memState == 2
  else if inRun k P.dpdModel0 64 then d.dpd.modes.getD (member k P.dpdModel0 / 16) 2 == 2
  else if isP k P.biasRange then
    let g := keyEntry k
    (if g < 4 then d.active (2 + g) else d.anyActive) || !d.headroom g v
  else if isP k P.biasWrite then d.a (P.biasParkCause + keyEntry k / 16) != 0
  else if isP k P.hkInjectConfig then d.a (P.hkInjectState + keyEntry k) != 0
  else if isP k P.hkTestMode then v == 1 && d.anyActive
  else if isP k P.timeSetTime then d.a P.timeSourceSelect != 4 || d.inArch && d.island != 0
  else if i = 0x8C01 ∨ i = 0x8C02 then d.traSt == 1 || d.traSt == 2 || d.traSt == 3
  else if isP k P.transitArm then v == 1 && !d.traMayArm
  else if isP k P.transitSendRecord then d.traSt != 4
  else if isP k P.dmaStartAddr then !d.dmaMayStart (keyEntry k)
  else if isP k P.thermRestart then d.pwr.phase == .running || d.thm.tsaCool < 8
  else false

/-! ### Cross-checks (R570) -/

/-- Every position of a shape is taken by exactly one path (R182). -/
def Dev.mapOk (d : Dev) (g : Nat) : Bool :=
  let dims := [(8, 8, 1), (4, 16, 1), (16, 4, 1), (1, 64, 1), (4, 8, 2), (2, 16, 2), (1, 32, 2)]
  let (nr, nc, np) := dims.getD (d.a (gk P.beamShapeA g)) (8, 8, 1)
  let at_ (p : Nat) : Nat := d.a (gk P.elementMapA g + p) % 2 ^ 11
  let inside (e : Nat) : Bool := bits e 9 6 < nr && bits e 5 0 < nc && bits e 10 10 < np
  let all := (List.range 64).map at_
  all.all inside && all.Nodup

/-- A case of R222 holds. -/
def Dev.sentinelBad (d : Dev) : Bool :=
  let load := d.binRate 0 (d.a P.raBinCount) 64 * eighths (d.a P.sentinelWakeCompact == 1)
  d.a P.sentinelEnable == 1 &&
    (d.a P.bandRateCodeA < 3 || d.a P.rxWideMode == 1 || d.a P.raReserve == 0 || d.a P.raBinCount == 0
      || (d.a P.sentinelTriggerMode < 2 && d.a P.sentinelSeqEnable == 0)
      || decide (97 * 7625 * 10000 * 2 ^ 15 * 8 < load))

/-- The levels stand in order (R389). -/
def Dev.levelsBad (d : Dev) : Bool :=
  !(d.a P.thermWarnLevel ≤ d.a P.thermThrottleLevel && d.a P.thermThrottleLevel < d.a P.thermShutdownLevel)

/-- The Transit selection breaks R550. [Log: 57 DEDUCED] -/
def Dev.transitBad (d : Dev) : Bool :=
  let src := d.a P.transitSource
  let w := d.traWords
  src != 0xFF &&
    (decide (32000 * 1000000 * 2 ^ 15 < d.traRate) || w == 0 || decide (65536 < w)
      || ((src == 2 || src == 3) &&
        decide (d.chanN (d.a P.transitGroup) < d.a P.transitFirstBin + d.a P.transitBinCount)))

/-- The depths exceed the ring (R552). -/
def Dev.depthsBad (d : Dev) : Bool :=
  d.a P.transitSource != 0xFF && decide (ringInstants d.traWords < d.a P.transitPreDepth + d.a P.transitPostDepth)

/-- Some fall level lies below its rise level: levels count dB below full scale (R134). -/
def Dev.threshBad (d : Dev) (g : Nat) : Bool :=
  [0, 1].any (fun i => d.a (gk P.threshFallA g + i) < d.a (gk P.threshRiseA g + i))

/-- The random-access range reaches past group A's last bin (R220). -/
def Dev.raBad (d : Dev) : Bool := decide (d.chanN 0 < d.a P.raBinFirst + d.a P.raBinCount)

/-- MATRIX mode above 50 MS/s (R186). -/
def Dev.matrixBad (d : Dev) (g : Nat) : Bool := d.a (gk P.beamModeA g) == 1 && d.a (gk P.bandRateCodeA g) < 2

/-- The cross-checks: the parameters one reads, and whether the values left behind break it. [Log: 57 DEDUCED] -/
def crossChecks : List (List Nat × (Dev → Bool)) :=
  let g1 (l : List Nat) : List Nat := l.map (fun p => gk p 1)
  let thr := [P.threshRiseA, P.threshFallA]
  let map_ := [P.beamShapeA, P.elementMapA]
  let mtx := [P.beamModeA, P.bandRateCodeA]
  [(thr, fun d => d.threshBad 0), (g1 thr, fun d => d.threshBad 1),
   ([P.raBinFirst, P.raBinCount, P.chanLog2BinsA], fun d => d.raBad),
   (map_, fun d => !d.mapOk 0), (g1 map_, fun d => !d.mapOk 1),
   (mtx, fun d => d.matrixBad 0), (g1 mtx, fun d => d.matrixBad 1),
   ([P.sentinelEnable, P.bandRateCodeA, P.rxWideMode, P.raReserve, P.raBinCount, P.sentinelTriggerMode, P.sentinelSeqEnable,
     P.chanLog2BinsA, P.chanOversampleA, P.sentinelWakeCompact], fun d => d.sentinelBad),
   ([P.thermWarnLevel, P.thermThrottleLevel, P.thermShutdownLevel], fun d => d.levelsBad),
   ([P.transitSource, P.transitGroup, P.transitPathMask, P.transitFirstBin, P.transitBinCount, P.transitPreDepth,
     P.transitPostDepth], fun d => d.transitBad),
   ([P.transitPreDepth, P.transitPostDepth], fun d => d.depthsBad)]

/-- The parameters of the first cross-check that the values left behind break, of those a list of parameters enters. -/
def Dev.crossBroken (d : Dev) (ids : List Nat) : Option (List Nat) :=
  (crossChecks.find? (fun c => c.1.any (fun p => ids.contains (keyId p)) && c.2 d)).map (·.1)

/-! ### The ledger (R143) -/

/-- The parameters that enter a term of R142. -/
def ledgerIds : List Nat :=
  ([P.ledgerPlacementsA, P.ledgerPlacementsB, P.ledgerRefreshA, P.ledgerRefreshB, P.ledgerHoldA, P.ledgerHoldB, P.ledgerDmaRt,
    P.ledgerDmaBulk, P.sentinelEnable, P.sentinelPathMask, P.bandRateCodeA, P.bandRateCodeB, P.chanLog2BinsA, P.chanLog2BinsB,
    P.chanOversampleA, P.chanOversampleB, P.rxWideMode, P.transitSource, P.transitGroup, P.transitPathMask, P.transitBinCount]).map
    keyId

/-- The device the ledger prices: wide mode as RxWideMode asks for it, since a start of group A brings it in without a
further check. [Log: 57 DEDUCED] -/
def Dev.priced (d : Dev) : Dev := { d with rx := { d.rx with wide := d.a P.rxWideMode == 1 } }

/-- The values left behind exceed the ledger and a parameter written enters a term. -/
def Dev.ledgerBroken (new : Dev) (ids : List Nat) : Bool :=
  ids.any ledgerIds.contains && decide (ledgerMax < new.priced.ledgerSum)

/-- EV46 of a refused write (R143). -/
def Dev.ledgerRefuse (d new : Dev) : Dev :=
  let rise := (new.priced.ledgerAll.zip d.priced.ledgerAll).map (fun (x : Nat × Nat) => (x.1 : Int) - (x.2 : Int))
  (d.inc P.ledgerRefusedCount).raise 46 (argMax rise + 32 * new.priced.ledgerExcess)

end Sys2Proof.Machine
end

