-- ==== Sys2Proof/Machine/Written.lean ====
section
/-!
DEFINITION. What an accepted write does beyond the value itself: commands, masks, bias codes, schedules, sessions' keys, update
commands, Riptide. Every way a parameter is written (a row of its own, WRITE, WRITE_BLOCK, a Chart) ends here.
-/

namespace Sys2Proof.Machine

/-- What a write leads to: the device, the changes of memory, and the kind of a reset that follows. -/
structure Acted where
  dev : Dev
  ops : List MemOp := []
  rst : Option Nat := none

/-- A request for a power state (R68): up at once, down once every unit has left ACTIVE (R57). [Log: 30 DEDUCED] -/
def Dev.request (d : Dev) (m : Memory) (p : Places) (v : Nat) : Dev × List MemOp :=
  let d := d.nameState v
  let d := { d with pwr := { d.pwr with sleepTo := none } }
  let busy := d.a P.pwrActiveMask != 0 || d.bringing != 0 || d.goingUp || d.col.win.isSome || d.sen.win.isSome
  if d.stands < v then (d.goUp v 255, [])
  else if v = 2 then (d, [])
  else if busy then ({ d with pwr := { d.pwr with sleepTo := some v } }, [])
  else d.goDown m p v

/-- The instants captured by Transit so far. -/
def Dev.instantsNow (d : Dev) (x : OpAux) : Nat × Dev := match x.instants with | some j => (j, d) | none => d.free 730 40

/-- Channel disables act at the next beat; how far each came. -/
def Dev.beatsNow (d : Dev) (x : OpAux) : List Nat × Dev :=
  match x.beats with
  | some l => (l, d)
  | none => let (v, d) := d.free 731 432; ((List.range 16).map (fun c => v / 2 ^ (27 * c) % 2 ^ 27), d)

/-- The verdict on a key and a signature. -/
def Dev.proofNow (d : Dev) (x : OpAux) : (List Byte × Bool) × Dev :=
  match x.proof with
  | some y => (y, d)
  | none => let (v, d) := d.free 732 385; ((leBytes 48 (v / 2), bit v 0), d)

/-- Start a Riptide run (R649, R652). -/
def Dev.ripStart (d : Dev) : Dev :=
  let dur := d.a P.riptideDuration
  let d := { d with rip := { d.rip with startAt := d.now, dur := dur, seed := d.a P.riptideSeed, count := [0, 0, 0, 0], draws := 0 } }
  (((d.w P.riptideEnable 1).w P.riptideLeft dur).raise 126 (1 + 16 * (dur % 2 ^ 13))).lanesFollow 4

/-- Clear pending bits (R643); an event raised on this edge keeps its bit. -/
def Dev.pendingClear (d : Dev) (first : Nat) (v : List Byte) : Dev :=
  let raised (n : Nat) : Bool := d.edge.any (fun e => e.n == n) && d.maskBit P.eventLatchMask n
  d.each (List.range v.length) (fun i d =>
    let c := (v.getD i 0#8).toNat
    let b := first + i
    let keep := maskOf 8 (fun j => bit (d.a (P.eventPending + b)) j && (!bit c j || raised (8 * b + j)))
    d.w (P.eventPending + b) keep)

/-- Fill EventLogWindow (R611, R644). -/
def Dev.logReadFrom (d : Dev) (p : Places) (n : Nat) : Dev :=
  let oldest := (p.log.head?.map (·.seq)).getD 1
  let lo := windowFrom n oldest
  let bytes := ((List.range 64).map (fun i =>
    ((p.log.find? (fun e => e.seq == lo + i)).map Ev.logBytes).getD (zeros 24))).flatten
  d.wOctets P.eventLogWindow bytes

/-- Parameters whose writes are commands with no value to keep, or whose value the effect keeps itself.
[Log: 56 DESIGN CHOICE] -/
def commandIds : List Nat :=
  ([P.hkInjectArm, P.laneMarginScan, P.dmaEnable, P.riptideEnable, P.collimRequest]).map keyId

/-- Whether a write stores its value: readable parameters do (log entry 56). [Log: 56 DESIGN CHOICE] -/
def stores (id : Nat) : Bool :=
  let i := id / 256
  !commandIds.contains id && !(0x8810 ≤ i && i ≤ 0x8813) && !inRun (id * 65536) P.dpdModel0 64 &&
    (match rowOf id with | some r => r.rd != 0 | none => false)

/-- The effect of a written parameter `c`, whose touched keys are `keys`; `old` is the device before the operation, `who` names
the writer in the audit log, `role`, `port` and `ses` its session. [Log: 56 DESIGN CHOICE; 58 DEDUCED] -/
def Dev.written (old d : Dev) (m : Memory) (p : Places) (who port ses : Nat) (x : OpAux) (c : Chg) (keys : List Nat) : Acted :=
  let key := c.id * 65536
  let is (q : Nat) : Bool := isP key q
  let v := c.vals.headD 0
  let bs : List Byte := c.vals.map (BitVec.ofNat 8)
  let was (q : Nat) : Nat := old.a q
  let on (f : Dev → Dev) : Acted := ⟨f d, [], none⟩
  let both (y : Dev × List MemOp) : Acted := ⟨y.1, y.2, none⟩
  let ents := keys.map keyEntry
  if is P.pwrRequestState then both (d.request m p v)
  else if is P.resetCommand then ⟨d, [], some 3⟩
  else if is P.thermRestart then ⟨d, [], some 4⟩
  else if is P.refoEnable then on (·.refoFollow)
  else if is P.rxPathEnableA then on (·.rxMaskWritten 0 (was P.rxPathEnableA) (d.a P.rxPathEnableA))
  else if is P.rxPathEnableB then on (·.rxMaskWritten 1 (was P.rxPathEnableB) (d.a P.rxPathEnableB))
  else if is P.rxRetiredMask then
    on (fun d => d.each (bitList 16 (maskSub 16 (was P.rxRetiredMask) v)) (fun u d => d.rxUnretire u))
  else if is P.apGroupEnable then
    on (fun d => { d with ul := { d.ul with grpOff := maskOr 2 d.ul.grpOff (maskSub 2 (was P.apGroupEnable) v) } })
  else if is P.apModeEnableA then
    on (fun d => { d with ul := { d.ul with modeOffA := maskOr 4 d.ul.modeOffA (maskSub 4 (was P.apModeEnableA) v) } })
  else if is P.apModeEnableB then
    on (fun d => { d with ul := { d.ul with modeOffB := maskOr 4 d.ul.modeOffB (maskSub 4 (was P.apModeEnableB) v) } })
  else if is P.dlGroupEnable then
    on (fun d => { d with ul := { d.ul with dlOff := maskOr 2 d.ul.dlOff (maskSub 2 (was P.dlGroupEnable) v) } })
  else if is P.apSlotLengthCode then
    on (fun d => d.iff (was P.apSlotLengthCode != v && d.ul.slot.isSome) (fun d =>
      { d with ul := { d.ul with slot := some d.slotNow, began := d.now } }))
  else if is P.sentinelEnable then on (·.sentinelFollow)
  else if is P.rfctlConfig then on (·.rfFollow)
  else if is P.coexEnable then on (·.coexUpdate)
  else if is P.coexPolarity then on (·.coexRepolar (was P.coexPolarity))
  else if inRun key P.dpdModel0 64 then
    on (fun d => { d with dpd := { d.dpd with writes := (keys.zip c.vals).foldl (fun w y => w.set y.1 y.2) d.dpd.writes } })
  else if is P.collimRequest then on (fun d => d.iff (v == 1) (fun d => (d.w P.collimRequest 1).colSet 16))
  else if is P.biasRange then on (fun d => d.each ents (fun g d => d.rangeChange g (d.a (P.biasRange + g))))
  else if is P.biasPark then on (fun d => d.each ents (fun i d => d.parkWritten i))
  else if is P.biasWrite then on (fun d => d.each ents (fun i d => d.biasWritten i (d.a (P.biasWrite + i))))
  else if is P.biasParkCommand then on (fun d => d.iff (v != 0) (·.parkCommand v))
  else if is P.hkScanStart then
    on (fun d => d.iff (v == 1 && d.hk.running && d.a P.hkScanMode == 1) (fun d =>
      { d with hk := { d.hk with passDue := d.hk.passDue + 1, pos := if d.hk.passDue = 0 then 0 else d.hk.pos } }))
  else if is P.hkInjectArm then on (·.injectArmWritten v)
  else if is P.hkCalRequest then on (fun d => d.iff (v == 1) (·.hkCalAsk))
  else if is P.hkTestMode then on (fun d => d.iff (v == 1 && d.hk.running) (·.openWireTest))
  else if is P.timeSourceSelect then on (fun d => d.iff (was P.timeSourceSelect != v) (·.sourceWritten))
  else if is P.timeSetTime then both (Dev.afterStep (d.setTime (v % 2 ^ 64) (bits v 103 64)) m p)
  else if is P.timePpsNextSeconds then on (fun d => { d with tim := { d.tim with pps := some (v, d.now) } })
  else if is P.ppsOutEnable then
    on (fun d => d.iff (v == 0 && d.tim.ppsOut) (fun d => ({ d with tim := { d.tim with ppsOut := false } }).pin .ppsOut false))
  else if is P.ephWrite then on (·.ephStore bs)
  else if is P.mlMaxRate then on (·.maxRateWritten 0 (was P.mlMaxRate))
  else if is P.mlWidth then on (·.portUpdate 0)
  else if is P.mlLaneEnable || is P.stEnable then on (·.lanesFollow 5)
  else if is P.stMaxRate then on (fun d => d.each ents (fun e d => d.maxRateWritten (e + 1) (was (P.stMaxRate + e))))
  else if is P.laneMarginScan then on (·.scanWritten v)
  else if is P.mainlandTrust then
    on (fun d => d.iff (was P.mainlandTrust == 1 && v == 0) (fun d => { d with ul := { d.ul with trustOff := true } }))
  else if is P.archSyncUpstream then
    on (fun d => d.iff (was P.archSyncUpstream != v) (fun d =>
      ({ d with arch := { d.arch with hops := [] } }).iff (v == 0xFF) (·.w P.archSyncDelay 0)))
  else if is P.archPinTable || is P.archReduceGroup || is P.archCollector then on (fun d => d.iff d.isRoot (·.rebuild))
  else if is P.dmaEnable then
    let cleared := maskSub 16 (was P.dmaEnable) v
    let set := maskSub 16 v (was P.dmaEnable)
    let (beats, d) := d.beatsNow x
    let (d, ops) := d.dmaDisableMask m p cleared beats
    ⟨d.dmaEnableMask (m.applyAll ops) p set, ops, none⟩
  else if is P.dmaStartAddr then on (fun d => d.each ents (fun e d => d.dmaStart m p e (d.a (P.dmaStartAddr + e))))
  else if is P.dmaContinue then on (·.dmaContinueMask m p v)
  else if is P.dmaAbort then both (d.dmaAbortMask m p v)
  else if 0x8810 ≤ c.id / 256 ∧ c.id / 256 ≤ 0x8813 then
    ⟨d, [.put (sramGenLo + 32 * (c.id - 0x881000) + c.first) bs], none⟩
  else if is P.transitEnable then
    on (fun d => if was P.transitEnable = 1 ∧ v = 0 then let (j, d) := d.instantsNow x; d.traClose j else d)
  else if is P.transitArm then on (fun d => d.iff (v == 1) (·.traArm))
  else if is P.transitForce then on (fun d => if v = 1 then let (j, d) := d.instantsNow x; d.traForce j else d)
  else if is P.transitSendRecord then on (·.traSend)
  else if is P.chartSelect then on (·.chartAsk v 3 who)
  else if is P.fieldEnable then
    on (fun d => if was P.fieldEnable = v then d else { d.w P.fieldState v with fld := {} })
  else if is P.fuseKeyProgram then
    on (fun d =>
      let (rb, d) := match x.readback with
        | some y => (y, d)
        | none => let (n, d) := d.free 733 384; (leBytes 48 n, d)
      d.keyProgram bs rb)
  else if is P.fuseKeyRevoke then on (·.keyRevoke v)
  else if is P.lifecycleAdvance then on (·.lifecycleStep (v % 256))
  else if is P.debugUnlockToken then on (·.tokenAccept port ses)
  else if is P.auditReadFrom then on (·.auditReadFrom v)
  else if is P.updCommand then let (y, r) := d.updCmd m who v; ⟨y.1, y.2, if r then some 3 else none⟩
  else if is P.updChunk then both (d.chunkTake (field bs 0 4) (bs.drop 8))
  else if is P.eventPendingClear then on (·.pendingClear c.first bs)
  else if is P.eventLogReadFrom then on (·.logReadFrom p v)
  else if is P.riptideEnable then
    on (fun d => if v = 1 then d.iff (!d.ripOn) (·.ripStart) else d.ripOff 2)
  else if is P.riptideRules then
    on (fun d => { d with rip := { d.rip with count := (List.range 4).map (fun i => if ents.contains i then 0 else d.rip.count.getD i 0) } })
  else if is P.riptideLaneDown then on (·.lanesFollow 4)
  else on id

/-- The changes of one parameter among several, and the keys they touch. -/
def keysOf (cs : List Chg) (id : Nat) : List Nat :=
  ((cs.filter (fun c => c.id == id)).flatMap (fun c => (List.range c.vals.length).map (fun i => id * 65536 + c.first + i)))

/-- The keys and normalised values of one change. -/
def Chg.pairs (c : Chg) : List (Nat × Nat) :=
  (c.vals.zip (List.range c.vals.length)).map (fun x => let k := c.id * 65536 + c.first + x.2; (k, normVal k x.1))

/-- The values changes leave behind, before any effect. -/
def Dev.withChanges (d : Dev) (cs : List Chg) : Dev := d.wAll (cs.flatMap Chg.pairs)

/-- Store the values of a change: an N-class value goes to MRAM (R9), and the wait of a Chart value for the parameter ends
(R585). -/
def Dev.storeChange (d : Dev) (c : Chg) : Dev :=
  let d := { d with cha := { d.cha with waiting := d.cha.waiting.drop (fun k => (c.pairs.map (·.1)).contains k) } }
  if !stores c.id then d
  else match rowOf c.id with
    | some r => (match r.cls with
      | .N => d.each c.pairs (fun x d => d.wN x.1 x.2)
      | _ => d.wAll c.pairs)
    | none => d

/-- The entries that lock some of the keys a change touches (R448). -/
def Dev.lockersOf (d : Dev) (c : Chg) : List Nat := (c.pairs.flatMap (fun x => d.lockers x.1)).eraseDups

/-- Apply accepted changes on one edge (R570): locked shadows are deferred (R448), the rest is stored, then each parameter has
its effect in the order of the items. -/
def Dev.applyChanges (d : Dev) (m : Memory) (p : Places) (who port ses : Nat) (x : OpAux) (cs : List Chg) : Acted :=
  let ids := (cs.map (·.id)).eraseDups
  let locked := ids.filter (fun id => cs.any (fun c => c.id == id && !(d.lockersOf c).isEmpty))
  let now := cs.filter (fun c => !locked.contains c.id)
  let old := d
  let d := d.each locked (fun id d =>
    let mine := cs.filter (fun c => c.id == id)
    d.shadowDefer (id * 65536) (mine.flatMap d.lockersOf) (mine.flatMap Chg.pairs))
  let d := d.each now (fun c d => d.storeChange c)
  (ids.filter (fun id => !locked.contains id)).foldl (fun (a : Acted) id =>
    match (now.filter (fun c => c.id == id)).getLast? with
    | none => a
    | some c =>
      let c := { c with vals := (c.pairs.map (·.2)) }
      let r := Dev.written old a.dev (m.applyAll a.ops) p who port ses x c (keysOf now id)
      ⟨r.dev, a.ops ++ r.ops, if r.rst.isSome then r.rst else a.rst⟩) ⟨d, [], none⟩

end Sys2Proof.Machine
end

