-- ==== Sys2Proof/Machine/Views.lean ====
section
/-!
DEFINITION. What a read of a parameter shows: most show the value the device keeps, some a quantity formed at the read
(21_almanac.md R564, R587, R592, and the parameter tables of the other chapters), and the bytes of a span.
-/

namespace Sys2Proof.Machine

/-! ### Charts seen as values (R579, R587) -/

/-- The first index bytes of the 20 sections of R587. -/
def sectionHis : List Nat :=
  [0x20, 0x30, 0x34, 0x40, 0x44, 0x48, 0x50, 0x54, 0x58, 0x5C, 0x60, 0x64, 0x68, 0x70, 0x74, 0x78, 0x7C, 0x80, 0x88, 0x8C]

/-- Whether a row belongs to a Chart. -/
def PRow.inChart (r : PRow) : Bool := match r.cls with | .C => true | _ => false

/-- The parameters of a row. -/
def PRow.ids (r : PRow) : List Nat := (List.range r.n).map (fun j => r.lo + r.step * j)

/-- The C-class parameters of a section, ascending, with their rows. -/
def sectionIds (hi : Nat) : List (Nat × PRow) :=
  ((rowsOf hi).filter (·.inChart)).flatMap (fun r => r.ids.map (fun i => (i, r)))

/-- Every C-class parameter of a Chart. -/
def chartIds : List (Nat × PRow) := sectionHis.flatMap sectionIds

/-- The values of a section encoded under R564. -/
def sectionBytes (val : Nat → Nat) (hi : Nat) : List Byte :=
  (sectionIds hi).flatMap (fun x =>
    (List.range x.2.ty.entries).flatMap (fun e => leBytes x.2.ty.width (val (x.1 * 65536 + e))))

/-- A value of a stored Chart; what a record does not list is at its default. -/
def ChartRec.val (r : ChartRec) (k : Nat) : Nat := r.vals.getD k (dfltOf k)

/-- The record of a Chart with a good CRC. -/
def Dev.chartGood (d : Dev) (c : Nat) : Option ChartRec :=
  match d.cha.recs.getD c none with
  | some r => if r.ok then some r else none
  | none => none

/-- ChartDirtyMask (R587). With no stored record of the active Chart to compare with, its value is free. [Log: 59 DEDUCED] -/
def Dev.dirtyMask (d : Dev) : Nat :=
  match (if d.cha.safe then none else d.chartGood (d.a P.chartActive)) with
  | none => Config.freeValue d.clk.free 740 % 2 ^ 20
  | some r => maskOf 20 (fun i => let hi := sectionHis.getD i 0; sectionBytes d.a hi != sectionBytes r.val hi)

/-- Parameters that wait for their Chart value (R585). -/
def Dev.waitingIds (d : Dev) : List Nat := (d.cha.waiting.map (fun e => keyId e.1)).eraseDups

/-! ### Ephemeris -/

/-- The 24 bytes of an entry (R434, R450). -/
def Dev.ephBytes (d : Dev) (i : Nat) : List Byte :=
  match d.ephAt i with
  | none => zeros 24
  | some e => leBytes 8 e.secs ++ leBytes 5 e.frac ++ leBytes 1 e.action ++ leBytes 1 e.flags ++ leBytes 1 e.state
      ++ leBytes 4 e.arg ++ leBytes 2 i ++ leBytes 2 e.tag

/-- The entry due next: by time, then in the order of R442. [Log: 72 DEDUCED] -/
def Dev.ephNext (d : Dev) : Option (Nat × EphEnt) :=
  d.eph.ent.foldl (fun acc x => match acc with
    | none => some x
    | some y => if ephKey x < ephKey y then some x else some y) none

/-! ### Riptide -/

/-- RiptideLeft (R649). [Log: 62 DEDUCED] -/
def Dev.ripSeconds (d : Dev) : Nat :=
  if d.ripOn then d.rip.dur - (d.now - d.rip.startAt) / 10 ^ 12 else 0

/-! ### Reads -/

/-- Quantities formed at a read, chapters 02 to 09. [Log: 66 DEDUCED] -/
def Dev.viewA (d : Dev) (k : Nat) : Option Nat :=
  let is (p : Nat) : Bool := isP k p
  let e := keyEntry k
  let g := keyId k % 256 - 1
  if is P.refclkState then
    -- whether a returning REFCLK is being qualified (2) or not (1) while the LPO runs, no command says: free (log entry 66)
    some (if d.clk.onLpo then 1 + Config.freeValue d.clk.free 743 % 2 else d.a k)
  else if is P.bandGroupDelayA || is P.bandGroupDelayB then some (d.latched.bandDelay g)
  else if is P.binGroupDelayA || is P.binGroupDelayB then some (d.latched.binDelay g)
  else if is P.bandSettleCountA || is P.bandSettleCountB then some (d.latched.bandSettle g)
  else if is P.binSettleCountA || is P.binSettleCountB then some (d.latched.binSettle g)
  else if is P.ledgerTerms then some (d.ledgerKb e)
  else if is P.ledgerTotal then some d.ledgerTotalKb
  else if is P.memClassRate then some (d.classRate (e + 1) + (if e = 3 && d.sen.startAt.isSome then d.ringBytes 1 else 0))
  else if is P.apPlacementLimit then some d.placeLimit
  else if is P.sentinelState then some d.sentinelSt
  else if is P.sentinelRingDepth then some d.ringDepthNs
  else if is P.sentinelRingWriteIndex then some d.ringIndex
  else if is P.dlPlacementLimit then some d.dlPlaceLimit
  else if is P.dlPlanDeadlineA || is P.dlPlanDeadlineB then some (d.planLeadNs true g)
  else if is P.dlDataLeadA || is P.dlDataLeadB then some (d.dlLeadNs g)
  else if is P.synthState then some (d.synthSt e)
  else if is P.txPathState then
    let q := e / 16
    let st := (d.burst q).st
    some (if st = 2 ∨ st = 4 ∨ st = 5 then d.a k else d.txIdleState q)
  else if is P.txPowerCeilingFused then some (d.fus.ceiling.getD e 0)
  else if is P.collimRequiredWindow then some d.colShown
  else none

/-- Quantities formed at a read, chapters 13 to 20. [Log: 26 DEDUCED] -/
def Dev.viewB (d : Dev) (m : Memory) (k : Nat) : Option Nat :=
  let is (p : Nat) : Bool := isP k p
  let e := keyEntry k
  let byte (b : List Byte) : Option Nat := some (b.getD e 0#8).toNat
  if is P.thermShutdownLog then
    let rcd := (d.shutLog.find? (fun b => (field b 0 4 + 15) % 16 == e / 48)).getD (zeros 48)
    some (rcd.getD (e % 48) 0#8).toNat
  else if is P.nvmDeferredCount then some d.nvm.count
  else if is P.meridianNow then some d.timeNow
  else if is P.ephOccupancy then some d.eph.ent.length
  else if is P.ephNextIndex then some ((d.ephNext.map (·.1)).getD 0xFFFF)
  else if is P.ephNextTime then
    some (match d.ephNext with
      | some x => timeField x.2.secs x.2.frac d.quality
      | none => Config.freeValue d.clk.free 741 % 2 ^ 128)
  else if 0x7410 ≤ indexOf k ∧ indexOf k ≤ 0x7413 then byte (d.ephBytes (keyId k - keyId P.ephEntry0))
  else if is P.archIslandNumber then some d.shownIsland
  else if is P.mlRxBuffer then some (64 * rxBuffer e)
  else if is P.redScaleInForce then some d.redScale
  else if is P.redLatticePeriod then some (d.binPs e)
  else if 0x8810 ≤ indexOf k ∧ indexOf k ≤ 0x8813 then
    some (m.get (sramGenLo + 32 * (keyId k - keyId P.dmaDesc0) + e)).toNat
  else if is P.transitRate then some (d.traRate / ledgerUnit)
  else if is P.transitRingInstants then some (ringInstants d.traWords)
  else none

/-- Quantities formed at a read, chapters 21 to 24. -/
def Dev.viewC (d : Dev) (m : Memory) (k : Nat) : Option Nat :=
  let is (p : Nat) : Bool := isP k p
  let e := keyEntry k
  let byte (b : List Byte) : Option Nat := some (b.getD e 0#8).toNat
  if is P.idChipId then byte (leBytes 8 d.fus.chipId)
  else if is P.idStepping then some d.fus.stepping
  else if is P.idLifecycle then some d.fus.lifecycle
  else if is P.chartValidMask then some (maskOf 4 (fun c => (d.chartGood c).isSome))
  else if is P.chartDeferredCount then some d.waitingIds.length
  else if is P.chartStoreState then some (b2n d.cha.store.isSome)
  else if is P.chartStoreSeq then some (((d.chartGood e).map (·.seq)).getD 0)
  else if is P.chartSectionHash then some (crc32c (sectionBytes d.a (sectionHis.getD e 0)))
  else if is P.chartDirtyMask then some d.dirtyMask
  else if is P.sessionState then some (d.sesState e)
  else if is P.fuseRoleKeyHash then some ((d.fus.keys.getD (e / 48) []).getD (e % 48) 0#8).toNat
  else if is P.fuseRevokedMask then some d.fus.revoked
  else if is P.fuseMakerSignHash then byte d.fus.signHash
  else if is P.fuseAntiRollback then some (d.fus.rollback.getD e 0)
  else if is P.fuseDebugLock then some (b2n d.fus.debugLock)
  else if is P.debugState then some d.debugSt
  else if is P.updNextMissing then some d.nextMissing
  else if is P.updTrialElapsed then some d.trialElapsed
  else if is P.updSlotHeaders then byte m.slotHeaders
  else if is P.updSchemaInForce then some (d.upd.run.getD 0 {}).schema
  else if is P.riptideLeft then some d.ripSeconds
  else none

/-- What a read of a key shows. -/
def Dev.view (d : Dev) (m : Memory) (k : Nat) : Nat :=
  ((d.viewA k).orElse (fun _ => (d.viewB m k).orElse (fun _ => d.viewC m k))).getD (d.a k)

/-- The bytes of `n` entries of a parameter from `first` on (R564). -/
def Dev.viewBytes (d : Dev) (m : Memory) (r : PRow) (id first n : Nat) : List Byte :=
  (List.range n).flatMap (fun i => leBytes r.ty.width (d.view m (id * 65536 + first + i)))

end Sys2Proof.Machine
end

