-- ==== Sys2Proof/Machine/Charts.lean ====
section
/-!
DEFINITION. Charts: validity, loading, waiting values, storing (21_almanac.md R579 to R587), and the answers of Almanac operations
(17_mainland_port.md R493; 21_almanac.md R568, R571, R575).
-/

namespace Sys2Proof.Machine

/-! ### Answers (R493, R568, R575) -/

/-- A result record. -/
def resultOf (status failed items : Nat) (data : List Byte) : List Byte :=
  leBytes 1 status ++ leBytes 1 failed ++ leBytes 1 items ++ [0#8] ++ data

/-- The answers on the Mainland port leave in request order as far as they are ready. -/
def Dev.flushReplies : List Reply → Dev → Dev
  | [], d => { d with mgmt := [] }
  | r :: rs, d =>
    match r.result with
    | none => { d with mgmt := r :: rs }
    | some b => Dev.flushReplies rs (d.sendHome 2 0x07 true (leBytes 4 r.id ++ b))

/-- Answer an operation; a FIELD transfer that an ABORT or DEEP discarded gets no response. -/
def Dev.answer (d : Dev) (port id : Nat) (b : List Byte) : Dev :=
  if port = 0 then
    let one : Reply := ⟨id, some b⟩
    Dev.flushReplies (d.mgmt ++ [one]) d
  else if d.fld.answering ∧ d.fld.transfer = some id then ({ d with fld := {} }).fieldSend 5 (id % 256) b
  else d

/-- Keep the place of an answer that comes later. -/
def Dev.answerLater (d : Dev) (port id : Nat) : Dev :=
  let one : Reply := ⟨id, none⟩
  d.iff (port == 0) (fun d => { d with mgmt := d.mgmt ++ [one] })

/-- Fill the first kept place. -/
def fillReply (id : Nat) (b : List Byte) : List Reply → List Reply
  | [] => []
  | r :: rs => if r.id == id && r.result.isNone then { r with result := some b } :: rs else r :: fillReply id b rs

/-- The late answer is ready. [Log: 59 DEDUCED] -/
def Dev.answerHeld (d : Dev) (port id : Nat) (b : List Byte) : Dev :=
  if port = 0 then Dev.flushReplies (fillReply id b d.mgmt) d else d.answer port id b

/-- Count an operation (R571). -/
def Dev.countOp (d : Dev) (status : Nat) : Dev := d.inc (if status = 0 then P.almanacOpCount else P.almanacRefusedCount)

/-! ### Validity (R583) -/

/-- Whether a key belongs to a Chart. -/
def inChart (k : Nat) : Bool := match rowOf (keyId k) with | some r => r.inChart | none => false

/-- The built-in safe chart (R584). -/
def safeChart : ChartRec :=
  ⟨0, true, [(P.apGroupEnable, 0), (P.sentinelEnable, 0), (P.dlGroupEnable, 0), (P.mlMaxRate, 0), (P.mlWidth, 1), (P.transitEnable, 0)]⟩

/-- The device with every C-class value of a record in force. -/
def Dev.withChart (d : Dev) (r : ChartRec) : Dev :=
  ({ d with alm := d.alm.filter (fun (e : Nat × Nat) => !inChart e.1) }).wAll r.vals

/-- The smallest of a list of parameters. -/
def leastId (l : List Nat) : Option Nat :=
  l.foldl (fun acc x => match acc with | none => some x | some y => some (min x y)) none

/-- The first parameter of a record that would draw status 5. -/
def Dev.chartRefused (d : Dev) (r : ChartRec) : Option Nat :=
  let new := d.withChart r
  let bad := (r.vals.filter (fun e => !valueOk e.1 e.2)).map (fun e => keyId e.1)
  let cross := ((crossChecks.filter (fun c => c.2 new)).flatMap (·.1)).map keyId
  leastId (bad ++ cross)

/-- Why a Chart is invalid: the cause of EV13 and for cause 3 the parameter. -/
def Dev.chartBad (d : Dev) (c : Nat) : Option (Nat × Nat) :=
  match d.chartGood c with
  | none => some (1, 0)
  | some r =>
    if ledgerMax < (d.withChart r).priced.ledgerSum then some (2, 0)
    else (d.chartRefused r).map (fun i => (3, i))

/-- EV46 of a Chart over the ledger: the term of the largest cost, bit [4], the excess of the Chart's total (R144). It is a ledger
refusal, and counted as one. [Log: 90 DEDUCED] -/
def Dev.chartLedger (d : Dev) (c : Nat) : Dev :=
  match d.chartGood c with
  | none => d
  | some r =>
    let new := (d.withChart r).priced
    (d.inc P.ledgerRefusedCount).raise 46 (argMax (new.ledgerAll.map (fun t => (t : Int))) + 16 + 32 * new.ledgerExcess)

/-- EV13 for an invalid Chart. -/
def Dev.chartInvalid (d : Dev) (c : Nat) (x : Nat × Nat) : Dev :=
  ((d.iff (x.1 == 2) (·.chartLedger c)).iff (x.1 == 3) (·.w P.chartInvalidIndex x.2)).raise 13 (c + 4 * x.1)

/-! ### Waiting values (R585) -/

/-- The keys of a record whose values differ from the running ones, ascending. -/
def Dev.chartChanged (d : Dev) (r : ChartRec) : List Nat :=
  let all := (r.vals.map (·.1) ++ (d.alm.map (·.1)).filter inChart).eraseDups
  (all.filter (fun k => r.val k != d.a k)).foldl (fun acc k => insertBy id k acc) []

/-- The parameters that wait besides those of `wait`: a cross-check against a waiting value refuses them. -/
def Dev.waitFuel (d : Dev) (r : ChartRec) (changed : List Nat) : Nat → List Nat → List Nat
  | 0, wait => wait
  | n + 1, wait =>
    let take := changed.filter (fun k => !wait.contains (keyId k))
    let new := d.wAll (take.map (fun k => (k, r.val k)))
    let ids := take.map keyId
    match crossChecks.find? (fun c => c.2 new && c.1.any (fun p => wait.contains (keyId p)) && c.1.any (fun p => ids.contains (keyId p))) with
    | none => wait
    | some c => Dev.waitFuel d r changed n (wait ++ ((c.1.map keyId).filter ids.contains))

/-- One change per key. -/
def chgOf (k v : Nat) : Chg := ⟨keyId k, keyEntry k, [v]⟩

/-- Take the values of a record: what may not be taken now waits. [Log: 59 DEDUCED] -/
def Dev.chartApply (d : Dev) (m : Memory) (p : Places) (r : ChartRec) : Dev × List MemOp :=
  let d := { d with cha := { d.cha with waiting := [] } }
  let changed := d.chartChanged r
  let held := ((changed.filter (fun k => d.stateHeld k (r.val k))).map keyId).eraseDups
  let wait := d.waitFuel r changed crossChecks.length held
  let a := d.applyChanges m p whoDevice 1 0 {} ((changed.filter (fun k => !wait.contains (keyId k))).map (fun k => chgOf k (r.val k)))
  let later := (changed.filter (fun k => wait.contains (keyId k))).map (fun k => (k, r.val k))
  ({ a.dev with cha := { a.dev.cha with waiting := later } }, a.ops)

/-- The safe chart begins or ends (R584). -/
def Dev.setSafe (d : Dev) (on : Bool) : Dev :=
  if on then
    let d := ({ d with cha := { d.cha with safe := true } }).park 31 5
    d.iff d.hk.running (·.openWireTest)
  else
    let was := d.cha.safe
    let d := { d with cha := { d.cha with safe := false } }
    d.iff was (fun d => d.each [0, 1, 2, 3, 4] (fun g d => d.endCause g 5))

/-- Load a Chart: the one selected, Chart 0 in its place, or the safe chart (R583, R585, R586). -/
def Dev.chartLoad (d : Dev) (m : Memory) (p : Places) (x : ChartLoad) : Dev × List MemOp :=
  let tries := if x.chart = 0 then [0] else [x.chart, 0]
  let bad := tries.takeWhile (fun c => (d.chartBad c).isSome)
  let pick := (tries.drop bad.length).head?
  let d := d.each bad (fun c d => match d.chartBad c with | some y => d.chartInvalid c y | none => d)
  let rcd := match pick with | some c => (d.chartGood c).getD safeChart | none => safeChart
  let (d, ops) := d.chartApply m p rcd
  let chart := pick.getD 0
  let arg := match pick with
    | some c => c + 4 * x.how + 32 * b2n (c != x.chart)
    | none => 4 * x.how + 64
  let d := { d with cha := { d.cha with last := pick } }
  let d := (d.w P.chartActive chart).w P.chartSource (arg / 4)
  let d := d.setSafe pick.isNone
  let d := d.each [0, 1, 2, 3] (fun q d => d.iff (d.active (2 + q)) (·.setDpdQ q (fun y => { y with reload := true })))
  ((d.raise 12 arg).audit 5 x.who 0 arg 0 0 0, ops)

/-! ### Jobs that wait (R581, R585) -/

/-- Begin what waits, in order, as far as it may begin. A store that has not started when the device rests in DEEP waits for the next
wake (R66). -/
def Dev.chartJobs : Nat → Dev → Dev
  | 0, d => d
  | n + 1, d =>
    match d.cha.wait with
    | [] => d
    | .load x :: rest =>
      if d.cha.load.isSome ∨ d.cha.store.isSome then d
      else Dev.chartJobs n { d with cha := { d.cha with load := some x, wait := rest } }
    | .store x :: rest =>
      if d.cha.store.isSome || d.asleep then d
      else Dev.chartJobs n { d with cha := { d.cha with store := some x, wait := rest } }

/-- Begin what waits. -/
def Dev.chartNext (d : Dev) : Dev := Dev.chartJobs d.cha.wait.length d

/-- CHART_LOAD_DONE. -/
def Dev.chartLoadDone (d : Dev) (m : Memory) (p : Places) : Dev × List MemOp :=
  match d.cha.load with
  | none => (d, [])
  | some x =>
    if d.pwr.phase != .running then (d, [])
    else
      let (d, ops) := ({ d with cha := { d.cha with load := none } }).chartLoad m p x
      (d.chartNext.noteIdle, ops)

def execChartLoadDone (dt : Nat) (s : State) : Host.Outcome State Fault Refusal :=
  onAll dt (fun d m p => d.chartLoadDone m p) s

/-! ### CHART_DEFERRED_APPLY (R585) -/

/-- The waiting parameters that may be taken: none of their values meets a state refusal. [Log: 59 DEDUCED] -/
def Dev.waitFree (d : Dev) : List Nat :=
  d.waitingIds.filter (fun i => d.cha.waiting.all (fun e => keyId e.1 != i || !d.stateHeld e.1 e.2))

/-- Those of a set not checked against a value that waits outside it. -/
def Dev.waitClosed (d : Dev) : Nat → List Nat → List Nat
  | 0, s => s
  | n + 1, s =>
    let outside := d.waitingIds.filter (fun i => !s.contains i)
    let s' := s.filter (fun i => !crossChecks.any (fun c =>
      let l := c.1.map keyId
      l.contains i && l.any outside.contains))
    if s'.length = s.length then s else Dev.waitClosed d n s'

/-- The waiting values of a set of parameters. -/
def Dev.waitVals (d : Dev) (s : List Nat) : List (Nat × Nat) := d.cha.waiting.filter (fun e => s.contains (keyId e.1))

/-- The parameter of a set another rule refuses. -/
def Dev.waitRefused (d : Dev) (s : List Nat) : Option Nat :=
  let new := d.wAll (d.waitVals s)
  match crossChecks.find? (fun c => c.2 new && c.1.any (fun p => s.contains (keyId p))) with
  | some c => leastId ((c.1.map keyId).filter s.contains)
  | none => if new.ledgerBroken s then leastId (s.filter ledgerIds.contains) else none

/-- Split a set into what applies and what is dropped. [Log: 59 DEDUCED] -/
def Dev.waitDrop (d : Dev) : Nat → List Nat → List Nat → List Nat × List Nat
  | 0, s, gone => (s, gone)
  | n + 1, s, gone =>
    match d.waitRefused s with
    | none => (s, gone)
    | some i => Dev.waitDrop d n (s.filter (· != i)) (gone ++ [i])

/-- The waiting values whose state refusal has lifted are taken on one edge; one that another rule refuses is dropped. -/
def Dev.deferredApply (d : Dev) (m : Memory) (p : Places) : Dev × List MemOp :=
  if d.pwr.phase != .running then (d, [])
  else
    let free := d.waitClosed d.waitingIds.length d.waitFree
    if free.isEmpty then (d, [])
    else
      let (take, gone) := d.waitDrop free.length free []
      let vals := d.waitVals take
      let d := { d with cha := { d.cha with waiting := d.cha.waiting.filter (fun e => !free.contains (keyId e.1)) } }
      let d := d.each gone (fun i d => (d.w P.chartInvalidIndex i).raise 13 (d.a P.chartActive % 4 + 12 + 16))
      let a := d.applyChanges m p whoDevice 1 0 {} (vals.map (fun e => chgOf e.1 e.2))
      (a.dev.noteIdle, a.ops)

def execChartDeferredApply (dt : Nat) (s : State) : Host.Outcome State Fault Refusal :=
  onAll dt (fun d m p => d.deferredApply m p) s

/-! ### Storing (R580, R581) -/

/-- An accepted STORE_CHART: the running values as they stand. -/
def Dev.chartStore (d : Dev) (port id who : Nat) : Dev :=
  let chart := if d.cha.safe then 0 else d.a P.chartActive % 4
  let one : ChartStore := ⟨chart, d.alm.filter (fun (e : Nat × Nat) => inChart e.1), port, id, who⟩
  let d := d.answerLater port id
  if d.cha.store.isSome then { d with cha := { d.cha with wait := d.cha.wait ++ [.store one] } }
  else { d with cha := { d.cha with store := some one } }

/-- STORE_CHART_DONE: the record is written and the operation answered. [Log: 59 DEDUCED] -/
def Dev.storeDone (d : Dev) : Dev :=
  match d.cha.store with
  | none => d
  | some x =>
    if d.pwr.phase != .running then d
    else
      let d := { d with cha := { d.cha with store := none } }
      let status := if d.nvm.deferring then 9 else 0
      let seq := ((d.cha.recs.getD x.chart none).map (·.seq)).getD 0
      let one : ChartRec := ⟨(seq + 1) % 2 ^ 32, true, x.vals⟩
      let d := if status = 0 then { d with cha := { d.cha with recs := modAt d.cha.recs x.chart (fun _ => some one) } }
        else d.inc P.nvmDeferredDiscardCount
      let d := (d.countOp status).audit 6 x.who 0 x.chart status 0 0
      let d := d.answerHeld x.port x.id (resultOf status 0xFF 0 [])
      d.chartNext

def execStoreChartDone (dt : Nat) (s : State) : Host.Outcome State Fault Refusal := onDev dt (·.storeDone) s

end Sys2Proof.Machine
end

