-- ==== Sys2Proof/Machine/Survey.lean ====
section
/-!
DEFINITION. The SURVEY record (21_almanac.md R588 to R591; 24_events_background_riptide.md R649).
-/

namespace Sys2Proof.Machine

/-- One FIRMWARE entry (R590). Stage and trial boots stand at the components of the package. [Log: 62 DEDUCED] -/
def Dev.surveyFirmware (d : Dev) (m : Memory) (c : Nat) : List Byte :=
  let s := d.runSlot c
  let mine := (pkgComps d.upd.hdr).contains c
  let trial := s != d.confirmed c
  leBytes 4 (d.upd.run.getD c {}).version ++ leBytes 4 (field (m.imageHeader c (1 - s)) 8 4) ++ leBytes 1 s
    ++ leBytes 1 (b2n trial) ++ leBytes 1 (if mine then d.a P.updTrialBoots else 0)
    ++ leBytes 1 (if mine then d.a P.updStage else 0) ++ zeros 4

/-- The Riptide byte (R649): run active, rules in force, a lane forced down. -/
def Dev.surveyRiptide (d : Dev) : Nat :=
  let rules := maskOf 4 (fun i => d.ripOn && bits (d.a (P.riptideRules + i)) 35 32 != 0)
  b2n d.ripOn + 2 * rules + 32 * b2n (d.ripOn && d.a P.riptideLaneDown % 2 ^ 24 != 0)

/-- The records of SURVEY: those passed to it and those raised on this edge, the newest 64 (R588, R589). [Log: 62 DEDUCED] -/
def Dev.surveyEvents (d : Dev) (p : Places) : List Byte :=
  padTo 1024 ((keepLast recentCap (p.recent ++ d.edge)).flatMap Ev.bytes)

/-- Bytes 0 to 31. -/
def Dev.surveyHead (d : Dev) : List Byte :=
  leBytes 2 1 ++ leBytes 2 2048 ++ leBytes 16 d.timeNow ++ leBytes 8 d.fus.chipId ++ leBytes 1 d.fus.stepping
    ++ leBytes 1 d.fus.lifecycle ++ leBytes 1 d.shownIsland ++ leBytes 1 d.sesOpenMask

/-- Bytes 32 to 183: firmware and Charts. -/
def Dev.surveyCharts (d : Dev) (m : Memory) : List Byte :=
  [0, 1, 2, 3].flatMap (fun c => d.surveyFirmware m c)
    ++ leBytes 1 (d.a P.chartActive + 4 * d.a P.chartSource + 128 * b2n d.cha.store.isSome)
    ++ leBytes 1 (d.view m P.chartValidMask) ++ leBytes 4 d.dirtyMask ++ leBytes 2 d.waitingIds.length
    ++ (List.range 20).flatMap (fun i => leBytes 4 (d.view m (P.chartSectionHash + i)))

/-- Bytes 184 to 283: states, lanes, Archipelago, time, Ephemeris. -/
def Dev.surveyMid (d : Dev) (m : Memory) : List Byte :=
  leBytes 1 d.pw ++ leBytes 1 (d.a P.pwrActiveMask) ++ leBytes 1 (d.a P.resetCause) ++ leBytes 1 (d.a P.wakeLastSource)
    ++ leBytes 4 (d.a P.resetCount) ++ (List.range 24).flatMap (fun l => leBytes 1 (d.a (P.laneState + l)))
    ++ leBytes 1 (d.a P.mlLinkWidth) ++ leBytes 1 (d.a P.mlLinkRate) ++ leBytes 1 (d.a P.mlPartnerState) ++ zeros 1
    ++ [0, 1, 2, 3].flatMap (fun p => leBytes 1 (d.a (P.stLinkWidth + p))) ++ leBytes 4 (d.a P.mlPayload)
    ++ leBytes 1 (d.a P.archIslandCount) ++ leBytes 1 (d.a P.redState) ++ leBytes 1 (d.a P.archReduceGroup)
    ++ leBytes 1 (d.a P.archCollector) ++ [0, 1, 2, 3].flatMap (fun p => leBytes 1 (d.a (P.archNeighbours + p)))
    ++ leBytes 4 (d.a P.archTopologyEpoch) ++ leBytes 8 (d.a P.redMissingLast)
    ++ leBytes 1 (d.a P.timeState) ++ leBytes 1 (d.a P.timeParentIsland) ++ leBytes 1 (d.a P.timeParentPort) ++ zeros 1
    ++ leBytes 5 (d.a P.timeOffset) ++ leBytes 5 (d.a P.timeFreqCorrection)
    ++ leBytes 2 (d.view m P.ephOccupancy) ++ leBytes 2 (d.view m P.ephNextIndex) ++ leBytes 1 (d.a P.ephTxDisabledMask)
    ++ zeros 1 ++ leBytes 16 (d.view m P.ephNextTime)

/-- Bytes 284 to 1019: DMA, Transit, thermal, events, Catalogue and the rest. -/
def Dev.surveyTail (d : Dev) : List Byte :=
  padTo 736 ((List.range 16).flatMap (fun c => leBytes 1 (d.a (P.dmaState + c))) ++ leBytes 2 (d.a P.dmaEnable)
    ++ leBytes 1 (d.a P.transitState) ++ leBytes 1 (d.a P.transitSeqState) ++ leBytes 4 (d.a P.transitRecordCount)
    ++ leBytes 1 (d.a P.thermState) ++ leBytes 1 (d.a P.txThrottleSteps) ++ leBytes 2 (d.a P.thermJunction)
    ++ leBytes 2 (d.a P.thermAonTemp) ++ leBytes 1 (d.a P.thermHottestSensor) ++ zeros 1
    ++ leBytes 8 (d.a P.thermSensorFailedMask) ++ leBytes 4 (d.a P.thermShutdownCount)
    ++ d.octets P.eventPending 16 ++ leBytes 8 (d.a P.catGeneration)
    ++ [0, 1, 2, 3].flatMap (fun i => leBytes 4 (d.a (P.catStateCounts + i)))
    ++ leBytes 1 (d.a P.memState) ++ leBytes 1 (d.a P.collimDue) ++ leBytes 1 (d.a P.collimState) ++ zeros 1
    ++ [0, 1, 2, 3, 4].flatMap (fun g => leBytes 1 (d.a (P.biasParkCause + g)))
    ++ leBytes 1 d.surveyRiptide ++ leBytes 2 d.ripSeconds ++ leBytes 4 (d.a P.eventSeq) ++ leBytes 4 (d.a P.auditSeq)
    ++ leBytes 1 (d.a P.apPlanQueuedA) ++ leBytes 1 (d.a P.apPlanQueuedB))

/-- A record with its CRC. -/
def withCrc (b : List Byte) : List Byte := b ++ leBytes 4 (crc32c b)

/-- The SURVEY record; without a session the reduced form (R591). -/
def Dev.survey (d : Dev) (m : Memory) (p : Places) (full : Bool) : List Byte :=
  withCrc (if full then d.surveyHead ++ d.surveyCharts m ++ d.surveyMid m ++ d.surveyTail ++ d.surveyEvents p
    else padTo 2044 d.surveyHead)

end Sys2Proof.Machine
end

