-- ==== Sys2Proof/Machine/Almanac.lean ====
section
/-!
DEFINITION. The Almanac engine: records and items, what an operation is refused for, reads, writes with their audit entries,
session operations, answers, and how an operation comes in past Riptide (21_almanac.md R565 to R572, R690; 22_roles_fuses_audit.md
R593 to R600, R607 to R610; 17_mainland_port.md R493).
-/

namespace Sys2Proof.Machine

/-! ### Records (R566, R567) -/

/-- The bytes of an item. -/
def itemBytes (x : Item) : List Byte :=
  leBytes 2 x.index ++ leBytes 1 x.sub ++ [0#8] ++ leBytes 2 x.first ++ leBytes 2 x.span ++ leBytes 2 x.value.length
    ++ zeros 2 ++ x.value

/-- The bytes of an operation record. -/
def AlmOp.bytes (o : AlmOp) : List Byte :=
  leBytes 1 o.op ++ leBytes 1 o.ses ++ leBytes 1 o.n ++ [0#8] ++ o.items.flatMap itemBytes

/-- The items of a record; none where they do not fill it or a reserved byte is set. -/
def itemsOf : Nat → List Byte → Option (List Item)
  | 0, bs => if bs.isEmpty then some [] else none
  | n + 1, bs =>
    if bs.isEmpty then some []
    else
      let len := field bs 8 2
      if bs.length < 12 + len ∨ field bs 3 1 ≠ 0 ∨ field bs 10 2 ≠ 0 then none
      else (itemsOf n (bs.drop (12 + len))).map (fun l =>
        { index := field bs 0 2, sub := field bs 2 1, first := field bs 4 2, span := field bs 6 2, value := slice bs 12 len } :: l)

/-- Read a record: one that cannot be read is an unknown operation. -/
def AlmOp.reread (o : AlmOp) (id : Nat) (b : List Byte) : AlmOp :=
  match itemsOf 65 (b.drop 4) with
  | some l =>
    if b.length < 4 ∨ field b 3 1 ≠ 0 then { o with id := id, op := 0, items := [], aux := {} }
    else { o with id := id, op := field b 0 1, ses := field b 1 1, n := field b 2 1, items := l, aux := {} }
  | none => { o with id := id, op := 0, items := [], aux := {} }

/-- The operations of R566 with the items they carry. [Log: 60 DEDUCED] -/
def AlmOp.shapeOk (o : AlmOp) : Bool :=
  o.n == o.items.length &&
    (if o.op = 1 ∨ o.op = 2 ∨ o.op = 6 ∨ o.op = 7 then o.n == 1
     else if o.op = 3 ∨ o.op = 4 then 1 ≤ o.n && o.n ≤ 64
     else (o.op == 5 || o.op == 8 || o.op == 9) && o.n == 0)

/-! ### Items (R565, R567, R569) -/

/-- The parameter an item names. -/
def itemId (x : Item) : Nat := 256 * x.index + x.sub

/-- Whether a type is read and written by spans. -/
def PTy.spanned : PTy → Bool
  | .octets _ => true
  | .text _ => true
  | .table _ => true
  | _ => false

/-- Whether a role may read or write a parameter (R7, R8). [Log: 54 DEDUCED] -/
def PRow.may (r : PRow) (role : Nat) (write : Bool) : Bool :=
  if write then r.wr < 8 && bit r.wr role else r.rd == 8 || bit r.rd role

/-- The entries an item spans. -/
def itemCount (x : Item) (r : PRow) : Nat := if x.span = 0 then r.ty.entries - x.first else x.span

/-- What is wrong with an item whatever its value: 3 access, 2 no parameter or span, 1 length. [Log: 53 DEDUCED; 54 DEDUCED] -/
def itemStatus (role : Nat) (write : Bool) (x : Item) : Nat :=
  if 0xF000 ≤ x.index ∧ role ≠ 2 then 3
  else match rowOf (itemId x) with
    | none => 2
    | some r =>
      if !write && !x.value.isEmpty then 1
      else if !r.may role write then 3
      else if r.ty.spanned && (r.ty.entries ≤ x.first || decide (r.ty.entries < x.first + x.span)) then 2
      else if !r.ty.spanned && (x.first != 0 || x.span != 0) then 1
      else if write && x.value.length != itemCount x r * r.ty.width then 1
      else 0

/-- `n` values of a width from a byte string. -/
def valuesOf (w : Nat) : Nat → List Byte → List Nat
  | 0, _ => []
  | n + 1, b => leNat (b.take w) :: valuesOf w n (b.drop w)

/-- The change a well-shaped item asks for. -/
def itemChg (x : Item) : Chg :=
  match rowOf (itemId x) with
  | none => ⟨itemId x, x.first, []⟩
  | some r => ⟨itemId x, x.first, valuesOf r.ty.width (itemCount x r) x.value⟩

/-! ### Commands among the parameters -/

/-- The bytes of a change of an OCTETS parameter. -/
def Chg.octets (c : Chg) : List Byte := c.vals.map (BitVec.ofNat 8)

/-- Whether a change covers its parameter whole. -/
def Chg.whole (c : Chg) : Bool :=
  c.first == 0 && (match rowOf c.id with | some r => c.vals.length == r.ty.entries | none => false)

/-- What the chapter of a command parameter refuses a write with, 0 where it does not. `new` holds the values the whole operation
leaves behind; `own` is the key slot of the session. [Log: 55 DEDUCED] -/
def Dev.commandStatus (d new : Dev) (m : Memory) (role own : Nat) (pf : List Byte × Bool) (c : Chg) : Nat :=
  let is (p : Nat) : Bool := c.id == keyId p
  let v := c.vals.headD 0
  let whole (n : Nat) : Nat := if c.whole then n else 5
  if is P.rxRetiredMask then (if maskSub 16 v (d.a P.rxRetiredMask) = 0 then 0 else 5)
  else if is P.ephWrite then whole (d.ephStatus c.octets)
  else if is P.updCommand then new.updCmdStatus v
  else if is P.updChunk then whole (d.chunkStatus m (field c.octets 0 4) (c.octets.drop 8))
  else if is P.fuseKeyProgram then whole (d.keyProgramStatus c.octets)
  else if is P.fuseKeyRevoke then d.keyRevokeStatus role own v
  else if is P.lifecycleAdvance then d.lifecycleStatus role v
  else if is P.debugUnlockToken then whole (d.tokenStatus c.octets pf.1 pf.2)
  else if is P.transitSendRecord then (if d.traMaySend v then 0 else 5)
  else 0

/-- What refuses one change of a well-shaped item: its value (5), the present state (6), its chapter. Any octets make a chunk, in any
state (R622). [Log: 53 DEDUCED] -/
def Dev.chgStatus (d new : Dev) (m : Memory) (role own : Nat) (pf : List Byte × Bool) (c : Chg) : Nat :=
  if d.pwr.phase == .restricted && c.id != keyId P.thermRestart then 6
  else if c.id != keyId P.updChunk && c.pairs.any (fun x => !valueOk x.1 x.2) then 5
  else if c.id != keyId P.updChunk && c.pairs.any (fun x => d.stateHeld x.1 x.2) then 6
  else d.commandStatus new m role own pf c

/-! ### The audit log (R607, R608, R610) -/

/-- Whether a parameter is protected. -/
def PRow.protected (r : PRow) : Bool := r.wr < 8 && (bit r.wr 1 || bit r.wr 2) && !bit r.wr 0

/-- Whether an item names a protected parameter. -/
def itemProtected (x : Item) : Bool := match rowOf (itemId x) with | some r => r.protected | none => false

/-- Room for `n` audit entries (R610). [Log: 60 DEDUCED] -/
def Dev.auditRoom (d : Dev) (n : Nat) : Bool := !d.nvm.deferring || n == 0 || decide (d.nvm.used + 32 * n ≤ nvmCap)

/-- The audit entries an accepted write makes: one for each item of a protected parameter, and those of the Chart load or the update
stage it leads to at once (R607). [Log: 60 DEDUCED] -/
def auditNeed (items : List Item) : Nat :=
  (items.filter itemProtected).length
    + (items.filter (fun x => itemId x == keyId P.chartSelect || itemId x == keyId P.updCommand)).length

/-- The audit entry of one item of a write (R607, R608). [Log: 49 DEDUCED] -/
def Dev.auditItem (old d : Dev) (m : Memory) (who status : Nat) (x : Item) : Dev :=
  match rowOf (itemId x) with
  | none => d
  | some r =>
    if !r.protected then d
    else
      let spans := if r.ty.spanned then x.first < r.ty.entries && x.first + x.span ≤ r.ty.entries else x.first == 0 && x.span == 0
      let shown := spans && r.rd != 0
      let n := itemCount x r
      let h (b : List Byte) : Nat := Config.sha384Head b % 2 ^ 32
      let was := if shown then h (old.viewBytes m r (itemId x) x.first n) else 0
      let now := if status == 0 && shown then h (d.viewBytes m r (itemId x) x.first n) else h x.value
      let v := field x.value 0 1
      let kind (k s : Nat) : Dev := d.audit k who 0 s status was now
      if (itemId x) = keyId P.fuseKeyProgram then kind 8 v
      else if (itemId x) = keyId P.fuseKeyRevoke then kind 9 v
      else if (itemId x) = keyId P.lifecycleAdvance then kind 10 v
      else if (itemId x) = keyId P.debugUnlockToken then kind 11 0
      else d.audit 1 who x.index x.sub status was now

/-- The audit entries of a write. [Log: 49 DEDUCED] -/
def Dev.auditAll (old d : Dev) (m : Memory) (who status : Nat) (items : List Item) : Dev :=
  items.foldl (fun d x => Dev.auditItem old d m who status x) d

/-! ### Operations (R566 to R570) -/

/-- What an operation comes to: STATUS, FAILED_ITEM, result data, the device, the changes of memory, a reset that follows, and
whether it answers later. -/
structure OpEnd where
  status : Nat
  failed : Nat := 0xFF
  data : List Byte := []
  dev : Dev
  ops : List MemOp := []
  rst : Option Nat := none
  late : Bool := false

/-- The first item of a list with a status, counted from `i`. -/
def firstBad (f : Item → Nat) : Nat → List Item → Option (Nat × Nat × Item)
  | _, [] => none
  | i, x :: xs => if f x = 0 then firstBad f (i + 1) xs else some (f x, i, x)

/-- READ and READ_BLOCK. [Log: 60 DEDUCED] -/
def Dev.opRead (d : Dev) (m : Memory) (o : AlmOp) (role : Nat) : OpEnd :=
  match firstBad (itemStatus role false) 0 o.items with
  | some (st, i, _) => { status := st, failed := i, dev := d }
  | none =>
    let data := o.items.flatMap (fun x => match rowOf (itemId x) with
      | none => []
      | some r => ({ x with value := d.viewBytes m r (itemId x) x.first (itemCount x r) } : Item) |> itemBytes)
    let limit := if o.port = 0 then 9212 else 9216
    if limit < 4 + data.length then { status := 8, dev := d } else { status := 0, data := data, dev := d }

/-- The status of one item of a write. [Log: 53 DEDUCED] -/
def Dev.writeStatus (d new : Dev) (m : Memory) (role own : Nat) (pf : List Byte × Bool) (x : Item) : Nat :=
  let st := itemStatus role true x
  if st ≠ 0 then st else d.chgStatus new m role own pf (itemChg x)

/-- The bytes of N-class values a write brings, which an MRAM deferral has to hold. -/
def nBytes (cs : List Chg) : Nat :=
  (cs.map (fun c => match rowOf c.id with
    | some r => (match r.cls with | .N => c.vals.length * r.ty.width | _ => 0)
    | none => 0)).sum

/-- The first item of a list that names one of some parameters. -/
def failedItem (items : List Item) (ids : List Nat) : Nat := items.findIdx (fun x => ids.contains (itemId x))

/-- Why a write is refused, with the device the refusal leaves; none where it is accepted (R569, R570). [Log: 53 DEDUCED] -/
def Dev.writeRefused (d : Dev) (m : Memory) (o : AlmOp) (role own : Nat) (pf : List Byte × Bool) : Option OpEnd :=
  let cs := o.items.map itemChg
  let new := d.withChanges cs
  let ids := cs.map (·.id)
  match firstBad (d.writeStatus new m role own pf) 0 o.items with
  | some (st, i, x) =>
    let eph := (itemId x) == keyId P.ephWrite && itemStatus role true x == 0 && (itemChg x).whole && d.pwr.phase != .restricted
    some { status := st, failed := i, dev := d.iff eph (·.ephRefuse x.value) }
  | none =>
    match new.crossBroken ids with
    | some l => some { status := 5, failed := failedItem o.items (l.map keyId), dev := d }
    | none =>
      if new.ledgerBroken ids then
        some { status := 7, failed := failedItem o.items ledgerIds, dev := d.ledgerRefuse new }
      else
        let n := nBytes cs
        if n ≠ 0 && d.nvm.deferring && decide (nvmCap < d.nvm.used + n + 32 * (o.items.filter itemProtected).length) then
          let i := o.items.findIdx (fun x => nBytes [(itemChg x)] != 0)
          let idx := ((o.items[i]?).map (·.index)).getD 0
          some { status := 9, failed := i, dev := d.raise 14 idx }
        else none

/-- WRITE and WRITE_BLOCK. -/
def Dev.opWrite (d : Dev) (m : Memory) (p : Places) (o : AlmOp) (role own : Nat) : OpEnd :=
  let who := whoOf role o.port (if o.ses < 4 then o.ses else 0)
  let (pf, d) := if o.items.any (fun x => (itemId x) == keyId P.debugUnlockToken) then d.proofNow o.aux else (([], false), d)
  if !d.auditRoom (o.items.filter itemProtected).length then { status := 9, dev := d }
  else match d.writeRefused m o role own pf with
    | some e => { e with dev := Dev.auditAll d e.dev m who e.status o.items }
    | none =>
      if !d.auditRoom (auditNeed o.items) then { status := 9, dev := d } else
      let a := d.applyChanges m p who o.port o.ses o.aux (o.items.map itemChg)
      { status := 0, dev := Dev.auditAll d a.dev m who 0 o.items, ops := a.ops, rst := a.rst }

/-- The item of a session exchange is as R595 lays down, with a value of `n` bytes. -/
def sessionItem (o : AlmOp) (n : Nat) : Bool :=
  o.items.all (fun x => x.index == 0 && x.sub == 0 && x.first == 0 && x.span == 0 && x.value.length == n)

/-- SESSION_OPEN. [Log: 60 DEDUCED] -/
def Dev.opOpen (d : Dev) (o : AlmOp) : OpEnd :=
  let v := (o.items.head?.map (·.value)).getD []
  if o.ses ≠ 0xFF then { status := 1, dev := d }
  else if !sessionItem o 4 then { status := 1, failed := 0, dev := d }
  else if 2 < field v 0 1 ∨ 3 < field v 1 1 then { status := 5, failed := 0, dev := d }
  else
    let (st, data, d) := d.sesOpen o.port (field v 0 1) (field v 1 1)
    { status := st, failed := if st = 0 then 0xFF else 0, data := data, dev := d }

/-- SESSION_PROVE. [Log: 49 DEDUCED] -/
def Dev.opProve (d : Dev) (o : AlmOp) : OpEnd :=
  if 3 < o.ses then { status := 4, dev := d }
  else if !sessionItem o 193 then { status := 1, failed := 0, dev := d }
  else
    let (pf, d) := d.proofNow o.aux
    let (st, data, d) := d.sesProve o.port o.ses pf.1 pf.2
    { status := st, failed := if st = 0 then 0xFF else 0, data := data, dev := d }

/-- STORE_CHART (R580, R594, R607). -/
def Dev.opStore (d : Dev) (o : AlmOp) (role : Nat) : OpEnd :=
  let who := whoOf role o.port o.ses
  let chart := if d.cha.safe then 0 else d.a P.chartActive % 4
  let no (st : Nat) : OpEnd := { status := st, dev := d.audit 6 who 0 chart st 0 0 }
  if !d.auditRoom 1 then { status := 9, dev := d }
  else if role ≠ 1 then no 3
  else if d.pwr.phase == .restricted then no 6
  else if d.nvm.deferring then no 9
  else { status := 0, dev := d.chartStore o.port o.id who, late := true }

/-- An operation without an open session: three are served, the rest draw status 4 (R572, R593). [Log: 60 DEDUCED] -/
def Dev.opBare (d : Dev) (m : Memory) (p : Places) (o : AlmOp) : OpEnd :=
  let identity := o.items.all (fun x => x.index == 0x1000 && 1 ≤ x.sub && x.sub ≤ 4)
  if o.ses = 0xFF ∧ o.op = 1 ∧ identity then d.opRead m o 3
  else if o.ses = 0xFF ∧ o.op = 5 then { status := 0, data := d.survey m p false, dev := d }
  else if o.op = 2 ∨ o.op = 4 then
    let prot := (o.items.filter itemProtected).length
    if !d.auditRoom prot then { status := 9, dev := d }
    else { status := 4, dev := Dev.auditAll d d m (whoOf 3 o.port (if o.ses < 4 then o.ses else 0)) 4 o.items }
  else { status := 4, dev := d }

/-- Run one operation (R566 to R572). -/
def Dev.opRun (d : Dev) (m : Memory) (p : Places) (o : AlmOp) : OpEnd :=
  if !o.shapeOk then { status := 1, dev := d }
  else if o.op = 6 then d.opOpen o
  else if o.op = 7 then d.opProve o
  else match d.sesOn o.port o.ses with
    | none => d.opBare m p o
    | some x =>
      let d := d.sesUsed o.ses
      match o.op with
      | 1 => d.opRead m o x.role
      | 3 => d.opRead m o x.role
      | 5 => { status := 0, data := d.survey m p true, dev := d }
      | 8 => { status := 0, dev := d.sesClose o.ses 2 }
      | 9 => d.opStore o x.role
      | _ => d.opWrite m p o x.role (4 * x.role + x.slot)

/-- Run an operation, count it, answer it, and then reset where it asks for one (R38, R493, R568, R571). -/
def Dev.opServe (d : Dev) (m : Memory) (p : Places) (o : AlmOp) : Dev × List MemOp :=
  let d := if o.port = 0 then d else { d with fld := { transfer := some o.id, answering := true } }
  let e := d.opRun m p o
  let d := e.dev
  let d := if e.late then d
    else (d.countOp e.status).answer o.port o.id (resultOf e.status e.failed (o.n % 256) e.data)
  match e.rst with
  | none => (d, e.ops)
  | some k => let (d, ops) := d.reset k; (d, e.ops ++ ops)

/-! ### Arrival (R493, R575, R651) -/

/-- Whether an operation reaches the device: a port that is up serves it; in the restricted service FIELD alone; a RETIRED device
without images identity reads on FIELD (R60, R402, R573, R578, R603). -/
def Dev.opServed (d : Dev) (o : AlmOp) : Bool :=
  if o.port = 0 then d.up && d.portWidth d.egress != 0
  else
    let identity := o.op == 1 && o.ses == 0xFF && o.items.all (fun x => x.index == 0x1000)
    d.fieldOn && (d.up || d.pwr.phase == .restricted || (d.pwr.phase == .noImage && d.fus.lifecycle == 3 && identity))

/-- The body an operation travels in: behind its REQ_ID on a message port. -/
def AlmOp.body (o : AlmOp) : List Byte := (if o.port = 0 then leBytes 4 o.id else []) ++ o.bytes

/-- A MGMT_REQ on the Mainland port: its units are received and freed, it is counted (R477, R483). [Log: 60 DEDUCED] -/
def Dev.mgmtIn (d : Dev) (o : AlmOp) (taken : Bool) : Dev :=
  if o.port = 0 ∧ d.egress = 0 then
    let u := msgUnits o.body.length
    let d := d.setPort 0 (fun x => { x with lastMsg := d.now })
    let d := (d.w P.mlPartnerState 2).setChan 0 2 (fun c => { c with
      received := (c.received + u) % 2 ^ 24, freed := (c.freed + u) % 2 ^ 24, seqSeen := true, seqIn := (c.seqIn + 1) % 65536 })
    d.iff taken (·.inc (P.mlRxMessageCount + 2))
  else d

/-- ABORT from the device, with its reason (R576). -/
def Dev.fieldAbort (d : Dev) (transfer reason : Nat) : Dev :=
  (d.inc P.fieldAbortCount).fieldSend 6 (transfer % 256 * 1024) [BitVec.ofNat 8 reason]

/-- An operation whose check fails after corruption: on FIELD its transfer draws ABORT. -/
def Dev.opSpoilt (d : Dev) (o : AlmOp) : Dev :=
  if o.port = 0 then (d.mgmtIn o false).crcFailed d.egress
  else ({ d with fld := {} }).fieldAbort o.id 5

/-- The operation altered on its way. [Log: 63 DEDUCED] -/
def AlmOp.altered (o : AlmOp) (b : List Byte) : AlmOp :=
  if o.port = 0 then o.reread (field b 0 4) (b.drop 4) else o.reread o.id b

/-- An operation comes in past Riptide's received rules. [Log: 63 DEDUCED] -/
def Dev.opIn (d : Dev) (m : Memory) (p : Places) (o : AlmOp) : Dev × List MemOp :=
  if !d.opServed o then (d, [])
  else
    let port := if o.port = 0 then d.egress else 5
    let vc := if o.port = 0 then 2 else 0
    let (rule, d) := d.ripPick port 0 (if o.port = 0 then 0x06 else 4)
    match rule with
    | none => ((d.ripPass false port vc).mgmtIn o true).opServe m p o
    | some k =>
      let r := d.a (P.riptideRules + k)
      let n := bits r 21 19 + 1
      match bits r 35 32 with
      | 1 => (({ d with fld := if o.port = 0 then d.fld else {} }).mgmtIn o false, [])
      | 2 =>
        let (b, d) := d.ripCorrupt o.body n
        ((d.ripPass false port vc).mgmtIn o true).opServe m p (o.altered b)
      | 3 => ((d.ripPass false port vc).opSpoilt o, [])
      | _ =>
        let one : RipHold := { sent := false, port := port, vc := vc, left := n - 1, since := d.now, instr := none, msg := none, op := some o }
        (({ d with rip := { d.rip with held := d.rip.held ++ [one] } }), [])

/-! ### Messages held for reordering (R651, R652) -/

/-- A held command that came in, served now. -/
def Dev.serveHeld (d : Dev) (m : Memory) (p : Places) (i : Instr) : Dev × List MemOp :=
  match i with
  | .slotPlan _ h b => (d.vc1Take tSlotPlan h b, [])
  | .dlPlan _ h b => (d.vc1Take tDlPlan h b, [])
  | .attach _ h b => (d.vc1Take tAttach h b, [])
  | .catalogueOpWrite _ h b => (d.vc1Take tCatOp h b, [])
  | .catalogueOpClear _ h b => (d.vc1Take tCatOp h b, [])
  | .catalogueOpRead _ h b => (d.vc1Take tCatOp h b, [])
  | .catalogueOpSetState _ h b => (d.vc1Take tCatOp h b, [])
  | .catalogueOpQuery _ h b => (d.vc1Take tCatOp h b, [])
  | .dlData _ h b => (d.dlDataIn h b, [])
  | .reduce _ h b => (d.reduceIn h b, [])
  | .routedForward _ h t hops b => (d.routed h t hops b, [])
  | .discoverRequest _ h => (d.discoverReq h, [])
  | .discoverReport _ h b => (d.discoverReport h b, [])
  | .assign _ h b => (d.assign h b, [])
  | .planVerdict _ h b => (d.verdictIn h b, [])
  | .syncStamp _ h b up => (d.syncStamp h b up, [])
  | .heartbeatReceive _ h b => (d.heartbeatIn h b, [])
  | .ptpSync _ x => (d.ptpSync x, [])
  | .ptpFollowUp _ q t1 => (d.ptpFollowUp q t1, [])
  | .ptpAnnounce _ x => (d.ptpAnnounce x, [])
  | .ptpUnsupportedMessage _ => (d.inc P.ptpDiscardCount, [])
  | .ptpDelayResp _ q t4 li => Dev.afterStep (d.ptpDelayResp q t4 li) m p
  | .fieldAbort _ _ t => (if d.fld.transfer = some t then { d with fld := {} } else d, [])
  | _ => (d, [])

/-- A TIME message that Riptide held was stamped when it arrived: its marker lies that much further back (R426, R651). -/
def stampedBack (ps : Nat) : Instr → Instr
  | .ptpSync dt x => .ptpSync dt { x with t2 := { x.t2 with mark := x.t2.mark - (ps : Nat) } }
  | i => i

/-- One held message leaves or is served. -/
def Dev.letGo (d : Dev) (m : Memory) (p : Places) (h : RipHold) : Dev × List MemOp :=
  match h.op, h.instr with
  | some o, _ => if d.opServed o then (d.mgmtIn o true).opServe m p o else (d, [])
  | none, some i => if d.up then d.serveHeld m p (stampedBack (d.now - h.since) i) else (d, [])
  | none, none => (d.ripLeave h, [])

/-- Whether a held message may go: all it waits for have passed, 100 us are over, or no run is on. -/
def Dev.mayGo (d : Dev) (h : RipHold) : Bool := h.left == 0 || !d.ripOn || decide (h.since + 10 ^ 8 ≤ d.now)

/-- Let go what may go, in order. -/
def Dev.ripRelease (d : Dev) (m : Memory) (p : Places) : Dev × List MemOp :=
  let go := d.rip.held.filter d.mayGo
  let d := { d with rip := { d.rip with held := d.rip.held.filter (fun h => !d.mayGo h) } }
  go.foldl (fun (a : Dev × List MemOp) h =>
    let (d, ops) := a.1.letGo (m.applyAll a.2) p h
    (d, a.2 ++ ops)) (d, [])

/-- One operation arrives; where it ends a Riptide run, what was held is served behind it. -/
def Dev.opArrive (d : Dev) (m : Memory) (p : Places) (o : AlmOp) : Dev × List MemOp :=
  let (d, ops) := d.opIn m p o
  if !d.ripOn && !d.rip.held.isEmpty then
    let (d, ops') := d.ripRelease (m.applyAll ops) p
    (d.noteIdle, ops ++ ops')
  else (d.noteIdle, ops)

/-- The outcome of an operation. -/
def onOp (dt : Nat) (o : AlmOp) (s : State) : Host.Outcome State Fault Refusal :=
  onAll dt (fun d m p => d.opArrive m p o) s

/-! ### Operations with a row of their own -/

/-- An operation of a request. -/
def reqOp (q : Req) (op : Nat) (items : List Item) (aux : OpAux := {}) : AlmOp :=
  { port := q.port, ses := q.ses, id := q.id, op := op, n := items.length, items := items, aux := aux }

/-- ALMANAC_READ (R568). -/
def execAlmanacRead (dt : Nat) (req : Req) (item : Item) (s : State) : Host.Outcome State Fault Refusal :=
  onOp dt (reqOp req 1 [item]) s
/-- ALMANAC_WRITE (R570). -/
def execAlmanacWrite (dt : Nat) (req : Req) (item : Item) (s : State) : Host.Outcome State Fault Refusal :=
  onOp dt (reqOp req 2 [item]) s
/-- ALMANAC_READ_BLOCK. -/
def execAlmanacReadBlock (dt : Nat) (req : Req) (items : List Item) (s : State) : Host.Outcome State Fault Refusal :=
  onOp dt (reqOp req 3 items) s
/-- ALMANAC_WRITE_BLOCK (R570). -/
def execAlmanacWriteBlock (dt : Nat) (req : Req) (items : List Item) (s : State) : Host.Outcome State Fault Refusal :=
  onOp dt (reqOp req 4 items) s
/-- SURVEY (R588). -/
def execSurvey (dt : Nat) (req : Req) (s : State) : Host.Outcome State Fault Refusal := onOp dt (reqOp req 5 []) s
/-- SESSION_OPEN (R595). -/
def execSessionOpen (dt : Nat) (req : Req) (item : Item) (s : State) : Host.Outcome State Fault Refusal :=
  onOp dt (reqOp req 6 [item]) s
/-- SESSION_PROVE (R596). -/
def execSessionProve (dt : Nat) (req : Req) (item : Item) (pubHash : List Byte) (sigOk : Bool) (s : State) :
    Host.Outcome State Fault Refusal := onOp dt (reqOp req 7 [item] { proof := some (pubHash, sigOk) }) s
/-- SESSION_CLOSE (R598). -/
def execSessionClose (dt : Nat) (req : Req) (s : State) : Host.Outcome State Fault Refusal := onOp dt (reqOp req 8 []) s
/-- STORE_CHART (R580). -/
def execStoreChart (dt : Nat) (req : Req) (s : State) : Host.Outcome State Fault Refusal := onOp dt (reqOp req 9 []) s

end Sys2Proof.Machine
end

