-- ==== Sys2Proof/Machine/Field.lean ====
section
/-!
DEFINITION. The FIELD port (21_almanac.md R573 to R578) and the restricted service it starts (13_housekeeping_thermal.md R402).
-/

namespace Sys2Proof.Machine

/-! ### The bus (R573, R592) -/

/-- Nominal and data-phase rate in kbit/s by FieldNominalRate and FieldDataRate. -/
def Dev.fieldRates (d : Dev) : Nat × Nat :=
  ([500, 1000].getD (d.a P.fieldNominalRate) 0, [1000, 2000, 4000, 5000, 8000].getD (d.a P.fieldDataRate) 0)

/-- Sample points of the nominal and the data phase, percent of a bit. -/
def fieldSamplePoints : Nat × Nat := (80, 75)

/-! ### Requests (R575, R576) -/

/-- FIELD serves frames addressed to an island: in WATCH and above, in the restricted service, and a RETIRED device its identity
(R60, R402, R603). -/
def Dev.fieldServes (d : Dev) (island : Nat) : Bool :=
  d.fieldOn && island == d.island
    && (d.up || d.pwr.phase == .restricted || (d.pwr.phase == .noImage && d.fus.lifecycle == 3))

/-- A frame addressed to the device keeps the restricted service going (R402). -/
def Dev.fieldHeard (d : Dev) : Dev := { d with thm := { d.thm with lastField := d.now } }

/-- The most bytes of a transfer (R575). -/
def transferMax : Nat := 9224

/-- A transfer fails: it is discarded and ABORT leaves (R576). -/
def Dev.fieldFail (d : Dev) (transfer reason : Nat) : Dev := ({ d with fld := {} }).fieldAbort transfer reason

/-- Every byte of a transfer has come: the record is checked and executed, as one operation on FIELD. -/
def Dev.fieldWhole (d : Dev) (m : Memory) (p : Places) (transfer total : Nat) (bytes : List Byte) : Dev × List MemOp :=
  let whole := bytes.take total
  let n := total - 4
  if whole.length < total ∨ total < 4 ∨ field whole n 4 ≠ crc32c (whole.take n) then (d.fieldFail transfer 5, [])
  else
    let blank : AlmOp := { port := 1, ses := 0, id := transfer, op := 0, n := 0, items := [] }
    ({ d with fld := {} }).opArrive m p (blank.reread transfer (whole.take n))

/-- A segment that stands in its place. -/
def Dev.fieldTake (d : Dev) (m : Memory) (p : Places) (transfer k : Nat) (data : List Byte) : Dev × List MemOp :=
  let total := field data 0 2
  let bytes := (if k = 0 then [] else d.fld.data) ++ (data.drop 4).take 60
  if bit (field data 2 1) 0 ∨ total ≤ 60 * (k + 1) then d.fieldWhole m p transfer total bytes
  else
    ({ d with fld := { transfer := some transfer, total := total, next := k + 1, data := bytes, lastAt := d.now,
                       answering := false } }, [])

/-- A REQUEST segment. A segment of a transfer that is not in progress is ignored, but for segment 0. [Log: 64 DEDUCED] -/
def Dev.fieldSegment (d : Dev) (m : Memory) (p : Places) (transfer k : Nat) (data : List Byte) : Dev × List MemOp :=
  let mine := d.fld.transfer == some transfer
  if d.fld.answering then (d.iff (k == 0) (·.fieldAbort transfer 3), [])
  else if k = 0 ∧ !mine then
    -- a new transfer abandons an incomplete one silently
    if transferMax < field data 0 2 then (d.fieldFail transfer 4, []) else d.fieldTake m p transfer 0 data
  else if !mine then (d, [])
  else if k ≠ d.fld.next then (d.fieldFail transfer 1, [])
  else if transferMax < field data 0 2 then (d.fieldFail transfer 4, [])
  else d.fieldTake m p transfer k data

def execFieldRequestSegment (dt island transfer segment : Nat) (data : List Byte) (s : State) :
    Host.Outcome State Fault Refusal :=
  onAll dt (fun d m p =>
    if d.fieldServes island then d.fieldHeard.fieldSegment m p (transfer % 256) (segment % 1024) data else (d, [])) s

/-- The tool's ABORT discards the named transfer (R574), past Riptide's received rules. [Log: 64 DEDUCED] -/
def Dev.fieldAborted (d : Dev) (island transfer : Nat) : Dev :=
  let (rule, d) := d.ripPick 5 0 6
  let drop (d : Dev) : Dev := if d.fld.transfer = some transfer then { d with fld := {} } else d
  match rule with
  | none => drop (d.ripPass false 5 0)
  | some k =>
    let r := d.a (P.riptideRules + k)
    match bits r 35 32 with
    | 1 => d
    | 4 =>
      let one : RipHold := { sent := false, port := 5, vc := 0, left := bits r 21 19, since := d.now,
                             instr := some (.fieldAbort 0 island transfer), msg := none }
      { d with rip := { d.rip with held := d.rip.held ++ [one] } }
    | _ => drop (d.ripPass false 5 0)

def execFieldAbort (dt island transfer : Nat) (s : State) : Host.Outcome State Fault Refusal :=
  onDev dt (fun d => d.iff (d.fieldServes island) (fun d => d.fieldHeard.fieldAborted island (transfer % 256))) s

/-- FIELD_SEGMENT_TIMEOUT (R576): more than 100 ms since the last segment. -/
def execFieldSegmentTimeout (dt : Nat) (s : State) : Host.Outcome State Fault Refusal :=
  onDev dt (fun d =>
    match d.fld.transfer with
    | none => d
    | some t => d.iff (!d.fld.answering && decide (d.fld.lastAt + 10 ^ 11 < d.now)) (·.fieldFail t 2)) s

/-! ### Heartbeats and events (R577, R578) -/

/-- A tool's HEARTBEAT: no action beyond a wake, which is WAKE_FIELD_FRAME's, and the restricted service's. -/
def execFieldHeartbeatReceive (dt island : Nat) (s : State) : Host.Outcome State Fault Refusal :=
  onDev dt (fun d => d.iff (d.fieldServes island) (fun d => (d.fieldHeard.ripPick 5 0 30).2.ripPass false 5 0)) s

/-- The data of a HEARTBEAT. -/
def Dev.fieldBeat (d : Dev) : List Byte :=
  leBytes 8 d.fus.chipId ++ leBytes 1 d.pw ++ leBytes 1 d.fus.lifecycle ++ leBytes 1 d.sesOpenMask ++ zeros 1
    ++ leBytes 4 (d.secs % 2 ^ 32)

def execFieldHeartbeatSend (dt : Nat) (s : State) : Host.Outcome State Fault Refusal :=
  onDev dt (fun d => d.iff (d.up || (d.pwr.phase == .noImage && d.fus.lifecycle == 3)) (fun d => d.fieldSend 30 0 d.fieldBeat)) s

/-- Whether a record leaves on FIELD now. -/
def Dev.fieldEventNow (d : Dev) (p : Places) : Bool := d.up && d.fieldOn && !p.fieldQ.isEmpty

/-- FIELD_EVENT_SEND (R574, R578): the oldest record. -/
def execFieldEventSend (dt : Nat) (s : State) : Host.Outcome State Fault Refusal :=
  onPlaces dt (fun _ _ => 0) (fun d p => b2n (d.fieldEventNow p)) (fun d p =>
    match p.fieldQ with
    | [] => d
    | e :: _ => d.iff (d.fieldEventNow p) (fun d => d.fieldSend 2 (e.seq % 2 ^ 18) e.bytes)) s

/-! ### Error states (R578) -/

/-- Whether the FIELD controller runs. -/
def Dev.fieldRuns (d : Dev) : Bool := d.a P.fieldEnable == 1 && (d.up || d.pwr.phase == .restricted)

/-- FieldErrorCounters. -/
def Dev.fieldCounters (d : Dev) (tec rec_ : Nat) : Dev := d.w P.fieldErrorCounters (sat 65535 tec + 65536 * sat 65535 rec_)

/-- Bus-off: events raised from here on are not sent as frames. -/
def Dev.fieldOff (d : Dev) (tec rec_ : Nat) : Dev :=
  if d.fieldRuns && d.a P.fieldState != 3 then
    ((((d.w P.fieldState 3).fieldCounters tec rec_).inc P.fieldBusOffCount)).raise 109 0
  else d

def execFieldBusOff (dt tec rec_ : Nat) (s : State) : Host.Outcome State Fault Refusal := onDev dt (·.fieldOff tec rec_) s

def execFieldErrorPassive (dt tec rec_ : Nat) (s : State) : Host.Outcome State Fault Refusal :=
  onDev dt (fun d => d.iff (d.fieldRuns && d.a P.fieldState == 1) (fun d =>
    ((d.w P.fieldState 2).fieldCounters tec rec_).raise 110 0)) s

/-- Recovery from bus-off sets both error counters to 0, as ISO 11898-1 has it. [Log: 65 PRESUMED] -/
def execFieldBusOffRecovery (dt : Nat) (s : State) : Host.Outcome State Fault Refusal :=
  onDev dt (fun d => d.iff (d.fieldRuns && d.a P.fieldState == 3) (fun d => (d.w P.fieldState 1).fieldCounters 0 0)) s

def execFieldErrorActive (dt tec rec_ : Nat) (s : State) : Host.Outcome State Fault Refusal :=
  onDev dt (fun d => d.iff (d.fieldRuns && d.a P.fieldState == 2) (fun d => (d.w P.fieldState 1).fieldCounters tec rec_)) s

/-! ### The restricted service (R402) -/

/-- A FIELD frame during shutdown starts CURATOR alone; the frame is discarded. -/
def execRestrictedServiceStart (dt island : Nat) (s : State) : Host.Outcome State Fault Refusal :=
  onDev dt (fun d =>
    d.iff (d.pwr.phase == .shutdown && d.fieldOn && island == d.island) (fun d =>
      ({ d with pwr := { d.pwr with phase := .restricted } }).fieldHeard)) s

/-- 60 s without a FIELD frame end it; the sessions it served close with CURATOR. -/
def execRestrictedServiceTimeout (dt : Nat) (s : State) : Host.Outcome State Fault Refusal :=
  onDev dt (fun d =>
    d.iff (d.pwr.phase == .restricted && decide (d.thm.lastField + 60 * 10 ^ 12 ≤ d.now)) (fun d =>
      let d := { d with pwr := { d.pwr with phase := .shutdown }, fld := {} }
      d.sesCloseAll)) s

/-! ### Riptide's clock (R649, R651) -/

/-- RIPTIDE_EXPIRE: the duration of the run has passed since its start. -/
def execRiptideExpire (dt : Nat) (s : State) : Host.Outcome State Fault Refusal :=
  onAll dt (fun d m p =>
    if d.ripOn && decide (d.rip.startAt + d.rip.dur * 10 ^ 12 ≤ d.now) then
      let (d, ops) := (d.ripOff 1).ripRelease m p
      (d.noteIdle, ops)
    else (d, [])) s

/-- RIPTIDE_REORDER_RELEASE. -/
def execRiptideReorderRelease (dt : Nat) (s : State) : Host.Outcome State Fault Refusal :=
  onAll dt (fun d m p =>
    let (d, ops) := d.ripRelease m p
    (d.noteIdle, ops)) s

/-! ### Background work (24_events_background_riptide.md R646, R647) -/

/-- Activities that pause in DEEP. -/
def bgPauses : List Nat := [0, 1, 3, 4, 5, 7]

/-- BG_STARVED. -/
def Dev.bgStarve (d : Dev) (a : Nat) : Dev :=
  if a < 8 ∧ d.pwr.phase = .running ∧ (d.bg.getD a none).isNone ∧ !(d.pw == 0 && bgPauses.contains a) then
    let d := { d with bg := modAt d.bg a (fun _ => some d.now) }
    let d := d.w P.bgStarvedMask (putBit (d.a P.bgStarvedMask) a true)
    (d.inc (P.bgStarvedCount + a)).raise 127 a
  else d

def execBgStarved (dt activity : Nat) (s : State) : Host.Outcome State Fault Refusal := onDev dt (·.bgStarve activity) s

/-- BG_RECOVERED. -/
def Dev.bgRecover (d : Dev) (a : Nat) : Dev :=
  match d.bg.getD a none with
  | none => d
  | some t =>
    let d := { d with bg := modAt d.bg a (fun _ => none) }
    (d.w P.bgStarvedMask (putBit (d.a P.bgStarvedMask) a false)).raise 127 (a + 16 + 32 * sat 4095 ((d.now - t) / 10 ^ 12))

def execBgRecovered (dt activity : Nat) (s : State) : Host.Outcome State Fault Refusal := onDev dt (·.bgRecover activity) s

end Sys2Proof.Machine
end

