-- ==== Sys2Proof/Machine/Supplies.lean ====
section
/-!
DEFINITION. Supplies, clocks and power states (02_supplies_clocks_sleep.md R25 to R67): rails, REFCLK and the LPO, the PLLs, SYNC,
idle time, wake causes, the completion of transitions.
-/

namespace Sys2Proof.Machine

/-! ### Entering a base state (R52, R63 to R67) -/

/-- EV6 with what runs now (R67). -/
def Dev.entered (d : Dev) : Dev := d.raise 6 (d.pw + 4 * d.a P.pwrActiveMask)

/-- Everything WATCH or READY runs beside DEEP is available (R52). [Log: 70 DEDUCED] -/
def Dev.enterBase (d : Dev) (base : Nat) : Dev :=
  let d := (({ d with pwr := { d.pwr with base := base } }).showPw).hkStart
  (d.lanesFollow 3).sentinelFollow

/-- EV7 for the WAKE entries and windows whose state is reached now (R65): those begun late, and those reached late.
[Log: 84 DEDUCED] -/
def Dev.wakesDone (d : Dev) : Dev :=
  let mine := d.pwr.wakes.filter (fun (w : Nat × Nat × Bool) => w.1 ≤ d.pwr.base)
  let d := { d with pwr := { d.pwr with wakes := d.pwr.wakes.filter (fun (w : Nat × Nat × Bool) => d.pwr.base < w.1) } }
  d.each mine (fun (w : Nat × Nat × Bool) d => d.iff (w.2.2 || decide (w.2.1 < d.merNs)) (·.raise 7 (d.lateUs w.2.1)))

/-- What waited for a transition up follows it: a higher goal (R61), in READY the units (R55). -/
def Dev.upFollow (d : Dev) : Dev :=
  let goal := d.pwr.goal
  let d := ({ d with pwr := { d.pwr with goal := 0 } }).iff (decide (d.pwr.base < goal)) (·.beginUp goal)
  d.iff (d.pwr.base == 2) (fun d =>
    ({ d with pwr := { d.pwr with after := 0 } }).each (bitList 6 d.pwr.after) (fun u d =>
      d.iff (!(2 ≤ u && d.txHeld (u - 2))) (·.startUnit u)))

/-- Package memory leaves self-refresh, the records held in DEEP are passed on (R140, R642), the MRAM writes held in DEEP are done (R66);
the chains that start after DEEP find the stored trims in their cores (R90). -/
def Dev.leaveDeep (d : Dev) : Dev :=
  let d := d.holdDone.trimLoad
  { d.iff (d.a P.memState == 1) (fun d => d.w P.memState 0) with flush := 2 }

/-- A transition up is complete; on the exit from DEEP the Collimation record is loaded (R353) and what was put off in DEEP acts
(R436). -/
def Dev.upDone (d : Dev) (target : Nat) : Dev :=
  let up (d : Dev) : Dev := (d.synthsLock (d.baseSynths target)).enterBase target
  if d.pwr.base = 0 then ((((up d.leaveDeep).chartNext).colLoad.ephExit).entered.wakesDone).upFollow
  else ((up d).entered.wakesDone).upFollow

/-- Whether the chains of group A that run as sentinel chains run with the settings a start of the group takes now: wide mode, the rates
and the FIR bank (R93, R104, R117). -/
def Dev.sentinelSame (d : Dev) : Bool :=
  d.rx.wide == (d.a P.rxWideMode == 1) && d.rx.latch == some (latchKeys.map d.a) && d.a P.firBankShadowA == d.a P.firBankActiveA

/-- The RX B synthesisers go off as wide mode begins, and calibrate as it ends (R92). [Log: 89 DEDUCED] -/
def Dev.wideSynths (d : Dev) (was : Bool) : Dev :=
  if !was && d.wide then d.synthsOff bSynths
  else if was && !d.wide then d.synthsCal (maskOf 12 (fun k => bit bSynths k && d.a (P.synthState + k) == 0))
  else d

/-- A carrier group starts. Group A beside running sentinel chains keeps their grid, its other chains having zero history from here
(R235); where a setting written meanwhile takes effect every chain starts anew (R93, R104). [Log: 70 DEDUCED] -/
def Dev.groupUp (d : Dev) (g : Nat) (sentinel : Bool) : Dev :=
  if g = 0 ∧ sentinel ∧ d.sentinelSame then
    let d := { d with rx := { d.rx with
      zero := modAt d.rx.zero 0 (fun _ => some (d.now, 0)), upAt := modAt d.rx.upAt 0 (fun _ => d.now) } }
    (d.each (List.range 64) (fun p d => d.iff (!bit (d.a P.sentinelPathMask) p) (·.settleRun 0 p 0 d.now))).updateQuads
  else
    let was := d.wide
    let d := (d.startGroup g).wideSynths was
    d.iff (g == 0 && sentinel) (fun d => { d with sen := { d.sen with startAt := some d.now } })

/-- A unit is ACTIVE (R54, R55, R234, R294). -/
def Dev.unitDone (d : Dev) (u : Nat) : Dev :=
  let sentinel := d.sen.startAt.isSome
  let d := d.w P.pwrActiveMask (putBit (d.a P.pwrActiveMask) u true)
  let d := d.iff (u < 2) (·.groupUp u sentinel)
  let d := if d.pwr.base < 2 then d.enterBase 2 else d.showPw.sentinelFollow
  let d := d.iff (2 ≤ u) (fun d => let d := d.refreshTx (u - 2); d.iff (d.txReady (u - 2)) (·.issueHeld (u - 2)))
  (d.iff (u == 0) (·.wakeDone)).entered

/-- The causes latched during a transition down are served: the highest target counts (R61). [Log: 29 DEDUCED] -/
def Dev.serveLatched (d : Dev) : Dev :=
  let all := d.pwr.latched
  let d := { d with pwr := { d.pwr with latched := [] } }
  let best := all.foldl (fun (acc : Option (Nat × Nat)) x => match acc with
    | none => some x
    | some y => if y.2 < x.2 then some x else acc) none
  match best with
  | none => d
  | some (cause, target) => if d.mayWake then d.serveWake cause target else d

/-- DEEP is reached: sessions close, SRAM outside the retention bank is lost, the PLLs are off (R47, R53, R598).
[Log: 70 DEDUCED] -/
def Dev.deepDone (d : Dev) : Dev × List MemOp :=
  let held := d.pwr.convBad || d.pwr.coreBad
  let d := ({ d with pwr := { d.pwr with base := 0, convBad := false, coreBad := false, pllFails := 0 } }).showPw
  let d := d.iff (d.a P.memState == 0) (·.w P.memState 1)
  let d := d.sesCloseAll.entered
  let d := { d with flush := 1 }
  let d := d.sentinelFollow.updateQuads
  let d := d.iff (held && !d.ephHeld) (·.ephPassed)
  (d.serveLatched, [.wipe sramGenLo sramEnd])

/-- WATCH is reached from above. -/
def Dev.watchDone (d : Dev) : Dev :=
  let d := ({ d with pwr := { d.pwr with base := 1 } }).showPw
  ((d.lanesFollow 3).sentinelFollow.entered).serveLatched

/-- STATE_ENTERED: the oldest transition in progress completes (R63, R67). [Log: 29 DEDUCED] -/
def Dev.stateEntered (d : Dev) : Dev × List MemOp :=
  match d.pwr.jobs with
  | [] => (d, [])
  | j :: rest =>
    let d := { d with pwr := { d.pwr with jobs := rest } }
    let (d, ops) := match j.kind with
      | 0 => (d.upDone j.arg, [])
      | 1 => (d.unitDone j.arg, [])
      | 2 => (d.entered, [])
      | _ => if j.arg = 0 then d.deepDone else (d.watchDone, [])
    (d.noteIdle, ops)

def execStateEntered (dt : Nat) (s : State) : Host.Outcome State Fault Refusal := onMem dt (fun d _ => d.stateEntered) s

/-! ### Units (R55, R56) -/

/-- A plan needs a unit, and the instant has come to bring it up: for a group a slot with output, for a quadrant the request
instant of its next burst, for both an open Collimation window (R340). -/
def Dev.unitDue (d : Dev) (u : Nat) : Bool :=
  let lead : Int := (1000 * d.unitMax u : Nat)
  let window := match d.col.win with | some (a, b) => a ≤ d.merNs && d.merNs < b | none => false
  if u < 2 then
    (window && bit d.colGroups u) ||
      (d.ul.plans ++ d.ul.cur).any (fun (p : Plan) => p.group == u && d.groupExists u && p.modes != 0 && decide (d.slotStart p.slot - lead ≤ (d.now : Int)))
  else
    (window && bit d.freeQuads (u - 2)) ||
      (match d.nextBurst (u - 2) with
       | some s => decide (d.slotStart s - (d.burstLead (u - 2) : Nat) - lead ≤ (d.now : Int))
       | none => d.txPlanned d.slotNow (u - 2))

/-- UNIT_ACTIVATION_START. -/
def Dev.unitStart (d : Dev) (u : Nat) : Dev := d.iff (u < 6 && d.up && d.unitDue u) (fun d => d.bringUnits (2 ^ u))

def execUnitActivationStart (dt unit : Nat) (s : State) : Host.Outcome State Fault Refusal := onDev dt (·.unitStart unit) s

/-! ### Idle time and wake causes (R58 to R62) -/

/-- PWR_IDLE_TIMEOUT. -/
def Dev.idleTimeout (d : Dev) (m : Memory) (p : Places) : Dev × List MemOp :=
  let t := d.a P.pwrIdleTimeout * 10 ^ 6
  let expired := match d.pwr.idleSince with | some x => decide (x + t ≤ d.now) | none => false
  if d.pwr.phase == .running && t != 0 && expired && d.idleNow && !d.goingUp && d.a P.pwrIdleState < d.stands then
    let (d, ops) := d.goDown m p (d.a P.pwrIdleState)
    (d.noteIdle, ops)
  else (d, [])

def execPwrIdleTimeout (dt : Nat) (s : State) : Host.Outcome State Fault Refusal :=
  onAll dt (fun d m p => d.idleTimeout m p) s

/-- WAKE_ML0_SIGNAL (R59): cause 3. -/
def execWakeMl0Signal (dt : Nat) (s : State) : Host.Outcome State Fault Refusal := onDev dt (fun d => (d.wake 3 2).noteIdle) s

/-- WAKE_FIELD_FRAME (R59, R60): cause 2; the frame is discarded. -/
def execWakeFieldFrame (dt island : Nat) (s : State) : Host.Outcome State Fault Refusal :=
  onDev dt (fun d => d.iff (d.numbered && d.a P.fieldEnable == 1 && island == d.island) (fun d => (d.wake 2 2).noteIdle)) s

/-- TRIG_IN_EDGE (R59, R379, R556): `finePs` is how long before the present REFCLK edge it came. How many instants a Transit
capture has by then is a free value. -/
def Dev.trigIn (d : Dev) (rising : Bool) (finePs : Nat) : Dev :=
  if d.pwr.phase != .running then d
  else
    let d := d.iff rising (·.wake 4 2)
    let m := maskOf 4 (fun i => bits (d.a (P.hkInjectConfig + i)) 15 14 == 2)
    let d := d.iff (rising && m != 0) (·.injectTrigger m)
    let (j, d) := d.free 641 40
    (d.traOccur 4 (b2n (!rising)) j finePs).noteIdle

def execTrigInEdge (dt : Nat) (rising : Bool) (finePs : Nat) (s : State) : Host.Outcome State Fault Refusal :=
  onDev dt (·.trigIn rising finePs) s

/-! ### REFCLK and the LPO (R41, R44 to R46) -/

/-- REFCLK_LOST: the LPO runs the always-on domain, Collimation becomes due (R335), the device goes to DEEP. A loss during a boot
holds the boot (R35). [Log: 66 DEDUCED] -/
def Dev.refclkLost (d : Dev) (m : Memory) (p : Places) : Dev × List MemOp :=
  if d.clk.onLpo then (d, [])
  else
    let d := { d with clk := { d.clk with onLpo := true }, pwr := { d.pwr with lpoSince := d.now } }
    let d := ((d.w P.refclkState 1).incN P.refclkLossCount).refoFollow.qualCheck
    match d.pwr.phase with
    | .running =>
      let (d, ops) := ((d.raise 3 0).colSet 4).forceDeep m p
      (d.noteIdle, ops)
    | .shutdown => ((d.raise 3 0).colSet 4, [])
    | .restricted => ((d.raise 3 0).colSet 4, [])
    | .booting => ({ d with pwr := { d.pwr with phase := .waitRefclk } }, [])
    | _ => (d, [])

def execRefclkLost (dt : Nat) (s : State) : Host.Outcome State Fault Refusal := onAll dt (fun d m p => d.refclkLost m p) s

/-- REFCLK_RESTORED: HOLDOVER, EV4, passed entries; a boot that waited begins, its EV3 and EV4 due at its completion (R35).
[Log: 66 DEDUCED; 81 DESIGN CHOICE] -/
def Dev.refclkRestored (d : Dev) : Dev :=
  if !d.clk.onLpo then d
  else
    let secs := sat 131071 ((d.now - d.pwr.lpoSince) / 10 ^ 12)
    let d := { d with clk := { d.clk with onLpo := false } }
    let d := (d.w P.refclkState 0).refoFollow
    let d := d.enterHoldover 4
    let d := ({ d with tim := { d.tim with holdover := true } }).qualCheck
    match d.pwr.phase with
    | .running => ((d.raise 4 secs).iff (!d.ephHeld) (·.ephPassed)).noteIdle
    | .shutdown => d.raise 4 secs
    | .restricted => d.raise 4 secs
    | .waitRefclk =>
      { d with pwr := { d.pwr with phase := .booting, releasedAt := d.now, bootEvs := d.pwr.bootEvs ++ [(3, 0), (4, secs)] } }
    | _ => d

def execRefclkRestored (dt : Nat) (s : State) : Host.Outcome State Fault Refusal := onDev dt (·.refclkRestored) s

/-! ### The PLLs (R47) -/

/-- A PLL is unlocked. -/
def Dev.pllBad (d : Dev) (conv : Bool) : Bool := if conv then d.pwr.convBad else d.pwr.coreBad

/-- Note a PLL unlocked or locked; its failed attempts begin anew. -/
def Dev.setPll (d : Dev) (conv bad : Bool) : Dev :=
  let n := d.pwr.pllFails
  if conv then { d with pwr := { d.pwr with convBad := bad, pllFails := n % 4 } }
  else { d with pwr := { d.pwr with coreBad := bad, pllFails := n / 4 * 4 } }

/-- Failed attempts of a PLL. -/
def Dev.pllTries (d : Dev) (conv : Bool) : Nat := if conv then d.pwr.pllFails / 4 else d.pwr.pllFails % 4

/-- EV5: 0 unlock declared, 1 relocked, 2 relock failed. -/
def Dev.pllEvent (d : Dev) (conv : Bool) (outcome : Nat) : Dev := d.raise 5 (b2n conv + 2 * outcome)

/-- Bursts stop, quadrants are held out of ACTIVE. -/
def Dev.pllTx (d : Dev) : Dev := (d.each [0, 1, 2, 3] (fun q d => d.killBurst q 6)).dropUnits 60

/-- Every pre-alignment in progress is abandoned (R85). -/
def Dev.prealignsOff (d : Dev) : Dev :=
  d.each (List.range 16) (fun u d => d.prealignOff u (List.range 8))

/-- The core PLL unlocks: slots, plans, Transit, DMA and every unit end. [Log: 75 DEDUCED] -/
def Dev.coreUnlock (d : Dev) (m : Memory) (p : Places) : Dev × List MemOp :=
  let d := (d.cutSlot.discardAllPlans.pllTx).traDeep
  let (v, d) := d.free 642 432
  let beats := (List.range 16).map (fun c => v / 2 ^ (27 * c) % 2 ^ 27)
  let (d, ops) := d.dmaDisableMask m p (d.a P.dmaEnable) beats
  (d.dropUnits 63, ops)

/-- PLL_UNLOCK, in a state in which the PLL runs. -/
def Dev.pllUnlock (d : Dev) (m : Memory) (p : Places) (conv : Bool) : Dev × List MemOp :=
  if !d.up || d.pllBad conv then (d, [])
  else
    let d := ((d.setPll conv true).pllEvent conv 0).colAbandon 3
    let d := d.iff conv (fun d => { d with pwr := { d.pwr with convSince := d.now } })
    let (d, ops) := if conv then (d.pllTx.prealignsOff, []) else d.coreUnlock m p
    (d.noteIdle, ops)

def execPllUnlock (dt : Nat) (conv : Bool) (s : State) : Host.Outcome State Fault Refusal :=
  onAll dt (fun d m p => d.pllUnlock m p conv) s

/-- Sentinel chains that run restart from zero history after the core PLL's relock. -/
def Dev.sentinelRestart (d : Dev) : Dev :=
  d.iff d.sen.startAt.isSome (fun d =>
    { d with sen := { d.sen with startAt := some d.now }, rx := { d.rx with zeroAt := modAt d.rx.zeroAt 0 (fun _ => d.now) } })

/-- The converter samples of every running chain carried SETTLE from the declaration to the relock (R47). -/
def Dev.convRuns (d : Dev) : Dev :=
  d.each [0, 1] (fun g d => d.each (List.range 64) (fun p d => d.iff (d.chainRuns g p) (·.settleRun g p d.pwr.convSince d.now)))

/-- PLL_RELOCK. -/
def Dev.pllRelock (d : Dev) (conv : Bool) : Dev :=
  if !d.pllBad conv then d
  else
    let d := (d.setPll conv false).pllEvent conv 1
    let d := if conv then d.convRuns else d.sentinelRestart
    (d.iff (!d.ephHeld) (·.ephPassed)).noteIdle

def execPllRelock (dt : Nat) (conv : Bool) (s : State) : Host.Outcome State Fault Refusal := onDev dt (·.pllRelock conv) s

/-- PLL_RELOCK_FAIL: repeated at most twice; the third failure ends in a command reset that EV0 marks (R40). -/
def Dev.pllRelockFail (d : Dev) (conv : Bool) : Dev × List MemOp :=
  if !d.pllBad conv then (d, [])
  else if d.pllTries conv < 2 then
    ({ d with pwr := { d.pwr with pllFails := d.pwr.pllFails + (if conv then 4 else 1) } }, [])
  else
    let (d, ops) := (d.pllEvent conv 2).reset 3
    ({ d with pwr := { d.pwr with relockFail := true } }, ops)

def execPllRelockFail (dt : Nat) (conv : Bool) (s : State) : Host.Outcome State Fault Refusal :=
  onMem dt (fun d _ => d.pllRelockFail conv) s

/-! ### SYNC (R48 to R51) -/

/-- SYNC_EDGE: an accepted edge is stamped, forwarded and acted on; in DEEP, a thermal shutdown's included, it is only forwarded and
stamped (R37, R48, R52). One in the REFCLK period of an Ephemeris SYNC_RESET asks for no second reset (R50).
[Log: 74 DEDUCED; 88 DEDUCED] -/
def Dev.syncEdge (d : Dev) : Dev :=
  if d.clk.onLpo || !(d.pwr.phase == .running || d.pwr.phase == .shutdown || d.pwr.phase == .restricted) then d
  else
    let d := { d with pwr := { d.pwr with
      syncLast := some d.now, syncMissed := 0,
      syncoPend := if d.a P.syncoEnable = 1 then d.pwr.syncoPend ++ [d.now + 30000] else d.pwr.syncoPend,
      syncPend := if d.a P.syncAction = 1 ∧ d.pw ≠ 0 ∧ d.pwr.ephSync ≠ some d.now then some (d.now + 100000)
                  else d.pwr.syncPend } }
    d.syncAlign.iff d.up (fun d => d.syncStampOut d.merPs)

def execSyncEdge (dt : Nat) (s : State) : Host.Outcome State Fault Refusal := onDev dt (·.syncEdge) s

/-- SYNCO_FORWARD: 30 ns after the sampling edge. [Log: 74 DEDUCED] -/
def execSyncoForward (dt : Nat) (s : State) : Host.Outcome State Fault Refusal :=
  onDev dt (fun d =>
    match d.pwr.syncoPend with
    | [] => d
    | t :: rest => d.iff (t ≤ d.now) (fun d =>
        ({ d with pwr := { d.pwr with syncoPend := rest } }).iff (d.a P.syncoEnable == 1) (·.pin .synco true))) s

/-- SYNC_MISSING: a further period and 1 us have passed since the last accepted edge. -/
def execSyncMissing (dt : Nat) (s : State) : Host.Outcome State Fault Refusal :=
  onDev dt (fun d =>
    match d.pwr.syncLast with
    | none => d
    | some t =>
      let n := d.pwr.syncMissed + 1
      d.iff (d.a P.syncExpectPeriod != 0 && decide (t + n * d.a P.syncExpectPeriod * 10 ^ 6 + 10 ^ 6 ≤ d.now)) (fun d =>
        ({ d with pwr := { d.pwr with syncMissed := n } }).raise 8 (sat 131071 n))) s

/-! ### Rails (R30) -/

/-- The parking and the way to DEEP that a rail fault brings, with EV9. -/
def Dev.railActs (d : Dev) (m : Memory) (p : Places) (rail : Nat) : Dev × List MemOp :=
  let d := ((d.haltUnits.rfStop.park 31 2).raise 9 rail)
  if d.pwr.phase == .running then d.forceDeep m p else (d, [])

/-- RAIL_FAULT: a rail other than VDD_AON and VDD_CORE leaves its limits while PWR_OK is high. One that stays out is declared at
boot completion where the device was in reset or booting. -/
def Dev.railFault (d : Dev) (m : Memory) (p : Places) (rail : Nat) : Dev × List MemOp :=
  if rail < 2 || 24 < rail || !d.pwr.pwrOk || bit d.pwr.railBad rail then (d, [])
  else
    let d := { d with pwr := { d.pwr with railBad := putBit d.pwr.railBad rail true } }
    let d := (d.w P.railStatus (putBit (d.a P.railStatus) rail false)).refoFollow
    match d.pwr.phase with
    | .inReset => (d, [])
    | .waitRefclk => (d, [])
    | .booting => (d, [])
    | _ => let (d, ops) := d.railActs m p rail; (d.noteIdle, ops)

def execRailFault (dt rail : Nat) (s : State) : Host.Outcome State Fault Refusal := onAll dt (fun d m p => d.railFault m p rail) s

/-- RAIL_RECOVERED: within limits for 10 ms; cause 2 ends with the last of them (R363). -/
def execRailRecovered (dt rail : Nat) (s : State) : Host.Outcome State Fault Refusal :=
  onDev dt (fun d =>
    d.iff (rail < 25) (fun d =>
      let was := d.pwr.railBad
      let d := { d with pwr := { d.pwr with railBad := putBit was rail false } }
      let d := (d.w P.railStatus (putBit (d.a P.railStatus) rail true)).refoFollow
      d.iff (was != 0 && d.pwr.railBad == 0) (fun d => d.each [0, 1, 2, 3, 4] (fun g d => d.endCause g 2)))) s

/-! ### Thermal readings (R387, R388, R399) -/

/-- A reading that may declare shutdown. -/
def Dev.afterReading (x : Dev × Option Shut) (m : Memory) (p : Places) : Dev × List MemOp :=
  match x.2 with
  | none => (x.1.noteIdle, [])
  | some s => let (d, ops) := x.1.shutdown m p s; (d.noteIdle, ops)

/-- HK_FRAME. -/
def execHkFrame (dt : Nat) (temps : List Int) (supplies : List Nat) (s : State) : Host.Outcome State Fault Refusal :=
  onAll dt (fun d m p => Dev.afterReading (d.hkFrame temps supplies) m p) s

/-- TSA_READING. -/
def execTsaReading (dt : Nat) (temp : Int) (s : State) : Host.Outcome State Fault Refusal :=
  onAll dt (fun d m p => Dev.afterReading (d.tsaReading temp) m p) s

end Sys2Proof.Machine
end

