-- ==== Sys2Proof/Machine/Boot.lean ====
section
/-!
DEFINITION. Resets from outside, reset release and the boot (02_supplies_clocks_sleep.md R29 to R40; 05_package_memory_catalogue.md
R141, R165, R166; 15_ephemeris.md R692; 23_firmware_update.md R628 to R637), and the steps of an activation.
-/

namespace Sys2Proof.Machine

/-! ### Resets and their release (R29 to R36) -/

/-- Reset is released where PWR_OK and RESET_N are high; without REFCLK the boot ROM waits for it (R31, R35). -/
def Dev.release (d : Dev) : Dev :=
  if d.pwr.pwrOk && d.pwr.resetN && d.pwr.phase == .inReset then
    { d with pwr := { d.pwr with phase := if d.clk.onLpo then .waitRefclk else .booting, releasedAt := d.now } }
  else d

/-- Hold the device in reset; a reset that already holds it keeps its kind. [Log: 67 DEDUCED] -/
def Dev.hold (d : Dev) (kind : Nat) : Dev × List MemOp := if d.pwr.phase = .inReset then (d, []) else d.reset kind

/-- POWER_ON_RESET. A brownout leaves the levels of PWR_OK and RESET_N as they are; a rise of VDD_AON finds PWR_OK low and only
that rail within limits (R26, R27). [Log: 6 DESIGN CHOICE] -/
def Dev.powerOn (d : Dev) (brownout retained : Bool) : Dev × List MemOp :=
  let (d, ops) := d.reset 0
  if brownout then (({ d with pwr := { d.pwr with brownout := retained } }).release, ops)
  else ((({ d with pwr := { d.pwr with pwrOk := false } }).w P.railStatus 1).refoFollow, ops)

def execPowerOnReset (dt : Nat) (brownout retained : Bool) (s : State) : Host.Outcome State Fault Refusal :=
  onMem dt (fun d _ => d.powerOn brownout retained) s

/-- PWR_OK_RISE: every rail is within limits (R27). [Log: 6 DESIGN CHOICE] -/
def execPwrOkRise (dt : Nat) (s : State) : Host.Outcome State Fault Refusal :=
  onDev dt (fun d =>
    ((({ d with pwr := { d.pwr with pwrOk := true, railBad := 0 } }).w P.railStatus (2 ^ 25 - 1)).refoFollow).release) s

/-- PWR_OK_FALL (R29): outputs park, TX stops, and the device holds itself in reset, of the RESET_N kind while VDD_AON stays. The
park values are loaded again after the next rise (R33). [Log: 67 DEDUCED] -/
def Dev.pwrOkFall (d : Dev) : Dev × List MemOp :=
  if !d.pwr.pwrOk then (d, [])
  else
    let (d, ops) := d.hold 1
    ({ d with pwr := { d.pwr with pwrOk := false, biasDone := false } }, ops)

def execPwrOkFall (dt : Nat) (s : State) : Host.Outcome State Fault Refusal := onMem dt (fun d _ => d.pwrOkFall) s

/-- RESET_N_ASSERT (R32): low for 2 us. -/
def Dev.resetNLow (d : Dev) : Dev × List MemOp :=
  let (d, ops) := d.hold 1
  ({ d with pwr := { d.pwr with resetN := false } }, ops)

def execResetNAssert (dt : Nat) (s : State) : Host.Outcome State Fault Refusal := onMem dt (fun d _ => d.resetNLow) s

/-- RESET_N_RELEASE (R31). -/
def execResetNRelease (dt : Nat) (s : State) : Host.Outcome State Fault Refusal :=
  onDev dt (fun d => ({ d with pwr := { d.pwr with resetN := true } }).release) s

/-- CORE_BROWNOUT (R30): a RESET_N-class reset that EV1 and EV0 report. [Log: 67 DEDUCED] -/
def Dev.coreBrownout (d : Dev) : Dev × List MemOp :=
  if !d.pwr.pwrOk || d.pwr.phase == .inReset then (d, [])
  else
    let (d, ops) := d.reset 1
    (({ d with pwr := { d.pwr with brownout := true } }).release, ops)

def execCoreBrownout (dt : Nat) (s : State) : Host.Outcome State Fault Refusal := onMem dt (fun d _ => d.coreBrownout) s

/-- WATCHDOG_EXPIRY (R36, R362): cause 4 parks every output before the reset begins. [Log: 67 DEDUCED] -/
def Dev.watchdog (d : Dev) : Dev × List MemOp :=
  if d.up || d.pwr.phase == .restricted then (d.park 31 4).reset 2 else (d, [])

def execWatchdogExpiry (dt : Nat) (s : State) : Host.Outcome State Fault Refusal := onMem dt (fun d _ => d.watchdog) s

/-! ### Between release and completion -/

/-- The kinds of reset that sample the pins (R36). -/
def Dev.samplesPins (d : Dev) : Bool := d.pwr.kind == 0 || d.pwr.kind == 1

/-- The kinds of reset that lose package memory (R36). -/
def Dev.losesMem (d : Dev) : Bool := d.pwr.kind == 0 || d.pwr.kind == 1 || d.pwr.kind == 4

/-- CHART_PINS_SAMPLE (R33, R34, R505): ROOT_N low makes the device the root, island 0. A device that was root and is no longer has
no number. [Log: 68 DEDUCED] -/
def Dev.samplePins (d : Dev) (chart : Nat) (rootLow : Bool) : Dev :=
  let ready := d.pwr.phase == .booting || d.pwr.phase == .waitRefclk
  if !ready || !d.samplesPins || d.pwr.sampled then d
  else
    let d := ({ d with pwr := { d.pwr with sampled := true } }).w P.chartPinsSampled (chart % 4)
    let d := d.w P.archRoot (b2n rootLow)
    if rootLow then d.w P.archIslandNumber 0
    else d.iff (d.a P.archIslandNumber == 0) (·.w P.archIslandNumber 0xFF)

def execChartPinsSample (dt chart : Nat) (rootLow : Bool) (s : State) : Host.Outcome State Fault Refusal :=
  onDev dt (·.samplePins chart rootLow) s

/-- PACKAGE_MEMORY_INIT_DONE (R141). -/
def Dev.memInit (d : Dev) (ok : Bool) : Dev :=
  if d.pwr.phase != .booting || !d.losesMem || d.pwr.memDone then d
  else
    let d := { d with pwr := { d.pwr with memDone := true } }
    let d := { d with sen := { d.sen with runs := 0, zeroed := [] } }
    if ok then d.w P.memState 0 else (d.w P.memState 2).raise 10 0

def execPackageMemoryInitDone (dt : Nat) (ok : Bool) (s : State) : Host.Outcome State Fault Refusal := onDev dt (·.memInit ok) s

/-! ### The images (R630, R631, R636, R637) -/

/-- What the boot ROM does to the update record before it loads an image: verification interrupted returns to DOWNLOAD (R624), a
reset in ACTIVATING is a trial boot (R630), each boot in TRIAL counts or reverts (R631). [Log: 69 DEDUCED] -/
def Dev.bootStage (d : Dev) (m : Memory) : Dev :=
  let d := { d with upd := { d.upd with fell := [] } }
  match d.a P.updStage with
  | 2 => d.updTo whoDevice 1
  | 4 =>
    let d := { d with upd := { d.upd with trialAt := d.merNs } }
    (d.updTo whoDevice 5).updEvent 7 0 (d.a P.updTrialBoots)
  | 5 =>
    let n := d.a P.updTrialBoots
    if 3 ≤ n then d.updRevert m whoDevice 1
    else if d.nvm.deferring then { d with upd := { d.upd with fell := d.orderSteps } }
    else
      let d := { d with upd := { d.upd with trialAt := d.merNs } }
      (d.wN P.updTrialBoots (n + 1)).updEvent 7 0 (n + 1)
  | _ => d

/-- Whether the boot ROM's check passes an image; one it was not told of passes. [Log: 69 DEDUCED] -/
def imagePasses (cs : List ImageCheck) (c s : Nat) : Bool :=
  ((cs.find? (fun x => x.comp == c && x.slot == s)).map (·.ok)).getD true

/-- The slot each component boots from, 2 where neither passes. [Log: 69 DEDUCED] -/
def Dev.bootSlots (d : Dev) (cs : List ImageCheck) : List Nat :=
  [0, 1, 2, 3].map (fun c =>
    let s := d.runSlot c
    if imagePasses cs c s then s else if imagePasses cs c (1 - s) then 1 - s else 2)

/-- Load the images, falling back where one fails (R637); false where none is loaded. -/
def Dev.bootImages (d : Dev) (m : Memory) (cs : List ImageCheck) : Dev × Bool :=
  let slots := d.bootSlots cs
  let named := [0, 1, 2, 3].map d.runSlot
  let moved := [0, 1, 2, 3].filter (fun c => slots.getD c 0 != named.getD c 0)
  let imgs := [0, 1, 2, 3].map (fun c => imageOf (m.imageHeader c (slots.getD c 0)))
  let ok := slots.all (· != 2) && (moved.isEmpty || comboOk imgs d.upd.schema)
  if ok then
    let late := d.upd.failedBoot
    let trial := d.orderSteps
    let onTrial := d.a P.updStage == 5 || d.a P.updStage == 6
    let d := { d with upd := { d.upd with
      run := imgs, failedBoot := 0,
      fell := d.upd.fell ++ (if onTrial then moved.filter trial.contains else []),
      slots := [0, 1, 2, 3].map (fun c =>
        if moved.contains c && !(onTrial && trial.contains c) then slots.getD c 0 else d.confirmed c) } }
    let d := d.each (moved.filter (fun c => !bit late c)) (fun c d => d.updEvent 12 c 1)
    (d.each (bitList 4 late) (fun c d => d.updEvent 12 c 2), true)
  else
    let bad := maskOf 4 (fun c => slots.getD c 0 == 2 || (slots.all (· != 2) && moved.contains c))
    ({ d with upd := { d.upd with failedBoot := maskOr 4 d.upd.failedBoot bad } }, false)

/-- No image runs: the outputs stay at their park values, TX off (R603, R637). A RETIRED device keeps its FIELD heartbeats. -/
def Dev.noImage (d : Dev) : Dev :=
  let d := { d with pwr := { d.pwr with phase := .noImage, releasedAt := d.now } }
  d.iff (d.fus.lifecycle == 3 && d.a P.fieldEnable == 1) (·.w P.fieldState 1)

/-- The first trial boot reads the schema of the stored settings (R632): outside the new CURATOR's range the update reverts and a
command reset follows, true. -/
def Dev.schemaFails (d : Dev) : Bool :=
  let c := d.upd.run.getD 0 {}
  d.a P.updStage == 5 && d.upd.old.isNone && !(c.schemaMin ≤ d.upd.schema && d.upd.schema ≤ c.schemaMax) &&
    d.orderSteps.any (fun c => !d.upd.fell.contains c)

/-- Migration fails (R632, R634). -/
def Dev.migrationFails (d : Dev) (m : Memory) : Dev × List MemOp :=
  (((d.updEvent 11 0 0).updRevert m whoDevice 3)).reset 3

/-! ### Completion (R33, R39, R40) -/

/-- CatGeneration after a boot (R165, R166): a loss of package memory reseeds it above every earlier value, as does a control block
that a warm reset finds spoilt; the Catalogue is then empty. -/
def Dev.bootCatalogue (d : Dev) : Dev × List MemOp :=
  if d.losesMem then ((d.setGeneration (reseed d.cat.genMram)).copyGeneration, [])
  else if d.cat.ctlOk && d.cat.ctlGen == d.a P.catGeneration then (d, [])
  else
    let d := d.wList P.catStateCounts [8388608, 0, 0, 0]
    ((d.setGeneration (reseed d.cat.genMram)).copyGeneration, [.wipe 0 catBytes])

/-- EV0, what led to the reset, and what was due at boot completion (R30, R40, R604, R645). [Log: 66 DEDUCED] -/
def Dev.bootReport (d : Dev) (fuseBad : List Nat) : Dev :=
  let k := d.pwr.kind
  let cause := k % 8 + 8 * b2n d.pwr.brownout + 16 * b2n d.pwr.relockFail
  let evs := d.pwr.bootEvs
  let d := ((d.w P.resetCause cause).raise 0 cause).iff (k == 2) (·.raise 11 0)
  let d := (d.iff (k == 1 && d.pwr.brownout) (·.raise 1 0)).iff (k == 0 && d.pwr.brownout) (·.raise 2 0)
  let d := { d with pwr := { d.pwr with bootEvs := [] } }
  let d := d.each evs (fun (e : Nat × Nat) d => d.raise e.1 e.2)
  d.each fuseBad (fun r d => d.fuseAnomaly r)

/-- Role key slots whose hash fails its check at this boot are treated as revoked; their row of R601 is reported (R604). -/
def Dev.bootKeys (d : Dev) (b : BootIn) : Dev :=
  if b.keyBad % 4096 = 0 then d
  else
    let d := { d with fus := { d.fus with bad := maskOr 12 d.fus.bad b.keyBad } }
    d.iff (!b.fuseBad.contains 4) (·.fuseAnomaly 4)

/-- The Chart a boot selects and the way of R586 (R582). -/
def Dev.bootChart (d : Dev) : ChartLoad :=
  if d.samplesPins then
    if d.a P.chartPinOverride = 1 then ⟨d.a P.chartLastCommanded % 4, 1, whoDevice⟩ else ⟨d.a P.chartPinsSampled % 4, 0, whoDevice⟩
  else ⟨d.cha.last.getD 0, 2, whoDevice⟩

/-- Every shadow value becomes active, silently (R692). -/
def Dev.bootCommit (d : Dev) : Dev := (d.each [0, 1, 2, 3, 4, 5] (fun u d => d.commitUnit u false)).biasBoot

/-- Enter the state named by PwrBootState (R33); a rail out of limits or the shutdown condition keeps DEEP. [Log: 67 DEDUCED] -/
def Dev.bootEnter (d : Dev) : Dev :=
  let d := { d with pwr := { d.pwr with phase := .running, base := 0 } }
  let t := if d.pwr.railBad != 0 || d.thm.shut then 0 else d.a P.pwrBootState
  let d := if t = 0 then d.iff (d.a P.memState == 0) (·.w P.memState 1)
    else ((d.synthsCal (d.synthsDue t)).synthsLock (d.baseSynths t)).enterBase t
  d.entered

/-- The rails still out of limits are faults declared now (R30). [Log: 67 DEDUCED] -/
def Dev.bootRails (d : Dev) (m : Memory) (p : Places) : Dev × List MemOp :=
  (bitList 25 d.pwr.railBad).foldl (fun (a : Dev × List MemOp) r =>
    let (d, ops) := a.1.railActs (m.applyAll a.2) p r
    (d, a.2 ++ ops)) (d, [])

/-- A reset before the condition of R401 held returns the device to shutdown. [Log: 67 DEDUCED] -/
def Dev.backToShutdown (d : Dev) : Dev :=
  let d := d.parkGroups 31 1
  ({ d with pwr := { d.pwr with phase := .shutdown } }).w P.memState 1

/-- The images run: everything up to the state of PwrBootState. -/
def Dev.bootRun (d : Dev) (m : Memory) (p : Places) (b : BootIn) : Dev × List MemOp :=
  let (d, ops1) := d.flushShutRec.bootCatalogue
  let d := (d.bootReport b.fuseBad).bootKeys b
  let d := d.iff d.isRoot (fun d => (d.w P.archIslandCount 1).w P.archRouteTable 4)
  let (d, ops2) := d.chartLoad (m.applyAll ops1) p d.bootChart
  let d := (d.openWires b.openWires).bootCommit.colLoad.trimLoad.refoFollow
  let d := (d.w P.fieldState (d.a P.fieldEnable)).bootEnter
  let (d, ops3) := d.bootRails (m.applyAll (ops1 ++ ops2)) p
  let d := if d.thm.shut then d.backToShutdown else d.iff (!d.ephHeld) (·.ephPassed)
  (d.noteIdle, ops1 ++ ops2 ++ ops3)

/-- The boot has everything it waits for: REFCLK, the sampled pins, package memory. -/
def Dev.bootReady (d : Dev) : Bool :=
  d.pwr.phase == .booting && (!d.samplesPins || d.pwr.sampled) && (!d.losesMem || d.pwr.memDone)

/-- BOOT_COMPLETE. -/
def Dev.bootDone (d : Dev) (m : Memory) (p : Places) (b : BootIn) : Dev × List MemOp :=
  if !d.bootReady then (d, [])
  else if d.fus.lifecycle = 0 ∨ d.fus.lifecycle = 3 then (d.noImage, [])
  else
    let d := ({ d with upd := { d.upd with schema := b.schema } }).bootStage m
    let (d, ok) := d.bootImages m b.images
    if !ok then (d.noImage, [])
    else if d.schemaFails then d.migrationFails m
    else
      let d := d.iff (d.a P.updStage == 5) (·.trialKeep)
      let d := d.iff (d.a P.updStage == 6) (fun d => d.confirmRest m whoDevice)
      d.bootRun m p b

def execBootComplete (dt : Nat) (b : BootIn) (s : State) : Host.Outcome State Fault Refusal :=
  onAll dt (fun d m p => d.bootDone m p b) s

/-- BOOT_RETRY (R637): 10 s after the last attempt; where the images pass the boot goes on to its completion.
[Log: 69 DEDUCED] -/
def Dev.bootRetry (d : Dev) (m : Memory) (cs : List ImageCheck) : Dev :=
  let may := d.pwr.phase == .noImage && (d.fus.lifecycle == 1 || d.fus.lifecycle == 2)
  if may && decide (d.pwr.releasedAt + 10 ^ 13 ≤ d.now) then
    if (d.bootImages m cs).2 then { d with pwr := { d.pwr with phase := .booting, releasedAt := d.now } }
    else ((d.bootImages m cs).1).noImage
  else d

def execBootRetry (dt : Nat) (images : List ImageCheck) (s : State) : Host.Outcome State Fault Refusal :=
  onMem dt (fun d m => (d.bootRetry m images, [])) s

/-! ### Activation (R628, R629, R632) -/

/-- The image a package brings for a component. -/
def Dev.newImage (d : Dev) (m : Memory) (c : Nat) : Image := imageOf (m.imageHeader c (1 - d.confirmed c))

/-- After the last step the new slots are confirmed as trial; the new CURATOR reads the schema (R628, R632). -/
def Dev.activated (d : Dev) (m : Memory) : Dev × List MemOp :=
  let d := { d with upd := { d.upd with trialAt := d.merNs, fell := [] } }
  let d := (d.updTo whoDevice 5).updEvent 7 0 1
  if d.schemaFails then d.migrationFails m
  else (d.trialKeep.ephPassed.noteIdle, [])

/-- A start handshake failed: the old images are restored in reverse order (R629). -/
def Dev.activationFails (d : Dev) (m : Memory) : Dev :=
  let back := (d.orderSteps.take (d.upd.step + 1)).reverse
  let d := d.each back (fun c d => d.runImage c (imageOf (m.imageHeader c (d.confirmed c))))
  let d := { d with upd := { d.upd with step := 0 } }
  (((d.wN P.updTrialBoots 0).updTo whoDevice 3).updEvent 6 0 1).ephPassed.noteIdle

/-- ACTIVATION_STEP_DONE: one component runs its new image, or the activation fails. -/
def Dev.activationStep (d : Dev) (m : Memory) (ok : Bool) : Dev × List MemOp :=
  if d.a P.updStage ≠ 4 ∨ d.pwr.phase ≠ .running then (d, [])
  else if !ok then (d.activationFails m, [])
  else
    let i := d.upd.step
    let c := d.orderAt i
    let d := d.runImage c (d.newImage m c)
    let d := ({ d with upd := { d.upd with step := i + 1 } }).updEvent 5 c i
    if d.orderSteps.length ≤ i + 1 then d.activated m else (d, [])

def execActivationStepDone (dt : Nat) (ok : Bool) (s : State) : Host.Outcome State Fault Refusal :=
  onMem dt (fun d m => d.activationStep m ok) s

end Sys2Proof.Machine
end

