-- ==== Sys2Proof/Machine/Writes.lean ====
section
/-!
DEFINITION. The writes that have a row of their own: each is a WRITE operation with one item, from the port and session that `who`
names (21_almanac.md R566, R570; the rule of each stands at its definition). What it does lies in Written, what refuses it in
Settings and Almanac. An operand `mask` or `value` is the value written.
-/

namespace Sys2Proof.Machine

/-- The item that writes values from an entry of a parameter on. -/
def writeItem (key first : Nat) (vals : List Nat) : Item :=
  match rowOf (keyId key) with
  | none => { index := indexOf key, sub := keyId key % 256, first := first, span := vals.length, value := [] }
  | some r =>
    let sp := r.ty.spanned
    { index := indexOf key, sub := keyId key % 256, first := if sp then first else 0, span := if sp then vals.length else 0,
      value := vals.flatMap (leBytes r.ty.width) }

/-- The WRITE operation of one item; its REQ_ID or transfer number is chosen outside, a free value. [Log: 61 DESIGN CHOICE] -/
def Dev.rowWrite (d : Dev) (m : Memory) (p : Places) (w : Who) (x : Item) (aux : OpAux) : Dev × List MemOp :=
  let (id, d) := d.free 742 32
  d.opArrive m p { port := w.port, ses := w.ses, id := id, op := 2, n := 1, items := [x], aux := aux }

/-- The outcome of a write of values. -/
def onRow (dt : Nat) (w : Who) (key first : Nat) (vals : List Nat) (aux : OpAux) (s : State) : Host.Outcome State Fault Refusal :=
  onAll dt (fun d m p => d.rowWrite m p w (writeItem key first vals) aux) s

/-- The outcome of a write of a byte string from the first byte on. -/
def onBytes (dt : Nat) (w : Who) (key : Nat) (b : List Byte) (aux : OpAux) (s : State) : Host.Outcome State Fault Refusal :=
  onRow dt w key 0 (b.map (·.toNat)) aux s

/-- RESET_COMMAND (R38). -/
def execResetCommand (dt : Nat) (who : Who) (value : Nat) (s : State) : Host.Outcome State Fault Refusal :=
  onRow dt who P.resetCommand 0 [value] {} s
/-- PWR_REQUEST_STATE (R66, R68). -/
def execPwrRequestState (dt : Nat) (who : Who) (value : Nat) (s : State) : Host.Outcome State Fault Refusal :=
  onRow dt who P.pwrRequestState 0 [value] {} s
/-- RX_RETIRED_MASK_CLEAR (R88): the mask written. -/
def execRxRetiredMaskClear (dt : Nat) (who : Who) (value : Nat) (s : State) : Host.Outcome State Fault Refusal :=
  onRow dt who P.rxRetiredMask 0 [value] {} s
/-- RX_PATH_DISABLE (R98): the mask written. -/
def execRxPathDisable (dt : Nat) (who : Who) (group mask : Nat) (s : State) : Host.Outcome State Fault Refusal :=
  onRow dt who (gk P.rxPathEnableA (group % 2)) 0 [mask] {} s
/-- RX_PATH_ENABLE (R99): the mask written. -/
def execRxPathEnable (dt : Nat) (who : Who) (group mask : Nat) (s : State) : Host.Outcome State Fault Refusal :=
  onRow dt who (gk P.rxPathEnableA (group % 2)) 0 [mask] {} s
/-- AP_GROUP_DISABLE (R217). -/
def execApGroupDisable (dt : Nat) (who : Who) (value : Nat) (s : State) : Host.Outcome State Fault Refusal :=
  onRow dt who P.apGroupEnable 0 [value] {} s
/-- AP_MODE_DISABLE (R217). -/
def execApModeDisable (dt : Nat) (who : Who) (group value : Nat) (s : State) : Host.Outcome State Fault Refusal :=
  onRow dt who (gk P.apModeEnableA (group % 2)) 0 [value] {} s
/-- DL_GROUP_DISABLE (R281). -/
def execDlGroupDisable (dt : Nat) (who : Who) (value : Nat) (s : State) : Host.Outcome State Fault Refusal :=
  onRow dt who P.dlGroupEnable 0 [value] {} s
/-- COLLIM_REQUEST (R335). -/
def execCollimRequest (dt : Nat) (who : Who) (value : Nat) (s : State) : Host.Outcome State Fault Refusal :=
  onRow dt who P.collimRequest 0 [value] {} s
/-- BIAS_PARK_COMMAND (R362). -/
def execBiasParkCommand (dt : Nat) (who : Who) (value : Nat) (s : State) : Host.Outcome State Fault Refusal :=
  onRow dt who P.biasParkCommand 0 [value] {} s
/-- BIAS_WRITE (R364). -/
def execBiasWrite (dt : Nat) (who : Who) (output value : Nat) (s : State) : Host.Outcome State Fault Refusal :=
  onRow dt who P.biasWrite output [value] {} s
/-- BIAS_RANGE_CHANGE (R367). -/
def execBiasRangeChange (dt : Nat) (who : Who) (group value : Nat) (s : State) : Host.Outcome State Fault Refusal :=
  onRow dt who P.biasRange group [value] {} s
/-- BIAS_PARK_WRITE (R358). -/
def execBiasParkWrite (dt : Nat) (who : Who) (output value : Nat) (s : State) : Host.Outcome State Fault Refusal :=
  onRow dt who P.biasPark output [value] {} s
/-- HK_SCAN_START (R374). -/
def execHkScanStart (dt : Nat) (who : Who) (value : Nat) (s : State) : Host.Outcome State Fault Refusal :=
  onRow dt who P.hkScanStart 0 [value] {} s
/-- HK_INJECT_ARM (R380). -/
def execHkInjectArm (dt : Nat) (who : Who) (value : Nat) (s : State) : Host.Outcome State Fault Refusal :=
  onRow dt who P.hkInjectArm 0 [value] {} s
/-- HK_INJECT_DISARM (R380). -/
def execHkInjectDisarm (dt : Nat) (who : Who) (value : Nat) (s : State) : Host.Outcome State Fault Refusal :=
  onRow dt who P.hkInjectArm 0 [value] {} s
/-- HK_CAL_REQUEST (R383). -/
def execHkCalRequest (dt : Nat) (who : Who) (value : Nat) (s : State) : Host.Outcome State Fault Refusal :=
  onRow dt who P.hkCalRequest 0 [value] {} s
/-- THERM_RESTART (R401). -/
def execThermRestart (dt : Nat) (who : Who) (value : Nat) (s : State) : Host.Outcome State Fault Refusal :=
  onRow dt who P.thermRestart 0 [value] {} s
/-- TIME_SET_TIME (R417). -/
def execTimeSetTime (dt : Nat) (who : Who) (seconds fraction : Nat) (s : State) : Host.Outcome State Fault Refusal :=
  onRow dt who P.timeSetTime 0 [seconds % 2 ^ 64 + fraction % 2 ^ 40 * 2 ^ 64] {} s
/-- TIME_PPS_NEXT_SECONDS (R424). -/
def execTimePpsNextSeconds (dt : Nat) (who : Who) (value : Nat) (s : State) : Host.Outcome State Fault Refusal :=
  onRow dt who P.timePpsNextSeconds 0 [value] {} s
/-- LANE_MAX_RATE_WRITE (R461): port 0 Mainland, 1 to 4 S0 to S3. -/
def execLaneMaxRateWrite (dt : Nat) (who : Who) (port value : Nat) (s : State) : Host.Outcome State Fault Refusal :=
  onRow dt who (if port = 0 then P.mlMaxRate else P.stMaxRate) (port - 1) [value] {} s
/-- LANE_MARGIN_SCAN (R471). -/
def execLaneMarginScan (dt : Nat) (who : Who) (value : Nat) (s : State) : Host.Outcome State Fault Refusal :=
  onRow dt who P.laneMarginScan 0 [value] {} s
/-- MAINLAND_TRUST_CLEAR (R485). -/
def execMainlandTrustClear (dt : Nat) (who : Who) (s : State) : Host.Outcome State Fault Refusal :=
  onRow dt who P.mainlandTrust 0 [0] {} s
/-- DMA_START (R538). -/
def execDmaStart (dt : Nat) (who : Who) (channel addr : Nat) (s : State) : Host.Outcome State Fault Refusal :=
  onRow dt who P.dmaStartAddr channel [addr] {} s
/-- DMA_ABORT (R538). -/
def execDmaAbort (dt : Nat) (who : Who) (mask : Nat) (s : State) : Host.Outcome State Fault Refusal :=
  onRow dt who P.dmaAbort 0 [mask] {} s
/-- DMA_CONTINUE (R543). -/
def execDmaContinue (dt : Nat) (who : Who) (mask : Nat) (s : State) : Host.Outcome State Fault Refusal :=
  onRow dt who P.dmaContinue 0 [mask] {} s
/-- DMA_DISABLE (R544): the mask written, and how far each channel has come. -/
def execDmaDisable (dt : Nat) (who : Who) (mask : Nat) (beats : List Nat) (s : State) : Host.Outcome State Fault Refusal :=
  onRow dt who P.dmaEnable 0 [mask] { beats := some beats } s
/-- DMA_ENABLE (R544): the mask written. -/
def execDmaEnable (dt : Nat) (who : Who) (mask : Nat) (s : State) : Host.Outcome State Fault Refusal :=
  onRow dt who P.dmaEnable 0 [mask] {} s
/-- TRANSIT_ARM (R555). -/
def execTransitArm (dt : Nat) (who : Who) (value : Nat) (s : State) : Host.Outcome State Fault Refusal :=
  onRow dt who P.transitArm 0 [value] {} s
/-- TRANSIT_FORCE (R558). -/
def execTransitForce (dt : Nat) (who : Who) (value instants : Nat) (s : State) : Host.Outcome State Fault Refusal :=
  onRow dt who P.transitForce 0 [value] { instants := some instants } s
/-- TRANSIT_SEND_RECORD (R562). -/
def execTransitSendRecord (dt : Nat) (who : Who) (value : Nat) (s : State) : Host.Outcome State Fault Refusal :=
  onRow dt who P.transitSendRecord 0 [value] {} s
/-- TRANSIT_ENABLE_CLEAR (R561). -/
def execTransitEnableClear (dt : Nat) (who : Who) (instants : Nat) (s : State) : Host.Outcome State Fault Refusal :=
  onRow dt who P.transitEnable 0 [0] { instants := some instants } s
/-- CHART_SELECT (R582). -/
def execChartSelect (dt : Nat) (who : Who) (value : Nat) (s : State) : Host.Outcome State Fault Refusal :=
  onRow dt who P.chartSelect 0 [value] {} s
/-- FUSE_KEY_REVOKE (R602). -/
def execFuseKeyRevoke (dt : Nat) (who : Who) (value : Nat) (s : State) : Host.Outcome State Fault Refusal :=
  onRow dt who P.fuseKeyRevoke 0 [value] {} s
/-- LIFECYCLE_ADVANCE (R603). -/
def execLifecycleAdvance (dt : Nat) (who : Who) (value : Nat) (s : State) : Host.Outcome State Fault Refusal :=
  onRow dt who P.lifecycleAdvance 0 [value] {} s
/-- AUDIT_READ_FROM (R611). -/
def execAuditReadFrom (dt : Nat) (who : Who) (value : Nat) (s : State) : Host.Outcome State Fault Refusal :=
  onRow dt who P.auditReadFrom 0 [value] {} s
/-- UPD_BEGIN (R621). -/
def execUpdBegin (dt : Nat) (who : Who) (s : State) : Host.Outcome State Fault Refusal :=
  onRow dt who P.updCommand 0 [1] {} s
/-- UPD_VERIFY (R624). -/
def execUpdVerify (dt : Nat) (who : Who) (s : State) : Host.Outcome State Fault Refusal :=
  onRow dt who P.updCommand 0 [2] {} s
/-- UPD_ABANDON (R625). -/
def execUpdAbandon (dt : Nat) (who : Who) (s : State) : Host.Outcome State Fault Refusal :=
  onRow dt who P.updCommand 0 [3] {} s
/-- UPD_CONFIRM (R635). -/
def execUpdConfirm (dt : Nat) (who : Who) (s : State) : Host.Outcome State Fault Refusal :=
  onRow dt who P.updCommand 0 [4] {} s
/-- UPD_REVERT (R634). -/
def execUpdRevert (dt : Nat) (who : Who) (s : State) : Host.Outcome State Fault Refusal :=
  onRow dt who P.updCommand 0 [5] {} s
/-- EVENT_LOG_READ_FROM (R644). -/
def execEventLogReadFrom (dt : Nat) (who : Who) (value : Nat) (s : State) : Host.Outcome State Fault Refusal :=
  onRow dt who P.eventLogReadFrom 0 [value] {} s
/-- RIPTIDE_START (R649). -/
def execRiptideStart (dt : Nat) (who : Who) (s : State) : Host.Outcome State Fault Refusal :=
  onRow dt who P.riptideEnable 0 [1] {} s
/-- RIPTIDE_STOP (R649). -/
def execRiptideStop (dt : Nat) (who : Who) (s : State) : Host.Outcome State Fault Refusal :=
  onRow dt who P.riptideEnable 0 [0] {} s
/-- RIPTIDE_LANE_DOWN (R652). -/
def execRiptideLaneDown (dt : Nat) (who : Who) (value : Nat) (s : State) : Host.Outcome State Fault Refusal :=
  onRow dt who P.riptideLaneDown 0 [value] {} s
/-- EPH_WRITE (R437). -/
def execEphWrite (dt : Nat) (who : Who) (body : List Byte) (s : State) : Host.Outcome State Fault Refusal :=
  onBytes dt who P.ephWrite body {} s
/-- EPH_CANCEL (R437). -/
def execEphCancel (dt : Nat) (who : Who) (index : Nat) (s : State) : Host.Outcome State Fault Refusal :=
  onBytes dt who P.ephWrite (zeros 20 ++ leBytes 2 index ++ zeros 2) {} s
/-- FUSE_KEY_PROGRAM (R602). -/
def execFuseKeyProgram (dt : Nat) (who : Who) (value readback : List Byte) (s : State) : Host.Outcome State Fault Refusal :=
  onBytes dt who P.fuseKeyProgram value { readback := some readback } s
/-- DEBUG_UNLOCK_TOKEN (R606). -/
def execDebugUnlockToken (dt : Nat) (who : Who) (token pubHash : List Byte) (sigOk : Bool) (s : State) : Host.Outcome State Fault Refusal :=
  onBytes dt who P.debugUnlockToken token { proof := some (pubHash, sigOk) } s
/-- UPD_CHUNK (R622). -/
def execUpdChunk (dt : Nat) (who : Who) (chunk : Nat) (data : List Byte) (s : State) : Host.Outcome State Fault Refusal :=
  onBytes dt who P.updChunk (leBytes 4 chunk ++ zeros 4 ++ data) {} s
/-- EVENT_PENDING_CLEAR (R643). -/
def execEventPendingClear (dt : Nat) (who : Who) (value : List Byte) (s : State) : Host.Outcome State Fault Refusal :=
  onBytes dt who P.eventPendingClear value {} s

end Sys2Proof.Machine
end

