-- ==== Sys2Proof/Machine/Dispatch.lean ====
section
/-!
DEFINITION. The one dispatch from commands to their meanings: one arm per constructor of Instr.
-/

namespace Sys2Proof.Machine

def exec (i : Instr) (s : State) : Host.Outcome State Fault Refusal :=
  match i with
  | .powerOnReset dt brownout retained => Sys2Proof.Machine.execPowerOnReset dt brownout retained s
  | .pwrOkRise dt => Sys2Proof.Machine.execPwrOkRise dt s
  | .pwrOkFall dt => Sys2Proof.Machine.execPwrOkFall dt s
  | .resetNAssert dt => Sys2Proof.Machine.execResetNAssert dt s
  | .resetNRelease dt => Sys2Proof.Machine.execResetNRelease dt s
  | .chartPinsSample dt chart rootLow => Sys2Proof.Machine.execChartPinsSample dt chart rootLow s
  | .bootComplete dt b => Sys2Proof.Machine.execBootComplete dt b s
  | .bootRetry dt images => Sys2Proof.Machine.execBootRetry dt images s
  | .packageMemoryInitDone dt ok => Sys2Proof.Machine.execPackageMemoryInitDone dt ok s
  | .biasParkLoad dt stored headroom => Sys2Proof.Machine.execBiasParkLoad dt stored headroom s
  | .biasClampEngage dt => Sys2Proof.Machine.execBiasClampEngage dt s
  | .railFault dt rail => Sys2Proof.Machine.execRailFault dt rail s
  | .coreBrownout dt => Sys2Proof.Machine.execCoreBrownout dt s
  | .railRecovered dt rail => Sys2Proof.Machine.execRailRecovered dt rail s
  | .watchdogExpiry dt => Sys2Proof.Machine.execWatchdogExpiry dt s
  | .resetCommand dt who value => Sys2Proof.Machine.execResetCommand dt who value s
  | .refclkLost dt => Sys2Proof.Machine.execRefclkLost dt s
  | .refclkRestored dt => Sys2Proof.Machine.execRefclkRestored dt s
  | .pllUnlock dt conv => Sys2Proof.Machine.execPllUnlock dt conv s
  | .pllRelock dt conv => Sys2Proof.Machine.execPllRelock dt conv s
  | .pllRelockFail dt conv => Sys2Proof.Machine.execPllRelockFail dt conv s
  | .syncEdge dt => Sys2Proof.Machine.execSyncEdge dt s
  | .syncoForward dt => Sys2Proof.Machine.execSyncoForward dt s
  | .syncMissing dt => Sys2Proof.Machine.execSyncMissing dt s
  | .synchronisingReset dt => Sys2Proof.Machine.execSynchronisingReset dt s
  | .pwrRequestState dt who value => Sys2Proof.Machine.execPwrRequestState dt who value s
  | .pwrIdleTimeout dt => Sys2Proof.Machine.execPwrIdleTimeout dt s
  | .wakeMl0Signal dt => Sys2Proof.Machine.execWakeMl0Signal dt s
  | .wakeFieldFrame dt island => Sys2Proof.Machine.execWakeFieldFrame dt island s
  | .trigInEdge dt rising finePs => Sys2Proof.Machine.execTrigInEdge dt rising finePs s
  | .stateEntered dt => Sys2Proof.Machine.execStateEntered dt s
  | .unitActivationStart dt unit => Sys2Proof.Machine.execUnitActivationStart dt unit s
  | .coreTakeover dt quad => Sys2Proof.Machine.execCoreTakeover dt quad s
  | .coreCalibrationDone dt quad result => Sys2Proof.Machine.execCoreCalibrationDone dt quad result s
  | .prealignResume dt quad => Sys2Proof.Machine.execPrealignResume dt quad s
  | .rxRetiredMaskClear dt who value => Sys2Proof.Machine.execRxRetiredMaskClear dt who value s
  | .trimStore dt => Sys2Proof.Machine.execTrimStore dt s
  | .interleaveSkewLimit dt path skew => Sys2Proof.Machine.execInterleaveSkewLimit dt path skew s
  | .rxClip dt group path samples => Sys2Proof.Machine.execRxClip dt group path samples s
  | .rxBlocker dt path power => Sys2Proof.Machine.execRxBlocker dt path power s
  | .rxPathDisable dt who group mask => Sys2Proof.Machine.execRxPathDisable dt who group mask s
  | .rxPathEnable dt who group mask => Sys2Proof.Machine.execRxPathEnable dt who group mask s
  | .firCrossfadeDone dt group => Sys2Proof.Machine.execFirCrossfadeDone dt group s
  | .channelizerOverflow dt group path samples => Sys2Proof.Machine.execChannelizerOverflow dt group path samples s
  | .settleDone dt group => Sys2Proof.Machine.execSettleDone dt group s
  | .threshBlockDone dt group path power tagged => Sys2Proof.Machine.execThreshBlockDone dt group path power tagged s
  | .threshEventWindowEnd dt group path thr => Sys2Proof.Machine.execThreshEventWindowEnd dt group path thr s
  | .catalogueFetch dt group catnum ecc => Sys2Proof.Machine.execCatalogueFetch dt group catnum ecc s
  | .scrubBurst dt ecc => Sys2Proof.Machine.execScrubBurst dt ecc s
  | .catgenMramCopy dt => Sys2Proof.Machine.execCatgenMramCopy dt s
  | .catalogueOpWrite dt hdr body => Sys2Proof.Machine.execCatalogueOpWrite dt hdr body s
  | .catalogueOpClear dt hdr body => Sys2Proof.Machine.execCatalogueOpClear dt hdr body s
  | .catalogueOpRead dt hdr body => Sys2Proof.Machine.execCatalogueOpRead dt hdr body s
  | .catalogueOpSetState dt hdr body => Sys2Proof.Machine.execCatalogueOpSetState dt hdr body s
  | .catalogueOpQuery dt hdr body => Sys2Proof.Machine.execCatalogueOpQuery dt hdr body s
  | .catalogueOpComplete done => Sys2Proof.Machine.execCatalogueOpComplete done s
  | .slotPlan dt hdr body => Sys2Proof.Machine.execSlotPlan dt hdr body s
  | .slotPlanDeadline dt group slot => Sys2Proof.Machine.execSlotPlanDeadline dt group slot s
  | .slotBoundary dt inp => Sys2Proof.Machine.execSlotBoundary dt inp s
  | .ulDataSend dt seg => Sys2Proof.Machine.execUlDataSend dt seg s
  | .attach dt hdr body => Sys2Proof.Machine.execAttach dt hdr body s
  | .attachComplete dt reads => Sys2Proof.Machine.execAttachComplete dt reads s
  | .refreshWriteback dt group entry => Sys2Proof.Machine.execRefreshWriteback dt group entry s
  | .apGroupDisable dt who value => Sys2Proof.Machine.execApGroupDisable dt who value s
  | .apModeDisable dt who group value => Sys2Proof.Machine.execApModeDisable dt who group value s
  | .sentinelDetection dt seqs num den back => Sys2Proof.Machine.execSentinelDetection dt seqs num den back s
  | .sentinelHoldoffEnd dt => Sys2Proof.Machine.execSentinelHoldoffEnd dt s
  | .sentinelReplaySend dt n ecc => Sys2Proof.Machine.execSentinelReplaySend dt n ecc s
  | .dlPlan dt hdr body => Sys2Proof.Machine.execDlPlan dt hdr body s
  | .dlPlanDeadline dt group slot => Sys2Proof.Machine.execDlPlanDeadline dt group slot s
  | .dlData dt hdr body => Sys2Proof.Machine.execDlData dt hdr body s
  | .dlConsume dt group slot instant => Sys2Proof.Machine.execDlConsume dt group slot instant s
  | .dlCeilingScale dt group slot => Sys2Proof.Machine.execDlCeilingScale dt group slot s
  | .burstStart dt quadrant => Sys2Proof.Machine.execBurstStart dt quadrant s
  | .rampStart dt quadrant => Sys2Proof.Machine.execRampStart dt quadrant s
  | .burstEnd dt quadrant => Sys2Proof.Machine.execBurstEnd dt quadrant s
  | .dlGroupDisable dt who value => Sys2Proof.Machine.execDlGroupDisable dt who value s
  | .synthLock dt synth => Sys2Proof.Machine.execSynthLock dt synth s
  | .synthCalFail dt synth => Sys2Proof.Machine.execSynthCalFail dt synth s
  | .synthUnlock dt synth => Sys2Proof.Machine.execSynthUnlock dt synth s
  | .txRequestInstant dt quadrant => Sys2Proof.Machine.execTxRequestInstant dt quadrant s
  | .rfctlEdge dt output assert => Sys2Proof.Machine.execRfctlEdge dt output assert s
  | .coexReqEdge dt assert => Sys2Proof.Machine.execCoexReqEdge dt assert s
  | .coexGrantWithdrawn dt => Sys2Proof.Machine.execCoexGrantWithdrawn dt s
  | .dpdVisit dt quadrant => Sys2Proof.Machine.execDpdVisit dt quadrant s
  | .dpdCaptureDone dt path clipped power => Sys2Proof.Machine.execDpdCaptureDone dt path clipped power s
  | .dpdComputeDone dt path nmse aclr incs => Sys2Proof.Machine.execDpdComputeDone dt path nmse aclr incs s
  | .dpdWarmStore dt path => Sys2Proof.Machine.execDpdWarmStore dt path s
  | .collimRequest dt who value => Sys2Proof.Machine.execCollimRequest dt who value s
  | .collimRelease dt res => Sys2Proof.Machine.execCollimRelease dt res s
  | .collimWindowEnd dt => Sys2Proof.Machine.execCollimWindowEnd dt s
  | .collimDelayWalkStep dt group path => Sys2Proof.Machine.execCollimDelayWalkStep dt group path s
  | .biasParkCommand dt who value => Sys2Proof.Machine.execBiasParkCommand dt who value s
  | .biasWrite dt who output value => Sys2Proof.Machine.execBiasWrite dt who output value s
  | .biasRangeChange dt who group value => Sys2Proof.Machine.execBiasRangeChange dt who group value s
  | .biasParkWrite dt who output value => Sys2Proof.Machine.execBiasParkWrite dt who output value s
  | .biasCurrentLimit dt output => Sys2Proof.Machine.execBiasCurrentLimit dt output s
  | .hkFrame dt temps supplies => Sys2Proof.Machine.execHkFrame dt temps supplies s
  | .hkScanConversion dt code => Sys2Proof.Machine.execHkScanConversion dt code s
  | .hkLimitWindowEnd dt entry high => Sys2Proof.Machine.execHkLimitWindowEnd dt entry high s
  | .hkCheckConversion dt code => Sys2Proof.Machine.execHkCheckConversion dt code s
  | .hkScanStart dt who value => Sys2Proof.Machine.execHkScanStart dt who value s
  | .hkInjectArm dt who value => Sys2Proof.Machine.execHkInjectArm dt who value s
  | .hkInjectDisarm dt who value => Sys2Proof.Machine.execHkInjectDisarm dt who value s
  | .hkInjectConversion dt code => Sys2Proof.Machine.execHkInjectConversion dt code s
  | .hkCalRequest dt who value => Sys2Proof.Machine.execHkCalRequest dt who value s
  | .hkCalPeriodic dt => Sys2Proof.Machine.execHkCalPeriodic dt s
  | .hkCalStart dt => Sys2Proof.Machine.execHkCalStart dt s
  | .hkCalDone dt ok => Sys2Proof.Machine.execHkCalDone dt ok s
  | .tsaReading dt temp => Sys2Proof.Machine.execTsaReading dt temp s
  | .substituteHoldEnd dt => Sys2Proof.Machine.execSubstituteHoldEnd dt s
  | .thermRestart dt who value => Sys2Proof.Machine.execThermRestart dt who value s
  | .restrictedServiceStart dt island => Sys2Proof.Machine.execRestrictedServiceStart dt island s
  | .restrictedServiceTimeout dt => Sys2Proof.Machine.execRestrictedServiceTimeout dt s
  | .ptpSync dt sync => Sys2Proof.Machine.execPtpSync dt sync s
  | .ptpFollowUp dt seqId t1 => Sys2Proof.Machine.execPtpFollowUp dt seqId t1 s
  | .ptpDelayResp dt seqId t4 logInterval => Sys2Proof.Machine.execPtpDelayResp dt seqId t4 logInterval s
  | .ptpAnnounce dt ann => Sys2Proof.Machine.execPtpAnnounce dt ann s
  | .ptpUnsupportedMessage dt => Sys2Proof.Machine.execPtpUnsupportedMessage dt s
  | .delayReqSend dt t3 => Sys2Proof.Machine.execDelayReqSend dt t3 s
  | .timeSourceLost dt cause => Sys2Proof.Machine.execTimeSourceLost dt cause s
  | .steppedClear dt => Sys2Proof.Machine.execSteppedClear dt s
  | .timeSetTime dt who seconds fraction => Sys2Proof.Machine.execTimeSetTime dt who seconds fraction s
  | .timePpsNextSeconds dt who value => Sys2Proof.Machine.execTimePpsNextSeconds dt who value s
  | .ppsInEdge dt finePs => Sys2Proof.Machine.execPpsInEdge dt finePs s
  | .ppsMissing dt => Sys2Proof.Machine.execPpsMissing dt s
  | .ppsOutEdge dt => Sys2Proof.Machine.execPpsOutEdge dt s
  | .ppsOutPulseEnd dt => Sys2Proof.Machine.execPpsOutPulseEnd dt s
  | .straitTimeExchange dt exch => Sys2Proof.Machine.execStraitTimeExchange dt exch s
  | .ephWrite dt who body => Sys2Proof.Machine.execEphWrite dt who body s
  | .ephCancel dt who index => Sys2Proof.Machine.execEphCancel dt who index s
  | .ephPrepare dt index => Sys2Proof.Machine.execEphPrepare dt index s
  | .ephWake dt index => Sys2Proof.Machine.execEphWake dt index s
  | .ephSleep dt index => Sys2Proof.Machine.execEphSleep dt index s
  | .sleepTakeEffect dt => Sys2Proof.Machine.execSleepTakeEffect dt s
  | .ephHandover dt index => Sys2Proof.Machine.execEphHandover dt index s
  | .ephChart dt index => Sys2Proof.Machine.execEphChart dt index s
  | .ephCollimate dt index => Sys2Proof.Machine.execEphCollimate dt index s
  | .ephSyncReset dt index => Sys2Proof.Machine.execEphSyncReset dt index s
  | .ephTransitArm dt index => Sys2Proof.Machine.execEphTransitArm dt index s
  | .ephTransitCondition dt index instants => Sys2Proof.Machine.execEphTransitCondition dt index instants s
  | .ephTransitClose dt index instants => Sys2Proof.Machine.execEphTransitClose dt index instants s
  | .ephHkInject dt index => Sys2Proof.Machine.execEphHkInject dt index s
  | .ephTxEnable dt index => Sys2Proof.Machine.execEphTxEnable dt index s
  | .ephTxDisable dt index => Sys2Proof.Machine.execEphTxDisable dt index s
  | .ephFirmwareActivate dt index => Sys2Proof.Machine.execEphFirmwareActivate dt index s
  | .laneDetectStep dt lane => Sys2Proof.Machine.execLaneDetectStep dt lane s
  | .laneTerminationFound dt lane => Sys2Proof.Machine.execLaneTerminationFound dt lane s
  | .laneTrainDone dt lane => Sys2Proof.Machine.execLaneTrainDone dt lane s
  | .laneLockDone dt lane => Sys2Proof.Machine.execLaneLockDone dt lane s
  | .laneCapsDone dt lane record => Sys2Proof.Machine.execLaneCapsDone dt lane record s
  | .laneStageTimeout dt lane => Sys2Proof.Machine.execLaneStageTimeout dt lane s
  | .laneWaitEnd dt lane => Sys2Proof.Machine.execLaneWaitEnd dt lane s
  | .laneLossOfSignal dt lane => Sys2Proof.Machine.execLaneLossOfSignal dt lane s
  | .laneMarkerLoss dt lane => Sys2Proof.Machine.execLaneMarkerLoss dt lane s
  | .laneFrame dt lane bits => Sys2Proof.Machine.execLaneFrame dt lane bits s
  | .laneErrorSecond dt => Sys2Proof.Machine.execLaneErrorSecond dt s
  | .laneMaxRateWrite dt who port value => Sys2Proof.Machine.execLaneMaxRateWrite dt who port value s
  | .laneMarginScan dt who value => Sys2Proof.Machine.execLaneMarginScan dt who value s
  | .laneMarginScanDone dt lane width height => Sys2Proof.Machine.execLaneMarginScanDone dt lane width height s
  | .creditReceive dt port unit => Sys2Proof.Machine.execCreditReceive dt port unit s
  | .creditSend dt port vc => Sys2Proof.Machine.execCreditSend dt port vc s
  | .heartbeatReceive dt hdr body => Sys2Proof.Machine.execHeartbeatReceive dt hdr body s
  | .heartbeatSend dt port => Sys2Proof.Machine.execHeartbeatSend dt port s
  | .partnerSilent dt => Sys2Proof.Machine.execPartnerSilent dt s
  | .eventSend dt count => Sys2Proof.Machine.execEventSend dt count s
  | .telemetrySend dt => Sys2Proof.Machine.execTelemetrySend dt s
  | .captureDataSend dt => Sys2Proof.Machine.execCaptureDataSend dt s
  | .mainlandTrustClear dt who => Sys2Proof.Machine.execMainlandTrustClear dt who s
  | .discoverRequest dt hdr => Sys2Proof.Machine.execDiscoverRequest dt hdr s
  | .discoverReport dt hdr body => Sys2Proof.Machine.execDiscoverReport dt hdr body s
  | .assign dt hdr body => Sys2Proof.Machine.execAssign dt hdr body s
  | .assignApply dt => Sys2Proof.Machine.execAssignApply dt s
  | .routedForward dt hdr msgType hops body => Sys2Proof.Machine.execRoutedForward dt hdr msgType hops body s
  | .planVerdict dt hdr body => Sys2Proof.Machine.execPlanVerdict dt hdr body s
  | .verdictDeadline dt group slot dl => Sys2Proof.Machine.execVerdictDeadline dt group slot dl s
  | .reduce dt hdr body => Sys2Proof.Machine.execReduce dt hdr body s
  | .reductionWindowClose dt group slot => Sys2Proof.Machine.execReductionWindowClose dt group slot s
  | .syncStamp dt hdr body upDelay => Sys2Proof.Machine.execSyncStamp dt hdr body upDelay s
  | .dmaStart dt who channel addr => Sys2Proof.Machine.execDmaStart dt who channel addr s
  | .dmaAbort dt who mask => Sys2Proof.Machine.execDmaAbort dt who mask s
  | .dmaContinue dt who mask => Sys2Proof.Machine.execDmaContinue dt who mask s
  | .dmaDisable dt who mask beats => Sys2Proof.Machine.execDmaDisable dt who mask beats s
  | .dmaEnable dt who mask => Sys2Proof.Machine.execDmaEnable dt who mask s
  | .dmaQueueTurn dt => Sys2Proof.Machine.execDmaQueueTurn dt s
  | .dmaDescriptorDone dt channel badAt => Sys2Proof.Machine.execDmaDescriptorDone dt channel badAt s
  | .transitArm dt who value => Sys2Proof.Machine.execTransitArm dt who value s
  | .transitForce dt who value instants => Sys2Proof.Machine.execTransitForce dt who value instants s
  | .transitSendRecord dt who value => Sys2Proof.Machine.execTransitSendRecord dt who value s
  | .transitEnableClear dt who instants => Sys2Proof.Machine.execTransitEnableClear dt who instants s
  | .transitCondOccurrence dt cond arg instants backPs => Sys2Proof.Machine.execTransitCondOccurrence dt cond arg instants backPs s
  | .transitStateTimeout dt => Sys2Proof.Machine.execTransitStateTimeout dt s
  | .transitRecordComplete dt phase data => Sys2Proof.Machine.execTransitRecordComplete dt phase data s
  | .transitRearmEnd dt => Sys2Proof.Machine.execTransitRearmEnd dt s
  | .trigOutPulseEnd dt => Sys2Proof.Machine.execTrigOutPulseEnd dt s
  | .almanacRead dt req item => Sys2Proof.Machine.execAlmanacRead dt req item s
  | .almanacWrite dt req item => Sys2Proof.Machine.execAlmanacWrite dt req item s
  | .almanacReadBlock dt req items => Sys2Proof.Machine.execAlmanacReadBlock dt req items s
  | .almanacWriteBlock dt req items => Sys2Proof.Machine.execAlmanacWriteBlock dt req items s
  | .survey dt req => Sys2Proof.Machine.execSurvey dt req s
  | .sessionOpen dt req item => Sys2Proof.Machine.execSessionOpen dt req item s
  | .sessionProve dt req item pubHash sigOk => Sys2Proof.Machine.execSessionProve dt req item pubHash sigOk s
  | .sessionClose dt req => Sys2Proof.Machine.execSessionClose dt req s
  | .storeChart dt req => Sys2Proof.Machine.execStoreChart dt req s
  | .storeChartDone dt => Sys2Proof.Machine.execStoreChartDone dt s
  | .chartSelect dt who value => Sys2Proof.Machine.execChartSelect dt who value s
  | .chartLoadDone dt => Sys2Proof.Machine.execChartLoadDone dt s
  | .chartDeferredApply dt => Sys2Proof.Machine.execChartDeferredApply dt s
  | .fieldRequestSegment dt island transfer segment data => Sys2Proof.Machine.execFieldRequestSegment dt island transfer segment data s
  | .fieldAbort dt island transfer => Sys2Proof.Machine.execFieldAbort dt island transfer s
  | .fieldSegmentTimeout dt => Sys2Proof.Machine.execFieldSegmentTimeout dt s
  | .fieldHeartbeatReceive dt island => Sys2Proof.Machine.execFieldHeartbeatReceive dt island s
  | .fieldHeartbeatSend dt => Sys2Proof.Machine.execFieldHeartbeatSend dt s
  | .fieldEventSend dt => Sys2Proof.Machine.execFieldEventSend dt s
  | .fieldBusOff dt tec rec => Sys2Proof.Machine.execFieldBusOff dt tec rec s
  | .fieldErrorPassive dt tec rec => Sys2Proof.Machine.execFieldErrorPassive dt tec rec s
  | .sessionChallengeTimeout dt handle => Sys2Proof.Machine.execSessionChallengeTimeout dt handle s
  | .sessionIdleTimeout dt handle => Sys2Proof.Machine.execSessionIdleTimeout dt handle s
  | .sessionLockoutEnd dt port => Sys2Proof.Machine.execSessionLockoutEnd dt port s
  | .fuseKeyProgram dt who value readback => Sys2Proof.Machine.execFuseKeyProgram dt who value readback s
  | .fuseKeyRevoke dt who value => Sys2Proof.Machine.execFuseKeyRevoke dt who value s
  | .lifecycleAdvance dt who value => Sys2Proof.Machine.execLifecycleAdvance dt who value s
  | .debugUnlockToken dt who token pubHash sigOk => Sys2Proof.Machine.execDebugUnlockToken dt who token pubHash sigOk s
  | .auditReadFrom dt who value => Sys2Proof.Machine.execAuditReadFrom dt who value s
  | .updBegin dt who => Sys2Proof.Machine.execUpdBegin dt who s
  | .updChunk dt who chunk data => Sys2Proof.Machine.execUpdChunk dt who chunk data s
  | .updVerify dt who => Sys2Proof.Machine.execUpdVerify dt who s
  | .updVerifyDone dt crypto keyOk => Sys2Proof.Machine.execUpdVerifyDone dt crypto keyOk s
  | .updAbandon dt who => Sys2Proof.Machine.execUpdAbandon dt who s
  | .updConfirm dt who => Sys2Proof.Machine.execUpdConfirm dt who s
  | .updRevert dt who => Sys2Proof.Machine.execUpdRevert dt who s
  | .activationStart dt => Sys2Proof.Machine.execActivationStart dt s
  | .activationStepDone dt ok => Sys2Proof.Machine.execActivationStepDone dt ok s
  | .updAutoConfirm dt => Sys2Proof.Machine.execUpdAutoConfirm dt s
  | .eventPendingClear dt who value => Sys2Proof.Machine.execEventPendingClear dt who value s
  | .eventLogReadFrom dt who value => Sys2Proof.Machine.execEventLogReadFrom dt who value s
  | .bgStarved dt activity => Sys2Proof.Machine.execBgStarved dt activity s
  | .bgRecovered dt activity => Sys2Proof.Machine.execBgRecovered dt activity s
  | .riptideStart dt who => Sys2Proof.Machine.execRiptideStart dt who s
  | .riptideStop dt who => Sys2Proof.Machine.execRiptideStop dt who s
  | .riptideExpire dt => Sys2Proof.Machine.execRiptideExpire dt s
  | .riptideLaneDown dt who value => Sys2Proof.Machine.execRiptideLaneDown dt who value s
  | .riptideReorderRelease dt => Sys2Proof.Machine.execRiptideReorderRelease dt s
  | .coexGntEdge dt level => Sys2Proof.Machine.execCoexGntEdge dt level s
  | .fieldBusOffRecovery dt => Sys2Proof.Machine.execFieldBusOffRecovery dt s
  | .fieldErrorActive dt tec rec => Sys2Proof.Machine.execFieldErrorActive dt tec rec s
  | .holdoverBoundGrowth dt => Sys2Proof.Machine.execHoldoverBoundGrowth dt s

end Sys2Proof.Machine
end

