-- ==== Sys2Proof/Machine/Step.lean ====
section
/-!
DEFINITION. One step: the command at the front of the queue acts; with the queue empty one clock edge passes.
-/

namespace Sys2Proof.Machine

/-- One edge of the always-on clock passes with no command (log entry 12). [Log: 12 DESIGN CHOICE; 80 DESIGN CHOICE] -/
def idle (s : State) : Host.Outcome State Fault Refusal := onDev 1 id s

/-- Take the command at the front of the queue and run it with the queue's rest. [Log: 12 DESIGN CHOICE] -/
def step (s : State) : Host.Outcome State Fault Refusal :=
  match s.pending with
  | [] => idle s
  | c :: rest => exec c { s with pending := rest }

/-- The state with the command a table word spells at the front of its queue; no word spells one (log entry 13).
[Log: 13 DESIGN CHOICE] -/
def State.withFetchWord (s : State) (nbits w : Nat) : State :=
  match decodeTableWord nbits w with
  | none => s
  | some c => { s with pending := c :: s.pending }

end Sys2Proof.Machine
end

