-- ==== Sys2Proof/WellFormed.lean ====
section
/-!
DEFINITION. Which commands are well-formed: every operand within the numbers the spec's encodings can carry. A meaning is
total beyond them; a command that is not well-formed can reach no device.
-/

namespace Sys2Proof

/-- A value of an unsigned type of `n` bits (00_scope.md R10, 21_almanac.md R564). -/
def fits (n v : Nat) : Bool := v < 2 ^ n

/-- One of the 64 receive or transmit paths (R23). -/
def isPath (n : Nat) : Bool := n < 64
/-- Carrier group A or B (R23, R92). -/
def isGroup (n : Nat) : Bool := n < 2
/-- One of the 16 quads of converter cores (R81). -/
def isQuad (n : Nat) : Bool := n < 16
/-- TX quadrant Q0 to Q3 (R23). -/
def isQuadrant (n : Nat) : Bool := n < 4
/-- One of the 12 synthesisers (R23). -/
def isSynth (n : Nat) : Bool := n < 12
/-- Lane 0 to 7 Mainland, 8 to 23 Strait (R23). -/
def isLane (n : Nat) : Bool := n < 24
/-- Virtual channel 0 to 3 (R479). -/
def isChannel (n : Nat) : Bool := n < 4
/-- Message port: 0 Mainland, 1 to 4 S0 to S3 (R502). -/
def isPort (n : Nat) : Bool := n < 5
/-- A port of Almanac operations: 0 Mainland, 1 FIELD (R595). -/
def isSessionPort (n : Nat) : Bool := n < 2
/-- A Catalogue number (R155). -/
def isCatnum (n : Nat) : Bool := n < 2 ^ 23
/-- A session handle (R595). -/
def isHandle (n : Nat) : Bool := n < 4
/-- A DMA channel (R23). -/
def isDma (n : Nat) : Bool := n < 16
/-- A background activity (R646). -/
def isActivity (n : Nat) : Bool := n < 8
/-- A slot number (R175). -/
def isSlot (n : Nat) : Bool := n < 2 ^ 64
/-- A Chart (R579). -/
def isChart (n : Nat) : Bool := n < 4
/-- An island number as a FIELD identifier carries it (R574). -/
def isIsland (n : Nat) : Bool := n < 64
/-- A FIELD transfer number (R574). -/
def isTransfer (n : Nat) : Bool := n < 256
/-- A FIELD segment number (R574). -/
def isSegment (n : Nat) : Bool := n < 1024
/-- Picoseconds within one REFCLK period (R424, R558). -/
def isFine (n : Nat) : Bool := n < 10000
/-- One byte: an error counter (R578), a message type or a hop count (R478, R502). -/
def isCount (n : Nat) : Bool := n < 256
/-- A rail other than VDD_AON and VDD_CORE (R30, R68). -/
def isRail (n : Nat) : Bool := 2 ≤ n && n < 25
/-- A threshold of a chain (R134). -/
def isThreshold (n : Nat) : Bool := n < 2
/-- An entry of HkScanList (R373). -/
def isScanEntry (n : Nat) : Bool := n < 64
/-- A unit of the power states: groups A and B, quadrants Q0 to Q3 (R54). -/
def isPowerUnit (n : Nat) : Bool := n < 6
/-- An RFCTL output (R297). -/
def isRfctl (n : Nat) : Bool := n < 32
/-- A bias output (R356). -/
def isBias (n : Nat) : Bool := n < 80
/-- A bias group BG0 to BG4 (R356). -/
def isBiasGroup (n : Nat) : Bool := n < 5
/-- An Ephemeris entry (R434). -/
def isEphIndex (n : Nat) : Bool := n < 1024
/-- An Ephemeris entry, or 0xFFFF (R434). -/
def isEphIndexOrFree (n : Nat) : Bool := isEphIndex n || n == 0xFFFF
/-- The 24 bytes of an Ephemeris entry (R434). -/
def isEphBody (b : List Byte) : Bool := b.length == 24
/-- A condition of the Transit sequencer (R556). -/
def isCondition (n : Nat) : Bool := n < 8
/-- A cause of EV81 (R418). -/
def isLossCause (n : Nat) : Bool := 1 ≤ n && n ≤ 5
/-- SECONDS and FRACTION of a time field (R17). -/
def isSeconds (n : Nat) : Bool := n < 2 ^ 64
def isFraction (n : Nat) : Bool := n < 2 ^ 40
/-- A PTP sequenceId of 16 bits (R419). -/
def isSeqId (n : Nat) : Bool := n < 2 ^ 16
/-- The NCO phase of a record header, in units of 2^-40 turn (R553). -/
def isPhase (n : Nat) : Bool := n < 2 ^ 40
/-- The body of a message (R477). -/
def isBody (b : List Byte) : Bool := b.length ≤ 9216
/-- One unit of a port's stream (R473). -/
def isUnit8 (b : List Byte) : Bool := b.length == 8
/-- The CAPS record (R466). -/
def isCaps (b : List Byte) : Bool := b.length == 32
/-- A 128-bit event mask (R643). -/
def isMask16 (b : List Byte) : Bool := b.length == 16
/-- The data of one chunk, and its number (R622). -/
def isChunkData (b : List Byte) : Bool := b.length == 8192
def isChunk (n : Nat) : Bool := n < 2 ^ 32
/-- The data of a CAN FD frame (R574). -/
def isSegmentData (b : List Byte) : Bool := b.length ≤ 64
/-- One value per bias group (R360). -/
def isFive (l : List Bool) : Bool := l.length == 5
/-- Native words (R10). -/
def areWords (l : List Nat) : Bool := l.all (fits 40)
/-- One increment per entry of a predistortion model (R313, R318). -/
def areIncs (l : List (Int × Int)) : Bool := l.length == 448
/-- The bits of one lane frame after its marker hold at least the header and payload (R453). -/
def isFrameBits (l : List Bool) : Bool := 4096 ≤ l.length

/-- Who writes: a port, and a handle or none (R566). -/
def isWho (w : Who) : Bool := isSessionPort w.port && (isHandle w.ses || w.ses == 0xFF)

/-- The frame of an operation record: REQ_ID of 4 bytes or a transfer number (R493, R574). -/
def isReq (r : Req) : Bool :=
  isSessionPort r.port && (isHandle r.ses || r.ses == 0xFF) && (if r.port = 0 then fits 32 r.id else isTransfer r.id)

/-- The fields of an item (R567). -/
def isItem (x : Item) : Bool := fits 16 x.index && fits 8 x.sub && fits 16 x.first && fits 16 x.span && isBody x.value

/-- At most 64 items (R566). -/
def areItems (l : List Item) : Bool := l.length ≤ 64 && l.all isItem

/-- The fields of a message header (R477, R502). -/
def isHdr (h : Hdr) : Bool := isPort h.port && isChannel h.vc && fits 8 h.island && fits 16 h.seq

/-- A boot ROM's check names a component and a slot (R615). -/
def areChecks (l : List ImageCheck) : Bool := l.all (fun c => c.comp < 4 && c.slot < 2)

/-- What a boot reports (R386, R604). -/
def isBootIn (b : BootIn) : Bool := areChecks b.images && fits 32 b.openWires && fits 12 b.keyBad

/-- The samples of a slot: 64 native words each (R206, R214). -/
def isSlotIn (x : SlotIn) : Bool :=
  x.refresh.all (fun r => isGroup r.group && isCatnum r.cat && r.samples.all (fun b => b.length == 64 && areWords b)) &&
    x.hold.all (fun h => isGroup h.group && h.snaps.all (fun b => b.length == 64 && areWords b))

/-- The words of one UL_DATA message (R204). -/
def isSeg (x : UlSeg) : Bool := isSlot x.slot && isGroup x.group && x.kind < 8 && x.words.all areWords

/-- A Collimation result names groups and paths (R344). -/
def isCollimResult (r : CollimResult) : Bool := fits 2 r.groups && fits 64 r.unmeasured

/-- A time inside a PTP message: 48-bit seconds, ns, and a correctionField of 64 bits signed (R422). -/
def isPtpTime (t : PtpTime) : Bool := fits 48 t.secs && fits 32 t.ns && decide (-(2 ^ 63) ≤ t.corr) && decide (t.corr < 2 ^ 63)
/-- The fields of Sync, Announce and a Strait exchange (R419, R428). -/
def isSync (x : PtpSync) : Bool := isSeqId x.seqId && isCount x.domain
def isAnnounce (x : PtpAnnounce) : Bool :=
  isCount x.domain && fits 64 x.identity && fits 16 x.portId && isCount x.prio1 && isCount x.cls && isCount x.accuracy &&
    fits 16 x.variance && isCount x.prio2 && fits 16 x.steps
def isExchange (x : StraitExchange) : Bool := 1 ≤ x.port && x.port ≤ 4 && isSeqId x.seqId && isPtpTime x.t1 && isPtpTime x.t4

/-- The well-formed commands. [Log: 1 DEDUCED] -/
def Instr.wf : Instr → Bool
  | .powerOnReset _ _ _ => true
  | .pwrOkRise _ => true
  | .pwrOkFall _ => true
  | .resetNAssert _ => true
  | .resetNRelease _ => true
  | .chartPinsSample _ chart _ => isChart chart
  | .bootComplete _ b => isBootIn b
  | .bootRetry _ images => areChecks images
  | .packageMemoryInitDone _ _ => true
  | .biasParkLoad _ stored headroom => isFive stored && isFive headroom
  | .biasClampEngage _ => true
  | .railFault _ rail => isRail rail
  | .coreBrownout _ => true
  | .railRecovered _ rail => isRail rail
  | .watchdogExpiry _ => true
  | .resetCommand _ who value => isWho who && fits 8 value
  | .refclkLost _ => true
  | .refclkRestored _ => true
  | .pllUnlock _ _ => true
  | .pllRelock _ _ => true
  | .pllRelockFail _ _ => true
  | .syncEdge _ => true
  | .syncoForward _ => true
  | .syncMissing _ => true
  | .synchronisingReset _ => true
  | .pwrRequestState _ who value => isWho who && fits 8 value
  | .pwrIdleTimeout _ => true
  | .wakeMl0Signal _ => true
  | .wakeFieldFrame _ island => isIsland island
  | .trigInEdge _ _ finePs => isFine finePs
  | .stateEntered _ => true
  | .unitActivationStart _ unit => isPowerUnit unit
  | .coreTakeover _ quad => isQuad quad
  | .coreCalibrationDone _ quad _ => isQuad quad
  | .prealignResume _ quad => isQuad quad
  | .rxRetiredMaskClear _ who value => isWho who && fits 16 value
  | .trimStore _ => true
  | .interleaveSkewLimit _ path _ => isPath path
  | .rxClip _ group path _ => isGroup group && isPath path
  | .rxBlocker _ path _ => isPath path
  | .rxPathDisable _ who group mask => isWho who && isGroup group && fits 64 mask
  | .rxPathEnable _ who group mask => isWho who && isGroup group && fits 64 mask
  | .firCrossfadeDone _ group => isGroup group
  | .channelizerOverflow _ group path _ => isGroup group && isPath path
  | .settleDone _ group => isGroup group
  | .threshBlockDone _ group path _ _ => isGroup group && isPath path
  | .threshEventWindowEnd _ group path thr => isGroup group && isPath path && isThreshold thr
  | .catalogueFetch _ group catnum ecc => isGroup group && isCatnum catnum && ecc.burst < 4
  | .scrubBurst _ _ => true
  | .catgenMramCopy _ => true
  | .catalogueOpWrite _ hdr body => isHdr hdr && isBody body
  | .catalogueOpClear _ hdr body => isHdr hdr && isBody body
  | .catalogueOpRead _ hdr body => isHdr hdr && isBody body
  | .catalogueOpSetState _ hdr body => isHdr hdr && isBody body
  | .catalogueOpQuery _ hdr body => isHdr hdr && isBody body
  | .catalogueOpComplete done => done.bad.all (· < 2 ^ 30)
  | .slotPlan _ hdr body => isHdr hdr && isBody body
  | .slotPlanDeadline _ group slot => isGroup group && isSlot slot
  | .slotBoundary _ inp => isSlotIn inp
  | .ulDataSend _ seg => isSeg seg
  | .attach _ hdr body => isHdr hdr && isBody body
  | .attachComplete _ reads => reads.entry.burst < 4
  | .refreshWriteback _ group entry => isGroup group && isCatnum entry.catnum && entry.read.burst < 4
  | .apGroupDisable _ who value => isWho who && fits 8 value
  | .apModeDisable _ who group value => isWho who && isGroup group && fits 8 value
  | .sentinelDetection _ seqs num den _ => seqs.length ≤ 4 && seqs.all (· < 4) && num.length == seqs.length && den.length == seqs.length
  | .sentinelHoldoffEnd _ => true
  | .sentinelReplaySend _ n ecc => n ≤ 3008 && ecc.burst < 2 ^ 21
  | .dlPlan _ hdr body => isHdr hdr && isBody body
  | .dlPlanDeadline _ group slot => isGroup group && isSlot slot
  | .dlData _ hdr body => isHdr hdr && isBody body
  | .dlConsume _ group slot _ => isGroup group && isSlot slot
  | .dlCeilingScale _ group slot => isGroup group && isSlot slot
  | .burstStart _ quadrant => isQuadrant quadrant
  | .rampStart _ quadrant => isQuadrant quadrant
  | .burstEnd _ quadrant => isQuadrant quadrant
  | .dlGroupDisable _ who value => isWho who && fits 8 value
  | .synthLock _ synth => isSynth synth
  | .synthCalFail _ synth => isSynth synth
  | .synthUnlock _ synth => isSynth synth
  | .txRequestInstant _ quadrant => isQuadrant quadrant
  | .rfctlEdge _ output _ => isRfctl output
  | .coexReqEdge _ _ => true
  | .coexGrantWithdrawn _ => true
  | .dpdVisit _ quadrant => isQuadrant quadrant
  | .dpdCaptureDone _ path _ _ => isPath path
  | .dpdComputeDone _ path _ _ incs => isPath path && areIncs incs
  | .dpdWarmStore _ path => isPath path
  | .collimRequest _ who value => isWho who && fits 1 value
  | .collimRelease _ res => isCollimResult res
  | .collimWindowEnd _ => true
  | .collimDelayWalkStep _ group path => isGroup group && isPath path
  | .biasParkCommand _ who value => isWho who && fits 8 value
  | .biasWrite _ who output value => isWho who && isBias output && fits 40 value
  | .biasRangeChange _ who group value => isWho who && isBiasGroup group && fits 40 value
  | .biasParkWrite _ who output value => isWho who && isBias output && fits 40 value
  | .biasCurrentLimit _ output => isBias output
  | .hkFrame _ _ _ => true
  | .hkScanConversion _ _ => true
  | .hkLimitWindowEnd _ entry _ => isScanEntry entry
  | .hkCheckConversion _ _ => true
  | .hkScanStart _ who value => isWho who && fits 1 value
  | .hkInjectArm _ who value => isWho who && fits 8 value
  | .hkInjectDisarm _ who value => isWho who && fits 8 value
  | .hkInjectConversion _ _ => true
  | .hkCalRequest _ who value => isWho who && fits 1 value
  | .hkCalPeriodic _ => true
  | .hkCalStart _ => true
  | .hkCalDone _ _ => true
  | .tsaReading _ _ => true
  | .substituteHoldEnd _ => true
  | .thermRestart _ who value => isWho who && fits 8 value
  | .restrictedServiceStart _ island => isIsland island
  | .restrictedServiceTimeout _ => true
  | .ptpSync _ sync => isSync sync
  | .ptpFollowUp _ seqId t1 => isSeqId seqId && isPtpTime t1
  | .ptpDelayResp _ seqId t4 _ => isSeqId seqId && isPtpTime t4
  | .ptpAnnounce _ ann => isAnnounce ann
  | .ptpUnsupportedMessage _ => true
  | .delayReqSend _ _ => true
  | .timeSourceLost _ cause => isLossCause cause
  | .steppedClear _ => true
  | .timeSetTime _ who seconds fraction => isWho who && isSeconds seconds && isFraction fraction
  | .timePpsNextSeconds _ who value => isWho who && fits 64 value
  | .ppsInEdge _ finePs => isFine finePs
  | .ppsMissing _ => true
  | .ppsOutEdge _ => true
  | .ppsOutPulseEnd _ => true
  | .straitTimeExchange _ exch => isExchange exch
  | .ephWrite _ who body => isWho who && isEphBody body
  | .ephCancel _ who index => isWho who && isEphIndexOrFree index
  | .ephPrepare _ index => isEphIndex index
  | .ephWake _ index => isEphIndex index
  | .ephSleep _ index => isEphIndex index
  | .sleepTakeEffect _ => true
  | .ephHandover _ index => isEphIndex index
  | .ephChart _ index => isEphIndex index
  | .ephCollimate _ index => isEphIndex index
  | .ephSyncReset _ index => isEphIndex index
  | .ephTransitArm _ index => isEphIndex index
  | .ephTransitCondition _ index _ => isEphIndex index
  | .ephTransitClose _ index _ => isEphIndex index
  | .ephHkInject _ index => isEphIndex index
  | .ephTxEnable _ index => isEphIndex index
  | .ephTxDisable _ index => isEphIndex index
  | .ephFirmwareActivate _ index => isEphIndex index
  | .laneDetectStep _ lane => isLane lane
  | .laneTerminationFound _ lane => isLane lane
  | .laneTrainDone _ lane => isLane lane
  | .laneLockDone _ lane => isLane lane
  | .laneCapsDone _ lane record => isLane lane && isCaps record
  | .laneStageTimeout _ lane => isLane lane
  | .laneWaitEnd _ lane => isLane lane
  | .laneLossOfSignal _ lane => isLane lane
  | .laneMarkerLoss _ lane => isLane lane
  | .laneFrame _ lane bits => isLane lane && isFrameBits bits
  | .laneErrorSecond _ => true
  | .laneMaxRateWrite _ who port value => isWho who && isPort port && fits 8 value
  | .laneMarginScan _ who value => isWho who && fits 32 value
  | .laneMarginScanDone _ lane _ _ => isLane lane
  | .creditReceive _ port unit => isPort port && isUnit8 unit
  | .creditSend _ port vc => isPort port && isChannel vc
  | .heartbeatReceive _ hdr body => isHdr hdr && isBody body
  | .heartbeatSend _ port => isPort port
  | .partnerSilent _ => true
  | .eventSend _ _ => true
  | .telemetrySend _ => true
  | .captureDataSend _ => true
  | .mainlandTrustClear _ who => isWho who
  | .discoverRequest _ hdr => isHdr hdr
  | .discoverReport _ hdr body => isHdr hdr && isBody body
  | .assign _ hdr body => isHdr hdr && isBody body
  | .assignApply _ => true
  | .routedForward _ hdr msgType hops body => isHdr hdr && isCount msgType && isCount hops && isBody body
  | .planVerdict _ hdr body => isHdr hdr && isBody body
  | .verdictDeadline _ group slot _ => isGroup group && isSlot slot
  | .reduce _ hdr body => isHdr hdr && isBody body
  | .reductionWindowClose _ group slot => isGroup group && isSlot slot
  | .syncStamp _ hdr body _ => isHdr hdr && isBody body
  | .dmaStart _ who channel addr => isWho who && isDma channel && fits 40 addr
  | .dmaAbort _ who mask => isWho who && fits 16 mask
  | .dmaContinue _ who mask => isWho who && fits 16 mask
  | .dmaDisable _ who mask _ => isWho who && fits 16 mask
  | .dmaEnable _ who mask => isWho who && fits 16 mask
  | .dmaQueueTurn _ => true
  | .dmaDescriptorDone _ channel _ => isDma channel
  | .transitArm _ who value => isWho who && fits 1 value
  | .transitForce _ who value _ => isWho who && fits 1 value
  | .transitSendRecord _ who value => isWho who && fits 32 value
  | .transitEnableClear _ who _ => isWho who
  | .transitCondOccurrence _ cond _ _ _ => isCondition cond
  | .transitStateTimeout _ => true
  | .transitRecordComplete _ phase _ => isPhase phase
  | .transitRearmEnd _ => true
  | .trigOutPulseEnd _ => true
  | .almanacRead _ req item => isReq req && isItem item
  | .almanacWrite _ req item => isReq req && isItem item
  | .almanacReadBlock _ req items => isReq req && areItems items
  | .almanacWriteBlock _ req items => isReq req && areItems items
  | .survey _ req => isReq req
  | .sessionOpen _ req item => isReq req && isItem item
  | .sessionProve _ req item _ _ => isReq req && isItem item
  | .sessionClose _ req => isReq req
  | .storeChart _ req => isReq req
  | .storeChartDone _ => true
  | .chartSelect _ who value => isWho who && fits 8 value
  | .chartLoadDone _ => true
  | .chartDeferredApply _ => true
  | .fieldRequestSegment _ island transfer segment data => isIsland island && isTransfer transfer && isSegment segment && isSegmentData data
  | .fieldAbort _ island transfer => isIsland island && isTransfer transfer
  | .fieldSegmentTimeout _ => true
  | .fieldHeartbeatReceive _ island => isIsland island
  | .fieldHeartbeatSend _ => true
  | .fieldEventSend _ => true
  | .fieldBusOff _ tec rec_ => isCount tec && isCount rec_
  | .fieldErrorPassive _ tec rec_ => isCount tec && isCount rec_
  | .sessionChallengeTimeout _ handle => isHandle handle
  | .sessionIdleTimeout _ handle => isHandle handle
  | .sessionLockoutEnd _ port => isSessionPort port
  | .fuseKeyProgram _ who _ _ => isWho who
  | .fuseKeyRevoke _ who value => isWho who && fits 8 value
  | .lifecycleAdvance _ who value => isWho who && fits 16 value
  | .debugUnlockToken _ who _ _ _ => isWho who
  | .auditReadFrom _ who value => isWho who && fits 32 value
  | .updBegin _ who => isWho who
  | .updChunk _ who chunk data => isWho who && isChunk chunk && isChunkData data
  | .updVerify _ who => isWho who
  | .updVerifyDone _ _ _ => true
  | .updAbandon _ who => isWho who
  | .updConfirm _ who => isWho who
  | .updRevert _ who => isWho who
  | .activationStart _ => true
  | .activationStepDone _ _ => true
  | .updAutoConfirm _ => true
  | .eventPendingClear _ who value => isWho who && isMask16 value
  | .eventLogReadFrom _ who value => isWho who && fits 32 value
  | .bgStarved _ activity => isActivity activity
  | .bgRecovered _ activity => isActivity activity
  | .riptideStart _ who => isWho who
  | .riptideStop _ who => isWho who
  | .riptideExpire _ => true
  | .riptideLaneDown _ who value => isWho who && fits 32 value
  | .riptideReorderRelease _ => true
  | .coexGntEdge _ _ => true
  | .fieldBusOffRecovery _ => true
  | .fieldErrorActive _ tec rec_ => isCount tec && isCount rec_
  | .holdoverBoundGrowth _ => true

end Sys2Proof
end

