-- ==== Sys2Proof/Safety.lean ====
section
/-!
DEFINITION. The terms claims are stated in: what a good state is, what it means that a command acts, that an event was raised, and
which parameters the recording of events moves by itself.
-/

namespace Sys2Proof.Machine

/-- Every event place within its size (R589, R642, R644), and the log never longer than what was ever written to it. -/
def Places.ok (p : Places) : Bool :=
  p.ml.length ≤ mlCap && p.fieldQ.length ≤ fieldCap && p.deep.length ≤ deepCap && p.recent.length ≤ recentCap &&
    p.log.length ≤ logCap && p.log.length ≤ p.logged

/-- A good state: memory in its canonical form, every event place within its size, nothing left to do to the places. -/
def State.Inv (s : State) : Prop := s.mem.wf = true ∧ s.places.ok = true ∧ s.dev.flush = 0

/-- A parameter that raising or delivering an event may change by itself: EventSeq, EventCount, EventPending, EventDropCount,
EventLogWrapCount, NvmDeferredDiscardCount (R403, R639 to R644), and the injected slots an event triggers (R379 to R382). -/
def evKey (k : Nat) : Bool :=
  k == P.eventSeq || (P.eventCount ≤ k && k < P.eventCount + 128) || (P.eventPending ≤ k && k < P.eventPending + 16) ||
    (P.eventDropCount ≤ k && k < P.eventDropCount + 3) || k == P.eventLogWrapCount || k == P.nvmDeferredDiscardCount ||
    k == P.hkInjectDropCount || (P.hkInjectState ≤ k && k < P.hkInjectState + 4)

/-- EVn with this argument stands among the events raised on the present edge (R639). -/
def Raised (d : Dev) (n arg : Nat) : Prop := ∃ e ∈ d.edge, e.n = n ∧ e.arg = arg % 2 ^ 17

/-- A value of a parameter. -/
def State.a (s : State) (k : Nat) : Nat := s.dev.a k

/-- The device at the instant a command acts: the clocks have moved on and the events of earlier edges are delivered. -/
def State.at_ (s : State) (dt : Nat) : Dev := (s.arrive dt).dev

/-- The device without what time, the record of events and what leaves it change in every command: the clocks, the parameters
(which claims name one by one), bookkeeping of event rates, the events of the edge, what left, the deferral buffer. -/
def Dev.bare (d : Dev) : Dev := { d with clk := {}, alm := [], aux := [], edge := [], out := [], nvm := {}, flush := 0 }

/-- A command completes with a next state of which `post` holds, and leaves the queue alone. -/
def Does (c : Instr) (s : State) (post : State → Prop) : Prop :=
  ∃ t, exec c s = .next t ∧ t.pending = s.pending ∧ post t

/-- As `Does`, and memory stands as it was. -/
def DoesDev (c : Instr) (s : State) (post : State → Prop) : Prop := Does c s (fun t => t.mem = s.mem ∧ post t)

/-- As `DoesDev`, with its frame: no parameter changes but the listed ones and those of `evKey`, and nothing of the device but
what `part` erases. -/
def Acts (c : Instr) (s : State) (keys : List Nat) (part : Dev → Dev) (post : State → Prop) : Prop :=
  DoesDev c s (fun t =>
    (∀ k, evKey k = false → k ∉ keys → t.a k = s.a k) ∧ part t.dev.bare = part s.dev.bare ∧ post t)

/-- The keys of `n` entries of a parameter. -/
def span (k n : Nat) : List Nat := (List.range n).map (k + ·)

/-- A counter that stays within its width counts. -/
def Counted (s t : State) (k n : Nat) : Prop := s.a k + n < 2 ^ keyBits k → t.a k = s.a k + n

/-- The tables of fixed size have their size: lanes, ports with four channels each, quads, groups, quadrants, synthesisers, paths,
limits, sensors, DMA channels, handles, Charts, key slots, components, background activities. -/
def Dev.shaped (d : Dev) : Bool :=
  d.lane.length == 24 && d.port.length == 5 && d.port.all (fun p => p.ch.length == 4) && d.rx.quads.length == 16 &&
    d.rx.zero.length == 2 && d.rx.zeroAt.length == 2 && d.rx.fade.length == 2 && d.dl.burst.length == 4 && d.syn.fails.length == 12 &&
    d.syn.commit.length == 12 && d.syn.tried.length == 12 && d.syn.change.length == 12 && d.dpd.quads.length == 4 &&
    d.dpd.paths.length == 64 && d.dpd.modes.length == 4 && d.col.delays.length == 128 && d.hk.lims.length == 64 &&
    d.thm.sens.length == 16 && d.dma.ch.length == 16 && d.ses.h.length == 4 && d.ses.fails.length == 2 && d.ses.lockTill.length == 2 &&
    d.cha.recs.length == 4 && d.fus.keys.length == 12 && d.fus.rollback.length == 4 && d.upd.run.length == 4 && d.rip.count.length == 4 &&
    d.bg.length == 8 && d.rx.upAt.length == 2 && d.rx.trims.length == 144 && d.rx.trimRec.length == 144 &&
    d.rx.onStored.length == 144 && d.syn.since.length == 12 && d.nvm.before.all (fun b => b.trims.length == 144)

/-- No Riptide rule can act on a message now (R649, R650). -/
def Dev.quiet (d : Dev) : Bool := !d.ripOn || (List.range 4).all (fun i => bits (d.a (P.riptideRules + i)) 35 32 == 0)

/-- What a message put on a port looks like from outside. -/
def Dev.msgOut (d : Dev) (p : Nat) (m : Msg) : Out := .msg p (d.chan p m.vc).seqOut true m

/-- A message with this header, type and body length is taken: no Riptide rule acts, and it passes the checks of R476 to R484. -/
def State.hears (s : State) (dt : Nat) (h : Hdr) (t len : Nat) (resp : Bool := false) : Bool :=
  (s.at_ dt).quiet && (((s.at_ dt).ripPass false h.port h.vc).rxCheck h t len resp).2

/-- The device once the message is taken and its credit units are free. -/
def State.heard (s : State) (dt : Nat) (h : Hdr) (t len : Nat) (resp : Bool := false) : Dev :=
  ((((s.at_ dt).ripPass false h.port h.vc).rxCheck h t len resp).1).freeUnits h.port h.vc (msgUnits len)

/-- The Ephemeris entry fires with an action that is not held back, no entry due being before it (R436, R441, R442). -/
def State.fires (s : State) (dt i n : Nat) (e : EphEnt) : Bool :=
  (s.at_ dt).ephAt i == some e && e.action == n && (s.at_ dt).ephDue e && (s.at_ dt).ephFirst i e && !(s.at_ dt).ephHeld

/-- The response of the device to a message of a port. -/
def Dev.reply (d : Dev) (p type : Nat) (body : List Byte) : Msg :=
  d.mkMsg p (if p = 0 then d.island else 0xFE) 1 type true body

/-- A message has left on a port, or waits there for credit. -/
def Dev.Sent (d : Dev) (p : Nat) (m : Msg) : Prop := (∃ q, Out.msg p q true m ∈ d.out) ∨ m ∈ (d.port.getD p {}).wait

/-- The port and channel an Almanac operation comes in on, as Riptide and the credit know them. -/
def Dev.opPort (d : Dev) (o : AlmOp) : Nat := if o.port = 0 then d.egress else 5
def AlmOp.vc (o : AlmOp) : Nat := if o.port = 0 then 2 else 0

/-- An Almanac operation reaches the device and is served at once (R493, R573). -/
def Dev.serves (d : Dev) (o : AlmOp) : Bool := d.quiet && d.rip.held.isEmpty && d.opServed o

/-- The device an operation of a session runs on: its message is received, its handle used. -/
def Dev.desk (d : Dev) (o : AlmOp) : Dev :=
  let d := (d.ripPass false (d.opPort o) o.vc).mgmtIn o true
  let d := if o.port = 0 then d else { d with fld := { transfer := some o.id, answering := true } }
  d.sesUsed o.ses

/-- The device an operation that arrives runs on. -/
def State.desk (s : State) (dt : Nat) (o : AlmOp) : Dev := (s.at_ dt).desk o

/-- A write in an open session that no rule refuses (R569, R570, R610). -/
def Dev.accepts (d : Dev) (m : Memory) (o : AlmOp) : Bool :=
  let e := d.desk o
  let pf := if o.items.any (fun x => itemId x == keyId P.debugUnlockToken) then o.aux.proof.getD ([], false) else ([], false)
  d.serves o && (d.sesOn o.port o.ses).any (fun y =>
    e.auditRoom (o.items.filter itemProtected).length && e.auditRoom (auditNeed o.items) && (e.writeRefused m o y.role (4 * y.role + y.slot) pf).isNone)

/-- The write of one item that a row of its own stands for. -/
def State.rowOp (s : State) (dt : Nat) (w : Who) (x : Item) (aux : OpAux) : AlmOp :=
  { port := w.port, ses := w.ses, id := ((s.at_ dt).free 742 32).1, op := 2, n := 1, items := [x], aux := aux }

/-- It is accepted. -/
def State.takes (s : State) (dt : Nat) (w : Who) (x : Item) (aux : OpAux) : Bool :=
  ((s.at_ dt).free 742 32).2.accepts s.mem (s.rowOp dt w x aux)

/-- A parameter that the coming, counting, auditing and answering of an operation may change by itself: audit and operation counts,
the message counts and credit of the Mainland, Riptide's counts. -/
def replyKey (k : Nat) : Bool :=
  k == P.auditSeq || k == P.auditWrapCount || k == P.almanacOpCount || k == P.almanacRefusedCount || k == P.mlPartnerState ||
    (P.mlRxMessageCount ≤ k && k < P.mlRxMessageCount + 4) || (P.mlTxMessageCount ≤ k && k < P.mlTxMessageCount + 4) ||
    (P.mlTxCreditAvailable ≤ k && k < P.mlTxCreditAvailable + 4) || (P.riptideActionCount ≤ k && k < P.riptideActionCount + 4)

end Sys2Proof.Machine
end

