-- ==== Sys2Proof/Certificates/Slice0/Obligations.lean ====
section
/-!
DEFINITION. What the provers are to prove. `Sys2Proof.Claims` holds one clause per command: under hypotheses on the state and the
operands alone the command answers a next state, of which the clause says what it holds; the obligations join clauses of one part
of the device.
-/

namespace Sys2Proof.Claims

open Sys2Proof Sys2Proof.Machine

/-! ### Rules stated whole -/

/-- A row write reaches the write checks in an open session, of a role that may write the parameter. -/
def comesToWrite (s : State) (dt : Nat) (w : Who) (x : Item) (y : Ses) : Prop :=
  let o := s.rowOp dt w x {}
  let d := ((s.at_ dt).free 742 32).2
  d.serves o = true ∧ d.sesOn w.port w.ses = some y ∧ itemStatus y.role true x = 0 ∧ s.dev.pwr.phase ≠ .restricted

/-- R38: ResetCommand takes effect only with 0xA5, acknowledged before the reset; any other value is refused and changes nothing but
the counts of the operation. Behind the answer a reset drives pins to their inactive levels. -/
def resetValue : Prop := ∀ (s : State) (dt value : Nat) (w : Who) (y : Ses),
  let o := s.rowOp dt w (writeItem P.resetCommand 0 [value]) {}
  let d := ((s.at_ dt).free 742 32).2.desk o
  value < 256 → comesToWrite s dt w (writeItem P.resetCommand 0 [value]) y →
  Does (.resetCommand dt w value) s (fun t =>
    (value = 0xA5 → t.dev.pwr.kind = 3 ∧ t.dev.pwr.phase = (if s.dev.clk.onLpo then .waitRefclk else .booting) ∧
      ∃ l : List Out, (∀ x ∈ l, ∃ p b, x = .pin p b) ∧
        t.dev.out = ((d.countOp 0).answer w.port o.id (resultOf 0 0xFF 1 [])).out ++ l) ∧
    (value ≠ 0xA5 → t.mem = s.mem ∧ t.dev.pwr.phase = s.dev.pwr.phase ∧ t.dev.pwr.kind = s.dev.pwr.kind ∧
      t.dev.out = ((d.countOp 5).answer w.port o.id (resultOf 5 0 1 [])).out ∧
      ∀ k, evKey k = false → replyKey k = false → t.a k = s.a k))

/-- R62: in thermal shutdown no wake cause has an effect: what the device holds of its power state (but since when it idles), what is shown of it and the wake cause stand. -/
def wakesInShutdown : Prop := ∀ (s : State) (dt : Nat) (c : Instr), (s.dev.pwr.phase = .shutdown ∨ s.dev.pwr.phase = .restricted) →
  (c = .wakeMl0Signal dt ∨ (∃ i, c = .wakeFieldFrame dt i) ∨ (∃ l f, c = .trigInEdge dt l f) ∨
    (∃ sq num den b, c = .sentinelDetection dt sq num den b) ∨ (∃ i, c = .ephWake dt i)) →
  DoesDev c s (fun t => t.dev.pwr = { s.dev.pwr with idleSince := t.dev.pwr.idleSince } ∧ t.a P.pwrState = s.a P.pwrState ∧ t.a P.pwrActiveMask = s.a P.pwrActiveMask ∧
    t.a P.wakeLastSource = s.a P.wakeLastSource)

/-- R229: a detection sets the hold-off to SentinelHoldoff us from its declaration, and until then none is declared. -/
def holdoff : Prop := ∀ (s : State) (dt back : Nat) (sq num den : List Nat),
  let d := s.at_ dt
  let ms := metricsOf sq num den
  DoesDev (.sentinelDetection dt sq num den back) s (fun t =>
    (d.now < s.dev.sen.holdTill → t.dev.sen = s.dev.sen ∧ ∀ k, evKey k = false → t.a k = s.a k) ∧
    (d.up = true → s.dev.sen.startAt.isSome = true → s.dev.sen.holdTill ≤ d.now → (d.detects ms back).isSome = true →
      t.dev.sen.holdTill = d.now + s.a P.sentinelHoldoff * 10 ^ 6))

/-- R405: with the junction outside 0 to 85 degrees C no command that programs fuses changes one. -/
def fuseTemperature : Prop := ∀ (s : State) (dt v : Nat) (w : Who) (b r : List Byte) (j : Int) (c : Instr),
  s.dev.thm.junction = some j → (j < 0 ∨ 850 < j) → (s.at_ dt).quiet = true → s.dev.rip.held = [] →
  (c = .fuseKeyProgram dt w b r ∨ c = .fuseKeyRevoke dt w v ∨ c = .lifecycleAdvance dt w v ∨ c = .updConfirm dt w ∨ c = .updAutoConfirm dt) →
  DoesDev c s (fun t => t.dev.fus = s.dev.fus)

/-- R570: a write that is refused changes nothing but what counting, auditing and answering it takes. -/
def refusedWrite : Prop := ∀ (s : State) (dt : Nat) (q : Req) (l : List Item) (y : Ses) (r : OpEnd),
  let o := reqOp q 4 l
  let d := s.at_ dt
  1 ≤ l.length → l.length ≤ 64 → d.serves o = true → d.sesOn q.port q.ses = some y →
  (l.any (fun x => itemId x == keyId P.debugUnlockToken)) = false →
  (d.desk o).writeRefused s.mem o y.role (4 * y.role + y.slot) ([], false) = some r →
  let rest (d : Dev) : Dev := { d.bare with
    aud := [], ses := {}, port := [], mgmt := [], fld := {}, rip := {}, pwr := { d.pwr with idleSince := none } }
  DoesDev (.almanacWriteBlock dt q l) s (fun t =>
    rest t.dev = rest s.dev ∧
    ∀ k, evKey k = false → replyKey k = false → k ∉ [P.ephWriteRefusedCount, P.ephLateRejectedCount, P.ledgerRefusedCount] →
      t.a k = s.a k)

/-- R341: a COLLIMATE entry that fires while a window is open opens no second window and starts no second run; the window extends to
the later end. -/
def collimateOnce : Prop := ∀ (s : State) (dt i a b : Nat) (e : EphEnt), s.fires dt i 5 e → s.dev.col.win = some (a, b) →
  DoesDev (.ephCollimate dt i) s (fun t =>
    t.dev.col.win = some (a, max b (e.ns + 1000 * (e.arg % 2 ^ 24))) ∧ t.dev.col.run = s.dev.col.run)

/-! ### Supplies, resets and boot (02_supplies_clocks_sleep.md, 12_bias_outputs.md R360, R361) -/

/-- R36: a power-on reset loses time, the Ephemeris, package memory and SRAM; the outputs are clamped (R359). A rise of VDD_AON
finds PWR_OK low (R26) and holds the device in reset. -/
def powerOnReset : Prop := ∀ (s : State) (dt : Nat) (br rt : Bool),
  Does (.powerOnReset dt br rt) s (fun t =>
    t.dev.pwr.kind = 0 ∧ t.dev.tim = {} ∧ t.dev.eph = {} ∧ (∀ i, i < 80 → t.a (P.biasOutputState + i) = 0) ∧
    (br = false → t.dev.pwr.phase = .inReset ∧ t.dev.pwr.pwrOk = false ∧ t.a P.railStatus = 1) ∧
    (∀ a, a < ipmEnd → t.mem.get a = unlisted a) ∧
    (∀ a, ipmEnd ≤ a → ¬ (sramRetLo ≤ a ∧ a < sramEnd) → t.mem.get a = s.mem.get a))

/-- R27, R31, R35: every rail is within limits; with RESET_N high this is the release of reset. -/
def pwrOkRise : Prop := ∀ (s : State) (dt : Nat),
  Acts (.pwrOkRise dt) s [P.railStatus] (fun d => { d with pwr := {} }) (fun t =>
    t.dev.pwr.pwrOk = true ∧ t.a P.railStatus = 2 ^ 25 - 1 ∧
    (s.dev.pwr.phase = .inReset → s.dev.pwr.resetN = true →
      t.dev.pwr.phase = if s.dev.clk.onLpo then .waitRefclk else .booting) ∧
    (¬ (s.dev.pwr.phase = .inReset ∧ s.dev.pwr.resetN = true) → t.dev.pwr.phase = s.dev.pwr.phase))

/-- R29, R36: outputs that are not clamped park, the device holds itself in reset, package memory is lost. -/
def pwrOkFall : Prop := ∀ (s : State) (dt : Nat), s.dev.pwr.pwrOk = true → s.dev.pwr.phase ≠ .inReset →
  Does (.pwrOkFall dt) s (fun t =>
    t.dev.pwr.pwrOk = false ∧ t.dev.pwr.phase = .inReset ∧ t.dev.pwr.kind = 1 ∧
    (∀ i, i < 80 → t.a (P.biasOutputState + i) = if s.a (P.biasOutputState + i) = 0 then 0 else 1) ∧
    t.a P.pwrActiveMask = 0 ∧ (∀ a, a < ipmEnd → t.mem.get a = unlisted a))

/-- R32, R36: RESET_N low resets the device; one that is in reset stays there with its kind. -/
def resetNAssert : Prop := ∀ (s : State) (dt : Nat),
  Does (.resetNAssert dt) s (fun t =>
    t.dev.pwr.resetN = false ∧ t.dev.pwr.phase = .inReset ∧
    (s.dev.pwr.phase ≠ .inReset → t.dev.pwr.kind = 1 ∧ t.dev.tim = {} ∧ t.dev.eph = {} ∧
      (∀ a, a < ipmEnd → t.mem.get a = unlisted a)) ∧
    (s.dev.pwr.phase = .inReset → t.dev.pwr.kind = s.dev.pwr.kind ∧ t.mem = s.mem))

/-- R31, R35. -/
def resetNRelease : Prop := ∀ (s : State) (dt : Nat),
  Acts (.resetNRelease dt) s [] (fun d => { d with pwr := {} }) (fun t =>
    t.dev.pwr.resetN = true ∧
    (s.dev.pwr.phase = .inReset → s.dev.pwr.pwrOk = true →
      t.dev.pwr.phase = if s.dev.clk.onLpo then .waitRefclk else .booting) ∧
    (¬ (s.dev.pwr.phase = .inReset ∧ s.dev.pwr.pwrOk = true) → t.dev.pwr.phase = s.dev.pwr.phase))

/-- R30: a brownout of VDD_CORE is a reset of the RESET_N class that the boot will report. -/
def coreBrownout : Prop := ∀ (s : State) (dt : Nat), s.dev.pwr.pwrOk = true → s.dev.pwr.phase ≠ .inReset →
  Does (.coreBrownout dt) s (fun t =>
    t.dev.pwr.kind = 1 ∧ t.dev.pwr.brownout = true ∧ t.dev.tim = {} ∧ t.dev.eph = {} ∧
    (t.dev.pwr.phase = if s.dev.pwr.resetN then (if s.dev.clk.onLpo then .waitRefclk else .booting) else .inReset) ∧
    (∀ a, a < ipmEnd → t.mem.get a = unlisted a))

/-- R36, R362: outputs park and a warm reset begins, which keeps package memory, the Ephemeris table and time. -/
def watchdogExpiry : Prop := ∀ (s : State) (dt : Nat), (s.at_ dt).up = true →
  Does (.watchdogExpiry dt) s (fun t =>
    t.dev.pwr.kind = 2 ∧ (t.dev.pwr.phase = if s.dev.clk.onLpo then .waitRefclk else .booting) ∧
    t.dev.eph.ent = s.dev.eph.ent ∧ t.dev.tim.valid = s.dev.tim.valid ∧
    (∀ i, i < 80 → t.a (P.biasOutputState + i) = if s.a (P.biasOutputState + i) = 0 then 0 else 1) ∧
    (∀ a, a < ipmEnd → t.mem.get a = s.mem.get a))

/-- R34, R505: the pins are sampled once after a reset that samples them. -/
def chartPinsSample : Prop := ∀ (s : State) (dt chart : Nat) (rootLow : Bool),
  s.dev.pwr.phase = .booting → s.dev.samplesPins = true → s.dev.pwr.sampled = false →
  Acts (.chartPinsSample dt chart rootLow) s [P.chartPinsSampled, P.archRoot, P.archIslandNumber] (fun d => { d with pwr := {} }) (fun t =>
    t.dev.pwr.sampled = true ∧ t.a P.chartPinsSampled = chart % 4 ∧ t.a P.archRoot = b2n rootLow ∧
    (rootLow = true → t.a P.archIslandNumber = 0) ∧ (rootLow = false → t.a P.archIslandNumber ≠ 0))

/-- R141: initialisation ends with MemState 0, or 2 and EV10. -/
def packageMemoryInitDone : Prop := ∀ (s : State) (dt : Nat) (ok : Bool),
  s.dev.pwr.phase = .booting → s.dev.losesMem = true → s.dev.pwr.memDone = false →
  Acts (.packageMemoryInitDone dt ok) s [P.memState] (fun d => { d with pwr := {} }) (fun t =>
    t.dev.pwr.memDone = true ∧ (ok = true → t.a P.memState = 0) ∧ (ok = false → t.a P.memState = 2 ∧ Raised t.dev 10 0))

/-- R33, R603: at boot completion of a device in MAKER or FIELD whose confirmed images pass the boot's own actions run (`Dev.bootRun`). -/
def bootComplete : Prop := ∀ (s : State) (dt : Nat) (b : BootIn),
  (s.at_ dt).bootReady = true → (s.dev.fus.lifecycle = 1 ∨ s.dev.fus.lifecycle = 2) → s.a P.updStage = 0 →
  (∀ c, c < 4 → imagePasses b.images c (s.dev.upd.slots.getD c 0) = true) →
  let d := ((({ s.at_ dt with upd := { (s.at_ dt).upd with schema := b.schema } } : Dev).bootStage s.mem).bootImages s.mem b.images).1
  Does (.bootComplete dt b) s (fun t =>
    d.upd.run = [0, 1, 2, 3].map (fun c => imageOf (s.mem.imageHeader c (s.dev.upd.slots.getD c 0))) ∧
      d.a P.updStage = 0 ∧ d.pwr = s.dev.pwr ∧
      t = (s.arrive dt).leave (d.bootRun s.mem (s.arrive dt).places b).1
        (s.mem.applyAll (d.bootRun s.mem (s.arrive dt).places b).2) ∧
      (s.dev.pwr.railBad = 0 → s.dev.thm.shut = false → t.dev.pwr.phase = .running))

/-- R637: 10 s after the last attempt the boot ROM checks the images again; where they pass the boot goes on. -/
def bootRetry : Prop := ∀ (s : State) (dt : Nat) (images : List ImageCheck),
  s.dev.pwr.phase = .noImage → (s.dev.fus.lifecycle = 1 ∨ s.dev.fus.lifecycle = 2) →
  s.dev.pwr.releasedAt + 10 ^ 13 ≤ (s.at_ dt).now →
  DoesDev (.bootRetry dt images) s (fun t =>
    t.dev.pwr.releasedAt = (s.at_ dt).now ∧
    t.dev.pwr.phase = if ((s.at_ dt).bootImages s.mem images).2 then .booting else .noImage)

/-- R360: each group whose stored values pass and whose supply gives the headroom leaves CLAMPED for PARKED; another stays. -/
def biasParkLoad : Prop := ∀ (s : State) (dt : Nat) (stored headroom : List Bool),
  s.dev.pwr.pwrOk = true → s.dev.pwr.biasDone = false →
  DoesDev (.biasParkLoad dt stored headroom) s (fun t =>
    t.dev.pwr.biasDone = true ∧
    ∀ i, i < 80 → t.a (P.biasOutputState + i) =
      if stored.getD (i / 16) true = true ∧ headroom.getD (i / 16) true = true ∧ s.a (P.biasOutputState + i) = 0 then 1
      else s.a (P.biasOutputState + i))

/-- R361, R366: with PWR_OK low the clamp engages on every output; a CLAMPED output shows code 0xFFFF. -/
def biasClampEngage : Prop := ∀ (s : State) (dt : Nat), s.dev.pwr.pwrOk = false →
  Acts (.biasClampEngage dt) s (span P.biasOutputState 80 ++ span P.biasOutputCode 80) id (fun t =>
    ∀ i, i < 80 → t.a (P.biasOutputState + i) = 0 ∧ t.a (P.biasOutputCode + i) = 0xFFFF)

/-- R30: the rail's bit falls; outside a boot the outputs park with EV60 cause 2, EV9 names the rail and no unit stays ACTIVE. -/
def railFault : Prop := ∀ (s : State) (dt rail : Nat),
  isRail rail = true → s.dev.pwr.pwrOk = true → bit s.dev.pwr.railBad rail = false →
  Does (.railFault dt rail) s (fun t =>
    bit t.dev.pwr.railBad rail = true ∧ bit (t.a P.railStatus) rail = false ∧
    (s.dev.pwr.phase = .booting → t.mem = s.mem ∧ t.dev.pwr.phase = .booting) ∧
    (s.dev.pwr.phase = .running ∨ s.dev.pwr.phase = .shutdown →
      Raised t.dev 60 (2 + 8 * 31) ∧ Raised t.dev 9 rail ∧ t.a P.pwrActiveMask = 0 ∧
      ∀ i, i < 80 → t.a (P.biasOutputState + i) = if s.a (P.biasOutputState + i) = 0 then 0 else 1))

/-- R30, R363: a rail back within limits; with the last of them cause 2 of every group ends. -/
def railRecovered : Prop := ∀ (s : State) (dt rail : Nat), rail < 25 →
  Acts (.railRecovered dt rail) s (P.railStatus :: span P.biasParkCause 5) (fun d => { d with pwr := {} }) (fun t =>
    bit t.dev.pwr.railBad rail = false ∧ bit (t.a P.railStatus) rail = true ∧
    (s.dev.pwr.railBad ≠ 0 → t.dev.pwr.railBad = 0 → ∀ g, g < 5 → bit (t.a (P.biasParkCause + g)) 1 = false))

/-- R44, R46: the LPO takes over; a device that runs leaves every unit's ACTIVE with EV3, and a boot waits for REFCLK (R35). -/
def refclkLost : Prop := ∀ (s : State) (dt : Nat), s.dev.clk.onLpo = false →
  Does (.refclkLost dt) s (fun t =>
    t.dev.clk.onLpo = true ∧ t.a P.refclkState = 1 ∧
    (s.dev.pwr.phase = .booting → t.mem = s.mem ∧ t.dev.pwr.phase = .waitRefclk) ∧
    (s.dev.pwr.phase = .running → Raised t.dev 3 0 ∧ t.a P.pwrActiveMask = 0) ∧
    (s.dev.pwr.phase = .shutdown → t.mem = s.mem ∧ Raised t.dev 3 0))

/-- R35, R45: REFCLK runs the always-on domain again and HOLDOVER is set; a boot that waited begins, else EV4 carries the seconds. -/
def refclkRestored : Prop := ∀ (s : State) (dt : Nat), s.dev.clk.onLpo = true → s.dev.eph.ent = [] →
  DoesDev (.refclkRestored dt) s (fun t =>
    t.dev.clk.onLpo = false ∧ t.a P.refclkState = 0 ∧ t.dev.tim.holdover = true ∧
    (s.dev.pwr.phase = .waitRefclk → t.dev.pwr.phase = .booting) ∧
    (s.dev.pwr.phase = .running → Raised t.dev 4 (sat 131071 (((s.at_ dt).now - s.dev.pwr.lpoSince) / 10 ^ 12))))

/-- R47: the loss of lock of a PLL that runs is declared; without the converter PLL no burst and no Collimation run goes on. -/
def pllUnlock : Prop := ∀ (s : State) (dt : Nat) (conv : Bool), (s.at_ dt).up = true → s.dev.pllBad conv = false →
  Does (.pllUnlock dt conv) s (fun t =>
    t.dev.pllBad conv = true ∧ Raised t.dev 5 (b2n conv) ∧
    (conv = true → t.mem = s.mem ∧ t.dev.col.run = none ∧ ∀ q, q < 4 → (t.dev.burst q).st ≠ 2))

/-- R47: lock is declared again. -/
def pllRelock : Prop := ∀ (s : State) (dt : Nat) (conv : Bool), s.dev.pllBad conv = true → s.dev.eph.ent = [] →
  DoesDev (.pllRelock dt conv) s (fun t => t.dev.pllBad conv = false ∧ Raised t.dev 5 (b2n conv + 2))

/-- R40, R47: a failed relock is repeated at most twice; the third is followed by a command reset. -/
def pllRelockFail : Prop := ∀ (s : State) (dt : Nat) (conv : Bool), s.dev.pllBad conv = true →
  Does (.pllRelockFail dt conv) s (fun t =>
    (s.dev.pllTries conv < 2 → t.mem = s.mem ∧ t.dev.pllTries conv = s.dev.pllTries conv + 1 ∧ t.dev.pllBad conv = true) ∧
    (2 ≤ s.dev.pllTries conv → t.dev.pwr.kind = 3 ∧ t.dev.pwr.relockFail = true ∧
      t.dev.pwr.phase = if s.dev.clk.onLpo then .waitRefclk else .booting))

/-- R48, R49: an accepted SYNC edge is stamped; SYNCO forwards it 30 ns later where enabled, and with SyncAction 1 a synchronising
reset follows 100 ns later. -/
def syncEdge : Prop := ∀ (s : State) (dt : Nat), s.dev.clk.onLpo = false → s.dev.pwr.phase = .running →
  DoesDev (.syncEdge dt) s (fun t =>
    t.dev.pwr.syncLast = some (s.at_ dt).now ∧ t.dev.pwr.syncMissed = 0 ∧
    (s.a P.syncoEnable = 1 → t.dev.pwr.syncoPend = s.dev.pwr.syncoPend ++ [(s.at_ dt).now + 30000]) ∧
    (s.a P.syncAction = 1 → s.a P.pwrState ≠ 0 → t.dev.pwr.syncPend = some ((s.at_ dt).now + 100000)))

/-- R48: SYNCO is driven three periods after the sampling edge. -/
def syncoForward : Prop := ∀ (s : State) (dt at_ : Nat) (rest : List Nat), s.dev.pwr.syncoPend = at_ :: rest → at_ ≤ (s.at_ dt).now →
  Acts (.syncoForward dt) s [] (fun d => { d with pwr := {} }) (fun t =>
    t.dev.pwr.syncoPend = rest ∧ (s.a P.syncoEnable = 1 → t.dev.out = [.pin .synco true]) ∧ (s.a P.syncoEnable ≠ 1 → t.dev.out = []))

/-- R51: EV8 carries the periods missed since the last accepted edge. -/
def syncMissing : Prop := ∀ (s : State) (dt last : Nat), s.dev.pwr.syncLast = some last → s.a P.syncExpectPeriod ≠ 0 →
  last + (s.dev.pwr.syncMissed + 1) * s.a P.syncExpectPeriod * 10 ^ 6 + 10 ^ 6 ≤ (s.at_ dt).now →
  Acts (.syncMissing dt) s [] (fun d => { d with pwr := {} }) (fun t =>
    t.dev.pwr.syncMissed = s.dev.pwr.syncMissed + 1 ∧ Raised t.dev 8 (sat 131071 (s.dev.pwr.syncMissed + 1)))

/-- R58: idle for PwrIdleTimeout, the device goes to PwrIdleState: WATCH begins with the synthesisers WATCH does not run going off. -/
def pwrIdleTimeout : Prop := ∀ (s : State) (dt since : Nat),
  s.dev.pwr.phase = .running → s.a P.pwrIdleTimeout ≠ 0 → s.dev.pwr.idleSince = some since →
  since + s.a P.pwrIdleTimeout * 10 ^ 6 ≤ (s.at_ dt).now → (s.at_ dt).idleNow = true → s.dev.pwr.jobs = [] → s.dev.pwr.base = 2 →
  s.a P.pwrIdleState = 1 →
  DoesDev (.pwrIdleTimeout dt) s (fun t => t.dev.pwr.jobs.any (fun j => j.kind == 3 && j.arg == 1) = true)

/-- R59, R61: in DEEP an enabled cause begins the way to READY and is recorded. -/
def wakeMl0Signal : Prop := ∀ (s : State) (dt : Nat),
  s.dev.mayWake = true → bit (s.a P.wakeSourceMask) 3 = true → s.a P.pwrActiveMask = 0 → s.dev.pwr.base = 0 → s.dev.pwr.jobs = [] →
  Acts (.wakeMl0Signal dt) s [P.wakeLastSource] (fun d => { d with pwr := {} }) (fun t =>
    t.a P.wakeLastSource = 3 ∧ t.dev.pwr.jobs = [⟨0, 2, (s.at_ dt).now⟩])

/-- R59, R60: so does a FIELD frame that names the island. -/
def wakeFieldFrame : Prop := ∀ (s : State) (dt island : Nat),
  s.dev.mayWake = true → bit (s.a P.wakeSourceMask) 2 = true → s.a P.pwrActiveMask = 0 → s.dev.pwr.base = 0 → s.dev.pwr.jobs = [] →
  s.dev.numbered = true → s.a P.fieldEnable = 1 → island = s.dev.island →
  Acts (.wakeFieldFrame dt island) s [P.wakeLastSource] (fun d => { d with pwr := {} }) (fun t =>
    t.a P.wakeLastSource = 2 ∧ t.dev.pwr.jobs = [⟨0, 2, (s.at_ dt).now⟩])

/-- R59, R379: in DEEP a rising edge is a wake cause. -/
def trigInEdge : Prop := ∀ (s : State) (dt finePs : Nat),
  s.dev.mayWake = true → bit (s.a P.wakeSourceMask) 4 = true → s.a P.pwrActiveMask = 0 → s.dev.pwr.base = 0 → s.dev.pwr.jobs = [] →
  s.dev.traSt ≠ 1 →
  DoesDev (.trigInEdge dt true finePs) s (fun t =>
    t.a P.wakeLastSource = 4 ∧ t.dev.pwr.jobs = [⟨0, 2, (s.at_ dt).now⟩])

/-- R67: the oldest transition completes. Units that have left ACTIVE: EV6 with what runs now. DEEP: SRAM outside the retention
bank is lost (R53) and nothing else of memory. -/
def stateEntered : Prop := ∀ (s : State) (dt : Nat) (j : Job) (rest : List Job), s.dev.pwr.jobs = j :: rest →
  Does (.stateEntered dt) s (fun t =>
    (j.kind = 2 → t.mem = s.mem ∧ t.dev.pwr.jobs = rest ∧ Raised t.dev 6 (s.a P.pwrState + 4 * s.a P.pwrActiveMask)) ∧
    (j.kind = 3 → j.arg = 0 → ∀ a, t.mem.get a = if sramGenLo ≤ a ∧ a < sramEnd then unlisted a else s.mem.get a) ∧
    (¬ (3 ≤ j.kind ∧ j.arg = 0) → t.mem = s.mem))

/-- R55: a unit whose instant has come begins its way into ACTIVE from READY. -/
def unitActivationStart : Prop := ∀ (s : State) (dt unit : Nat),
  unit < 6 → (s.at_ dt).up = true → (s.at_ dt).unitDue unit = true → s.dev.active unit = false → bit s.dev.bringing unit = false →
  (2 ≤ unit → s.dev.txHeld (unit - 2) = false) → s.dev.pwr.jobs = [] → s.dev.pwr.base = 2 →
  DoesDev (.unitActivationStart dt unit) s (fun t => t.dev.pwr.jobs = [⟨1, unit, (s.at_ dt).now⟩])

/-- R38: an accepted write of 0xA5 is acknowledged and resets the device as a command reset. -/
def resetCommand : Prop := ∀ (s : State) (dt : Nat) (w : Who),
  s.takes dt w (writeItem P.resetCommand 0 [0xA5]) {} →
  Does (.resetCommand dt w 0xA5) s (fun t =>
    t.dev.pwr.kind = 3 ∧ t.dev.pwr.phase = (if s.dev.clk.onLpo then .waitRefclk else .booting) ∧
    (∀ i, i < 80 → t.a (P.biasOutputState + i) = if s.a (P.biasOutputState + i) = 0 then 0 else 1) ∧
    (∀ a, a < ipmEnd → t.mem.get a = s.mem.get a))

/-- R66, R68: a request for a higher state begins the way up; one for READY from READY nothing; one for a lower state waits where units
are ACTIVE. -/
def pwrRequestState : Prop := ∀ (s : State) (dt value : Nat) (w : Who),
  s.takes dt w (writeItem P.pwrRequestState 0 [value]) {} → s.dev.pwr.base = 2 → s.dev.pwr.jobs = [] →
  Does (.pwrRequestState dt w value) s (fun t =>
    (value = 2 → t.dev.pwr.jobs = [] ∧ t.dev.pwr.sleepTo = none ∧ t.a P.pwrState = s.a P.pwrState) ∧
    (value < 2 → s.a P.pwrActiveMask ≠ 0 → t.dev.pwr.sleepTo = some value ∧ t.a P.pwrActiveMask = s.a P.pwrActiveMask) ∧
    (value = 1 → s.a P.pwrActiveMask = 0 → s.dev.bringing = 0 → s.dev.col.win = none → s.dev.sen.win = none →
      t.dev.pwr.jobs.any (fun j => j.kind == 3 && j.arg == 1) = true))

/-! ### Receive paths, filters and channelizer (03_receive_paths.md, 04_filters_channelizer.md) -/

/-- R131: the reset a SYNC edge asked for acts 100 ns after it: it is counted, the ring restarts at record 0, EV27 carries the
groups that run. R132: a hand-over due by then commits first; the reset waits for it. -/
def synchronisingReset : Prop := ∀ (s : State) (dt at_ : Nat),
  let d := s.at_ dt
  let first := !d.ephHeld && d.eph.ent.any (fun x => x.2.action == 3 && d.ephDue x.2 && d.ephInstant x.2 ≤ at_)
  s.dev.pwr.syncPend = some at_ → at_ ≤ d.now → s.a P.pwrState ≠ 0 → s.a P.syncResetCount + 1 < 2 ^ 32 →
  DoesDev (.synchronisingReset dt) s (fun t =>
    (first = false → t.dev.pwr.syncPend = none ∧ t.a P.syncResetCount = s.a P.syncResetCount + 1 ∧
      t.a P.sentinelRingWriteIndex = 0 ∧ Raised t.dev 27 s.dev.groupsRunning ∧ t.dev.col.run = none) ∧
    (first = true → t.dev.pwr.syncPend = some at_ ∧ t.a P.syncResetCount = s.a P.syncResetCount))

/-- R82: the pre-aligned core takes the target role over, the core it frees takes the spare role. -/
def coreTakeover : Prop := ∀ (s : State) (dt u : Nat),
  u < 16 → (s.at_ dt).up = true → (s.dev.rx.quads.getD u {}).stage = 2 → (s.dev.rx.quads.getD u {}).target < 8 →
  bit (s.dev.rolesRun u) (s.dev.rx.quads.getD u {}).target = true →
  (s.at_ dt).roleSettling u (s.dev.rx.quads.getD u {}).target = false → s.dev.shaped = true →
  DoesDev (.coreTakeover dt u) s (fun t =>
    t.dev.coreOf u (s.dev.rx.quads.getD u {}).target = s.dev.coreOf u 8 ∧
    t.dev.coreOf u 8 = s.dev.coreOf u (s.dev.rx.quads.getD u {}).target)

/-- R86 to R88: a core whose residuals all lie within the limits has passed and is pre-aligned; a failure is repeated, and the third in
a row retires the core with EV20. -/
def coreCalibrationDone : Prop := ∀ (s : State) (dt u : Nat) (res : CoreResult),
  let pass := decide (res.offsetI.natAbs ≤ 2000 ∧ res.offsetQ.natAbs ≤ 2000 ∧ res.gain.natAbs ≤ 50 ∧ res.phase.natAbs ≤ 500 ∧
    res.skew.natAbs ≤ 1000 ∧ res.inl.natAbs ≤ 1500)
  u < 16 → (s.at_ dt).up = true → (s.dev.rx.quads.getD u {}).stage = 1 → s.dev.shaped = true →
  DoesDev (.coreCalibrationDone dt u res) s (fun t =>
    (pass = true → (t.dev.rx.quads.getD u {}).stage = 2 ∧ (t.dev.rx.quads.getD u {}).fails = 0) ∧
    (pass = false → (s.dev.rx.quads.getD u {}).fails < 2 →
      (t.dev.rx.quads.getD u {}).stage = 1 ∧ (t.dev.rx.quads.getD u {}).fails = (s.dev.rx.quads.getD u {}).fails + 1) ∧
    (pass = false → 2 ≤ (s.dev.rx.quads.getD u {}).fails →
      (t.dev.rx.quads.getD u {}).stage = 4 ∧ bit (t.a P.rxRetiredMask) u = true ∧
      Raised t.dev 20 (u + 16 * s.dev.coreOf u 8)))

/-- R85: an abandoned pre-alignment is repeated once the SETTLE interval has ended. -/
def prealignResume : Prop := ∀ (s : State) (dt u : Nat),
  (s.at_ dt).up = true → (s.dev.rx.quads.getD u {}).stage = 3 → s.dev.shaped = true →
  (s.at_ dt).roleSettling u (s.dev.rx.quads.getD u {}).target = false →
  Acts (.prealignResume dt u) s [] (fun d => { d with rx := {} }) (fun t =>
    (t.dev.rx.quads.getD u {}).stage = 2 ∧ ∀ v, v ≠ u → t.dev.rx.quads.getD v {} = s.dev.rx.quads.getD v {})

/-- R90: ConvTrimStorePeriod seconds after the last store the trims of every core go to MRAM as the next record of the pair. -/
def trimStore : Prop := ∀ (s : State) (dt : Nat), (s.at_ dt).up = true → (s.at_ dt).nvm.deferring = false →
  s.dev.rx.trimAt + s.a P.convTrimStorePeriod * 10 ^ 12 ≤ (s.at_ dt).now →
  Acts (.trimStore dt) s [] (fun d => { d with rx := {} }) (fun t =>
    t.dev.rx = { s.dev.rx with trimSeq := s.dev.rx.trimSeq + 1, trimRec := s.dev.rx.trims, trimAt := (s.at_ dt).now })

/-- R95: EV21 for a skew above the limit, where none was raised for the path within 1 s. -/
def interleaveSkewLimit : Prop := ∀ (s : State) (dt path skew : Nat),
  s.dev.wide = true → s.dev.active 0 = true → s.dev.powered 0 path = true → s.a P.interleaveSkewLimit < skew →
  (s.dev.x (rateKey 21 path) = 0 ∨ s.dev.x (rateKey 21 path) - 1 + 10 ^ 12 ≤ (s.at_ dt).now) →
  Acts (.interleaveSkewLimit dt path skew) s [] id (fun t => Raised t.dev 21 (path + 64 * sat 2047 skew))

/-- R96: clipped samples are counted, saturating (R101). -/
def rxClip : Prop := ∀ (s : State) (dt group path samples : Nat),
  isGroup group = true → isPath path = true → samples ≠ 0 → s.dev.chainRuns group path = true →
  Acts (.rxClip dt group path samples) s [gk P.rxClipCountA group + path] id (fun t =>
    t.a (gk P.rxClipCountA group + path) =
      if s.a (gk P.rxClipCountA group + path) + samples < 2 ^ keyBits (gk P.rxClipCountA group + path)
      then s.a (gk P.rxClipCountA group + path) + samples else 2 ^ keyBits (gk P.rxClipCountA group + path) - 1)

/-- R97: EV31 for a power above the threshold, where none was raised for the path within 1 ms. -/
def rxBlocker : Prop := ∀ (s : State) (dt path power : Nat),
  (s.at_ dt).up = true → s.a P.rxBlockerThreshold < power →
  (s.dev.x (rateKey 31 path) = 0 ∨ s.dev.x (rateKey 31 path) - 1 + 10 ^ 9 ≤ (s.at_ dt).now) →
  Acts (.rxBlocker dt path power) s [] id (fun t => Raised t.dev 31 (path + 64 * sat 2047 (power - s.a P.rxBlockerThreshold)))

/-- R116: with output 255 of the cross-fade the new bank is ACTIVE and the old IDLE, with EV24. -/
def firCrossfadeDone : Prop := ∀ (s : State) (dt group old began : Nat),
  isGroup group = true → s.dev.rx.fade.getD group none = some (old, began) → (s.at_ dt).fadeOutput group began 255 ≤ (s.at_ dt).now →
  old < 4 → s.a (gk P.firBankActiveA group) < 4 → old ≠ s.a (gk P.firBankActiveA group) →
  Acts (.firCrossfadeDone dt group) s (span (gk P.firBankStateA group) 4) (fun d => { d with rx := {} }) (fun t =>
    t.a (gk P.firBankStateA group + old) = 0 ∧ t.a (gk P.firBankStateA group + s.a (gk P.firBankActiveA group)) = 1 ∧
    Raised t.dev 24 (group * 65536 + s.a (gk P.firBankActiveA group)))

/-- R122: saturated bin samples are counted, saturating. -/
def channelizerOverflow : Prop := ∀ (s : State) (dt group path samples : Nat),
  isGroup group = true → samples ≠ 0 → s.dev.chainRuns group path = true →
  Acts (.channelizerOverflow dt group path samples) s [gk P.chanOverflowCountA group] id (fun t =>
    t.a (gk P.chanOverflowCountA group) =
      if s.a (gk P.chanOverflowCountA group) + samples < 2 ^ keyBits (gk P.chanOverflowCountA group)
      then s.a (gk P.chanOverflowCountA group) + samples else 2 ^ keyBits (gk P.chanOverflowCountA group) - 1)

/-- R130: the first bin instant with no SETTLE raises EV18 with the cause of the start, once. -/
def settleDone : Prop := ∀ (s : State) (dt group start cause : Nat),
  isGroup group = true → s.dev.rx.zero.getD group none = some (start, cause) → s.dev.active group = true →
  start ≤ (s.at_ dt).newestBin group → (s.at_ dt).groupClear group = true →
  Acts (.settleDone dt group) s [] (fun d => { d with rx := {} }) (fun t =>
    t.dev.rx.zero.getD group none = none ∧ Raised t.dev 18 (group * 65536 + cause))

/-- R133, R134: a block moves both thresholds of the chain: ABOVE at or over the rise level, BELOW under the fall level, else as before. A
path that contributes nothing has power 0; a block of another with SETTLE or CAL moves nothing. -/
def threshBlockDone : Prop := ∀ (s : State) (dt group path power : Nat) (tagged : Bool),
  isGroup group = true → isPath path = true → s.dev.groupExists group = true →
  (s.dev.active group = true ∨ s.dev.chainRuns group path = true) → (s.at_ dt).blockDue group path = true →
  let on := bit (s.dev.contrib group) path
  let sum := if on then power else 0
  let spoilt := (tagged || (s.at_ dt).blockSettling group path) && on
  DoesDev (.threshBlockDone dt group path power tagged) s (fun t => ∀ i, i < 2 →
    (spoilt = true → t.a (threshKey group i) = s.a (threshKey group i)) ∧
    (spoilt = false → bit (t.a (threshKey group i)) path =
      if atLeastLevel (s.a (gk P.threshWindowA group)) sum (s.a (gk P.threshRiseA group + i)) then true
      else if atLeastLevel (s.a (gk P.threshWindowA group)) sum (s.a (gk P.threshFallA group + i))
      then bit (s.a (threshKey group i)) path else false))

/-- R135: a state that differs from the one last reported is reported 1 ms after that. -/
def threshEventWindowEnd : Prop := ∀ (s : State) (dt group path thr : Nat),
  isGroup group = true →
  s.dev.x (auxKey 2 (128 * group + 2 * path + thr)) ≠ 0 →
  s.dev.x (auxKey 2 (128 * group + 2 * path + thr)) / 2 - 1 + 10 ^ 9 ≤ (s.at_ dt).now →
  bit (s.a (threshKey group thr)) path ≠ (s.dev.x (auxKey 2 (128 * group + 2 * path + thr)) % 2 == 1) →
  Acts (.threshEventWindowEnd dt group path thr) s [] id (fun t =>
    Raised t.dev (22 + group) (path + 64 * thr + 128 * b2n (bit (s.a (threshKey group thr)) path)))

/-- R98, R99: an accepted mask is in force; with the group not ACTIVE a cleared path contributes no more, else it stops at the end of the
slot. -/
def rxPathDisable : Prop := ∀ (s : State) (dt group mask : Nat) (w : Who),
  isGroup group = true → mask < 2 ^ 64 → s.takes dt w (writeItem (gk P.rxPathEnableA group) 0 [mask]) {} →
  DoesDev (.rxPathDisable dt w group mask) s (fun t =>
    t.a (gk P.rxPathEnableA group) = mask ∧
    (s.dev.groupExists group = true → s.dev.active group = false → ∀ p, p < 64 →
      bit (s.a (gk P.rxPathEnableA group)) p = true → bit mask p = false → bit (t.dev.eff group) p = false) ∧
    (s.dev.groupExists group = true → s.dev.active group = true → ∀ p, p < 64 →
      bit (s.a (gk P.rxPathEnableA group)) p = true → bit mask p = false →
      bit (t.dev.offs group) p = true ∧ bit (t.dev.eff group) p = bit (s.dev.eff group) p))

/-- R99: an accepted mask is in force; a path set in it starts its settle count. -/
def rxPathEnable : Prop := ∀ (s : State) (dt group mask : Nat) (w : Who),
  isGroup group = true → mask < 2 ^ 64 → s.takes dt w (writeItem (gk P.rxPathEnableA group) 0 [mask]) {} →
  DoesDev (.rxPathEnable dt w group mask) s (fun t =>
    t.a (gk P.rxPathEnableA group) = mask ∧
    (s.dev.groupExists group = true → ∀ p, p < 64 →
      bit (s.a (gk P.rxPathEnableA group)) p = false → bit mask p = true → t.dev.rx.starts.any (fun x => x.1 == 64 * group + p) = true))

/-- R88: an accepted mask clears bits of RxRetiredMask; the core of such a quad returns to the spare role at the quad's next step, which
begins as soon as a role runs (R81). -/
def rxRetiredMaskClear : Prop := ∀ (s : State) (dt value : Nat) (w : Who),
  value < 2 ^ 16 → s.takes dt w (writeItem P.rxRetiredMask 0 [value]) {} →
  s.dev.shaped = true →
  DoesDev (.rxRetiredMaskClear dt w value) s (fun t => t.a P.rxRetiredMask = value ∧
    ∀ u, u < 16 → bit (s.a P.rxRetiredMask) u = true → bit value u = false →
      (s.dev.rolesRun u = 0 → (t.dev.rx.quads.getD u {}).stage = 5) ∧
      (s.dev.rolesRun u ≠ 0 → (t.dev.rx.quads.getD u {}).stage = 1 ∧
        t.dev.coreOf u 8 = ((List.range 9).find? (fun c => !(List.range 8).any (fun k => s.dev.coreOf u k == c))).getD 0xF))

/-! ### Package memory and the Catalogue (05_package_memory_catalogue.md) -/

/-- R149, R161, R162: the entry is fetched for the slot; one that cannot be read becomes STALE and counts as a miss. -/
def catalogueFetch : Prop := ∀ (s : State) (dt g c slot burst : Nat) (ecc : Ecc),
  (s.at_ dt).fetchSlot g c = some slot → s.a P.memState = 0 → c < 2 ^ 23 → s.mem.wf = true →
  Does (.catalogueFetch dt g c ⟨ecc, burst⟩) s (fun t =>
    let good := ecc ≠ .uncorrectable ∧ entCat (s.mem.entry c) = c
    t.dev.ul.fetched.any (fun f => f.slot == slot && f.group == g && f.cat == c) = true ∧
    (good → t.mem = s.mem ∧ t.dev.ul.fetched = s.dev.ul.fetched ++ [⟨slot, g, c, s.mem.entry c, entMiss (s.mem.entry c) g, (s.at_ dt).now⟩]) ∧
    (¬ good → t.mem.entry c = setGen (bareEntry c stStale 0) (s.a P.catGeneration + 1) ∧
      t.a P.catGeneration = (s.a P.catGeneration + 1) % 2 ^ 64 ∧
      (∀ f ∈ t.dev.ul.fetched, f.slot = slot → f.cat = c → f.miss = true) ∧
      ∀ a, ¬ (128 * c ≤ a ∧ a < 128 * c + 128) → t.mem.get a = s.mem.get a))

/-- R152, R153: one burst is read and the position moves on; the end of package memory ends the pass with EV47. -/
def scrubBurst : Prop := ∀ (s : State) (dt : Nat), (s.at_ dt).up = true → s.a P.memState = 0 →
  Acts (.scrubBurst dt .ok) s [P.memScrubPosition, P.memScrubPassCount] (fun d => { d with cat := {} }) (fun t =>
    (s.a P.memScrubPosition + 32 < ipmEnd → t.a P.memScrubPosition = s.a P.memScrubPosition + 32 ∧ t.dev.cat = s.dev.cat) ∧
    (ipmEnd ≤ s.a P.memScrubPosition + 32 → t.a P.memScrubPosition = 0 ∧ Counted s t P.memScrubPassCount 1 ∧
      Raised t.dev 47 (sat 131071 s.dev.cat.scrubFound)))

/-- R150: a corrected burst is counted. -/
def scrubCorrected : Prop := ∀ (s : State) (dt : Nat), (s.at_ dt).up = true → s.a P.memState = 0 →
  s.a P.memScrubPosition + 32 < ipmEnd →
  Acts (.scrubBurst dt .corrected) s [P.memScrubPosition, P.memCorrectedCount] (fun d => { d with cat := {} }) (fun t =>
    Counted s t P.memCorrectedCount 1 ∧ t.dev.cat.scrubFound = s.dev.cat.scrubFound + 1)

/-- R151 to R153: a burst that cannot be corrected is reported with EV36; one of the Catalogue makes its entry STALE, another is
rewritten as zero. -/
def scrubUncorrectable : Prop := ∀ (s : State) (dt : Nat), (s.at_ dt).up = true → s.a P.memState = 0 →
  let a := s.a P.memScrubPosition
  a < ipmEnd → a % 32 = 0 → s.mem.wf = true →
  Does (.scrubBurst dt .uncorrectable) s (fun t =>
    t.a P.memLastUncorrectableAddr = a ∧ Raised t.dev 36 (memRegion a + 8) ∧
    (a < catBytes → t.mem.entry (a / 128) = setGen (bareEntry (a / 128) stStale 0) (s.a P.catGeneration + 1) ∧
      ∀ b, ¬ (a / 128 * 128 ≤ b ∧ b < a / 128 * 128 + 128) → t.mem.get b = s.mem.get b) ∧
    (catBytes ≤ a → ∀ b, t.mem.get b = if a ≤ b ∧ b < a + 32 then 0#8 else s.mem.get b))

/-- R165: CatGeneration goes to MRAM. -/
def catgenMramCopy : Prop := ∀ (s : State) (dt : Nat), (s.at_ dt).up = true → (s.at_ dt).nvm.deferring = false →
  Acts (.catgenMramCopy dt) s [] (fun d => { d with cat := {} }) (fun t =>
    t.dev.cat = { s.dev.cat with genMram := s.a P.catGeneration })

/-- R167, R170: an operation that comes to an empty VC1 waits at its head, or is refused at once with nothing changed but the count
and its response. -/
def catalogueOp (mk : Nat → Hdr → List Byte → Instr) (n : Nat) : Prop :=
  ∀ (s : State) (dt : Nat) (h : Hdr) (body : List Byte),
  s.hears dt h tCatOp body.length → s.dev.cat.vc1 = [] → (catOp body).op = n →
  DoesDev (mk dt h body) s (fun t =>
    ((s.at_ dt).catStatus (catOp body) = 0 →
      t.dev.cat.vc1 = [⟨h.port, h.port != 0 && h.island == 0xFE, tCatOp, body⟩] ∧ t.a P.catOpRefusedCount = s.a P.catOpRefusedCount) ∧
    ((s.at_ dt).catStatus (catOp body) ≠ 0 → t.dev.cat.vc1 = [] ∧ Counted s t P.catOpRefusedCount 1) ∧
    t.a P.catGeneration = s.a P.catGeneration)

/-- R169. -/
def catalogueOpWrite : Prop := catalogueOp Instr.catalogueOpWrite 1
/-- R169. -/
def catalogueOpClear : Prop := catalogueOp Instr.catalogueOpClear 2
/-- R169. -/
def catalogueOpRead : Prop := catalogueOp Instr.catalogueOpRead 3
/-- R169. -/
def catalogueOpSetState : Prop := catalogueOp Instr.catalogueOpSetState 4
/-- R169. -/
def catalogueOpQuery : Prop := catalogueOp Instr.catalogueOpQuery 5

/-- R170 to R172: an accepted operation at the head takes effect on its entries alone, is counted and answered with status 0. WRITE
stores the images, CLEAR leaves EMPTY entries, each with the next generation; SET_STATE changes the state of an entry that is neither
EMPTY nor STALE nor in that state already; READ and QUERY change none. An entry whose read met an uncorrectable burst is STALE
(R151, R162). -/
def catalogueOpComplete : Prop := ∀ (s : State) (dt : Nat) (bad : List Nat) (x : Vc1),
  let o := catOp x.body
  let gen := s.a P.catGeneration
  let hit (c : Nat) : Bool := (o.op == 3 || o.op == 4) && bad.any (fun a => a / 128 == c)
  s.dev.cat.vc1 = [x] → x.type = tCatOp → (s.at_ dt).catStatus o = 0 → x.port < 5 → s.dev.shaped = true →
  (s.at_ dt).quiet = true → s.mem.wf = true →
  Does (.catalogueOpComplete ⟨dt, bad⟩) s (fun t =>
    t.dev.cat.vc1 = [] ∧ Counted s t P.catOpCount 1 ∧
    t.dev.Sent x.port (t.dev.reply x.port tCatOp (t.dev.catResponse o 0 ++
      if o.op = 5 then (t.dev.entries P.catStateCounts 4).flatMap (leBytes 4) else [])) ∧
    (∀ a, ¬ (128 * o.first ≤ a ∧ a < 128 * (o.first + o.count)) → t.mem.get a = s.mem.get a) ∧
    (o.op = 1 ∨ o.op = 2 → t.a P.catGeneration = (gen + o.count) % 2 ^ 64) ∧
    (o.op = 5 → t.mem = s.mem ∧ t.a P.catGeneration = gen) ∧
    ∀ i, i < o.count →
      let c := o.first + i
      let old := s.mem.entry c
      (o.op = 1 → t.mem.entry c = setGen (writeImage old (o.images.getD i [])) (gen + i + 1)) ∧
      (o.op = 2 → t.mem.entry c = setGen (bareEntry c stEmpty 0) (gen + i + 1)) ∧
      (hit c = true → entState (t.mem.entry c) = stStale ∧ entCat (t.mem.entry c) = c) ∧
      (o.op = 3 → hit c = false → t.mem.entry c = old) ∧
      (o.op = 4 → hit c = false →
        if entState old = stEmpty ∨ entState old = stStale ∨ entState old = o.arg then t.mem.entry c = old
        else ∃ g, t.mem.entry c = setGen (setState old o.arg) g))

/-! ### Plans and uplink combining (06_uplink_combining.md, 08_downlink_transmit.md R255 to R261) -/

/-- R193, R194, R197, R693: what the first segment of a plan does that is not late. A plan that is not whole yet waits for the
rest; a whole one that breaks the layout is refused as malformed; a whole one that passes every check takes its place in the queue. -/
def planSegment (dl : Bool) (mk : Nat → Hdr → List Byte → Instr) (ty acc ref : Nat) : Prop :=
  ∀ (s : State) (dt : Nat) (h : Hdr) (body : List Byte),
  let g := segHdr dl body
  let mine (x : PlanPart) : Bool := x.is g.slot g.group false
  let x := ({ slot := g.slot, group := g.group } : PlanPart).add dl g body
  let rest := (s.dev.parts dl).filter (fun y => !mine y)
  let queue (d : Dev) : List Plan := if dl then d.dl.plans else d.ul.plans
  let j := (s.heard dt h ty body.length).setParts dl rest
  s.hears dt h ty body.length → 32 ≤ body.length → s.dev.cat.vc1 = [] → s.a P.redState ≠ 1 → s.a P.redState ≠ 2 →
  (s.dev.parts dl).find? mine = none →
  ((s.at_ dt).tim.valid = true → (s.at_ dt).merNs ≤ (s.at_ dt).deadlineNs dl g.slot g.group) →
  DoesDev (mk dt h body) s (fun t =>
    (x.complete = false → t.dev.parts dl = rest ++ [x] ∧ queue t.dev = queue s.dev) ∧
    (x.complete = true → x.bad = true →
      t.dev.parts dl = rest ∧ queue t.dev = queue s.dev ∧ Counted s t ref 1 ∧
      Raised t.dev 33 (g.group * 65536 + (if dl then 32768 else 0) + 1)) ∧
    (x.complete = true → (if dl then j.dlReason x x.plan else j.ulReason x x.plan) = 0 → j.planTerm dl x.plan = none →
      t.dev.parts dl = rest ∧ Counted s t acc 1 ∧
      queue t.dev = (queue s.dev).filter (fun y => !(y.slot == g.slot && y.group == g.group && y.fwd == false)) ++ [x.plan]))

/-- R190, R193. -/
def slotPlan : Prop := planSegment false Instr.slotPlan tSlotPlan P.apPlanAcceptedCount P.apPlanRefusedCount
/-- R256, R258. -/
def dlPlan : Prop := planSegment true Instr.dlPlan tDlPlan P.dlPlanAcceptedCount P.dlPlanRefusedCount

/-- R194, R259: a plan still incomplete at its deadline is late, or malformed; what still arrives of it is dropped. -/
def planLate (dl : Bool) (mk : Nat → Nat → Nat → Instr) (late ref : Nat) : Prop :=
  ∀ (s : State) (dt g slot : Nat) (x : PlanPart),
  (s.dev.parts dl).find? (fun y => y.is slot g false) = some x → x.late = false →
  (s.at_ dt).tim.valid = true → (s.at_ dt).deadlineNs dl slot g ≤ (s.at_ dt).merNs →
  Acts (mk dt g slot) s [late, ref] (fun d => if dl then { d with dl := {} } else { d with ul := {} }) (fun t =>
    t.dev.parts dl = (s.dev.parts dl).filter (fun y => !y.is slot g false) ++ [{ x with late := true }] ∧
    (x.bad = false → Counted s t late 1) ∧ (x.bad = true → Counted s t ref 1))

/-- R194. -/
def slotPlanDeadline : Prop := planLate false Instr.slotPlanDeadline P.apPlanLateCount P.apPlanRefusedCount
/-- R259. -/
def dlPlanDeadline : Prop := planLate true Instr.dlPlanDeadline P.dlPlanLateCount P.dlPlanRefusedCount

/-- R175, R176, R217: the slot that begins takes its plans into force, and they leave the queue; plans of groups and modes disabled since
are gone. -/
def slotBoundary : Prop := ∀ (s : State) (dt : Nat) (inp : SlotIn),
  let n := (s.at_ dt).slotNow
  let u := s.dev.ul
  let gone (p : Plan) : Bool := u.trustOff || bit u.grpOff p.group ||
    maskAnd 4 p.modes (if p.group = 0 then u.modeOffA else u.modeOffB) != 0
  let goneDl (p : Plan) : Bool := u.trustOff || bit u.dlOff p.group
  (s.at_ dt).up = true → u.slot ≠ some n →
  Does (.slotBoundary dt inp) s (fun t =>
    (u.slot = none → t.mem = s.mem) ∧ t.dev.ul.slot = some n ∧
    t.dev.ul.cur = u.plans.filter (fun p => p.slot == n && !gone p) ∧
    t.dev.ul.plans = u.plans.filter (fun p => decide (n < p.slot) && !gone p) ∧
    t.dev.dl.cur = s.dev.dl.plans.filter (fun p => p.slot == n && !goneDl p))

/-- R203, R208, R486: the next words of a kind that have formed leave as one UL_DATA message where credit allows, and are counted as
sent, after what was gathered from below (R526) and what waits beyond two slots (R208). -/
def ulDataSend : Prop := ∀ (s : State) (dt : Nat) (x : UlSeg) (o : OutKind),
  let d := (s.at_ dt).gatherServe.cleanFollow.holdOutputs
  let m := d.homeMsg 3 0x0B false (d.ulMsg o x.offset 0 (d.ulWords o x))
  (x.kind = 1 → d.reduced x.slot x.group = false) →
  d.ul.outs.find? (fun o => o.slot == x.slot && o.group == x.group && o.kind == x.kind) = some o → x.offset = o.sent →
  x.offset + x.words.length ≤ d.outFormed o → ulShape o.compact x.offset x.words.length = true →
  (o.compact = true → x.words.length % 64 = 0 ∨ x.offset + x.words.length = d.outWords o) →
  d.canSend d.egress m = true → (s.at_ dt).quiet = true →
  DoesDev (.ulDataSend dt x) s (fun t =>
    t.dev.out = d.out ++ [d.msgOut d.egress m] ∧
    t.dev.ul.outs = d.ul.outs.map (fun (y : OutKind) =>
      if y.slot = x.slot ∧ y.group = x.group ∧ y.kind = x.kind then { y with sent := y.sent + x.words.length } else y))

/-- R518: on an island of a reduction tree the words of a PLACED block are its own part of the block, joined to what it had. -/
def ulDataReduced : Prop := ∀ (s : State) (dt : Nat) (x : UlSeg) (r : Red),
  let d := (s.at_ dt).gatherServe.cleanFollow.holdOutputs
  x.kind = 1 → d.reduced x.slot x.group = true → d.redOf x.slot x.group = some r → r.own.length = x.offset →
  x.offset + x.words.length ≤ r.total →
  DoesDev (.ulDataSend dt x) s (fun t =>
    ∃ y ∈ t.dev.arch.red, y.slot = r.slot ∧ y.group = r.group ∧
      y.own = r.own ++ (x.words.zip (List.range x.words.length)).map (fun w => d.ownWord x.slot x.group r.block (x.offset + w.2) w.1))

/-- R167, R209: an ATTACH that comes to an empty VC1 waits at its head. -/
def attach : Prop := ∀ (s : State) (dt : Nat) (h : Hdr) (body : List Byte),
  s.hears dt h tAttach body.length → s.dev.cat.vc1 = [] →
  DoesDev (.attach dt h body) s (fun t =>
    t.dev.cat.vc1 = [⟨h.port, h.port != 0 && h.island == 0xFE, tAttach, body⟩])

/-- R212: the first reason that fails an ATTACH, 0 none: a malformed range, no HOLD of its slot, an overwritten snapshot, none that is
clean and readable, a LOCKED entry, package memory that does not serve. [Log: 92 DEDUCED] -/
def attachReason (s : State) (d : Dev) (r : AttachReq) (unreadable : List Nat) : Nat :=
  if r.count = 0 ∨ 32768 < r.count ∨ d.chanN r.group < r.first + r.count ∨ d.groupExists r.group = false then 1
  else match d.holdFor r with
    | none => 2
    | some h =>
      if (snapsOf h r).any d.overwritten then 3
      else if !(snapsOf h r).any (fun k => !unreadable.contains k && (s.mem.snap k).all cleanTags) then 4
      else if entState (s.mem.entry r.cat) = stLocked then 5
      else if s.a P.memState ≠ 0 then 6 else 0

/-- R209 to R213: an ATTACH that no reason fails stores the signature of its clean snapshots in the entry, ATTACHED and with an empty
history, and is counted, reported and answered; another changes nothing of the Catalogue and is answered with its reason. An entry whose
read fails is written anew (R162). -/
def attachComplete : Prop := ∀ (s : State) (dt : Nat) (unreadable : List Nat) (ecc : Ecc) (burst : Nat) (x : Vc1),
  let r := attachReq x.body
  let d := s.at_ dt
  let why := attachReason s d r unreadable
  let old := s.mem.entry r.cat
  let read : Bool := ecc != .uncorrectable && entCat old == r.cat
  let gen := s.a P.catGeneration + (if read then 1 else 2)
  s.dev.cat.vc1 = [x] → x.type = tAttach → x.port < 5 → s.dev.shaped = true → d.quiet = true → s.mem.wf = true →
  Does (.attachComplete dt ⟨unreadable, ecc, burst⟩) s (fun t =>
    t.dev.cat.vc1 = [] ∧
    (why ≠ 0 → t.mem = s.mem ∧ Counted s t P.apAttachFailCount 1 ∧ Raised t.dev 38 (r.group * 65536 + why) ∧
      t.dev.Sent x.port (t.dev.reply x.port tAttach (t.dev.attachResponse r why 0 0))) ∧
    (why = 0 → ∀ h, d.holdFor r = some h →
      let clean := (((snapsOf h r).filter (fun k => !unreadable.contains k)).map s.mem.snap).filter (fun w => w.all cleanTags)
      let sig := (d.attachSig (clean.take 256)).1
      let base := if read = false ∨ entState old = stEmpty ∨ entState old = stStale then bareEntry r.cat stAttached 0 else old
      Counted s t P.apAttachCount 1 ∧ t.a P.catGeneration = gen % 2 ^ 64 ∧ Raised t.dev 37 (r.group * 65536 + sig.1.length) ∧
      t.mem.entry r.cat = setGen (setHistory (setSig (setState base stAttached) r.group sig.1 sig.2) r.slot 0) gen ∧
      t.dev.Sent x.port (t.dev.reply x.port tAttach (t.dev.attachResponse r 0 sig.1.length sig.2)) ∧
      ∀ a, ¬ (128 * r.cat ≤ a ∧ a < 128 * r.cat + 128) → t.mem.get a = s.mem.get a))

/-- R168, R216: a write-back whose entry reads back unchanged and not LOCKED stores the new signature and counts on in HISTORY; another
is discarded and counted, and an entry whose read fails becomes STALE (R162). -/
def refreshWriteback : Prop := ∀ (s : State) (dt g c burst : Nat) (ecc : Ecc) (r : Refresh),
  let old := s.mem.entry c
  let read : Bool := ecc != .uncorrectable && entCat old == c
  let ok : Bool := read && entGen old == r.gen && entState old != stLocked
  s.dev.ul.refresh.find? (fun x => x.group == g && x.cat == c) = some r → s.a P.memState = 0 → c < 2 ^ 23 → s.mem.wf = true →
  Does (.refreshWriteback dt g ⟨c, ecc, burst⟩) s (fun t =>
    t.dev.ul.refresh = s.dev.ul.refresh.erase r ∧
    (ok = false → Counted s t P.catRefreshDiscardCount 1) ∧
    (read = true → ok = false → t.mem = s.mem ∧ t.a P.catGeneration = s.a P.catGeneration) ∧
    (read = false → t.mem.entry c = setGen (bareEntry c stStale 0) (s.a P.catGeneration + 1)) ∧
    (ok = true → Counted s t P.apRefreshWriteCount 1 ∧
      t.mem.entry c = setGen (setHistory (setSig old g (r.taps.map tapOf) r.resid) r.slot (sat 65535 (field old 8 2 + 1)))
        (s.a P.catGeneration + 1)) ∧
    (read = false ∨ ok = true → t.a P.catGeneration = (s.a P.catGeneration + 1) % 2 ^ 64) ∧
    ∀ a, ¬ (128 * c ≤ a ∧ a < 128 * c + 128) → t.mem.get a = s.mem.get a)

/-- R217: the mask is in force at once for plans to come; the groups it cleared stop at the end of the slot. -/
def apGroupDisable : Prop := ∀ (s : State) (dt value : Nat) (w : Who),
  value < 4 → s.takes dt w (writeItem P.apGroupEnable 0 [value]) {} →
  DoesDev (.apGroupDisable dt w value) s (fun t =>
    t.a P.apGroupEnable = value ∧ t.dev.ul.grpOff = maskOr 2 s.dev.ul.grpOff (maskSub 2 (s.a P.apGroupEnable) value))

/-- R217. -/
def apModeDisable : Prop := ∀ (s : State) (dt group value : Nat) (w : Who),
  isGroup group = true → value < 16 → s.takes dt w (writeItem (gk P.apModeEnableA group) 0 [value]) {} →
  DoesDev (.apModeDisable dt w group value) s (fun t =>
    t.a (gk P.apModeEnableA group) = value ∧
    (group = 0 → t.dev.ul.modeOffA = maskOr 4 s.dev.ul.modeOffA (maskSub 4 (s.a P.apModeEnableA) value)) ∧
    (group = 1 → t.dev.ul.modeOffB = maskOr 4 s.dev.ul.modeOffB (maskSub 4 (s.a P.apModeEnableB) value)))

/-! ### Sentinel watch (07_sentinel_watch.md) -/

/-- R226 to R230: a declared detection is counted, recorded and reported; the hold-off begins. With the sentinel's wake source off
it wakes nothing. -/
def sentinelDetection : Prop := ∀ (s : State) (dt back hi k m : Nat) (sq num den : List Nat),
  let d := s.at_ dt
  let ms := metricsOf sq num den
  d.up = true → s.dev.sen.startAt.isSome = true → s.dev.sen.holdTill ≤ d.now → d.detects ms back = some (hi, k, m) →
  bit (s.a P.wakeSourceMask) 1 = false →
  Acts (.sentinelDetection dt sq num den back) s [P.sentinelDetectCount, P.sentinelLastDetect, P.sentinelLastMetric]
    (fun d => { d with sen := {} }) (fun t =>
      Counted s t P.sentinelDetectCount 1 ∧ t.a P.sentinelLastMetric = m ∧
      t.a P.sentinelLastDetect = d.timeAtPs (d.merPs - (d.now - (hi - d.latched.bandDelay 0))) ∧
      t.dev.sen.holdTill = d.now + s.a P.sentinelHoldoff * 10 ^ 6 ∧
      Raised t.dev 41 (k + 4 * b2n (s.a P.sentinelTriggerMode == 2) + 8 + 16 * m))

/-- R226, R227: in modes 0 and 1 what is declared is the lowest enabled sequence whose metric num / den, at most 1, is
SentinelDetectLevel / 1,024 or more, where no band output of its window carries SETTLE or CAL; the metric reported is 1,023 num / den,
rounded. -/
def detectionRule : Prop := ∀ (d : Dev) (ms : List (Nat × Nat)) (back hi k m : Nat),
  d.a P.sentinelTriggerMode < 2 → d.detects ms back = some (hi, k, m) →
  let meets (i : Nat) : Prop := ∃ num den, ms[i]? = some (num, den) ∧ d.ab P.sentinelSeqEnable i = true ∧ 0 < den ∧ num ≤ den ∧
    d.a P.sentinelDetectLevel * den ≤ 1024 * num ∧ d.metricForms i hi = true
  hi = d.sentinelT back ∧ k < 4 ∧ meets k ∧ (∀ i, i < k → ¬ meets i) ∧
    (∀ num den, ms[k]? = some (num, den) → (m : Int) = rnear (1023 * num : Nat) den) ∧
    (d.a P.sentinelTriggerMode = 1 → d.a P.sentinelGateCount ≤ d.aboveCount)

/-- R234: in WATCH a detection of an enabled source begins the wake of group A. -/
def sentinelWakes : Prop := ∀ (s : State) (dt back : Nat) (sq num den : List Nat),
  let d := s.at_ dt
  let ms := metricsOf sq num den
  d.up = true → s.dev.sen.startAt.isSome = true → s.dev.sen.holdTill ≤ d.now → (d.detects ms back).isSome = true → bit (s.a P.wakeSourceMask) 1 = true →
  s.a P.pwrState = 1 → s.dev.sen.win = none → s.dev.sen.wakeAt = none → d.mayWake = true → s.dev.pwr.jobs = [] →
  DoesDev (.sentinelDetection dt sq num den back) s (fun t =>
    t.dev.sen.wakeAt = some d.now ∧ t.a P.wakeLastSource = 1 ∧ Counted s t P.sentinelWakeCount 1 ∧ Counted s t P.sentinelDetectCount 1)

/-- R229. -/
def sentinelHoldoffEnd : Prop := ∀ (s : State) (dt : Nat), s.dev.sen.holdTill ≤ (s.at_ dt).now →
  Acts (.sentinelHoldoffEnd dt) s [] (fun d => { d with sen := {} }) (fun t => t.dev.sen = { s.dev.sen with holdTill := 0 })

/-- R241 to R243: the next words of a replay leave as one UL_DATA message while no other UL_DATA waits and credit allows; what has left is
no longer held. A burst of the ring that cannot be corrected is reported (R151). -/
def sentinelReplaySend : Prop := ∀ (s : State) (dt n burst : Nat) (ecc : Ecc),
  let d := (s.at_ dt).cleanFollow.holdOutputs
  let p := d.replayPos
  let m := d.homeMsg 3 0x0B false (d.replayMsg p (d.replayWords p n (if ecc = .uncorrectable then some burst else none)))
  d.sen.win.isSome = true → n ≤ d.sen.replay → d.replayLost = false → d.liveWaits = false → d.histShed = false →
  ulShape (s.a P.sentinelWakeCompact == 1) p.offset n = true → p.offset + n ≤ p.instants * p.block →
  d.canSend d.egress m = true → (s.at_ dt).quiet = true →
  DoesDev (.sentinelReplaySend dt n ⟨ecc, burst⟩) s (fun t =>
    t.dev.out = d.out ++ [d.msgOut d.egress m] ∧ t.dev.sen = { d.sen with replay := d.sen.replay - n } ∧
    (ecc = .uncorrectable → t.a P.memLastUncorrectableAddr = 0x6C000000 + 32 * burst))

/-! ### Downlink (08_downlink_transmit.md) -/

/-- R265 to R267: words for an instant of no queued or current plan are orphans; words in time wait for their instant. -/
def dlData : Prop := ∀ (s : State) (dt : Nat) (h : Hdr) (body : List Byte),
  let r := dlDataReq body
  let d := s.at_ dt
  s.hears dt h tDlData body.length → s.a P.redState ≠ 1 → s.a P.redState ≠ 2 →
  DoesDev (.dlData dt h body) s (fun t =>
    (d.slotPlans true r.slot r.group = [] → t.dev.dl = s.dev.dl ∧ Counted s t P.dlDataOrphanCount 1) ∧
    (∀ p, (d.slotPlans true r.slot r.group).head? = some p → ∀ c, d.consumeAt r.slot r.group r.inst = some c →
      ∀ ws, dlWords r p.block = some ws → 32 ≤ body.length → r.compact = p.compact → r.off + r.count ≤ p.block →
      c - 1000000000 ≤ (d.now : Int) → (d.now : Int) ≤ c →
      t.dev.dl = { s.dev.dl with got := s.dev.dl.got ++ [⟨r.slot, r.group, r.inst, r.off, ws, h.port, msgUnits body.length⟩] } ∧
      t.a P.dlDataOrphanCount = s.a P.dlDataOrphanCount))

/-- R268: at its instant the words of an instant block are used up; those that are missing are counted. -/
def dlConsume : Prop := ∀ (s : State) (dt g slot j n : Nat) (p : Plan) (c : Int),
  let d := s.at_ dt
  let mine (b : DlBlk) : Bool := b.slot == slot && b.group == g && b.inst == j
  (d.slotPlans true slot g).head? = some p → d.consumeAt slot g j = some c → c ≤ (d.now : Int) →
  (s.dev.dl.used.find? (fun u => u.1 == slot && u.2.1 == g)).getD (slot, g, 0, 0) = (slot, g, n, j) →
  Acts (.dlConsume dt g slot j) s (P.dlDataMissingCount :: span P.dlClipCount 64) (fun d => { d with dl := {}, port := [] }) (fun t =>
    let missing := p.block - coverage (s.dev.dl.got.filter mine) p.block
    t.dev.dl.got = s.dev.dl.got.filter (fun b => !mine b) ∧ Counted s t P.dlDataMissingCount missing ∧
    t.dev.dl.used = s.dev.dl.used.filter (fun u => !(u.1 == slot && u.2.1 == g)) ++ [(slot, g, n + missing, j + 1)])

/-- R274: the factor of a slot and group is the least ratio of the paths that carry load, in units of 2^-64, and is computed once;
a factor below 1, by more than 2^-44 of it (the model's choice, log entry 17), is counted. -/
def dlCeilingScale : Prop := ∀ (s : State) (dt g slot : Nat) (p : Plan),
  let d := s.at_ dt
  (s.dev.dl.scale.any (fun x => x.1 == slot && x.2.1 == g)) = false → (d.slotPlans true slot g).head? = some p → isGroup g = true →
  Acts (.dlCeilingScale dt g slot) s [gk P.dlLastScaleA g, P.dlScaledSlotCount] (fun d => { d with dl := {} }) (fun t =>
    ∃ num, t.dev.dl = { s.dev.dl with scale := s.dev.dl.scale ++ [(slot, g, num, 2 ^ 64)] } ∧
      (∀ x, some x ∈ d.ceilRatios g slot p.places → num ≤ x) ∧
      (some num ∈ d.ceilRatios g slot p.places ∨ (num = 2 ^ 64 ∧ ∀ r ∈ d.ceilRatios g slot p.places, r = none)) ∧
      (2 ^ 64 ≤ num + num / 2 ^ 44 → t.a (gk P.dlLastScaleA g) = 0 ∧ t.a P.dlScaledSlotCount = s.a P.dlScaledSlotCount) ∧
      (num + num / 2 ^ 44 < 2 ^ 64 → t.a (gk P.dlLastScaleA g) = sat 65535 (dbUp (num + num / 2 ^ 44) 1000) ∧
        Counted s t P.dlScaledSlotCount 1))

/-- R277, R280: at the first sample time of a burst the quadrant emits, or drops it, counted with EV45: it is held out of ACTIVE
(cause 5), its paths are not READY (1, EV51), or the grant is absent (2, EV52). -/
def burstStart : Prop := ∀ (s : State) (dt q : Nat),
  let d := s.at_ dt
  let out := d.active (2 + q) = false ∧ d.txHeld q = true
  q < 4 → s.dev.shaped = true → d.txEmits d.slotNow q = true → (s.dev.burst q).st ≤ 1 →
  DoesDev (.burstStart dt q) s (fun t =>
    (out → (t.dev.burst q).st = 3 ∧ Counted s t (P.dlBurstDropCount + q) 1 ∧ Raised t.dev 45 (q + 4 * 5)) ∧
    (¬ out → d.txReady q = true → d.granted = true →
      (t.dev.burst q).st = 2 ∧ (t.dev.burst q).slot = d.slotNow ∧ (t.dev.burst q).on = d.now ∧ ∀ i, i < 16 → t.a (P.txPathState + 16 * q + i) = 4) ∧
    (¬ out → d.txReady q = false →
      (t.dev.burst q).st = 3 ∧ Counted s t (P.dlBurstDropCount + q) 1 ∧ Raised t.dev 45 (q + 4) ∧ Raised t.dev 51 q) ∧
    (¬ out → d.txReady q = true → d.granted = false →
      (t.dev.burst q).st = 3 ∧ Counted s t (P.dlBurstDropCount + q) 1 ∧ Counted s t P.coexDeniedCount 1 ∧ Raised t.dev 45 (q + 8) ∧
      Raised t.dev 52 q))

/-- R276, R278: a planned slot in which a quadrant emits nothing, for a Collimation window or a group that does not fit, ends its burst
and is reported once. -/
def burstSilent : Prop := ∀ (s : State) (dt q : Nat),
  let d := s.at_ dt
  q < 4 → s.dev.shaped = true → d.txPlanned d.slotNow q = true → d.txEmits d.slotNow q = false → (s.dev.burst q).st ≤ 1 →
  (s.dev.burst q).silent ≠ some d.slotNow →
  DoesDev (.burstStart dt q) s (fun t =>
    (t.dev.burst q).st = 0 ∧ (t.dev.burst q).silent = some d.slotNow ∧ Counted s t (P.dlBurstDropCount + q) 1 ∧
    Raised t.dev 45 (q + 4 * (if d.inCollim d.slotNow then 4 else 3)))

/-- R295, R316: TxRampTime before the planned end the paths of the quadrant are in RAMP, and a capture does not reach into it. -/
def rampStart : Prop := ∀ (s : State) (dt q : Nat),
  let d := s.at_ dt
  q < 4 → s.dev.shaped = true → (s.dev.burst q).st = 2 → d.burstEndAt q d.slotNow ≤ (d.now : Int) + (s.a P.txRampTime * 1000 : Nat) →
  Acts (.rampStart dt q) s (span (P.txPathState + 16 * q) 16 ++ span P.dpdSkipCount 64) (fun d => { d with dl := {}, dpd := {} }) (fun t =>
    (t.dev.burst q).st = 4 ∧ (t.dev.dpdQ q).cap = none ∧ ∀ i, i < 16 → t.a (P.txPathState + 16 * q + i) = 5)

/-- R276, R279: a burst ends at its planned end; after the RAMP of a stop its rest stays dropped. -/
def burstEnd : Prop := ∀ (s : State) (dt q : Nat),
  let d := s.at_ dt
  s.dev.shaped = true →
  DoesDev (.burstEnd dt q) s (fun t =>
    ((s.dev.burst q).st = 5 → (t.dev.burst q).st = 3 ∧ (t.dev.burst q).ended = some d.now) ∧
    ((s.dev.burst q).st = 2 ∨ (s.dev.burst q).st = 4 → d.txEmits d.slotNow q = false →
      (t.dev.burst q).st = 0 ∧ (t.dev.burst q).ended = some d.now))

/-- R281. -/
def dlGroupDisable : Prop := ∀ (s : State) (dt value : Nat) (w : Who),
  value < 4 → s.takes dt w (writeItem P.dlGroupEnable 0 [value]) {} →
  DoesDev (.dlGroupDisable dt w value) s (fun t =>
    t.a P.dlGroupEnable = value ∧ t.dev.ul.dlOff = maskOr 2 s.dev.ul.dlOff (maskSub 2 (s.a P.dlGroupEnable) value))

/-! ### Synthesisers, RF sequencing and coexistence (09_synthesisers_sequencing.md) -/

/-- R286, R289: the synthesiser is LOCKED and no longer counts as FAILED; a lock after a change of channel raises EV48. -/
def synthLock : Prop := ∀ (s : State) (dt k : Nat), k < 12 → s.dev.shaped = true →
  (s.a (P.synthState + k) = 1 ∨ s.a (P.synthState + k) = 2) →
  DoesDev (.synthLock dt k) s (fun t =>
    t.a (P.synthState + k) = 3 ∧ bit (t.a P.synthFailedMask) k = false ∧ t.dev.syn.fails.getD k 0 = 0 ∧
    (s.dev.syn.change.getD k false = true →
      t.a (P.synthLockTime + k) = ((s.at_ dt).now - s.dev.syn.commit.getD k 0) / 1000 ∧
      Raised t.dev 48 (k + 16 * (((s.at_ dt).now - s.dev.syn.commit.getD k 0) / 100000 % 2 ^ 13))))

/-- R288: an attempt that fails is repeated at most twice; after the third the synthesiser is FAILED, with EV50. -/
def synthCalFail : Prop := ∀ (s : State) (dt k : Nat), k < 12 → s.dev.shaped = true →
  (s.a (P.synthState + k) = 1 ∨ s.a (P.synthState + k) = 2) →
  DoesDev (.synthCalFail dt k) s (fun t =>
    t.dev.syn.fails.getD k 0 = s.dev.syn.fails.getD k 0 + 1 ∧
    (s.dev.syn.fails.getD k 0 < 2 → t.a (P.synthState + k) = 1) ∧
    (2 ≤ s.dev.syn.fails.getD k 0 → t.a (P.synthState + k) = 4 ∧ bit (t.a P.synthFailedMask) k = true ∧ Raised t.dev 50 k))

/-- R289, R296: a lost lock is counted and reported, and the synthesiser recalibrates. -/
def synthUnlock : Prop := ∀ (s : State) (dt k : Nat), k < 12 → s.a (P.synthState + k) = 3 →
  DoesDev (.synthUnlock dt k) s (fun t =>
    t.a (P.synthState + k) = 1 ∧ Counted s t (P.synthUnlockCount + k) 1 ∧ Raised t.dev 49 k)

/-- R293, R294: at its request instant a burst is requested; paths that are not READY hold its edges. -/
def txRequestInstant : Prop := ∀ (s : State) (dt q slot : Nat),
  let d := s.at_ dt
  s.dev.shaped = true → d.nextBurst q = some slot → (s.dev.burst q).st = 0 → d.slotStart slot ≤ (d.now : Int) + (d.burstLead q : Nat) →
  Acts (.txRequestInstant dt q) s [] (fun d => { d with dl := {} }) (fun t =>
    (t.dev.burst q).st = 1 ∧ (t.dev.burst q).slot = slot ∧ (t.dev.burst q).held = !d.txReady q ∧
    (∀ v, v ≠ q → t.dev.burst v = s.dev.burst v))

/-- R297, R298: an output stands at the level its sources call for. -/
def rfctlEdge : Prop := ∀ (s : State) (dt i : Nat) (assert : Bool), i < 32 → (s.at_ dt).rfWanted i = assert →
  Acts (.rfctlEdge dt i assert) s [P.rfctlLevels] id (fun t =>
    bit (t.a P.rfctlLevels) i = (assert != bit (s.a (P.rfctlConfig + i)) 2))

/-- R306, R345: COEX_REQ stands as the bursts that hold it ask, or as a probe step of a Collimation run does whose grant was not missing. -/
def coexReqEdge : Prop := ∀ (s : State) (dt : Nat) (assert : Bool),
  let d := s.at_ dt
  let judged : Prop := ∃ t, s.dev.coex.probe = some t ∧ t ≤ d.now ∧ d.grantedAt t = false
  ((s.dev.col.run.isSome = true ∧ s.a P.coexEnable = 1 ∧ (assert = true ∨ ¬ judged)) ∨
    (¬ (s.dev.col.run.isSome = true ∧ s.a P.coexEnable = 1) ∧ [0, 1, 2, 3].any d.coexHolds = assert)) →
  Acts (.coexReqEdge dt assert) s [] (fun d => { d with coex := {} }) (fun t => t.dev.coex.req = assert)

/-- R308: every burst that emits stops, counted, with EV53. -/
def coexGrantWithdrawn : Prop := ∀ (s : State) (dt : Nat),
  let on := maskOf 4 (fun q => (s.dev.burst q).st == 2)
  s.a P.coexEnable = 1 → on ≠ 0 → s.dev.shaped = true →
  DoesDev (.coexGrantWithdrawn dt) s (fun t =>
    (∀ q, q < 4 → bit on q = true → (t.dev.burst q).st = 5) ∧ Counted s t P.coexLostCount (popc 4 on) ∧ Raised t.dev 53 on)

/-- R345, R347: where the grant was not present at the first sample of a probe step, the run is given up with EV58 status 4, at the end of
the step or when COEX_GNT changes: its figures are no longer stale and the record in force stands. -/
def probeWithoutGrant : Prop := ∀ (s : State) (dt t : Nat) (c : Instr), let d := s.at_ dt
  s.dev.col.run.isSome = true → s.dev.coex.probe = some t → t ≤ d.now → d.grantedAt t = false →
  (c = .coexReqEdge dt false ∧ s.a P.coexEnable = 1) ∨ (∃ level, c = .coexGntEdge dt level ∧ s.dev.coex.gnt ≠ level) →
  DoesDev c s (fun u => u.dev.col = { s.dev.col with run := none } ∧ Raised u.dev 58 4 ∧ u.a P.collimFiguresStale = 0 ∧
    u.dev.coex.probe = none)

/-- R308: the level of COEX_GNT and the instant of its change, where no probe step of a Collimation run is given up by it (R345). -/
def coexGntEdge : Prop := ∀ (s : State) (dt : Nat) (level : Bool),
  ¬ (s.dev.col.run.isSome = true ∧ ∃ t, s.dev.coex.probe = some t ∧ t ≤ (s.at_ dt).now ∧ (s.at_ dt).grantedAt t = false) →
  Acts (.coexGntEdge dt level) s [] (fun d => { d with coex := {} }) (fun t =>
    t.dev.coex.gnt = level ∧ (s.dev.coex.gnt ≠ level → t.dev.coex.gntAt = (s.at_ dt).now) ∧ t.dev.coex.req = s.dev.coex.req)

/-! ### Predistortion (10_predistortion.md) -/

/-- R315, R316, R322: once in 2.0 ms of ON time the next visit goes to the path that waits out of turn, else to the next eligible path
of the order. -/
def dpdVisit : Prop := ∀ (s : State) (dt q : Nat),
  let d := s.at_ dt
  let due := 2000000000 ≤ (s.dev.dpdQ q).onTime + (d.now - (s.dev.burst q).on)
  s.dev.shaped = true → (s.dev.burst q).st = 2 → s.dev.dpd.modes.getD q 0 = 2 → (s.dev.dpdQ q).cap = none →
  d.synthSt (3 * q + 2) = 3 →
  Acts (.dpdVisit dt q) s [] (fun d => { d with dpd := {}, dl := {} }) (fun t =>
    (¬ due → t.dev.dpd = s.dev.dpd ∧ t.dev.dl = s.dev.dl) ∧
    (due → (t.dev.dpdQ q).onTime = 0 ∧ t.dev.burst q = { s.dev.burst q with on := d.now }) ∧
    (due → ∀ p, (s.dev.dpdQ q).turn.find? (fun p => bit s.dev.dl.pathEff p) = some p →
      (t.dev.dpdQ q).cap = some (p, d.now) ∧ (t.dev.dpdQ q).last = (s.dev.dpdQ q).last) ∧
    (due → ∀ p, (s.dev.dpdQ q).turn.find? (fun p => bit s.dev.dl.pathEff p) = none → s.dev.nextVisit q = some p →
      (t.dev.dpdQ q).cap = some (p, d.now) ∧ (t.dev.dpdQ q).last = p % 16) ∧
    t.dev.dpd.paths = s.dev.dpd.paths)

/-- R317: a whole capture is skipped where it clipped or is too weak; else the computation begins. -/
def dpdCaptureDone : Prop := ∀ (s : State) (dt p t0 power : Nat) (clipped : Bool),
  p < 64 → s.dev.shaped = true →
  (s.dev.dpdQ (p / 16)).cap = some (p, t0) → t0 + 2 ^ s.a P.dpdCaptureLog2 * 1250 ≤ (s.at_ dt).now →
  Acts (.dpdCaptureDone dt p clipped power) s [P.dpdSkipCount + p] (fun d => { d with dpd := {} }) (fun t =>
    (t.dev.dpdQ (p / 16)).cap = none ∧
    (clipped = true ∨ atLeastLevel (s.a P.dpdCaptureLog2) power (s.a P.dpdMinCapturePower) = false →
      Counted s t (P.dpdSkipCount + p) 1 ∧ t.dev.dpd.paths = s.dev.dpd.paths) ∧
    (clipped = false → atLeastLevel (s.a P.dpdCaptureLog2) power (s.a P.dpdMinCapturePower) = true →
      (t.dev.dpdP p).busy = true ∧ t.a (P.dpdSkipCount + p) = s.a (P.dpdSkipCount + p)))

/-- R314, R318, R320: the new model waits for the slot boundary; a quadrant no longer in mode 2 drops it. -/
def dpdComputeDone : Prop := ∀ (s : State) (dt p aclr : Nat) (nmse : Int) (incs : List (Int × Int)),
  s.dev.shaped = true → (s.dev.dpdP p).busy = true →
  Acts (.dpdComputeDone dt p nmse aclr incs) s [] (fun d => { d with dpd := {} }) (fun t =>
    (t.dev.dpdP p).busy = false ∧
    (s.dev.dpd.modes.getD (p / 16) 0 = 2 → (t.dev.dpdP p).pend = some ((s.at_ dt).newModel p incs, nmseField nmse, aclr)) ∧
    (s.dev.dpd.modes.getD (p / 16) 0 ≠ 2 → (t.dev.dpdP p).pend = (s.dev.dpdP p).pend))

/-- R324, R327: the model is stored as the newer record of its Chart and bin, and the store is counted. -/
def dpdWarmStore : Prop := ∀ (s : State) (dt p : Nat),
  let d := s.at_ dt
  p < 64 → s.dev.shaped = true → d.up = true → (s.dev.dpdP p).updated = true →
  ((s.dev.dpdP p).stored = 0 ∨ (s.dev.dpdP p).stored - 1 + s.a P.dpdStorePeriod * 10 ^ 12 ≤ d.now) → d.nvm.deferring = false →
  Acts (.dpdWarmStore dt p) s [P.dpdStoreCount] (fun d => { d with dpd := {} }) (fun t =>
    Counted s t P.dpdStoreCount 1 ∧ (t.dev.dpdP p).updated = false ∧
    t.dev.dpd.warm.any (fun w => w.path == p && w.chart == s.a P.chartActive % 4 && w.bin == s.dev.binOf (p / 16)
      && w.points == pointsOf (s.dev.entries (modelKey p) 448)) = true)

/-! ### Collimation (11_collimation.md) -/

/-- R335: a request makes Collimation due. -/
def collimRequest : Prop := ∀ (s : State) (dt value : Nat) (w : Who),
  value ≤ 1 → s.takes dt w (writeItem P.collimRequest 0 [value]) {} →
  DoesDev (.collimRequest dt w value) s (fun t =>
    (value = 1 → t.a P.collimRequest = 1 ∧ bit (t.a P.collimDue) 4 = true) ∧ (value = 0 → t.a P.collimDue = s.a P.collimDue))

/-- R346, R354: the new record comes into force and is counted; a run that measured no path is given up with status 3. -/
def collimRelease : Prop := ∀ (s : State) (dt t0 : Nat) (r : CollimResult), s.dev.col.run = some t0 →
  DoesDev (.collimRelease dt r) s (fun t =>
    let some_ := (s.at_ dt).colDidGroup r 0 = true ∨ (s.at_ dt).colDidGroup r 1 = true
    t.dev.col.run = none ∧
    (some_ → t.dev.col.rcd = some ((s.at_ dt).colRecord r) ∧ t.a P.collimRequest = 0 ∧ Counted s t P.collimRunCount 1) ∧
    (¬ some_ → t.dev.col.rcd = s.dev.col.rcd ∧ Counted s t P.collimAbandonCount 1 ∧ Raised t.dev 58 3))

/-- R334: one step of the applied delay toward its target. -/
def collimDelayWalkStep : Prop := ∀ (s : State) (dt g p : Nat), isGroup g = true → isPath p = true → (s.at_ dt).up = true →
  s.dev.shaped = true →
  Acts (.collimDelayWalkStep dt g p) s [P.collimWalkRemaining, P.collimState] (fun d => { d with col := {} }) (fun t =>
    let i := 64 * g + p
    let x := s.dev.col.delays.getD i 0
    t.dev.col.delays.getD i 0 = (if x < s.dev.delayTarget i then x + 1 else if s.dev.delayTarget i < x then x - 1 else x) ∧
    ∀ j, j ≠ i → t.dev.col.delays.getD j 0 = s.dev.col.delays.getD j 0)

/-! ### Bias outputs (12_bias_outputs.md) -/

/-- R362, R363: the outputs of the groups go to their park values, the clamped ones stay clamped; cause 5 clears at once, and EV60
names it. -/
def biasParkCommand : Prop := ∀ (s : State) (dt value : Nat) (w : Who),
  0 < value → value < 32 → s.takes dt w (writeItem P.biasParkCommand 0 [value]) {} →
  DoesDev (.biasParkCommand dt w value) s (fun t =>
    (∀ i, i < 80 → bit value (i / 16) = true →
      t.a (P.biasOutputState + i) = if s.a (P.biasOutputState + i) = 0 then 0 else 1) ∧
    (∀ i, i < 80 → bit value (i / 16) = false → t.a (P.biasOutputState + i) = s.a (P.biasOutputState + i)) ∧
    (∀ g, g < 5 → bit value g = true → bit (t.a (P.biasParkCause + g)) 4 = false) ∧ Raised t.dev 60 (5 + 8 * value))

/-- R364: an immediate code is the shadow and the active code, and drives an output that is not clamped. -/
def biasWrite : Prop := ∀ (s : State) (dt i value : Nat) (w : Who),
  i < 80 → value ≤ 4095 → s.takes dt w (writeItem P.biasWrite i [value]) {} →
  DoesDev (.biasWrite dt w i value) s (fun t =>
    t.a (P.biasCodeShadow + i) = value ∧ t.a (P.biasCodeActive + i) = value ∧
    (s.a (P.biasOutputState + i) ≠ 0 → t.a (P.biasOutputState + i) = 2) ∧
    (∀ j, j < 80 → j ≠ i → t.a (P.biasOutputState + j) = s.a (P.biasOutputState + j) ∧ t.a (P.biasCodeActive + j) = s.a (P.biasCodeActive + j)))

/-- R367: the range is in force; outputs that were DRIVEN take their shadow codes, the others are PARKED, and EV61 names the range. -/
def biasRangeChange : Prop := ∀ (s : State) (dt g value : Nat) (w : Who),
  g < 5 → value ≤ 3 → s.takes dt w (writeItem P.biasRange g [value]) {} →
  DoesDev (.biasRangeChange dt w g value) s (fun t =>
    t.a (P.biasRange + g) = value ∧ Raised t.dev 61 (g + 8 * value) ∧
    ∀ j, j < 16 →
      (s.a (P.biasOutputState + (16 * g + j)) = 2 →
        t.a (P.biasOutputState + (16 * g + j)) = 2 ∧ t.a (P.biasCodeActive + (16 * g + j)) = s.a (P.biasCodeShadow + (16 * g + j))) ∧
      (s.a (P.biasOutputState + (16 * g + j)) ≠ 2 → t.a (P.biasOutputState + (16 * g + j)) =
        if s.a (P.biasOutputState + (16 * g + j)) = 0 ∧ ¬ (s.dev.pwr.pwrOk = true ∧ s.dev.pwr.biasDone = true) then 0 else 1))

/-- R358: a park value is in force at once on an output that is PARKED. -/
def biasParkWrite : Prop := ∀ (s : State) (dt i value : Nat) (w : Who),
  i < 80 → value < 2 ^ 16 → s.takes dt w (writeItem P.biasPark i [value]) {} → s.a (P.biasOutputState + i) = 1 →
  DoesDev (.biasParkWrite dt w i value) s (fun t =>
    t.a (P.biasPark + i) = value ∧ t.a (P.biasOutputState + i) = 1 ∧ t.a (P.biasOutputCode + i) = parkCode (s.a (P.biasRange + i / 16)) value)

/-- R357, R368: a driver over its limit is a fault, counted each time. -/
def biasCurrentLimit : Prop := ∀ (s : State) (dt i : Nat), i < 80 → s.a (P.biasOutputState + i) ≠ 0 →
  Acts (.biasCurrentLimit dt i) s [P.biasFaultCount] id (fun t => Counted s t P.biasFaultCount 1 ∧
    ((s.dev.x (rateKey 62 i) = 0 ∨ s.dev.x (rateKey 62 i) - 1 + 10 ^ 12 ≤ (s.at_ dt).now) → Raised t.dev 62 (i + 128)))

/-! ### Housekeeping and thermal (13_housekeeping_thermal.md) -/

/-- R370, R384, R387: every supply that was read is shown, and none while self-calibration runs; where no junction value brings shutdown
nothing of memory changes. -/
def hkFrame : Prop := ∀ (s : State) (dt : Nat) (temps : List Int) (supplies : List Nat), s.dev.hk.running = true →
  ((s.at_ dt).hkFrame temps supplies).2.isNone = true →
  DoesDev (.hkFrame dt temps supplies) s (fun t =>
    ∀ i, i < 25 → t.a (P.hkSupplyVoltage + i) =
      if s.a P.hkCalState ≠ 2 ∧ supplies.getD i 65536 < 65536 then supplies.getD i 65536 else s.a (P.hkSupplyVoltage + i))

/-- R374 to R376: the next entry is converted, its code shown, and the position moves on. -/
def hkScanConversion : Prop := ∀ (s : State) (dt code : Nat), s.dev.hk.running = true → s.a P.hkCalState ≠ 2 →
  s.dev.hk.pos < s.a P.hkScanLength → s.a P.hkScanLength ≤ 64 → (s.a P.hkScanMode = 1 → s.dev.hk.passDue ≠ 0) →
  DoesDev (.hkScanConversion dt code) s (fun t =>
    bits (t.a (P.hkResult + s.dev.hk.pos)) 11 0 = code % 4096 ∧
    (s.dev.hk.pos + 1 < s.a P.hkScanLength → t.dev.hk.pos = s.dev.hk.pos + 1) ∧
    (s.dev.hk.pos + 1 = s.a P.hkScanLength → t.dev.hk.pos = 0 ∧ Counted s t P.hkScanPassCount 1))

/-- R377, R378: 10 ms after a report the present state of the limit is reported where it differs, an overcurrent by EV79. -/
def hkLimitWindowEnd : Prop := ∀ (s : State) (dt e : Nat) (high : Bool),
  let dir := if high then 0 else 1
  let last := s.dev.x (auxKey 6 (2 * e + dir))
  let now := bit (s.a (P.hkResult + e)) (37 - dir)
  let oc := hkOc (s.a (P.hkScanList + e))
  last ≠ 0 → last / 2 - 1 + 10 ^ 10 ≤ (s.at_ dt).now → now ≠ (last % 2 == 1) →
  Acts (.hkLimitWindowEnd dt e high) s [] id (fun t =>
    if high = true ∧ now = true ∧ oc ≠ 0 then Raised t.dev 79 (e + 64 * (oc - 1)) else Raised t.dev (72 + dir) (e + 64 * b2n now))

/-- R385: the next checked input is compared with the level; one out of tolerance sets its bit and raises EV75. -/
def hkCheckConversion : Prop := ∀ (s : State) (dt code n : Nat),
  let want := (rhe ((4095 * s.a P.hkCheckLevel : Nat)) 255).toNat
  let diff := if want ≤ code % 4096 then code % 4096 - want else want - code % 4096
  ((List.range 32).map (fun i => (s.dev.hk.checkPos + 1 + i) % 32)).find? (bit (s.a P.hkCheckMask)) = some n →
  s.dev.hk.running = true → s.dev.hk.checkDue = true → s.a P.hkCalState ≠ 2 →
  Acts (.hkCheckConversion dt code) s [P.hkCheckFailMask] (fun d => { d with hk := {} }) (fun t =>
    t.dev.hk.checkPos = n ∧ t.dev.hk.checkDue = false ∧ bit (t.a P.hkCheckFailMask) n = decide (s.a P.hkCheckTolerance < diff) ∧
    (s.a P.hkCheckTolerance < diff → Raised t.dev 75 (n + 32 * sat 4095 diff)))

/-- R374: a pass is asked for while the converter runs in mode 1. -/
def hkScanStart : Prop := ∀ (s : State) (dt value : Nat) (w : Who),
  value ≤ 1 → s.takes dt w (writeItem P.hkScanStart 0 [value]) {} →
  DoesDev (.hkScanStart dt w value) s (fun t =>
    (value = 1 → s.dev.hk.running = true → s.a P.hkScanMode = 1 → t.dev.hk.passDue = s.dev.hk.passDue + 1 ∧
      (s.dev.hk.passDue = 0 → t.dev.hk.pos = 0) ∧ (s.dev.hk.passDue ≠ 0 → t.dev.hk.pos = s.dev.hk.pos)) ∧
    (¬ (value = 1 ∧ s.dev.hk.running = true ∧ s.a P.hkScanMode = 1) → t.dev.hk = s.dev.hk))

/-- R380: what the mask arms and disarms. -/
def injectWrite (mk : Nat → Who → Nat → Instr) : Prop := ∀ (s : State) (dt value : Nat) (w : Who),
  value < 16 → s.takes dt w (writeItem P.hkInjectArm 0 [value]) {} →
  DoesDev (mk dt w value) s (fun t =>
    t.a P.hkInjectArm = value ∧
    ∀ i, i < 4 →
      (bit value i = true → s.a (P.hkInjectState + i) = 0 → t.a (P.hkInjectState + i) = 1) ∧
      (bit value i = false → s.a (P.hkInjectState + i) = 1 → t.a (P.hkInjectState + i) = 0) ∧
      (s.a (P.hkInjectState + i) = 2 → t.a (P.hkInjectState + i) = 2))

/-- R380. -/
def hkInjectArm : Prop := injectWrite Instr.hkInjectArm
/-- R380. -/
def hkInjectDisarm : Prop := injectWrite Instr.hkInjectDisarm

/-- R380, R381: the slot that converts takes its value and time; it is armed again only in repeat mode while its bit stands. -/
def hkInjectConversion : Prop := ∀ (s : State) (dt code i : Nat),
  (List.range 4).find? (fun i => s.a (P.hkInjectState + i) == 2) = some i → s.dev.hk.running = true →
  Acts (.hkInjectConversion dt code) s [P.hkInjectState + i, P.hkInjectResult + i, P.hkInjectTime0 + 65536 * i, P.hkInjectArm]
    (fun d => { d with hk := {} }) (fun t =>
      let again := bit (s.a (P.hkInjectConfig + i)) 6 && bit (s.a P.hkInjectArm) i
      t.a (P.hkInjectState + i) = b2n again ∧ bit (t.a P.hkInjectArm) i = again ∧
      t.a (P.hkInjectTime0 + 65536 * i) = (s.at_ dt).timeNow ∧ bits (t.a (P.hkInjectResult + i)) 11 0 = code % 4096)

/-- R383: every HkCalPeriod seconds of running time a self-calibration is asked for; it waits for the slots that are armed or convert. -/
def hkCalPeriodic : Prop := ∀ (s : State) (dt : Nat), s.dev.hk.running = true →
  s.a P.hkCalPeriod * 10 ^ 12 ≤ s.dev.hk.ran + ((s.at_ dt).now - s.dev.hk.upAt) →
  Acts (.hkCalPeriodic dt) s [P.hkCalState] (fun d => { d with hk := {} }) (fun t =>
    (s.a P.hkCalState = 0 → t.a P.hkCalState = 1 ∧ t.dev.hk.calWait = maskOf 4 (fun i => s.a (P.hkInjectState + i) != 0)) ∧
    (s.a P.hkCalState = 1 → t.a P.hkCalState = 1) ∧
    (s.a P.hkCalState = 2 → t.a P.hkCalState = 2 ∧ t.dev.hk.calNext = true))

/-- R383. -/
def hkCalRequest : Prop := ∀ (s : State) (dt value : Nat) (w : Who),
  value ≤ 1 → s.takes dt w (writeItem P.hkCalRequest 0 [value]) {} → s.dev.hk.running = true → s.a P.hkCalState = 0 →
  DoesDev (.hkCalRequest dt w value) s (fun t => t.a P.hkCalState = value)

/-- R384: with no slot waited for, the self-calibration runs and the values it holds are STALE. -/
def hkCalStart : Prop := ∀ (s : State) (dt : Nat), s.dev.hk.running = true → s.a P.hkCalState = 1 → s.dev.hk.calWait = 0 →
  Acts (.hkCalStart dt) s
    (P.hkCalState :: span P.hkResult 64 ++ span P.hkInjectResult 4 ++ span P.hkDieTemp 16 ++ span P.hkSupplyVoltage 25) id (fun t =>
      t.a P.hkCalState = 2 ∧ (∀ i, i < 64 → bit (t.a (P.hkResult + i)) 39 = true) ∧ ∀ i, i < 16 → bit (t.a (P.hkDieTemp + i)) 39 = true)

/-- R384: the self-calibration ends with EV77, or begins again where one was asked for meanwhile. -/
def hkCalDone : Prop := ∀ (s : State) (dt : Nat) (ok : Bool), s.dev.hk.running = true → s.a P.hkCalState = 2 →
  Acts (.hkCalDone dt ok) s [P.hkCalState] (fun d => { d with hk := {} }) (fun t =>
    Raised t.dev 77 (b2n (!ok)) ∧ t.dev.hk.calNext = false ∧ t.a P.hkCalState = b2n s.dev.hk.calNext)

/-- R388: outside DEEP a reading of TSA is shown. -/
def tsaReading : Prop := ∀ (s : State) (dt : Nat) (temp : Int), s.dev.pwr.phase = .running → s.a P.pwrState ≠ 0 →
  DoesDev (.tsaReading dt temp) s (fun t => t.a P.thermAonTemp = ux 16 temp)

/-- R397: 10 s after the failure the hold ends, and TxThrottleSteps follows the last junction value. -/
def substituteHoldEnd : Prop := ∀ (s : State) (dt : Nat) (j : Int),
  s.dev.thm.holdTill ≠ 0 → s.dev.thm.holdTill ≤ (s.at_ dt).now → s.dev.thm.junction = some j →
  Acts (.substituteHoldEnd dt) s [P.txThrottleSteps] (fun d => { d with thm := {} }) (fun t =>
    t.dev.thm = { s.dev.thm with holdTill := 0, holdSteps := 0 } ∧
    (bit (s.a P.thermState) 1 = false → t.a P.txThrottleSteps = 0))

/-- R401: once cool enough, a write on the restricted service starts the reset out of thermal shutdown. -/
def thermRestart : Prop := ∀ (s : State) (dt : Nat) (w : Who),
  s.takes dt w (writeItem P.thermRestart 0 [0x5A]) {} →
  Does (.thermRestart dt w 0x5A) s (fun t => t.dev.pwr.kind = 4 ∧ (∀ a, a < ipmEnd → t.mem.get a = unlisted a) ∧
    t.dev.pwr.phase = if s.dev.clk.onLpo then .waitRefclk else .booting)

/-- R402: a FIELD frame for the device in shutdown starts the restricted service. -/
def restrictedServiceStart : Prop := ∀ (s : State) (dt island : Nat),
  s.dev.pwr.phase = .shutdown → s.dev.fieldOn = true → island = s.dev.island →
  Acts (.restrictedServiceStart dt island) s [] (fun d => { d with pwr := {}, thm := {} }) (fun t =>
    t.dev.pwr = { s.dev.pwr with phase := .restricted } ∧ t.dev.thm = { s.dev.thm with lastField := (s.at_ dt).now })

/-- R402, R598: 60 s without a frame end it and its sessions. -/
def restrictedServiceTimeout : Prop := ∀ (s : State) (dt : Nat),
  s.dev.pwr.phase = .restricted → s.dev.thm.lastField + 60 * 10 ^ 12 ≤ (s.at_ dt).now → s.dev.shaped = true →
  Acts (.restrictedServiceTimeout dt) s [] (fun d => { d with pwr := {}, ses := {}, fld := {} }) (fun t =>
    t.dev.pwr = { s.dev.pwr with phase := .shutdown } ∧ ∀ h, (t.dev.sesAt h).st = 0)

/-! ### Meridian time (14_meridian_time.md) -/

/-- A TIME message reaches the device: the Mainland port is up and no Riptide run is on. -/
def onTime (s : State) (dt : Nat) : Prop := (s.at_ dt).up = true ∧ s.dev.portWidth 0 ≠ 0 ∧ s.dev.ripOn = false

/-- R419, R426: a two-step Sync of the domain, at an accepted interval, waits for its Follow_Up with its corrected stamp; a one-step one is
discarded and counted. -/
def ptpSync : Prop := ∀ (s : State) (dt : Nat) (x : PtpSync), onTime s dt → x.domain = s.a P.ptpDomain →
  Acts (.ptpSync dt x) s [P.ptpDiscardCount] (fun d => { d with tim := {}, rip := {} }) (fun t =>
    let takes := s.dev.timeSource = 1 ∧ -7 ≤ x.logInt ∧ x.logInt ≤ 1
    (x.twoStep = true → takes →
      t.dev.tim = { s.dev.tim with syncSeq := some (x.seqId, (s.at_ dt).stamp 0 false x.t2, x.corr) }) ∧
    (x.twoStep = true → ¬ takes → t.dev.tim = s.dev.tim) ∧
    (x.twoStep = false → Counted s t P.ptpDiscardCount 1 ∧ t.dev.tim = s.dev.tim))

/-- R419, R421, R422: the Follow_Up of the Sync completes a pair, with the correctionField of both added to t1. -/
def ptpFollowUp : Prop := ∀ (s : State) (dt n : Nat) (t1 : PtpTime) (t2 corr : Int), onTime s dt →
  s.dev.tim.syncSeq = some (n, t2, corr) →
  Acts (.ptpFollowUp dt n t1) s [] (fun d => { d with tim := {}, rip := {} }) (fun t =>
    t.dev.tim = { s.dev.tim with syncSeq := none, pair := some (n, (s.at_ dt).ptpStamp { t1 with corr := t1.corr + corr }, t2) })

/-- R427, R428: an answered Delay_Req completes an exchange, which counts for the mean path delay; while the delay is measured
afresh no offset applies. -/
def ptpDelayResp : Prop := ∀ (s : State) (dt n m : Nat) (t1 t2 t3 li : Int) (t4 : PtpTime), onTime s dt →
  s.dev.tim.dreq = some (n, t3) → s.dev.tim.pair = some (m, t1, t2) → s.dev.tim.skip ≠ 0 →
  Acts (.ptpDelayResp dt n t4 li) s [P.timeMeanPathDelay] (fun d => { d with tim := {}, rip := {} }) (fun t =>
    let delays := keepLast 16 (s.dev.tim.delays ++ [(t2 - t1) + ((s.at_ dt).ptpStamp t4 - t3)])
    t.dev.tim = { s.dev.tim with dreq := none, pair := none, delayInt := li, delays := delays, skip := s.dev.tim.skip - 1 } ∧
    t.a P.timeMeanPathDelay = ux 40 (rhe delays.sum (2 * delays.length * stampUnit)))

/-- R411, R428: else the offset is t2 - t1 less the mean path delay and the asymmetry; below the step threshold time is slewed. -/
def ptpDelayMeasured : Prop := ∀ (s : State) (dt n m : Nat) (t1 t2 t3 li : Int) (t4 : PtpTime),
  let delays := keepLast 16 (s.dev.tim.delays ++ [(t2 - t1) + ((s.at_ dt).ptpStamp t4 - t3)])
  let off := rhe ((t2 - t1 - sx 40 (s.a P.timeAsymmetryMl) * (stampUnit : Nat)) * (2 * delays.length : Nat) - delays.sum)
    (2 * delays.length * stampUnit)
  onTime s dt → s.dev.tim.dreq = some (n, t3) → s.dev.tim.pair = some (m, t1, t2) → s.dev.tim.skip = 0 → s.dev.tim.valid = true →
  off.natAbs < s.a P.timeStepThreshold * 1000 →
  Acts (.ptpDelayResp dt n t4 li) s [P.timeMeanPathDelay, P.timeOffset, P.timeState, P.timeFreqCorrection]
    (fun d => { d with tim := {}, rip := {} }) (fun t =>
      t.a P.timeMeanPathDelay = ux 40 (rhe delays.sum (2 * delays.length * stampUnit)) ∧ t.a P.timeOffset = ux 40 off ∧
      t.dev.tim.delays = delays ∧ t.dev.tim.dreq = none ∧ t.dev.tim.pair = none ∧ t.dev.clk.mer = (s.at_ dt).clk.mer)

/-- R418, R419: the first master of the domain is taken; a better one than the one selected replaces it with EV84. -/
def ptpAnnounce : Prop := ∀ (s : State) (dt : Nat) (x : PtpAnnounce), onTime s dt → x.domain = s.a P.ptpDomain → s.dev.timeSource = 1 →
  DoesDev (.ptpAnnounce dt x) s (fun t =>
    let m : Master := ⟨x.identity, x.prio1, x.cls, x.accuracy, x.variance, x.prio2, x.steps, x.portId⟩
    (s.dev.tim.master = none → t.dev.tim.master = some m) ∧
    (∀ old, s.dev.tim.master = some old → ¬ (old.identity = m.identity ∧ old.portId = m.portId) →
      (m.better old = true → t.dev.tim.master = some m ∧ Raised t.dev 84 (x.identity % 2 ^ 17)) ∧
      (m.better old = false → t.dev.tim.master = some old)))

/-- R419. -/
def ptpUnsupportedMessage : Prop := ∀ (s : State) (dt : Nat), onTime s dt →
  Acts (.ptpUnsupportedMessage dt) s [P.ptpDiscardCount] (fun d => { d with rip := {} }) (fun t => Counted s t P.ptpDiscardCount 1)

/-- R421, R426: a Delay_Req leaves on the Mainland and waits for its answer with its corrected stamp. -/
def delayReqSend : Prop := ∀ (s : State) (dt : Nat) (m : MacStamp),
  let d := s.at_ dt
  let t3 := d.stamp 0 true m
  d.ptpRuns = true → d.quiet = true → s.dev.shaped = true →
  DoesDev (.delayReqSend dt m) s (fun t =>
    t.dev.tim = { s.dev.tim with dreq := some (s.dev.tim.dreqSeq, t3), dreqSeq := (s.dev.tim.dreqSeq + 1) % 65536 } ∧
    t.dev.Sent 0 (d.mkMsg 0 d.island 0 0x01 false (d.delayReq 0 s.dev.tim.dreqSeq t3)))

/-- R414, R418: with its source lost a valid time enters HOLDOVER. -/
def timeSourceLost : Prop := ∀ (s : State) (dt : Nat),
  (s.dev.timeSource = 1 ∨ s.dev.timeSource = 3) → s.dev.tim.valid = true → s.a P.timeState ≠ 3 →
  Acts (.timeSourceLost dt 1) s [P.timeState, P.timeHoldoverCount] (fun d => { d with tim := {} }) (fun t =>
    t.a P.timeState = 3 ∧ t.dev.tim.holdover = true ∧ t.dev.tim.holdSince = (s.at_ dt).now ∧ Counted s t P.timeHoldoverCount 1 ∧
    Raised t.dev 81 1 ∧ t.dev.tim.pair = none ∧ t.dev.tim.dreq = none)

/-- R413: STEPPED clears 1 s after the step. -/
def steppedClear : Prop := ∀ (s : State) (dt : Nat), s.dev.tim.stepAt + 10 ^ 12 ≤ (s.at_ dt).now →
  Acts (.steppedClear dt) s [] (fun d => { d with tim := {} }) (fun t => t.dev.tim = { s.dev.tim with stepped := false })

/-- R417: an accepted time is Meridian at once. Stated for a time that does not lie ahead, behind which no slot ends. -/
def timeSetTime : Prop := ∀ (s : State) (dt secs frac : Nat) (w : Who), secs < 2 ^ 64 → frac < 2 ^ 40 →
  s.takes dt w (writeItem P.timeSetTime 0 [secs + frac * 2 ^ 64]) {} → secs * merUnit + frac * 2 ^ 72 ≤ (s.at_ dt).clk.mer →
  DoesDev (.timeSetTime dt w secs frac) s (fun t =>
    t.dev.clk.mer = secs * merUnit + frac * 2 ^ 72 ∧ t.dev.tim.valid = true ∧ t.dev.tim.stepped = true ∧
    t.dev.tim.source = 4 ∧ t.a P.timeState = 0 ∧ Counted s t P.timeStepCount 1)

/-- R424: the second that the next PPS edge marks. -/
def timePpsNextSeconds : Prop := ∀ (s : State) (dt value : Nat) (w : Who),
  value < 2 ^ 64 → s.takes dt w (writeItem P.timePpsNextSeconds 0 [value]) {} →
  DoesDev (.timePpsNextSeconds dt w value) s (fun t => t.dev.tim.pps = some (value, (s.at_ dt).now))

/-- R411, R424: an edge within the window is a measurement; below the step threshold time is slewed, not stepped. -/
def ppsInEdge : Prop := ∀ (s : State) (dt finePs : Nat),
  let d := s.at_ dt
  let stamp : Int := (d.merPs : Int) + (finePs : Nat) - (s.a P.ppsInDelay : Nat)
  let off := stamp - rnear stamp (10 ^ 12) * 10 ^ 12
  s.dev.timeSource = 2 → s.dev.clk.onLpo = false → s.dev.tim.pps = none → s.dev.tim.ppsOn = true → s.dev.tim.valid = true →
  off.natAbs ≤ s.a P.ppsInWindow * 1000 → off.natAbs < s.a P.timeStepThreshold * 1000 →
  Acts (.ppsInEdge dt finePs) s [P.timeOffset, P.timeState, P.timeFreqCorrection] (fun d => { d with tim := {} }) (fun t =>
    t.a P.timeOffset = ux 40 off ∧ t.dev.tim.ppsMiss = 0 ∧ t.dev.clk.mer = d.clk.mer)

/-- R418, R424: a second without an edge is counted; the second in a row ends in HOLDOVER. -/
def ppsMissing : Prop := ∀ (s : State) (dt : Nat), s.dev.timeSource = 2 → s.dev.tim.ppsOn = true → s.dev.tim.valid = true →
  Acts (.ppsMissing dt) s [P.ppsMissCount, P.timeState, P.timeHoldoverCount] (fun d => { d with tim := {} }) (fun t =>
    t.dev.tim.ppsMiss = s.dev.tim.ppsMiss + 1 ∧ Counted s t P.ppsMissCount 1 ∧ Raised t.dev 83 (sat 131071 (s.dev.tim.ppsMiss + 1)) ∧
    (s.dev.tim.ppsMiss = 1 → t.a P.timeState = 3) ∧ (s.dev.tim.ppsMiss ≠ 1 → t.a P.timeState = s.a P.timeState))

/-- R425: PPS_OUT rises at a second of valid time. -/
def ppsOutEdge : Prop := ∀ (s : State) (dt : Nat),
  s.a P.ppsOutEnable = 1 → s.dev.tim.valid = true → s.dev.clk.onLpo = false → s.dev.tim.ppsOut = false →
  Acts (.ppsOutEdge dt) s [] (fun d => { d with tim := {} }) (fun t =>
    t.dev.tim = { s.dev.tim with ppsOut := true } ∧ t.dev.out = [.pin .ppsOut true])

/-- R425. -/
def ppsOutPulseEnd : Prop := ∀ (s : State) (dt : Nat), s.dev.tim.ppsOut = true →
  Acts (.ppsOutPulseEnd dt) s [] (fun d => { d with tim := {} }) (fun t =>
    t.dev.tim = { s.dev.tim with ppsOut := false } ∧ t.dev.out = [.pin .ppsOut false])

/-- R427 to R429: an exchange with the parent counts for the mean path delay of its port, whose Delay_Req leaves; toward any other
island the device is the master, and its Sync, Follow_Up with the corrected t1 and Delay_Resp with the corrected t4 leave. -/
def straitTimeExchange : Prop := ∀ (s : State) (dt : Nat) (x : StraitExchange),
  let d := s.at_ dt
  let p := x.port + 1
  let mine := s.dev.timeSource = 3 ∧ s.a P.timeParentPort = x.port
  let msg (b : List Byte) : Msg := d.mkMsg p 0xFE 0 0x01 false b
  let rate := ux 8 (-(s.a P.straitTimeLog2Rate : Nat))
  x.port < 4 → d.timeCarries p = true → d.quiet = true → s.dev.shaped = true → (x.child = true → s.dev.tim.skip ≠ 0) →
  DoesDev (.straitTimeExchange dt x) s (fun t =>
    (x.child = true → mine →
      let delays := keepLast 16 (s.dev.tim.delays ++ [(d.stamp p false x.sync - d.ptpStamp x.t1) + (d.ptpStamp x.t4 - d.stamp p true x.req)])
      t.dev.tim = { s.dev.tim with parentErr := x.parentErr, delays := delays, skip := s.dev.tim.skip - 1 } ∧
      t.a P.timeMeanPathDelay = ux 40 (rhe delays.sum (2 * delays.length * stampUnit)) ∧
      t.dev.Sent p (msg (d.delayReq p x.seqId (d.stamp p true x.req)))) ∧
    (x.child = false → ¬ mine →
      t.dev.tim = s.dev.tim ∧
      t.dev.Sent p (msg (d.ptpMsg p 0x00 0x0200 x.seqId 0 rate 0 [])) ∧
      t.dev.Sent p (msg (d.ptpMsg p 0x08 0 x.seqId 2 rate (d.stamp p true x.sync) [])) ∧
      t.dev.Sent p (msg (d.ptpMsg p 0x09 0 x.seqId 3 rate (d.stamp p false x.req)
        ((slice (s.dev.port.getD p {}).far 0 8).reverse ++ beBytes 2 1)))))

/-- R414, R415: in HOLDOVER a BOUND that has moved by 2 or more since its last report, over 1 s ago, is reported. -/
def holdoverBoundGrowth : Prop := ∀ (s : State) (dt : Nat),
  let d := s.at_ dt
  s.a P.timeState = 3 → s.dev.tim.lastQual % 256 + 2 ≤ d.quality / 256 % 256 → s.dev.tim.lastQualAt + 10 ^ 12 ≤ d.now →
  Acts (.holdoverBoundGrowth dt) s [] (fun d => { d with tim := {} }) (fun t =>
    t.dev.tim = { s.dev.tim with lastQual := d.quality / 256, lastQualAt := d.now } ∧ Raised t.dev 94 (d.quality / 256))

/-! ### The Ephemeris (15_ephemeris.md) -/

/-- R437 to R439: an accepted entry whose time has not passed stands in the table at its number, or at the lowest free one. -/
def ephWrite : Prop := ∀ (s : State) (dt : Nat) (w : Who) (body : List Byte),
  let e := (ephBody body).1
  let i := (ephBody body).2
  let n := if i = 0xFFFF then (s.dev.ephLowest).getD 0 else i
  body.length = 24 → s.takes dt w (writeItem P.ephWrite 0 (body.map (·.toNat))) {} → e.action ≠ 0 → (s.at_ dt).ephPast e = false →
  (∀ x, (s.at_ dt).ephLead e = some x → e.before (x + 10) (s.at_ dt).clk.mer = false) →
  DoesDev (.ephWrite dt w body) s (fun t =>
    t.dev.ephAt n = some e ∧ (i = 0xFFFF → t.a P.ephInsertIndex = n) ∧ ∀ j, j ≠ n → t.dev.ephAt j = s.dev.ephAt j)

/-- R437, R449: an accepted cancellation frees the entry. -/
def ephCancel : Prop := ∀ (s : State) (dt i : Nat) (w : Who), i < 1024 →
  s.takes dt w (writeItem P.ephWrite 0 ((zeros 20 ++ leBytes 2 i ++ zeros 2).map (·.toNat))) {} →
  DoesDev (.ephCancel dt w i) s (fun t => t.dev.ephAt i = none ∧ ∀ j, j ≠ i → t.dev.ephAt j = s.dev.ephAt j)

/-- R435: its lead before its time an entry is LOCKED: 2 us for a hand-over, the R63 maximum where a transition has to begin (R65). -/
def ephPrepare : Prop := ∀ (s : State) (dt i ns : Nat) (e : EphEnt),
  s.dev.ephAt i = some e → e.state = 1 → (s.at_ dt).ephLead e = some ns → (s.at_ dt).ephHeld = false →
  e.before (ns + 10) (s.at_ dt).clk.mer = true →
  DoesDev (.ephPrepare dt i) s (fun t => t.dev.ephAt i = some { e with state := 2 })

/-- R441, R450: whatever its action, an entry that fires is FREE afterwards and counted. -/
def Fired (s t : State) (i : Nat) : Prop :=
  t.dev.eph.ent = s.dev.eph.ent.filter (fun x => x.1 != i) ∧ Counted s t P.ephFiredCount 1

/-- R65, R436: a WAKE whose transition began at its preparation does no more. -/
def ephWake : Prop := ∀ (s : State) (dt i : Nat) (e : EphEnt), s.fires dt i 1 e → e.state = 2 →
  Acts (.ephWake dt i) s [P.ephFiredCount] (fun d => { d with eph := {}, pwr := {} }) (fun t =>
    Fired s t i ∧ t.dev.pwr = { s.dev.pwr with idleSince := t.dev.pwr.idleSince } ∧
    (bit e.flags 1 = true → Raised t.dev 87 (i + 1024)))

/-- R65, R436: a WAKE that is not yet prepared begins its transition when it fires, and is noted as late. -/
def ephWakeBegins : Prop := ∀ (s : State) (dt i : Nat) (e : EphEnt), s.fires dt i 1 e → e.state ≠ 2 →
  s.dev.mayWake = true → bit (s.a P.wakeSourceMask) 0 = true → s.a P.pwrActiveMask = 0 → s.dev.pwr.jobs = [] →
  s.dev.pwr.base < e.arg → e.arg ≤ 2 →
  DoesDev (.ephWake dt i) s (fun t =>
    Fired s t i ∧ t.a P.wakeLastSource = 0 ∧ t.dev.pwr.jobs = [⟨0, e.arg, (s.at_ dt).now⟩] ∧
    t.dev.pwr.wakes = s.dev.pwr.wakes ++ [(e.arg, e.ns, true)])

/-- R445: SLEEP notes the lower state, and takes effect once every unit has left ACTIVE. -/
def ephSleep : Prop := ∀ (s : State) (dt i : Nat) (e : EphEnt), s.fires dt i 2 e → s.a P.pwrState ≠ 0 →
  Acts (.ephSleep dt i) s [P.ephFiredCount] (fun d => { d with eph := {}, pwr := {}, sen := {} }) (fun t =>
    Fired s t i ∧ (e.arg < s.dev.pwr.base ∨ s.a P.pwrActiveMask ≠ 0 → t.dev.pwr.sleepTo = some (e.arg + 4)) ∧
    (s.dev.pwr.base ≤ e.arg → s.a P.pwrActiveMask = 0 → t.dev.pwr.sleepTo = s.dev.pwr.sleepTo))

/-- R443, R447: a hand-over commits with EV92 naming its units; in DEEP it is put off to the next exit (R436). -/
def ephHandover : Prop := ∀ (s : State) (dt i : Nat) (e : EphEnt), s.fires dt i 3 e → s.dev.shaped = true →
  DoesDev (.ephHandover dt i) s (fun t =>
    Fired s t i ∧ (s.a P.pwrState ≠ 0 → Raised t.dev 92 (e.arg % 2048)) ∧
    (s.a P.pwrState = 0 → t.dev.pwr.deferredEph = s.dev.pwr.deferredEph ++ [3 + 16 * i + 16384 * e.arg]))

/-- R436, R582, R585: the Chart is asked for, and waits behind a load or store in progress; in DEEP it is put off to the next exit. -/
def ephChart : Prop := ∀ (s : State) (dt i : Nat) (e : EphEnt), s.fires dt i 4 e →
  DoesDev (.ephChart dt i) s (fun t =>
    Fired s t i ∧ (s.a P.pwrState ≠ 0 → t.a P.chartLastCommanded = e.arg % 4 ∧
      (s.dev.cha.load = none → s.dev.cha.store = none → t.dev.cha.load = some ⟨e.arg % 4, 4, whoDevice⟩) ∧
      ((s.dev.cha.load.isSome = true ∨ s.dev.cha.store.isSome = true) → t.dev.cha.load = s.dev.cha.load ∧
        t.dev.cha.wait = s.dev.cha.wait ++ [.load ⟨e.arg % 4, 4, whoDevice⟩])) ∧
    (s.a P.pwrState = 0 → t.dev.cha = s.dev.cha ∧
      t.dev.pwr.deferredEph = s.dev.pwr.deferredEph ++ [4 + 16 * i + 16384 * e.arg]))

/-- R339: the window opens at the entry's time for its length; an open one grows to the later end. -/
def ephCollimate : Prop := ∀ (s : State) (dt i : Nat) (e : EphEnt), s.fires dt i 5 e → s.dev.shaped = true →
  DoesDev (.ephCollimate dt i) s (fun t =>
    Fired s t i ∧ (s.dev.col.win = none → t.dev.col.win = some (e.ns, e.ns + 1000 * (e.arg % 2 ^ 24))) ∧
    (∀ a b, s.dev.col.win = some (a, b) → t.dev.col.win = some (a, max b (e.ns + 1000 * (e.arg % 2 ^ 24)))))

/-- R50, R131: a synchronising reset, counted with EV27, takes in the one a SYNC edge of the same REFCLK period asked for; none in DEEP. -/
def ephSyncReset : Prop := ∀ (s : State) (dt i : Nat) (e : EphEnt), s.fires dt i 6 e →
  DoesDev (.ephSyncReset dt i) s (fun t =>
    Fired s t i ∧ (s.a P.pwrState ≠ 0 → Counted s t P.syncResetCount 1 ∧ Raised t.dev 27 s.dev.groupsRunning ∧
      t.dev.pwr.syncPend = if s.dev.pwr.syncPend = some ((s.at_ dt).now + 100000) then none else s.dev.pwr.syncPend) ∧
    (s.a P.pwrState = 0 → t.a P.syncResetCount = s.a P.syncResetCount))

/-- R555: code 0 arms Transit where it may be armed. -/
def ephTransitArm : Prop := ∀ (s : State) (dt i : Nat) (e : EphEnt), s.fires dt i 7 e → e.arg = 0 → s.a P.pwrState ≠ 0 →
  (s.at_ dt).traMayArm = true →
  DoesDev (.ephTransitArm dt i) s (fun t => Fired s t i ∧ t.dev.traSt = 1 ∧ t.a P.transitSeqState = 0)

/-- R556 to R558, R560: code 1 is an occurrence of condition 5. While armed it counts where the present state waits for it, and moves the
sequencer on or declares the trigger once that count is complete; in REARM one that state 0 waits for is ignored and counted. -/
def ephTransitCondition : Prop := ∀ (s : State) (dt i j : Nat) (e : EphEnt),
  let q := s.a P.transitSeqState
  let c := s.dev.seqEntry q
  let meets : Prop := s.dev.condMet q 5 0 = true ∧ s.dev.tra.lastEdge ≠ some ((s.at_ dt).now / 10000)
  let full : Prop := max 1 (s.a (P.transitStateCount + q)) ≤ s.dev.tra.cnt + 1
  s.fires dt i 7 e → e.arg = 1 → s.a P.pwrState ≠ 0 →
  DoesDev (.ephTransitCondition dt i j) s (fun t => Fired s t i ∧
    (s.dev.traSt = 1 → meets → ¬ full → t.dev.traSt = 1 ∧ t.a P.transitSeqState = q ∧ t.dev.tra.cnt = s.dev.tra.cnt + 1) ∧
    (s.dev.traSt = 1 → meets → full → bit c 21 = false →
      t.dev.traSt = 1 ∧ t.a P.transitSeqState = bits c 27 25 ∧ t.dev.tra.cnt = 0) ∧
    (s.dev.traSt = 1 → meets → full → bit c 21 = true →
      t.dev.traSt = 2 ∧ t.dev.tra.trig = some ((s.at_ dt).merPs, j) ∧ t.dev.tra.trigBy = q % 8 + 40) ∧
    (s.dev.traSt = 3 → s.dev.condMet 0 5 0 = true → t.dev.traSt = 3 ∧ Counted s t P.transitIgnoredCount 1 ∧
      t.dev.tra.ignored = s.dev.tra.ignored + 1) ∧
    (¬ (s.dev.traSt = 1 ∧ meets) → ¬ (s.dev.traSt = 3 ∧ s.dev.condMet 0 5 0 = true) →
      t.dev.traSt = s.dev.traSt ∧ t.dev.tra = s.dev.tra))

/-- R561: code 2 closes a capture in progress. -/
def ephTransitClose : Prop := ∀ (s : State) (dt i j : Nat) (e : EphEnt), s.fires dt i 7 e → e.arg = 2 → s.a P.pwrState ≠ 0 →
  DoesDev (.ephTransitClose dt i j) s (fun t => Fired s t i ∧ (s.dev.traSt = 1 ∨ s.dev.traSt = 2 ∨ s.dev.traSt = 3 → t.dev.traSt = 4))

/-- R379: an ARMED slot of a converter that is free converts. -/
def ephHkInject : Prop := ∀ (s : State) (dt i : Nat) (e : EphEnt), s.fires dt i 8 e → s.a (P.hkInjectState + e.arg % 4) = 1 →
  s.dev.hk.running = true → s.a P.hkCalState ≠ 2 → (∀ k, k < 4 → s.a (P.hkInjectState + k) ≠ 2) →
  DoesDev (.ephHkInject dt i) s (fun t => Fired s t i ∧ t.a (P.hkInjectState + e.arg % 4) = 2)

/-- R446. -/
def ephTxEnable : Prop := ∀ (s : State) (dt i : Nat) (e : EphEnt), s.fires dt i 9 e →
  Acts (.ephTxEnable dt i) s [P.ephFiredCount, P.ephTxDisabledMask] (fun d => { d with eph := {}, pwr := {} }) (fun t =>
    Fired s t i ∧ t.a P.ephTxDisabledMask = maskSub 4 (s.a P.ephTxDisabledMask) e.arg)

/-- R446: the quadrants are held out of ACTIVE until enabled; a burst that emits stops. -/
def ephTxDisable : Prop := ∀ (s : State) (dt i : Nat) (e : EphEnt), s.fires dt i 10 e → s.dev.shaped = true →
  DoesDev (.ephTxDisable dt i) s (fun t =>
    Fired s t i ∧ t.a P.ephTxDisabledMask = maskOr 4 (s.a P.ephTxDisabledMask) e.arg ∧
    ∀ q, q < 4 → bit e.arg q = true → (s.dev.burst q).st = 2 → (t.dev.burst q).st = 5)

/-- R626, R627: the activation of the package that is READY and that the entry names waits for READY from here on, its plans discarded
where units are ACTIVE; any other activates nothing. -/
def ephFirmwareActivate : Prop := ∀ (s : State) (dt i : Nat) (e : EphEnt), s.fires dt i 11 e →
  DoesDev (.ephFirmwareActivate dt i) s (fun t => Fired s t i ∧ t.a P.updStage = s.a P.updStage ∧
    (s.a P.updStage = 3 → s.a P.updPackageId = e.arg → t.dev.upd = { s.dev.upd with waiting := true } ∧
      (s.a P.pwrActiveMask ≠ 0 → t.dev.ul.plans = [] ∧ t.dev.dl.plans = [])) ∧
    (¬ (s.a P.updStage = 3 ∧ s.a P.updPackageId = e.arg) → t.dev.upd = s.dev.upd))

/-- R445: once every unit has left ACTIVE and no window is open, SLEEP to WATCH or DEEP begins; its plans are discarded. -/
def sleepTakeEffect : Prop := ∀ (s : State) (dt x : Nat), s.dev.pwr.sleepTo = some x → x % 4 ≤ 1 → 4 ≤ x →
  s.a P.pwrActiveMask = 0 → s.dev.bringing = 0 → s.dev.pwr.jobs = [] → s.dev.pwr.base = 2 → s.dev.col.win = none → s.dev.sen.win = none →
  (s.at_ dt).ephHeld = false →
  Does (.sleepTakeEffect dt) s (fun t =>
    (x % 4 = 1 → t.mem = s.mem) ∧ t.dev.pwr.sleepTo = none ∧ t.dev.pwr.jobs.any (fun j => j.kind == 3 && j.arg == x % 4) = true ∧
    t.dev.ul.plans = [] ∧ t.dev.dl.plans = [])

/-- R339, R340: at its end the window is closed and a run that has not reached Release is given up; memory stands in a device that
stays up. -/
def collimWindowEnd : Prop := ∀ (s : State) (dt a b : Nat), s.dev.col.win = some (a, b) → b ≤ (s.at_ dt).merNs →
  Does (.collimWindowEnd dt) s (fun t =>
    t.dev.col.win = none ∧ t.dev.col.run = none ∧ (2 ≤ max s.dev.col.before s.dev.pwr.named → t.mem = s.mem))

/-! ### Lanes (16_lanes.md) -/

/-- R460, R463: a step of the detection changes nothing the device holds. -/
def laneDetectStep : Prop := ∀ (s : State) (dt lane : Nat), Acts (.laneDetectStep dt lane) s [] id (fun t => t.dev.out = [])

/-- R460, R464: a lane in DETECT enters TRAIN at its rate with that rate's FFE presets. -/
def laneTerminationFound : Prop := ∀ (s : State) (dt lane : Nat), lane < 24 → s.dev.shaped = true → s.dev.laneSt lane = 1 →
  Acts (.laneTerminationFound dt lane) s [P.laneState + lane, P.laneFfe + lane] (fun d => { d with lane := [] }) (fun t =>
    t.dev.laneSt lane = 2 ∧ t.dev.laneRate lane = s.dev.laneRate lane ∧ t.a (P.laneFfe + lane) = ffePreset (s.dev.laneRate lane) ∧
    (t.dev.laneRec lane).since = (s.at_ dt).now)

/-- R460: a trained lane goes to LOCK at its rate. -/
def laneTrainDone : Prop := ∀ (s : State) (dt lane : Nat), lane < 24 → s.dev.shaped = true → s.dev.laneSt lane = 2 →
  Acts (.laneTrainDone dt lane) s [P.laneState + lane] (fun d => { d with lane := [] }) (fun t =>
    t.dev.laneSt lane = 3 ∧ t.dev.laneRate lane = s.dev.laneRate lane ∧ (t.dev.laneRec lane).since = (s.at_ dt).now)

/-- R460: a locked lane exchanges CAPS records. -/
def laneLockDone : Prop := ∀ (s : State) (dt lane : Nat), lane < 24 → s.dev.shaped = true → s.dev.laneSt lane = 3 →
  Acts (.laneLockDone dt lane) s [P.laneState + lane] (fun d => { d with lane := [] }) (fun t =>
    t.dev.laneSt lane = 4 ∧ t.dev.laneRate lane = s.dev.laneRate lane ∧ (t.dev.laneRec lane).since = (s.at_ dt).now)

/-- R466, R467, R471: with a valid record the lane is ACTIVE, its margin scan begins, and a Mainland lane raises EV96. -/
def laneCapsDone : Prop := ∀ (s : State) (dt lane : Nat) (record : List Byte),
  lane < 24 → s.dev.shaped = true → s.dev.laneSt lane = 4 → capsOk lane record = true →
  DoesDev (.laneCapsDone dt lane record) s (fun t =>
    (lane ≠ 0 ∨ (s.dev.laneRec 0).low = false → t.dev.laneSt lane = 5 ∧ t.dev.laneRate lane = s.dev.laneRate lane) ∧
    bit (t.a P.laneMarginScan) lane = true ∧ (lane < 8 → Raised t.dev 96 (lane + 8 * s.dev.laneRate lane)))

/-- R461: past the limit of its stage a lane counts the timeout and raises EV98 once a cycle; it tries its rate once more, then the
next rate below, and after 8.0 Gb/s waits. -/
def laneStageTimeout : Prop := ∀ (s : State) (dt lane : Nat),
  lane < 24 → s.dev.shaped = true → 2 ≤ s.dev.laneSt lane → s.dev.laneSt lane ≤ 4 →
  (s.dev.laneRec lane).since + stageLimit (s.dev.laneSt lane) ≤ (s.at_ dt).now →
  Acts (.laneStageTimeout dt lane) s [P.laneState + lane, P.laneTrainTimeoutCount + lane] (fun d => { d with lane := [] }) (fun t =>
    Counted s t (P.laneTrainTimeoutCount + lane) 1 ∧
    ((s.dev.laneRec lane).told = false → Raised t.dev 98 (lane + 32 * s.dev.laneRate lane + 128 * (s.dev.laneSt lane - 2))) ∧
    ((s.dev.laneRec lane).toRate = 0 → t.dev.laneSt lane = 1 ∧ t.dev.laneRate lane = s.dev.laneRate lane) ∧
    (1 ≤ (s.dev.laneRec lane).toRate → s.dev.laneRate lane = 0 → t.dev.laneSt lane = 6) ∧
    (1 ≤ (s.dev.laneRec lane).toRate → 1 ≤ s.dev.laneRate lane → t.dev.laneSt lane = 1 ∧ t.dev.laneRate lane + 1 = s.dev.laneRate lane))

/-- R460, R461: after 1 s of WAIT the lane begins a new cycle at its top rate. -/
def laneWaitEnd : Prop := ∀ (s : State) (dt lane : Nat),
  lane < 24 → s.dev.shaped = true → s.dev.laneSt lane = 6 → (s.dev.laneRec lane).since + 10 ^ 12 ≤ (s.at_ dt).now →
  Acts (.laneWaitEnd dt lane) s [P.laneState + lane] (fun d => { d with lane := [] }) (fun t =>
    t.dev.laneSt lane = 1 ∧ t.dev.laneRate lane = s.dev.topRate lane)

/-- R461, R462: an ACTIVE lane that loses the signal starts a new cycle, counted, on the Mainland with EV97 cause 1; one in bring-up goes
back to DETECT at its rate. -/
def laneLossOfSignal : Prop := ∀ (s : State) (dt lane : Nat),
  lane < 24 → s.dev.shaped = true →
  DoesDev (.laneLossOfSignal dt lane) s (fun t =>
    (s.dev.laneSt lane = 5 → t.dev.laneSt lane = 1 ∧ Counted s t (P.laneDownCount + lane) 1 ∧
      (lane < 8 → Raised t.dev 97 (lane + 8))) ∧
    (1 ≤ s.dev.laneSt lane → s.dev.laneSt lane ≤ 4 →
      t.dev.laneSt lane = 1 ∧ t.dev.laneRate lane = s.dev.laneRate lane ∧ ∀ k, k ≠ P.laneState + lane → evKey k = false → t.a k = s.a k))

/-- R462: so does the loss of markers, with cause 2. -/
def laneMarkerLoss : Prop := ∀ (s : State) (dt lane : Nat), lane < 24 → s.dev.shaped = true → s.dev.laneSt lane = 5 →
  DoesDev (.laneMarkerLoss dt lane) s (fun t =>
    t.dev.laneSt lane = 1 ∧ Counted s t (P.laneDownCount + lane) 1 ∧ (lane < 8 → Raised t.dev 97 (lane + 16)))

/-- R457, R458, R476: the stuff bits a frame removed are counted; a frame with a bad header or stuffing counts an error, and in the
Mainland width the receiver hunts again. -/
def laneFrame : Prop := ∀ (s : State) (dt lane : Nat) (bs : List Bool),
  lane < 24 → 2 ≤ s.dev.laneSt lane → s.dev.laneSt lane ≤ 5 → (destuff 4096 true 1 bs).2.2 = true →
  Acts (.laneFrame dt lane bs) s [P.laneStuffCount + lane, P.laneHeaderErrorCount + lane, P.mlRxResyncCount] (fun d => { d with lane := [] })
    (fun t =>
      Counted s t (P.laneStuffCount + lane) (destuff 4096 true 1 bs).2.1 ∧ Counted s t (P.laneHeaderErrorCount + lane) 1 ∧
      (lane < 8 → s.dev.laneIn lane = true → Counted s t P.mlRxResyncCount 1) ∧
      (¬ (lane < 8 ∧ s.dev.laneIn lane = true) → t.a P.mlRxResyncCount = s.a P.mlRxResyncCount))

/-- R453 to R456, R459, R465: a good frame gives its lane the FCOUNT and the instant, answers a request for none, and, where the lane is in
the port width, puts its 506 data bytes into the lane's place of the port's stream. -/
def laneFrameGood : Prop := ∀ (s : State) (dt lane : Nat) (bs : List Bool),
  let pay := (destuff 4096 true 1 bs).1
  let hdr := bitsMsb (pay.take 48)
  let n := bits hdr 47 24
  let late := (portLanes (portOf lane)).any (fun k => k != lane && s.dev.laneIn k && (s.dev.laneRec k).fcount == n &&
    (s.dev.laneRec k).frameAt + skewLimit (s.dev.laneRate lane) < (s.at_ dt).now)
  lane < 24 → s.dev.shaped = true → 2 ≤ s.dev.laneSt lane → s.dev.laneSt lane ≤ 5 →
  (destuff 4096 true 1 bs).2.2 = false → pay.length = 4096 → crc8 (pay.take 40) = hdr % 256 →
  (s.dev.laneSt lane ≠ 5 ∨ s.dev.ab (P.laneState + lane) 6 = late) →
  Acts (.laneFrame dt lane bs) s [P.laneStuffCount + lane, P.laneFfe + lane] (fun d => { d with lane := [], port := [] }) (fun t =>
    Counted s t (P.laneStuffCount + lane) (destuff 4096 true 1 bs).2.1 ∧
    (t.dev.laneRec lane).fcount = n ∧ (t.dev.laneRec lane).frameAt = (s.at_ dt).now ∧
    (bits hdr 16 15 = 0 → t.a (P.laneFfe + lane) = s.a (P.laneFfe + lane) ∧ (t.dev.laneRec lane).resp = 0) ∧
    (s.dev.laneIn lane = true → (t.dev.port.getD (portOf lane) {}).rxCount = n ∧
      (lane, frameData hdr pay) ∈ (t.dev.port.getD (portOf lane) {}).rxData) ∧
    (s.dev.laneIn lane = false → t.dev.port = s.dev.port))

/-- R457, R458: the counts of the second that ends start again, and a lane over a limit raises its event. -/
def laneErrorSecond : Prop := ∀ (s : State) (dt : Nat),
  s.dev.shaped = true → Acts (.laneErrorSecond dt) s [] (fun d => { d with lane := [], port := [] }) (fun t =>
    (∀ l, l < 24 → (t.dev.laneRec l).hdrErr = 0 ∧ (t.dev.laneRec l).stuff = 0) ∧
    (∀ l, l < 24 → s.a P.laneErrorLimit < (s.dev.laneRec l).hdrErr → Raised t.dev 107 (l + 32 * sat 4095 (s.dev.laneRec l).hdrErr)) ∧
    (∀ l, l < 24 → s.a P.laneStuffLimit < (s.dev.laneRec l).stuff → Raised t.dev 108 (l + 32 * sat 4095 ((s.dev.laneRec l).stuff / 16))))

/-- R461: an accepted rate stands; with no lane above it nothing retrains. -/
def laneMaxRateWrite : Prop := ∀ (s : State) (dt port value : Nat) (w : Who),
  port < 5 → value < 256 →
  s.takes dt w (writeItem (if port = 0 then P.mlMaxRate else P.stMaxRate) (port - 1) [value]) {} →
  DoesDev (.laneMaxRateWrite dt w port value) s (fun t =>
    t.a (if port = 0 then P.mlMaxRate else P.stMaxRate + (port - 1)) = value ∧
    ((∀ l, l < 24 → s.dev.laneRate l ≤ value) → ∀ l, l < 24 → t.a (P.laneState + l) = s.a (P.laneState + l)))

/-- R471: an accepted mask starts the scan of the ACTIVE lanes in it, and of no other. -/
def laneMarginScan : Prop := ∀ (s : State) (dt value : Nat) (w : Who),
  value < 2 ^ 24 → s.takes dt w (writeItem P.laneMarginScan 0 [value]) {} →
  DoesDev (.laneMarginScan dt w value) s (fun t => ∀ l, l < 24 →
    bit (t.a P.laneMarginScan) l = (bit (s.a P.laneMarginScan) l || (bit value l && s.dev.laneSt l == 5)))

/-- R471: the eye of a scanned lane is shown and its bit clears. -/
def laneMarginScanDone : Prop := ∀ (s : State) (dt lane width height : Nat),
  lane < 24 → bit (s.a P.laneMarginScan) lane = true →
  Acts (.laneMarginScanDone dt lane width height) s [P.laneEyeWidth + lane, P.laneEyeHeight + lane, P.laneMarginScan] id (fun t =>
    t.a (P.laneEyeWidth + lane) = width % 2 ^ keyBits P.laneEyeWidth ∧ t.a (P.laneEyeHeight + lane) = height % 2 ^ keyBits P.laneEyeHeight ∧
    bit (t.a P.laneMarginScan) lane = false)

/-! ### Message ports (17_mainland_port.md) -/

/-- R474, R476, R480: a good credit unit sets the limit of its channel and opens it; one that fails its check changes no limit and,
on the Mainland, counts a resynchronisation. -/
def creditReceive : Prop := ∀ (s : State) (dt port : Nat) (u : List Byte),
  let good : Prop := u.length = 8 ∧ field u 0 1 = 0xC5 ∧ field u 6 2 = crc16 (u.take 6)
  port < 5 → s.dev.shaped = true → (s.at_ dt).up = true → s.dev.portWidth port ≠ 0 → (s.dev.port.getD port {}).wait = [] →
  s.dev.arch.gather = [] →
  Acts (.creditReceive dt port u) s (P.mlRxResyncCount :: span P.mlTxCreditAvailable 4) (fun d => { d with port := [] }) (fun t =>
    t.dev.out = [] ∧
    (good → ∀ vc, vc < 4 → t.dev.chan port vc = if vc = field u 1 1 % 4
      then { s.dev.chan port vc with limit := field u 2 3, opened := true } else s.dev.chan port vc) ∧
    (good → port = 0 → t.a (P.mlTxCreditAvailable + field u 1 1 % 4) = (t.dev.chan 0 (field u 1 1 % 4)).credit) ∧
    (¬ good → t.dev.port = s.dev.port) ∧ (¬ good → port = 0 → Counted s t P.mlRxResyncCount 1) ∧
    (good ∨ port ≠ 0 → t.a P.mlRxResyncCount = s.a P.mlRxResyncCount))

/-- R480, R481: the limit sent is what was freed plus the buffer, modulo 2^24. -/
def creditSend : Prop := ∀ (s : State) (dt port vc : Nat),
  port < 5 → vc < 4 → s.dev.shaped = true → (s.at_ dt).up = true → s.dev.portWidth port ≠ 0 →
  Acts (.creditSend dt port vc) s [] (fun d => { d with port := [] }) (fun t =>
    t.dev.out = [.credit port vc (((s.dev.chan port vc).freed + rxBuffer vc) % 2 ^ 24)] ∧
    (t.dev.chan port vc).limitSent = ((s.dev.chan port vc).freed + rxBuffer vc) % 2 ^ 24 ∧
    (t.dev.chan port vc).freed = (s.dev.chan port vc).freed)

/-- R483: what the sender consumed and this port never received is taken as received and freed, channel by channel. -/
def heartbeatReceive : Prop := ∀ (s : State) (dt : Nat) (h : Hdr) (body : List Byte),
  s.hears dt h tHeartbeat body.length → body.length = 32 → s.dev.shaped = true →
  DoesDev (.heartbeatReceive dt h body) s (fun t => ∀ vc, vc < 4 →
    let c := (s.heard dt h tHeartbeat body.length).chan h.port vc
    let mine := (c.received + 2 ^ 24 - (if vc = 2 then msgUnits 32 else 0)) % 2 ^ 24
    let lost := (field body (16 + 4 * vc) 4 % 2 ^ 24 + 2 ^ 24 - mine) % 2 ^ 24
    t.dev.chan h.port vc = if lost = 0 ∨ 2 ^ 23 ≤ lost then c
      else { c with received := (c.received + lost) % 2 ^ 24, freed := (c.freed + lost) % 2 ^ 24 })

/-- R496: a HEARTBEAT carries the time and what each channel consumed. -/
def heartbeatSend : Prop := ∀ (s : State) (dt port : Nat),
  let d := s.at_ dt
  let m := d.mkMsg port (if port = 0 then d.island else 0xFE) 2 tHeartbeat false
    (leBytes 16 d.timeNow ++ [0, 1, 2, 3].flatMap (fun vc => leBytes 4 (d.chan port vc).consumed))
  port < 5 → d.up = true → d.portWidth port ≠ 0 → d.joinCarries port 2 tHeartbeat = true → d.quiet = true → d.canSend port m = true →
  DoesDev (.heartbeatSend dt port) s (fun t => t.dev.out = [d.msgOut port m])

/-- R496: with no message for eight periods MlPartnerState shows 1. -/
def partnerSilent : Prop := ∀ (s : State) (dt : Nat),
  s.dev.portWidth 0 ≠ 0 → (s.dev.port.getD 0 {}).lastMsg + 8 * s.a P.mlHeartbeatPeriod * 10 ^ 6 ≤ (s.at_ dt).now →
  Acts (.partnerSilent dt) s [P.mlPartnerState] id (fun t => t.a P.mlPartnerState = 1 ∧ t.dev.out = [])

/-- R494: the oldest records of the Mainland queue leave in one EVENT message, and leave the queue. -/
def eventSend : Prop := ∀ (s : State) (dt count : Nat),
  let d := s.at_ dt
  let q := (s.arrive dt).places.ml
  let n := min (min count 512) q.length
  n ≠ 0 → d.up = true → d.quiet = true → s.dev.flush = 0 → d.canSend d.egress (d.homeMsg 2 0x08 false (eventBody (q.take n))) = true →
  DoesDev (.eventSend dt count) s (fun t =>
    t.places.ml = q.drop n ∧ t.places.fieldQ = (s.arrive dt).places.fieldQ ∧ t.places.log = (s.arrive dt).places.log ∧
    t.dev.out = [d.msgOut d.egress (d.homeMsg 2 0x08 false (eventBody (q.take n)))])

/-- R495, R648: the telemetry of the second that has begun leaves, numbered. -/
def telemetrySend : Prop := ∀ (s : State) (dt : Nat),
  let d := s.at_ dt
  let m := d.homeMsg 2 0x09 false (leBytes 16 (timeField d.secs 0 d.quality) ++ d.telemetry.1)
  d.up = true → d.portWidth d.egress ≠ 0 → d.quiet = true → d.canSend d.egress m = true →
  DoesDev (.telemetrySend dt) s (fun t => t.dev.out = [d.msgOut d.egress m] ∧ t.dev.telem.getD 0 0 = s.dev.telem.getD 0 0 + 1)

/-- R498, R562: the next 9,192 bytes of the Transit record leave, the last of them with LAST, which ends the send. -/
def captureDataSend : Prop := ∀ (s : State) (dt : Nat),
  let d := (s.at_ dt).holdOutputs
  let h := d.octets P.transitRecordHeader 64
  let total := 64 + (field h 29 5 + field h 34 5) * 5 * field h 20 4
  let off := s.dev.tra.sendOff
  let n := min 9192 (total - off)
  let body := leBytes 4 s.dev.tra.rcd ++ zeros 4 ++ leBytes 8 off ++ leBytes 4 n ++ leBytes 4 (b2n (off + n == total))
    ++ (List.range n).map (fun i => d.traByte s.mem (off + i))
  let m := d.homeMsg 3 0x0D false body
  s.a P.transitSendState = 1 → d.sen.replay = 0 → d.liveWaits = false → d.histShed = false → off < total → d.quiet = true →
  d.canSend d.egress m = true →
  DoesDev (.captureDataSend dt) s (fun t =>
    t.dev.out = d.out ++ [d.msgOut d.egress m] ∧ t.dev.tra.sendOff = off + n ∧ t.a P.transitSendState = if off + n = total then 0 else 1)

/-- R485: an accepted clear of MainlandTrust stands at once; what it stops stops at the end of the slot. -/
def mainlandTrustClear : Prop := ∀ (s : State) (dt : Nat) (w : Who),
  s.takes dt w (writeItem P.mainlandTrust 0 [0]) {} →
  DoesDev (.mainlandTrustClear dt w) s (fun t => t.a P.mainlandTrust = 0 ∧ (s.a P.mainlandTrust = 1 → t.dev.ul.trustOff = true))

/-! ### The Archipelago (18_archipelago.md) -/

/-- R507: a request is answered with this island's report, to island 0. -/
def discoverRequest : Prop := ∀ (s : State) (dt : Nat) (h : Hdr),
  let d := s.heard dt h tDiscover 0
  let m := d.mkMsg h.port 0 1 tDiscover true d.report
  s.hears dt h tDiscover 0 → h.port ≠ 0 → d.canSend h.port m = true →
  DoesDev (.discoverRequest dt h) s (fun t => t.dev.out = [d.msgOut h.port m] ∧ t.dev.arch = s.dev.arch)

/-- R506, R507: the root records the chip a report names; any other island does not. -/
def discoverReport : Prop := ∀ (s : State) (dt : Nat) (h : Hdr) (body : List Byte),
  s.hears dt h tDiscover body.length true → h.port ≠ 0 → body.length = 48 → field body 0 8 ≠ 0 → field body 0 8 ≠ s.dev.fus.chipId →
  DoesDev (.discoverReport dt h body) s (fun t =>
    (s.dev.isRoot = true → ∃ c ∈ t.dev.arch.chips, c.id = field body 0 8 ∧ c.group = field body 9 1 ∧ c.collector = field body 10 1) ∧
    (s.dev.isRoot = false → t.dev.arch = s.dev.arch))

/-- The parameters an assignment sets (R508). -/
def Assigned (t : State) (a : Assign) : Prop :=
  t.a P.archIslandNumber = a.island ∧ t.a P.redParentPort = a.parent ∧ t.a P.redChildPorts = a.children ∧ t.a P.redState = a.state ∧
  t.a P.redGroupSize = a.size ∧ t.a P.redHeight = a.height ∧ t.a P.archTopologyEpoch = a.epoch ∧
  ∀ i, i < 64 → t.a (P.archRouteTable + i) = a.routes.getD i 0

/-- R508: an assignment for this chip waits for its SWITCH; without valid time it acts at once; one for another chip does nothing. -/
def assign : Prop := ∀ (s : State) (dt : Nat) (h : Hdr) (body : List Byte),
  s.hears dt h tAssign body.length → h.port ≠ 0 → body.length = 92 →
  DoesDev (.assign dt h body) s (fun t =>
    (field body 0 8 = s.dev.fus.chipId → s.dev.tim.valid = true → t.dev.arch = { s.dev.arch with wait := some (assignIn body) } ∧
      t.a P.archIslandNumber = s.a P.archIslandNumber) ∧
    (field body 0 8 = s.dev.fus.chipId → s.dev.tim.valid = false → Assigned t (assignIn body) ∧ t.dev.arch.wait = none) ∧
    (field body 0 8 ≠ s.dev.fus.chipId → t.dev.arch = s.dev.arch ∧ t.a P.archIslandNumber = s.a P.archIslandNumber))

/-- R508: at SWITCH the assignment is in force; a new EPOCH raises EV102. -/
def assignApply : Prop := ∀ (s : State) (dt : Nat) (a : Assign),
  s.dev.arch.wait = some a → (s.dev.tim.valid = false ∨ a.switch ≤ (s.at_ dt).secs) → a.routes.length = 64 →
  DoesDev (.assignApply dt) s (fun t =>
    Assigned t a ∧ t.dev.arch.wait = none ∧ (a.epoch ≠ s.a P.archTopologyEpoch → Raised t.dev 102 (a.epoch % 4096)))

/-- R504, R527: a message between islands goes on toward its island with one hop less; at the last hop it is discarded and counted. -/
def routedForward : Prop := ∀ (s : State) (dt ty hops p : Nat) (h : Hdr) (body : List Byte),
  let r := ((s.at_ dt).ripPass false h.port h.vc).rxBase h ty body.length (typeOk h.port ty h.vc h.resp)
  let d := r.1.freeUnits h.port h.vc (msgUnits body.length)
  let m : Msg := { vc := h.vc, type := ty, island := h.island, src := s.a P.archIslandNumber, hops := hops - 1, resp := h.resp, body := body }
  (s.at_ dt).quiet = true → r.2 = true → s.dev.inArch = true → (s.at_ dt).joinCarries h.port h.vc ty = true → h.port ≠ 0 →
  outward h.port ty h.resp = false → h.island < 64 → h.island ≠ s.dev.island → ty ≠ tSlotPlan →
  s.dev.routePort h.island = some p → (s.at_ dt).joinCarries p h.vc ty = true →
  DoesDev (.routedForward dt h ty hops body) s (fun t =>
    (2 ≤ hops → d.canSend p m = true → t.dev.out = [d.msgOut p m]) ∧
    (hops ≤ 1 → t.dev.out = [] ∧ Counted s t P.archRoutedDiscardCount 1))

/-- R514: a refusing verdict drops the forwarded plan; with an accepting one the member judges it by its own LEAD and resources. -/
def planVerdict : Prop := ∀ (s : State) (dt : Nat) (h : Hdr) (body : List Byte) (f : Fwd),
  let slot := field body 0 8
  let g := field body 8 1 % 2
  let dl := bit (field body 8 1) 1
  let mine (f : Fwd) : Bool := f.slot == slot && f.group == g && f.dl == dl
  let d := s.heard dt h tVerdict body.length
  let late := field body 10 2 * 1000 < d.planLeadNs f.dl f.group
  s.hears dt h tVerdict body.length → h.port ≠ 0 → body.length = 16 → s.a P.redState = 1 → s.a P.redChildPorts = 0 →
  s.dev.arch.fwd.find? mine = some f →
  DoesDev (.planVerdict dt h body) s (fun t =>
    t.dev.arch.fwd = s.dev.arch.fwd.filter (fun x => !mine x) ∧
    (bit (field body 8 1) 2 = false → t.dev.ul.plans = s.dev.ul.plans ∧ t.dev.dl.plans = s.dev.dl.plans) ∧
    (bit (field body 8 1) 2 = true → late → Counted s t (if f.dl then P.dlPlanLateCount else P.apPlanLateCount) 1) ∧
    (bit (field body 8 1) 2 = true → ¬ late → d.unavailable f.dl f.plan = false → d.overLink f.dl f.plan = false →
      Counted s t (if f.dl then P.dlPlanAcceptedCount else P.apPlanAcceptedCount) 1 ∧
      f.plan ∈ (if f.dl then t.dev.dl.plans else t.dev.ul.plans)))

/-- R514: 100 us before its slot a forwarded plan without a verdict is late. -/
def verdictDeadline : Prop := ∀ (s : State) (dt g slot : Nat) (dl : Bool),
  let mine (f : Fwd) : Bool := f.slot == slot && f.group == g && f.dl == dl
  s.dev.tim.valid = true → slot * s.dev.slotNs ≤ (s.at_ dt).merNs + 100000 →
  (s.dev.arch.fwd.any mine = true ∨ (s.dev.parts dl).any (fun x => x.is slot g true) = true) →
  Acts (.verdictDeadline dt g slot dl) s [P.apPlanLateCount, P.dlPlanLateCount]
    (fun d => { d with arch := {}, ul := {}, dl := {} }) (fun t =>
    t.dev.arch.fwd = s.dev.arch.fwd.filter (fun f => !mine f) ∧
    t.dev.parts dl = (s.dev.parts dl).filter (fun x => !x.is slot g true) ∧
    Counted s t (if dl then P.dlPlanLateCount else P.apPlanLateCount) 1)

/-- R515, R521, R522: words of a child for what the island still expects are taken up to their end; words already settled are late
and counted; VOID takes the child out of the slot. -/
def reduce : Prop := ∀ (s : State) (dt : Nat) (h : Hdr) (body : List Byte),
  let slot := field body 0 8
  let g := field body 8 1 % 2
  let off := field body 12 4
  let n := field body 16 2
  let mine (r : Red) : Bool := r.slot == slot && r.group == g
  s.hears dt h tReduce body.length → h.port ≠ 0 → n ≤ 1836 → 32 + 5 * n ≤ body.length →
  DoesDev (.reduce dt h body) s (fun t =>
    ((s.heard dt h tReduce body.length).redOf slot g = none → Counted s t P.redLateWordCount n ∧ t.dev.arch = s.dev.arch) ∧
    (∀ r, s.dev.arch.red.find? mine = some r →
      (bit (field body 8 1) 2 = true → ∃ y ∈ t.dev.arch.red, mine y = true ∧ ∀ k ∈ y.kids, k.port + 1 = h.port → k.gone = true) ∧
      (bit (field body 8 1) 2 = false → ∀ k, r.kids.find? (fun k => k.port == h.port - 1) = some k →
        (off + n ≤ r.settled k → n ≠ 0 → Counted s t P.redLateWordCount n) ∧
        (off = r.settled k → n ≠ 0 → t.a P.redLateWordCount = s.a P.redLateWordCount ∧
          ∃ y ∈ t.dev.arch.red, mine y = true ∧ ∀ k ∈ y.kids, k.port = h.port - 1 → k.next = off + n))))

/-- R522: RedWindow times HEIGHT after the end of the slot no more is waited for: every word of the island's own is formed. -/
def reductionWindowClose : Prop := ∀ (s : State) (dt g slot e : Nat) (r : Red),
  let mine (r : Red) : Bool := r.slot == slot && r.group == g
  s.dev.arch.red.find? mine = some r → r.endAt = some e → r.closed = false → r.own.length ≤ r.total →
  e + s.a P.redWindow * 10 ^ 6 * s.a P.redHeight ≤ (s.at_ dt).now →
  DoesDev (.reductionWindowClose dt g slot) s (fun t =>
    ∃ y ∈ t.dev.arch.red, mine y = true ∧ y.closed = true ∧ y.formed = max r.formed r.own.length)

/-- R501: the delay of the upstream island plus the mean of the last 16 differences of stamps is ArchSyncDelay. -/
def syncStamp : Prop := ∀ (s : State) (dt up mine : Nat) (h : Hdr) (body : List Byte),
  let hops := keepLast 16 (s.dev.arch.hops ++ [(mine : Int) - (stampPs body : Nat)])
  s.hears dt h tSyncStamp body.length → h.port ≠ 0 → body.length = 16 → s.a P.archSyncUpstream ≠ 0xFF →
  s.a (P.archNeighbours + (h.port - 1)) = s.a P.archSyncUpstream → s.dev.arch.myStamp = some mine →
  DoesDev (.syncStamp dt h body up) s (fun t =>
    t.dev.arch = { s.dev.arch with hops := hops, myStamp := none } ∧
    t.a P.archSyncDelay = ux 40 ((up : Int) + rhe hops.sum hops.length))

/-! ### DMA (19_dma.md) -/

/-- R538, R540, R544: a disabled channel keeps its start; an enabled bulk channel joins the queue; an enabled real-time one runs the
descriptor, or halts where it breaks the checks of R535. -/
def dmaStart : Prop := ∀ (s : State) (dt c addr : Nat) (w : Who),
  c < 16 → addr < 2 ^ 40 → s.dev.shaped = true → s.takes dt w (writeItem P.dmaStartAddr c [addr]) {} →
  DoesDev (.dmaStart dt w c addr) s (fun t =>
    (s.dev.ab P.dmaEnable c = false → t.dev.dmaSt c = 0 ∧ (t.dev.dmaCh c).fetch = some addr) ∧
    (s.dev.ab P.dmaEnable c = true → bulk c = true → t.dev.dmaSt c = 1 ∧ (t.dev.dmaCh c).fetch = some addr ∧
      t.dev.dma.queue = s.dev.dma.queue.filter (· != c) ++ [c]) ∧
    (s.dev.ab P.dmaEnable c = true → bulk c = false → descAddrOk addr = false →
      t.dev.dmaSt c = 5 ∧ t.a (P.dmaFaultAddr + c) = addr ∧ t.a (P.dmaCurrentDesc + c) = addr) ∧
    (s.dev.ab P.dmaEnable c = true → bulk c = false → descAddrOk addr = true → sramGenLo ≤ addr →
      let x := descOf (s.mem.read addr 32)
      (x.fault addr = none → t.dev.dmaSt c = 2 ∧ (t.dev.dmaCh c).desc = some x ∧ t.a (P.dmaRemaining + c) = x.count) ∧
      (∀ f, x.fault addr = some f → t.dev.dmaSt c = 5 ∧ t.a (P.dmaFaultAddr + c) = f)))

/-- R538: every channel of the mask goes to IDLE and keeps nothing to do; the others stand; memory changes only within what the
stopped descriptors write. -/
def dmaAbort : Prop := ∀ (s : State) (dt mask : Nat) (w : Who),
  mask < 2 ^ 16 → s.dev.shaped = true → s.takes dt w (writeItem P.dmaAbort 0 [mask]) {} →
  Does (.dmaAbort dt w mask) s (fun t =>
    (∀ c, c < 16 → bit mask c = true → t.dev.dmaSt c = 0 ∧ (t.dev.dmaCh c).desc = none ∧ (t.dev.dmaCh c).fetch = none) ∧
    (∀ c, c < 16 → bit mask c = false → t.dev.dmaSt c = s.dev.dmaSt c ∧ t.dev.dmaCh c = s.dev.dmaCh c) ∧
    (s.mem.wf = true → ∀ a, (∀ c, c < 16 → bit mask c = true → ∀ x, (s.dev.dmaCh c).desc = some x → ¬ (x.dst ≤ a ∧ a < x.dst + x.count)) →
      t.mem.get a = s.mem.get a))

/-- R543: CONTINUE of a running channel waits in its bit; of a parked channel whose tail still has EOC it is counted as without
effect; a disabled parked channel keeps it. -/
def dmaContinue : Prop := ∀ (s : State) (dt c : Nat) (w : Who),
  c < 16 → s.dev.shaped = true → s.takes dt w (writeItem P.dmaContinue 0 [2 ^ c]) {} →
  DoesDev (.dmaContinue dt w (2 ^ c)) s (fun t =>
    (s.dev.dmaSt c = 2 → t.dev.dmaSt c = 2 ∧ bit (t.a (P.dmaState + c)) 5 = true) ∧
    (s.dev.dmaSt c = 3 → s.dev.ab P.dmaEnable c = false → t.dev.dmaSt c = 3 ∧ bit (t.a (P.dmaState + c)) 5 = true) ∧
    (s.dev.dmaSt c = 3 → s.dev.ab P.dmaEnable c = true → sramGenLo ≤ s.a (P.dmaCurrentDesc + c) →
      (descOf (s.mem.read (s.a (P.dmaCurrentDesc + c)) 32)).eoc = true →
      t.dev.dmaSt c = 3 ∧ bit (t.a (P.dmaState + c)) 5 = false ∧ Counted s t P.dmaContinueNoopCount 1) ∧
    (s.dev.dmaSt c ≠ 2 → s.dev.dmaSt c ≠ 3 → t.a (P.dmaState + c) = s.a (P.dmaState + c)))

/-- R544: a running channel is suspended where it stands, a queued one leaves the queue; memory changes only within what the stopped
descriptors write. -/
def dmaDisable : Prop := ∀ (s : State) (dt mask : Nat) (w : Who) (beats : List Nat),
  mask < 2 ^ 16 → s.dev.shaped = true → s.takes dt w (writeItem P.dmaEnable 0 [mask]) { beats := some beats } →
  maskSub 16 mask (s.a P.dmaEnable) = 0 →
  Does (.dmaDisable dt w mask beats) s (fun t =>
    (∀ c, c < 16 → s.dev.ab P.dmaEnable c = true → bit mask c = false →
      t.dev.ab P.dmaEnable c = false ∧
      (s.dev.dmaSt c = 2 → t.dev.dmaSt c = 4 ∧ (bulk c = true → bits (t.a (P.dmaState + c)) 7 6 = 3)) ∧
      (s.dev.dmaSt c = 1 → t.dev.dmaSt c = 4 ∧ c ∉ t.dev.dma.queue)) ∧
    (∀ c, c < 16 → bit mask c = s.dev.ab P.dmaEnable c → t.dev.dmaSt c = s.dev.dmaSt c ∧ t.dev.dmaCh c = s.dev.dmaCh c) ∧
    (s.mem.wf = true → ∀ a, (∀ c, c < 16 → ∀ x, (s.dev.dmaCh c).desc = some x → ¬ (x.dst ≤ a ∧ a < x.dst + x.count)) →
      t.mem.get a = s.mem.get a))

/-- R544: a suspended bulk channel queues again, a suspended real-time one runs on. -/
def dmaEnable : Prop := ∀ (s : State) (dt c : Nat) (w : Who),
  c < 16 → s.dev.shaped = true → s.takes dt w (writeItem P.dmaEnable 0 [s.a P.dmaEnable + 2 ^ c]) {} →
  s.dev.ab P.dmaEnable c = false → s.a P.dmaEnable < 2 ^ 16 → s.dev.dmaSt c = 4 → (s.dev.dmaCh c).fetch = none →
  DoesDev (.dmaEnable dt w (s.a P.dmaEnable + 2 ^ c)) s (fun t =>
    t.dev.ab P.dmaEnable c = true ∧ (bulk c = true → t.dev.dmaSt c = 1 ∧ c ∈ t.dev.dma.queue) ∧ (bulk c = false → t.dev.dmaSt c = 2) ∧
    t.dev.dmaCh c = s.dev.dmaCh c)

/-- R540: the front of the queue runs once no other bulk descriptor does. -/
def dmaQueueTurn : Prop := ∀ (s : State) (dt c : Nat) (rest : List Nat) (x : Desc),
  c < 16 → s.dev.shaped = true → s.dev.dma.queue = c :: rest → (∀ k, 8 ≤ k → k < 16 → s.dev.dmaSt k ≠ 2) →
  (s.dev.dmaCh c).fetch = none → (s.dev.dmaCh c).desc = some x →
  Acts (.dmaQueueTurn dt) s [P.dmaState + c] (fun d => { d with dma := {} }) (fun t =>
    t.dev.dmaSt c = 2 ∧ t.dev.dma.queue = rest ∧ t.dev.dma.ch = s.dev.dma.ch)

/-- R534, R541, R543: the rest of the descriptor's bytes are written, and nothing else of memory; with EOC and no CONTINUE waiting
the channel parks, with STATUS 0. -/
def dmaDescriptorDone : Prop := ∀ (s : State) (dt c : Nat) (x : Desc),
  c < 16 → s.dev.shaped = true → (s.dev.dmaCh c).desc = some x → s.dev.dmaSt c = 2 → x.op = 1 → (s.dev.dmaCh c).moved ≤ x.count →
  x.eoc = true → bit (s.a (P.dmaState + c)) 5 = false →
  Does (.dmaDescriptorDone dt c none) s (fun t =>
    t.dev.dmaSt c = 3 ∧ bits (t.a (P.dmaState + c)) 7 6 = 0 ∧ t.a (P.dmaRemaining + c) = 0 ∧ Counted s t (P.dmaDescCount + c) 1 ∧
    (t.dev.dmaCh c).done = (s.dev.dmaCh c).done + 1 ∧
    (s.mem.wf = true → ∀ a, t.mem.get a =
      if x.dst + (s.dev.dmaCh c).moved ≤ a ∧ a < x.dst + x.count then (leBytes 5 x.const).getD ((a - x.dst) % 5) 0#8 else s.mem.get a))

/-- R534: a COPY writes what its source reads, and nothing else of memory. -/
def dmaDescriptorDoneCopy : Prop := ∀ (s : State) (dt c : Nat) (x : Desc),
  c < 16 → s.dev.shaped = true → (s.dev.dmaCh c).desc = some x → s.dev.dmaSt c = 2 → x.op = 0 → (s.dev.dmaCh c).moved = 0 →
  sramGenLo ≤ x.src → x.eoc = true → bit (s.a (P.dmaState + c)) 5 = false →
  Does (.dmaDescriptorDone dt c none) s (fun t =>
    t.dev.dmaSt c = 3 ∧ (s.mem.wf = true → ∀ a, t.mem.get a =
      if x.dst ≤ a ∧ a < x.dst + x.count then s.mem.get (x.src + (a - x.dst)) else s.mem.get a))

/-- R534, R537, R541: a COMPARE that meets an unequal byte halts with STATUS 1 and the address of the byte; memory stands. -/
def dmaDescriptorDoneCompare : Prop := ∀ (s : State) (dt c i : Nat) (x : Desc),
  c < 16 → s.dev.shaped = true → (s.dev.dmaCh c).desc = some x → s.dev.dmaSt c = 2 → x.op = 2 → (s.dev.dmaCh c).moved = 0 →
  sramGenLo ≤ x.src → sramGenLo ≤ x.dst → i < x.count → s.mem.get (x.src + i) ≠ s.mem.get (x.dst + i) →
  (∀ j, j < i → s.mem.get (x.src + j) = s.mem.get (x.dst + j)) →
  DoesDev (.dmaDescriptorDone dt c none) s (fun t =>
    t.dev.dmaSt c = 5 ∧ bits (t.a (P.dmaState + c)) 7 6 = 1 ∧ t.a (P.dmaFaultAddr + c) = x.dst + i ∧ (t.dev.dmaCh c).desc = none)

/-! ### Transit capture (20_transit_capture.md) -/

/-- R555: an accepted arm puts the sequencer into state 0 with nothing triggered. -/
def transitArm : Prop := ∀ (s : State) (dt : Nat) (w : Who),
  s.takes dt w (writeItem P.transitArm 0 [1]) {} →
  DoesDev (.transitArm dt w 1) s (fun t =>
    t.a P.transitState = 1 ∧ t.a P.transitSeqState = 0 ∧ t.dev.tra.trig = none ∧ t.dev.tra.cnt = 0 ∧
    t.dev.tra.armed = [s.a P.transitSource, s.a P.transitGroup, b2n s.dev.wide, s.a P.transitPathMask, s.a P.transitFirstBin,
      s.a P.transitBinCount, s.dev.traWords, s.a P.transitPreDepth, s.a P.transitPostDepth])

/-- R558, R560: while armed a forced trigger is declared with condition 15; in REARM it is ignored and counted. -/
def transitForce : Prop := ∀ (s : State) (dt instants : Nat) (w : Who),
  s.takes dt w (writeItem P.transitForce 0 [1]) { instants := some instants } →
  DoesDev (.transitForce dt w 1 instants) s (fun t =>
    (s.dev.traSt = 1 → t.a P.transitState = 2 ∧ t.dev.tra.trig = some ((s.at_ dt).merPs, instants) ∧
      Raised t.dev 120 (s.a P.transitSeqState % 8 + 120 + 128 * ((s.dev.tra.rcd + 1) % 1024))) ∧
    (s.dev.traSt = 3 → t.a P.transitState = 3 ∧ Counted s t P.transitIgnoredCount 1))

/-- R562: an accepted send begins at the header. -/
def transitSendRecord : Prop := ∀ (s : State) (dt value : Nat) (w : Who),
  s.takes dt w (writeItem P.transitSendRecord 0 [value]) {} →
  DoesDev (.transitSendRecord dt w value) s (fun t => t.a P.transitSendState = 1 ∧ t.dev.tra.sendOff = 0)

/-- R561: clearing TransitEnable closes what is open; nothing is left armed. -/
def transitEnableClear : Prop := ∀ (s : State) (dt instants : Nat) (w : Who),
  s.takes dt w (writeItem P.transitEnable 0 [0]) { instants := some instants } → s.a P.transitEnable = 1 →
  DoesDev (.transitEnableClear dt w instants) s (fun t =>
    t.a P.transitEnable = 0 ∧
    (s.dev.traSt = 1 ∨ s.dev.traSt = 2 → t.a P.transitState = 4 ∧ Counted s t P.transitRecordCount 1 ∧ t.dev.tra.rcd = (s.dev.tra.rcd + 1) % 2 ^ 32) ∧
    (s.dev.traSt = 2 → Counted s t P.transitTruncatedCount 1) ∧
    (s.dev.traSt = 3 → t.a P.transitState = 4) ∧ (s.dev.traSt = 0 ∨ s.dev.traSt = 4 → t.a P.transitState = s.a P.transitState))

/-- R556 to R558: an occurrence that meets the condition of the present state counts; the one that completes its count moves the
sequencer on or declares the trigger; one that does not meet it changes nothing. -/
def transitCondOccurrence : Prop := ∀ (s : State) (dt cond arg instants back : Nat),
  let q := s.a P.transitSeqState
  let e := s.dev.seqEntry q
  let edge := ((s.at_ dt).now - back) / 10000
  let full : Prop := max 1 (s.a (P.transitStateCount + q)) ≤ s.dev.tra.cnt + 1
  s.dev.traSt = 1 →
  Acts (.transitCondOccurrence dt cond arg instants back) s [P.transitState, P.transitSeqState] (fun d => { d with tra := {} }) (fun t =>
    (s.dev.condMet q cond arg = false → t.dev.tra = s.dev.tra ∧ t.a P.transitState = 1 ∧ t.a P.transitSeqState = q) ∧
    (s.dev.condMet q cond arg = true → s.dev.tra.lastEdge ≠ some edge → ¬ full →
      t.dev.tra.cnt = s.dev.tra.cnt + 1 ∧ t.a P.transitState = 1 ∧ t.a P.transitSeqState = q) ∧
    (s.dev.condMet q cond arg = true → s.dev.tra.lastEdge ≠ some edge → full → bit e 21 = false →
      t.a P.transitState = 1 ∧ t.a P.transitSeqState = bits e 27 25 ∧ t.dev.tra.cnt = 0 ∧ t.dev.tra.timerAt = (s.at_ dt).now) ∧
    (s.dev.condMet q cond arg = true → s.dev.tra.lastEdge ≠ some edge → full → bit e 21 = true →
      t.a P.transitState = 2 ∧ t.dev.tra.trigBy = q % 8 + 8 * cond ∧ t.dev.tra.trig.map (·.2) = some instants ∧
      Raised t.dev 120 (q % 8 + 8 * cond + 128 * ((s.dev.tra.rcd + 1) % 1024))))

/-- R557: a state whose timer runs out leads to its timeout state, with counter and timer restarted. -/
def transitStateTimeout : Prop := ∀ (s : State) (dt : Nat),
  let q := s.a P.transitSeqState
  let e := s.dev.seqEntry q
  s.dev.traSt = 1 → bit e 20 = true → s.dev.tra.timerAt + 10000 * s.a (P.transitStateTimer + q) ≤ (s.at_ dt).now →
  Acts (.transitStateTimeout dt) s [P.transitSeqState] (fun d => { d with tra := {} }) (fun t =>
    t.a P.transitSeqState = bits e 24 22 ∧ t.dev.tra = { s.dev.tra with cnt := 0, timerAt := (s.at_ dt).now })

/-- R553, R554, R561: the record ends: counted, numbered, EV121; the state is HELD, or REARM with TransitAutoRearm. -/
def transitRecordComplete : Prop := ∀ (s : State) (dt phase : Nat) (data : List Nat),
  s.dev.traSt = 2 →
  Does (.transitRecordComplete dt phase data) s (fun t =>
    t.a P.transitState = (if s.a P.transitAutoRearm = 1 then 3 else 4) ∧ t.dev.tra.rcd = (s.dev.tra.rcd + 1) % 2 ^ 32 ∧
    Counted s t P.transitRecordCount 1 ∧ (∃ f, Raised t.dev 121 (f + 8 * ((s.dev.tra.rcd + 1) % 2 ^ 32 % 2 ^ 14))) ∧
    (s.mem.wf = true → s.dev.traSel 6 ≠ 0 → 5 * s.dev.traSel 6 ≤ 402653184 → ∀ a, ¬ (0x54000000 ≤ a ∧ a < 0x54000000 + 402653184) →
      t.mem.get a = s.mem.get a))

/-- R555, R560: REARM ends armed again; what was ignored meanwhile is reported by EV122. -/
def transitRearmEnd : Prop := ∀ (s : State) (dt : Nat), s.dev.traSt = 3 →
  Acts (.transitRearmEnd dt) s [P.transitState, P.transitSeqState] (fun d => { d with tra := {} }) (fun t =>
    t.a P.transitState = 1 ∧ t.a P.transitSeqState = 0 ∧ t.dev.tra.trig = none ∧
    (s.dev.tra.ignored ≠ 0 → Raised t.dev 122 (sat 131071 s.dev.tra.ignored)))

/-- R559: the pulse ends. -/
def trigOutPulseEnd : Prop := ∀ (s : State) (dt : Nat), s.dev.tra.trigOutTill ≠ 0 → s.dev.tra.trigOutTill ≤ (s.at_ dt).now →
  Acts (.trigOutPulseEnd dt) s [] (fun d => { d with tra := {} }) (fun t =>
    t.dev.tra = { s.dev.tra with trigOutTill := 0 } ∧ t.dev.out = [.pin .trigOut false])

/-! ### Almanac, Charts and FIELD (21_almanac.md, 13_housekeeping_thermal.md R402) -/

/-- R565 to R568: what READ of a readable item answers: STATUS 0 and the item with its value; nothing is written. -/
def almanacRead : Prop := ∀ (s : State) (dt : Nat) (q : Req) (x : Item) (y : Ses) (r : PRow),
  let o := reqOp q 1 [x]
  let d := s.desk dt o
  let v := d.viewBytes s.mem r (itemId x) x.first (itemCount x r)
  (s.at_ dt).serves o → (s.at_ dt).sesOn q.port q.ses = some y → itemStatus y.role false x = 0 → rowOf (itemId x) = some r →
  16 + v.length ≤ (if q.port = 0 then 9212 else 9216) →
  DoesDev (.almanacRead dt q x) s (fun t =>
    (∀ k, evKey k = false → replyKey k = false → t.a k = s.a k) ∧
    t.dev.out = ((d.countOp 0).answer q.port q.id (resultOf 0 0xFF 1 (itemBytes { x with value := v }))).out)

/-- R568: a block of readable items is answered item by item. -/
def almanacReadBlock : Prop := ∀ (s : State) (dt : Nat) (q : Req) (l : List Item) (y : Ses),
  let o := reqOp q 3 l
  let d := s.desk dt o
  let data := l.flatMap (fun x => match rowOf (itemId x) with
    | some r => itemBytes { x with value := d.viewBytes s.mem r (itemId x) x.first (itemCount x r) }
    | none => [])
  (s.at_ dt).serves o → 1 ≤ l.length → l.length ≤ 64 → (s.at_ dt).sesOn q.port q.ses = some y → (∀ x ∈ l, itemStatus y.role false x = 0) →
  4 + data.length ≤ (if q.port = 0 then 9212 else 9216) →
  DoesDev (.almanacReadBlock dt q l) s (fun t =>
    (∀ k, evKey k = false → replyKey k = false → t.a k = s.a k) ∧
    t.dev.out = ((d.countOp 0).answer q.port q.id (resultOf 0 0xFF l.length data)).out)

/-- R569, R570: an accepted write makes its changes and nothing else but what auditing, counting and answering it takes. -/
def writeActs (s : State) (dt : Nat) (c : Instr) (o : AlmOp) : Prop := ∀ y : Ses,
  let e := (s.desk dt o).applyChanges s.mem (s.arrive dt).places (whoOf y.role o.port o.ses) o.port o.ses {} (o.items.map itemChg)
  (s.at_ dt).sesOn o.port o.ses = some y → (s.at_ dt).accepts s.mem o → e.rst = none →
  Does c s (fun t => t.mem = s.mem.applyAll e.ops ∧ ∀ k, evKey k = false → replyKey k = false → t.a k = e.dev.a k)

/-- R570. -/
def almanacWrite : Prop := ∀ (s : State) (dt : Nat) (q : Req) (x : Item), writeActs s dt (.almanacWrite dt q x) (reqOp q 2 [x])
/-- R570: the items of a block act together. -/
def almanacWriteBlock : Prop := ∀ (s : State) (dt : Nat) (q : Req) (l : List Item), 1 ≤ l.length → l.length ≤ 64 →
  writeActs s dt (.almanacWriteBlock dt q l) (reqOp q 4 l)

/-- R588: SURVEY changes nothing and answers the survey record, in an open session with what only a session sees. -/
def survey : Prop := ∀ (s : State) (dt : Nat) (q : Req),
  let o := reqOp q 5 []
  let d := s.desk dt o
  let open_ := ((s.at_ dt).sesOn q.port q.ses).isSome
  (s.at_ dt).serves o → (open_ = true ∨ q.ses = 0xFF) →
  DoesDev (.survey dt q) s (fun t =>
    (∀ k, evKey k = false → replyKey k = false → t.a k = s.a k) ∧
    t.dev.out = ((d.countOp 0).answer q.port q.id (resultOf 0 0xFF 0
      ((if open_ then d else { d with ses := s.dev.ses }).survey s.mem (s.arrive dt).places open_))).out)

/-- R595, R597: the lowest free handle takes the challenge; the other handles stand. -/
def sessionOpen : Prop := ∀ (s : State) (dt : Nat) (q : Req) (x : Item) (h : Nat),
  let o := reqOp q 6 [x]
  let d := s.at_ dt
  d.serves o → s.dev.shaped = true → q.ses = 0xFF → sessionItem o 4 = true → field x.value 0 1 ≤ 2 → field x.value 1 1 ≤ 3 →
  s.dev.ses.lockTill.getD q.port 0 ≤ d.now → (List.range 4).find? (fun h => (s.dev.sesAt h).st == 0) = some h →
  DoesDev (.sessionOpen dt q x) s (fun t =>
    t.dev.sesAt h = { st := 1, role := field x.value 0 1, slot := field x.value 1 1, port := q.port, at_ := d.now,
                      challenge := (List.range 48).map (Config.challenge d.clk.free) } ∧
    ∀ k, k ≠ h → t.dev.sesAt k = s.dev.sesAt k)

/-- R596, R599, R600: a proof that holds opens the session and clears the count of failures; one that fails frees the handle, is
counted, and the eighth in a row locks the port for 60 s. -/
def sessionProve : Prop := ∀ (s : State) (dt : Nat) (q : Req) (x : Item) (hash : List Byte) (ok : Bool),
  let o := reqOp q 7 [x] { proof := some (hash, ok) }
  let d := s.at_ dt
  let y := s.dev.sesAt q.ses
  let good : Prop := (s.dev.fus.lifecycle = 1 ∨ s.dev.fus.lifecycle = 2) ∧ s.dev.slotUsable (4 * y.role + y.slot) = true ∧
    s.dev.fus.keys.getD (4 * y.role + y.slot) [] = hash ∧ ok = true ∧ y.port = q.port
  d.serves o → s.dev.shaped = true → q.ses < 4 → q.port < 2 → sessionItem o 193 = true → y.st = 1 → d.now ≤ y.at_ + 10 ^ 13 →
  d.auditFull = false →
  DoesDev (.sessionProve dt q x hash ok) s (fun t =>
    (good → t.dev.sesAt q.ses = { y with st := 2, at_ := d.now, challenge := [] } ∧ t.dev.ses.fails.getD q.port 0 = 0 ∧
      t.a P.sessionFailCount = s.a P.sessionFailCount ∧ Raised t.dev 123 (8 * (y.role % 4) + 32 * (q.port % 2) + 64 * q.ses)) ∧
    (¬ good → t.dev.sesAt q.ses = {} ∧ Counted s t P.sessionFailCount 1 ∧
      Raised t.dev 123 (1 + 8 * (y.role % 4) + 32 * (q.port % 2) + 64 * q.ses) ∧
      (s.dev.ses.fails.getD q.port 0 + 1 < 8 → t.dev.ses.fails.getD q.port 0 = s.dev.ses.fails.getD q.port 0 + 1 ∧
        t.dev.ses.lockTill = s.dev.ses.lockTill) ∧
      (8 ≤ s.dev.ses.fails.getD q.port 0 + 1 → t.dev.ses.fails.getD q.port 0 = 0 ∧
        t.dev.ses.lockTill.getD q.port 0 = d.now + 60 * 10 ^ 12)))

/-- R598: the session is closed, with EV123 kind 2. -/
def sessionClose : Prop := ∀ (s : State) (dt : Nat) (q : Req) (y : Ses),
  (s.at_ dt).serves (reqOp q 8 []) → s.dev.shaped = true → (s.at_ dt).sesOn q.port q.ses = some y →
  DoesDev (.sessionClose dt q) s (fun t =>
    t.dev.sesAt q.ses = {} ∧ (∀ k, k ≠ q.ses → t.dev.sesAt k = s.dev.sesAt k) ∧
    Raised t.dev 123 (2 + 8 * (y.role % 4) + 32 * (q.port % 2) + 64 * (q.ses % 4)))

/-- R580: the running C-class values as they stand are what will be stored; where a store runs already this one waits. -/
def storeChart : Prop := ∀ (s : State) (dt : Nat) (q : Req) (y : Ses),
  let o := reqOp q 9 []
  let chart := if s.dev.cha.safe then 0 else s.a P.chartActive % 4
  let one : ChartStore := ⟨chart, (s.at_ dt).alm.filter (fun e => inChart e.1), q.port, q.id, whoOf 1 q.port q.ses⟩
  (s.at_ dt).serves o → (s.at_ dt).sesOn q.port q.ses = some y → y.role = 1 → s.dev.pwr.phase ≠ .restricted →
  (s.at_ dt).nvm.deferring = false →
  DoesDev (.storeChart dt q) s (fun t =>
    t.dev.cha = (if s.dev.cha.store.isSome then { s.dev.cha with wait := s.dev.cha.wait ++ [.store one] }
      else { s.dev.cha with store := some one }) ∧
    (q.port = 0 → t.dev.mgmt = s.dev.mgmt ++ [⟨q.id, none⟩]))

/-- R580, R581: the record takes the place of the Chart's, under the next sequence number. -/
def storeChartDone : Prop := ∀ (s : State) (dt : Nat) (x : ChartStore),
  s.dev.cha.store = some x → s.dev.pwr.phase = .running → (s.at_ dt).nvm.deferring = false → s.dev.cha.wait = [] → x.chart < 4 →
  s.dev.shaped = true →
  DoesDev (.storeChartDone dt) s (fun t =>
    t.dev.cha.store = none ∧ (∀ c, c ≠ x.chart → t.dev.cha.recs.getD c none = s.dev.cha.recs.getD c none) ∧
    t.dev.cha.recs.getD x.chart none =
      some ⟨(((s.dev.cha.recs.getD x.chart none).map (·.seq)).getD 0 + 1) % 2 ^ 32, true, x.vals⟩)

/-- R582, R585: an accepted selection is remembered and its load begins, or waits for the store or load in progress. -/
def chartSelect : Prop := ∀ (s : State) (dt value : Nat) (w : Who),
  value < 4 → s.takes dt w (writeItem P.chartSelect 0 [value]) {} →
  DoesDev (.chartSelect dt w value) s (fun t =>
    t.a P.chartLastCommanded = value ∧
    ((s.dev.cha.load.isSome = true ∨ s.dev.cha.store.isSome = true) → t.dev.cha.load = s.dev.cha.load ∧
      ∃ who, t.dev.cha.wait = s.dev.cha.wait ++ [.load ⟨value, 3, who⟩]) ∧
    (s.dev.cha.load = none → s.dev.cha.store = none → ∃ who, t.dev.cha.load = some ⟨value, 3, who⟩))

/-- R583, R585, R586: the valid Chart that was selected is the active one from here on, with EV12. -/
def chartLoadDone : Prop := ∀ (s : State) (dt : Nat) (x : ChartLoad),
  s.dev.cha.load = some x → s.dev.pwr.phase = .running → x.chart < 4 → x.how < 8 → s.dev.cha.wait = [] →
  Dev.chartBad { s.at_ dt with cha := { s.dev.cha with load := none } } x.chart = none →
  Does (.chartLoadDone dt) s (fun t =>
    t.a P.chartActive = x.chart ∧ t.a P.chartSource = x.how ∧ t.dev.cha.safe = false ∧ t.dev.cha.last = some x.chart ∧
    t.dev.cha.load = none ∧ Raised t.dev 12 (x.chart + 4 * x.how))

/-- R585: with no waiting value that may be taken nothing happens; what may be taken no longer waits. -/
def chartDeferredApply : Prop := ∀ (s : State) (dt : Nat),
  let d := s.at_ dt
  let free := d.waitClosed d.waitingIds.length d.waitFree
  let pick := d.waitDrop free.length free []
  let d1 := Dev.each { d with cha := { d.cha with waiting := d.cha.waiting.filter (fun e => !free.contains (keyId e.1)) } } pick.2
    (fun i d => (d.w P.chartInvalidIndex i).raise 13 (d.a P.chartActive % 4 + 12 + 16))
  let e := d1.applyChanges s.mem (s.arrive dt).places whoDevice 1 0 {} ((d.waitVals pick.1).map (fun e => chgOf e.1 e.2))
  s.dev.pwr.phase = .running →
  Does (.chartDeferredApply dt) s (fun t =>
    (free = [] → t.mem = s.mem ∧ t.dev.cha = s.dev.cha ∧ ∀ k, evKey k = false → t.a k = s.a k) ∧
    (free ≠ [] → e.rst = none → t.mem = s.mem.applyAll e.ops ∧ ∀ k, evKey k = false → t.a k = e.dev.a k))

/-- R575, R576: the first segment of a request that is to go on is kept; one out of its order discards the transfer with ABORT
reason 1; one too long with reason 4. -/
def fieldRequestSegment : Prop := ∀ (s : State) (dt island transfer k : Nat) (b : List Byte),
  let d := s.at_ dt
  d.fieldServes island = true → d.quiet = true → transfer < 256 → k < 1024 → s.dev.fld.answering = false →
  Does (.fieldRequestSegment dt island transfer k b) s (fun t =>
    (k = 0 → s.dev.fld.transfer ≠ some transfer → bit (field b 2 1) 0 = false → 60 < field b 0 2 → field b 0 2 ≤ transferMax →
      t.mem = s.mem ∧ t.dev.fld = { transfer := some transfer, total := field b 0 2, next := 1, data := (b.drop 4).take 60, lastAt := d.now }) ∧
    (s.dev.fld.transfer = some transfer → k ≠ s.dev.fld.next →
      t.mem = s.mem ∧ t.dev.fld = {} ∧ Counted s t P.fieldAbortCount 1 ∧
      t.dev.out = [.fieldFrame 6 (s.dev.island % 64) (transfer * 1024) [1#8]]) ∧
    (k = 0 → s.dev.fld.transfer ≠ some transfer → transferMax < field b 0 2 →
      t.mem = s.mem ∧ t.dev.fld = {} ∧ Counted s t P.fieldAbortCount 1 ∧
      t.dev.out = [.fieldFrame 6 (s.dev.island % 64) (transfer * 1024) [4#8]]))

/-- R574: the tool's ABORT discards the transfer it names, and no other. -/
def fieldAbort : Prop := ∀ (s : State) (dt island transfer : Nat),
  (s.at_ dt).fieldServes island = true → (s.at_ dt).quiet = true → transfer < 256 →
  Acts (.fieldAbort dt island transfer) s [] (fun d => { d with fld := {}, thm := {}, rip := {} }) (fun t =>
    t.dev.fld = if s.dev.fld.transfer = some transfer then {} else s.dev.fld)

/-- R576: more than 100 ms after its last segment a transfer is discarded with ABORT reason 2. -/
def fieldSegmentTimeout : Prop := ∀ (s : State) (dt transfer : Nat),
  s.dev.fld.transfer = some transfer → s.dev.fld.answering = false → s.dev.fld.lastAt + 10 ^ 11 < (s.at_ dt).now →
  (s.at_ dt).quiet = true → (s.at_ dt).fieldOn = true → transfer < 256 →
  Acts (.fieldSegmentTimeout dt) s [P.fieldAbortCount] (fun d => { d with fld := {}, rip := {} }) (fun t =>
    t.dev.fld = {} ∧ Counted s t P.fieldAbortCount 1 ∧ t.dev.out = [.fieldFrame 6 (s.dev.island % 64) (transfer * 1024) [2#8]])

/-- R402, R578: a tool's HEARTBEAT only keeps the restricted service going. -/
def fieldHeartbeatReceive : Prop := ∀ (s : State) (dt island : Nat),
  (s.at_ dt).fieldServes island = true → (s.at_ dt).quiet = true →
  Acts (.fieldHeartbeatReceive dt island) s [] (fun d => { d with thm := {}, rip := {} }) (fun t =>
    t.dev.thm = { s.dev.thm with lastField := (s.at_ dt).now } ∧ t.dev.out = [])

/-- R577: the HEARTBEAT frame carries identity, power state, lifecycle, open sessions and seconds. -/
def fieldHeartbeatSend : Prop := ∀ (s : State) (dt : Nat),
  let d := s.at_ dt
  d.up = true → d.fieldOn = true → d.quiet = true →
  Acts (.fieldHeartbeatSend dt) s [] (fun d => { d with rip := {} }) (fun t =>
    t.dev.out = [.fieldFrame 30 (s.dev.island % 64) 0 (leBytes 8 s.dev.fus.chipId ++ leBytes 1 d.pw ++ leBytes 1 s.dev.fus.lifecycle ++
      leBytes 1 s.dev.sesOpenMask ++ zeros 1 ++ leBytes 4 (d.secs % 2 ^ 32))])

/-- R574, R578: the oldest record leaves in an EVENT frame with the low bits of its sequence number. -/
def fieldEventSend : Prop := ∀ (s : State) (dt : Nat) (e : Ev) (rest : List Ev),
  (s.arrive dt).places.fieldQ = e :: rest → (s.at_ dt).up = true → (s.at_ dt).fieldOn = true → (s.at_ dt).quiet = true → s.dev.flush = 0 →
  Acts (.fieldEventSend dt) s [] (fun d => { d with rip := {} }) (fun t =>
    t.places = { (s.arrive dt).places with fieldQ := rest } ∧
    t.dev.out = [.fieldFrame 2 (s.dev.island % 64) (e.seq % 2 ^ 18) e.bytes])

/-- R578: bus-off is state 3, counted and reported by EV109. -/
def fieldBusOff : Prop := ∀ (s : State) (dt tec rec : Nat), (s.at_ dt).fieldRuns = true → s.a P.fieldState ≠ 3 →
  Acts (.fieldBusOff dt tec rec) s [P.fieldState, P.fieldErrorCounters, P.fieldBusOffCount] id (fun t =>
    t.a P.fieldState = 3 ∧ t.a P.fieldErrorCounters = sat 65535 tec + 65536 * sat 65535 rec ∧ Counted s t P.fieldBusOffCount 1 ∧
    Raised t.dev 109 0)

/-- R578: error-passive is state 2, reported by EV110. -/
def fieldErrorPassive : Prop := ∀ (s : State) (dt tec rec : Nat), (s.at_ dt).fieldRuns = true → s.a P.fieldState = 1 →
  Acts (.fieldErrorPassive dt tec rec) s [P.fieldState, P.fieldErrorCounters] id (fun t =>
    t.a P.fieldState = 2 ∧ t.a P.fieldErrorCounters = sat 65535 tec + 65536 * sat 65535 rec ∧ Raised t.dev 110 0)

/-- R578: after recovery the controller is error-active. -/
def fieldBusOffRecovery : Prop := ∀ (s : State) (dt : Nat), (s.at_ dt).fieldRuns = true → s.a P.fieldState = 3 →
  Acts (.fieldBusOffRecovery dt) s [P.fieldState, P.fieldErrorCounters] id (fun t => t.a P.fieldState = 1 ∧ t.dev.out = [])

/-- R578. -/
def fieldErrorActive : Prop := ∀ (s : State) (dt tec rec : Nat), (s.at_ dt).fieldRuns = true → s.a P.fieldState = 2 →
  Acts (.fieldErrorActive dt tec rec) s [P.fieldState, P.fieldErrorCounters] id (fun t =>
    t.a P.fieldState = 1 ∧ t.a P.fieldErrorCounters = sat 65535 tec + 65536 * sat 65535 rec)

/-! ### Sessions, fuses, audit (22_roles_fuses_audit.md) -/

/-- R596, R600: 10 s after its challenge a handle without a proof is free, with EV123 kind 3; this is no failed proof. -/
def sessionChallengeTimeout : Prop := ∀ (s : State) (dt h : Nat),
  h < 4 → s.dev.shaped = true → (s.dev.sesAt h).st = 1 → (s.dev.sesAt h).at_ + 10 ^ 13 ≤ (s.at_ dt).now →
  Acts (.sessionChallengeTimeout dt h) s [] (fun d => { d with ses := {} }) (fun t =>
    t.dev.sesAt h = {} ∧ (∀ k, k ≠ h → t.dev.sesAt k = s.dev.sesAt k) ∧ t.dev.ses.fails = s.dev.ses.fails ∧
    Raised t.dev 123 (3 + 8 * ((s.dev.sesAt h).role % 4) + 32 * ((s.dev.sesAt h).port % 2) + 64 * h))

/-- R598: 900 s without an operation close a session, with EV123 kind 3. -/
def sessionIdleTimeout : Prop := ∀ (s : State) (dt h : Nat),
  h < 4 → s.dev.shaped = true → (s.dev.sesAt h).st = 2 → (s.dev.sesAt h).at_ + 900 * 10 ^ 12 ≤ (s.at_ dt).now →
  Acts (.sessionIdleTimeout dt h) s [] (fun d => { d with ses := {} }) (fun t =>
    t.dev.sesAt h = {} ∧ (∀ k, k ≠ h → t.dev.sesAt k = s.dev.sesAt k) ∧
    Raised t.dev 123 (3 + 8 * ((s.dev.sesAt h).role % 4) + 32 * ((s.dev.sesAt h).port % 2) + 64 * h))

/-- R599: the lockout of a port ends. -/
def sessionLockoutEnd : Prop := ∀ (s : State) (dt p : Nat), p < 2 → s.dev.shaped = true → s.dev.ses.lockTill.getD p 0 ≤ (s.at_ dt).now →
  Acts (.sessionLockoutEnd dt p) s [P.sessionLockout] (fun d => { d with ses := {} }) (fun t =>
    bit (t.a P.sessionLockout) p = false ∧ t.dev.ses.h = s.dev.ses.h ∧
    ∀ q, q < 2 → q ≠ p → (bit (t.a P.sessionLockout) q = true ↔ (s.at_ dt).now < s.dev.ses.lockTill.getD q 0))

/-- R602, R604: an accepted write programs the slot with what reads back; where that differs the slot is unusable and EV15 says so. -/
def fuseKeyProgram : Prop := ∀ (s : State) (dt : Nat) (w : Who) (v back : List Byte),
  let k := field v 0 1
  v.length = 49 → back.length = 48 → s.dev.shaped = true →
  s.takes dt w (writeItem P.fuseKeyProgram 0 (v.map (·.toNat))) { readback := some back } →
  DoesDev (.fuseKeyProgram dt w v back) s (fun t =>
    t.dev.fus.keys.getD k [] = back ∧ (∀ j, j ≠ k → t.dev.fus.keys.getD j [] = s.dev.fus.keys.getD j []) ∧
    Counted s t P.fuseProgramCount 1 ∧
    (back = v.drop 1 → t.dev.fus.bad = s.dev.fus.bad) ∧
    (back ≠ v.drop 1 → bit t.dev.fus.bad k = true ∧ Raised t.dev 15 4))

/-- R602: a revoked slot stays revoked, and its sessions close (R598). -/
def fuseKeyRevoke : Prop := ∀ (s : State) (dt value : Nat) (w : Who),
  value < 12 → s.dev.shaped = true → s.takes dt w (writeItem P.fuseKeyRevoke 0 [value]) {} →
  DoesDev (.fuseKeyRevoke dt w value) s (fun t =>
    bit t.dev.fus.revoked value = true ∧ (∀ j, j ≠ value → bit t.dev.fus.revoked j = bit s.dev.fus.revoked j) ∧
    t.dev.fus.keys = s.dev.fus.keys ∧ Counted s t P.fuseProgramCount 1 ∧
    ∀ h, h < 4 → (s.dev.sesAt h).st = 2 → 4 * (s.dev.sesAt h).role + (s.dev.sesAt h).slot = value → (t.dev.sesAt h).st = 0)

/-- R603: the lifecycle takes one step; FIELD burns the debug lock, RETIRED the key hashes and closes every session. -/
def lifecycleAdvance : Prop := ∀ (s : State) (dt value : Nat) (w : Who),
  s.dev.shaped = true → s.takes dt w (writeItem P.lifecycleAdvance 0 [value]) {} → value < 2 ^ 16 →
  DoesDev (.lifecycleAdvance dt w value) s (fun t =>
    t.dev.fus.lifecycle = value % 256 ∧ t.dev.fus.lifecycle = s.dev.fus.lifecycle + 1 ∧ Counted s t P.fuseProgramCount 1 ∧
    (value % 256 = 2 → t.dev.fus.debugLock = true ∧ t.dev.fus.keys = s.dev.fus.keys) ∧
    (value % 256 = 3 → (∀ k, k < 12 → t.dev.fus.keys.getD k [] = List.replicate 48 0xFF#8) ∧
      t.dev.fus.fleetKey = List.replicate 32 0xFF#8 ∧ ∀ h, h < 4 → (t.dev.sesAt h).st = 0))

/-- R606: an accepted token opens debug access until the next reset, with EV123 kind 5. -/
def debugUnlockToken : Prop := ∀ (s : State) (dt : Nat) (w : Who) (token hash : List Byte) (ok : Bool),
  s.takes dt w (writeItem P.debugUnlockToken 0 (token.map (·.toNat))) { proof := some (hash, ok) } → w.ses < 4 →
  DoesDev (.debugUnlockToken dt w token hash ok) s (fun t =>
    ok = true ∧ hash = s.dev.fus.signHash ∧ t.dev.fus.tokenOpen = true ∧
    Raised t.dev 123 (5 + 16 + 32 * (w.port % 2) + 64 * w.ses))

/-- R611: the window shows 64 entries from the number asked for, or from the oldest held; past the newest it is zero. -/
def auditReadFrom : Prop := ∀ (s : State) (dt value : Nat) (w : Who),
  let oldest := (s.dev.aud.head?.map (·.seq)).getD 1
  let lo := if value < oldest then oldest else value
  value < 2 ^ 32 → s.takes dt w (writeItem P.auditReadFrom 0 [value]) {} →
  DoesDev (.auditReadFrom dt w value) s (fun t => ∀ i j, i < 64 → j < 32 →
    t.a (P.auditWindow + 32 * i + j) =
      ((((s.dev.aud.find? (fun a => a.seq == lo + i)).map Aud.bytes).getD (zeros 32)).getD j 0#8).toNat)

/-! ### Firmware update (23_firmware_update.md) -/

/-- R615, R621: DOWNLOAD begins for the package of the header, no chunk is present, and the inactive slots of its components are
erased; nothing else of memory changes. -/
def updBegin : Prop := ∀ (s : State) (dt : Nat) (w : Who),
  let h := s.dev.octets P.updPackageHeader 64
  s.takes dt w (writeItem P.updCommand 0 [1]) {} →
  Does (.updBegin dt w) s (fun t =>
    t.a P.updStage = 1 ∧ t.a P.updPackageId = field h 8 4 ∧ t.dev.upd.hdr = h ∧ t.a P.updOrder = 0xFFFF ∧
    (∀ i, i < 128 → t.a (P.updChunkBitmap + i) = 0) ∧ Raised t.dev 125 1 ∧
    (s.mem.wf = true → ∀ a, t.mem.get a =
      if (pkgComps h).any (fun c => decide (slotAddr c (1 - s.dev.confirmed c) ≤ a ∧ a < slotAddr c (1 - s.dev.confirmed c) + 0x400000))
      then unlisted a else s.mem.get a))

/-- R622: an accepted chunk sets its bit, and no other; outside the image slots memory stands. -/
def updChunk : Prop := ∀ (s : State) (dt chunk : Nat) (w : Who) (data : List Byte),
  data.length = 8192 → chunk < 1024 →
  s.takes dt w (writeItem P.updChunk 0 ((leBytes 4 chunk ++ zeros 4 ++ data).map (·.toNat))) {} →
  (∀ i, i < 128 → s.a (P.updChunkBitmap + i) < 256) →
  Does (.updChunk dt w chunk data) s (fun t =>
    (∀ k, k < 1024 → bit (t.a (P.updChunkBitmap + k / 8)) (k % 8) =
      (bit (s.a (P.updChunkBitmap + k / 8)) (k % 8) || k == chunk)) ∧
    (bit (s.a (P.updChunkBitmap + chunk / 8)) (chunk % 8) = true → t.mem = s.mem) ∧
    (s.mem.wf = true → ∀ a, a < 0x0300000000 → t.mem.get a = s.mem.get a))

/-- R624: with every chunk present VERIFY begins. -/
def updVerify : Prop := ∀ (s : State) (dt : Nat) (w : Who),
  s.takes dt w (writeItem P.updCommand 0 [2]) {} →
  DoesDev (.updVerify dt w) s (fun t => t.a P.updStage = 2 ∧ Raised t.dev 125 2)

/-- R618, R624: a package whose images all pass and which has a valid order is READY with that order; a failure goes back to
DOWNLOAD with no chunk present and its reason, 6 where only an order is missing. -/
def updVerifyDone : Prop := ∀ (s : State) (dt : Nat) (crypto : List Nat) (keyOk : Bool),
  let comps := pkgComps s.dev.upd.hdr
  let head (c : Nat) : List Byte := s.mem.imageHeader c (1 - s.dev.confirmed c)
  let reason (c : Nat) : Nat := s.dev.imageReason (head c) c (pkgImage s.dev.upd.hdr c).2 (crypto.getD c 0) keyOk
  let order := s.dev.updateOrder comps (fun c => imageOf (head c))
  s.a P.updStage = 2 →
  DoesDev (.updVerifyDone dt crypto keyOk) s (fun t =>
    (∀ l, order = some l → (∀ c ∈ comps, reason c = 0) →
      t.a P.updStage = 3 ∧ t.a P.updOrder = orderWord l ∧ Raised t.dev 125 3) ∧
    ((∀ c ∈ comps, reason c = 0) → order = none →
      t.a P.updStage = 1 ∧ t.a P.updVerifyResult = 6 ∧ (∀ i, i < 128 → t.a (P.updChunkBitmap + i) = 0) ∧ Raised t.dev 125 (4 + 128 * 6)) ∧
    (∀ c, c ∈ comps → reason c ≠ 0 → (∀ b ∈ comps, b < c → reason b = 0) →
      t.a P.updStage = 1 ∧ t.a P.updVerifyResult = reason c ∧ (∀ i, i < 128 → t.a (P.updChunkBitmap + i) = 0) ∧
      Raised t.dev 125 (4 + 128 * reason c)))

/-- R625: the package is dropped. -/
def updAbandon : Prop := ∀ (s : State) (dt : Nat) (w : Who),
  s.takes dt w (writeItem P.updCommand 0 [3]) {} →
  DoesDev (.updAbandon dt w) s (fun t =>
    t.a P.updStage = 0 ∧ t.a P.updPackageId = 0 ∧ t.a P.updOrder = 0xFFFF ∧ t.dev.upd.hdr = [] ∧
    (∀ i, i < 128 → t.a (P.updChunkBitmap + i) = 0) ∧ Raised t.dev 125 10)

/-- R635: the components of the trial are confirmed in the slots they run from, and the record is empty. -/
def updConfirm : Prop := ∀ (s : State) (dt : Nat) (w : Who),
  let comps := s.dev.orderSteps.filter (fun c => !s.dev.upd.fell.contains c)
  s.takes dt w (writeItem P.updCommand 0 [4]) {} →
  DoesDev (.updConfirm dt w) s (fun t =>
    t.a P.updStage = 0 ∧ t.a P.updTrialBoots = 0 ∧ t.a P.updPackageId = 0 ∧ t.dev.upd.old = none ∧ Raised t.dev 125 8 ∧
    ∀ c, c < 4 → t.dev.confirmed c = if c ∈ comps then 1 - s.dev.confirmed c else s.dev.confirmed c)

/-- R634: a revert empties the record, keeps the confirmed slots and is followed by a command reset. -/
def updRevert : Prop := ∀ (s : State) (dt : Nat) (w : Who),
  s.takes dt w (writeItem P.updCommand 0 [5]) {} →
  Does (.updRevert dt w) s (fun t =>
    t.a P.updStage = 0 ∧ t.a P.updTrialBoots = 0 ∧ t.dev.upd.slots = s.dev.upd.slots ∧ t.dev.pwr.kind = 3 ∧
    t.dev.pwr.phase = (if s.dev.clk.onLpo then .waitRefclk else .booting) ∧ Raised t.dev 125 (9 + 128 * 2))

/-- R628: in READY the activation that waited begins, and the update record counts the first trial boot. -/
def activationStart : Prop := ∀ (s : State) (dt : Nat),
  s.dev.upd.waiting = true → (s.at_ dt).standsReady = true → s.a P.updStage = 3 →
  DoesDev (.activationStart dt) s (fun t =>
    t.a P.updStage = 4 ∧ t.a P.updTrialBoots = 1 ∧ t.dev.upd.waiting = false ∧ t.dev.upd.step = 0)

/-- R628, R629, R632: a step that fails brings the old images back, stage VERIFIED; one that succeeds is counted, and after the last
of them the device is in TRIAL, where the settings fit the new CURATOR. -/
def activationStepDone : Prop := ∀ (s : State) (dt : Nat) (ok : Bool),
  let i := s.dev.upd.step
  let c := s.dev.orderAt i
  let img := if c = 0 then s.dev.newImage s.mem 0 else s.dev.upd.run.getD 0 {}
  s.a P.updStage = 4 → s.dev.pwr.phase = .running → c < 4 → s.dev.shaped = true → s.dev.eph.ent = [] →
  img.schemaMin ≤ s.dev.upd.schema → s.dev.upd.schema ≤ img.schemaMax →
  DoesDev (.activationStepDone dt ok) s (fun t =>
    (ok = false → t.a P.updStage = 3 ∧ t.a P.updTrialBoots = 0 ∧ t.dev.upd.step = 0 ∧ Raised t.dev 125 (6 + 128)) ∧
    (ok = true → i + 1 < s.dev.orderSteps.length → t.a P.updStage = 4 ∧ t.dev.upd.step = i + 1) ∧
    (ok = true → t.dev.upd.run.getD c {} = s.dev.newImage s.mem c ∧ Raised t.dev 125 (5 + 32 * c + 128 * i)) ∧
    (ok = true → s.dev.orderSteps.length ≤ i + 1 → t.a P.updStage = 5 ∧ Raised t.dev 125 (7 + 128)))

/-- R633, R636: a trial that has lasted UpdHealthWindow is confirmed where UpdAutoConfirm says so. -/
def updAutoConfirm : Prop := ∀ (s : State) (dt : Nat),
  let comps := s.dev.orderSteps.filter (fun c => !s.dev.upd.fell.contains c)
  s.a P.updStage = 5 → s.a P.updAutoConfirm = 1 → s.a P.updHealthWindow ≤ (s.at_ dt).trialElapsed → s.dev.anyMismatch = false →
  s.dev.fuseTempOk = true → (s.at_ dt).nvm.deferring = false →
  DoesDev (.updAutoConfirm dt) s (fun t =>
    t.a P.updStage = 0 ∧ t.a P.updTrialBoots = 0 ∧ t.dev.upd.old = none ∧ Raised t.dev 125 8 ∧
    ∀ c, c < 4 → t.dev.confirmed c = if c ∈ comps then 1 - s.dev.confirmed c else s.dev.confirmed c)

/-! ### Events, background work, Riptide (24_events_background_riptide.md) -/

/-- R643: an accepted write clears the pending bits it has set, but for events of this very edge that latch. -/
def eventPendingClear : Prop := ∀ (s : State) (dt : Nat) (w : Who) (v : List Byte),
  v.length = 16 → s.takes dt w (writeItem P.eventPendingClear 0 (v.map (·.toNat))) {} →
  DoesDev (.eventPendingClear dt w v) s (fun t => ∀ n, n < 128 →
    (bit (v.getD (n / 8) 0#8).toNat (n % 8) = true → (∀ e ∈ t.dev.edge, e.n ≠ n) → bit (t.a (P.eventPending + n / 8)) (n % 8) = false) ∧
    (bit (v.getD (n / 8) 0#8).toNat (n % 8) = false → bit ((s.at_ dt).a (P.eventPending + n / 8)) (n % 8) = true →
      bit (t.a (P.eventPending + n / 8)) (n % 8) = true))

/-- R611, R644: the window shows 64 entries of the log from the number asked for, or from the oldest held. -/
def eventLogReadFrom : Prop := ∀ (s : State) (dt value : Nat) (w : Who),
  let log := (s.arrive dt).places.log
  let oldest := (log.head?.map (·.seq)).getD 1
  let lo := if value < oldest then oldest else value
  value < 2 ^ 32 → s.takes dt w (writeItem P.eventLogReadFrom 0 [value]) {} →
  DoesDev (.eventLogReadFrom dt w value) s (fun t => ∀ i j, i < 64 → j < 24 →
    t.a (P.eventLogWindow + 24 * i + j) = ((((log.find? (fun e => e.seq == lo + i)).map Ev.logBytes).getD (zeros 24)).getD j 0#8).toNat)

/-- R647: an activity that starves is shown, counted, and reported by EV127. -/
def bgStarved : Prop := ∀ (s : State) (dt n : Nat),
  n < 8 → s.dev.shaped = true → s.dev.pwr.phase = .running → s.dev.bg.getD n none = none → s.a P.pwrState ≠ 0 →
  Acts (.bgStarved dt n) s [P.bgStarvedMask, P.bgStarvedCount + n] (fun d => { d with bg := [] }) (fun t =>
    bit (t.a P.bgStarvedMask) n = true ∧ (∀ k, k ≠ n → bit (t.a P.bgStarvedMask) k = bit (s.a P.bgStarvedMask) k) ∧
    Counted s t (P.bgStarvedCount + n) 1 ∧ t.dev.bg.getD n none = some (s.at_ dt).now ∧ Raised t.dev 127 n)

/-- R647: one that has recovered is reported with the seconds it starved. -/
def bgRecovered : Prop := ∀ (s : State) (dt n since : Nat),
  n < 8 → s.dev.shaped = true → s.dev.bg.getD n none = some since →
  Acts (.bgRecovered dt n) s [P.bgStarvedMask] (fun d => { d with bg := [] }) (fun t =>
    bit (t.a P.bgStarvedMask) n = false ∧ t.dev.bg.getD n none = none ∧
    Raised t.dev 127 (n + 16 + 32 * sat 4095 (((s.at_ dt).now - since) / 10 ^ 12)))

/-- R649: an accepted start begins a run of RiptideDuration, with EV126. -/
def riptideStart : Prop := ∀ (s : State) (dt : Nat) (w : Who),
  s.a P.riptideEnable = 0 → s.takes dt w (writeItem P.riptideEnable 0 [1]) {} →
  DoesDev (.riptideStart dt w) s (fun t =>
    t.a P.riptideEnable = 1 ∧ t.a P.riptideLeft = s.a P.riptideDuration ∧ t.dev.rip.startAt = (s.at_ dt).now ∧
    t.dev.rip.dur = s.a P.riptideDuration ∧ t.dev.rip.seed = s.a P.riptideSeed ∧
    Raised t.dev 126 (1 + 16 * (s.a P.riptideDuration % 2 ^ 13)))

/-- R649, R652: an accepted stop ends the run, with EV126 cause 2. -/
def riptideStop : Prop := ∀ (s : State) (dt : Nat) (w : Who),
  s.a P.riptideEnable = 1 → s.takes dt w (writeItem P.riptideEnable 0 [0]) {} →
  DoesDev (.riptideStop dt w) s (fun t =>
    t.a P.riptideEnable = 0 ∧ t.a P.riptideLeft = 0 ∧ t.dev.rip.held = [] ∧ Raised t.dev 126 (4 + 16 * (s.dev.rip.dur % 2 ^ 13)))

/-- R649: after its duration the run ends by itself, with EV126 cause 1. -/
def riptideExpire : Prop := ∀ (s : State) (dt : Nat),
  s.dev.ripOn = true → s.dev.rip.held = [] → s.dev.rip.startAt + s.dev.rip.dur * 10 ^ 12 ≤ (s.at_ dt).now →
  DoesDev (.riptideExpire dt) s (fun t =>
    t.a P.riptideEnable = 0 ∧ t.a P.riptideLeft = 0 ∧ t.dev.rip.held = [] ∧ Raised t.dev 126 (2 + 16 * (s.dev.rip.dur % 2 ^ 13)))

/-- R652: an accepted mask is in force; with no run on it moves no lane that stands as its power state and enable let it. -/
def riptideLaneDown : Prop := ∀ (s : State) (dt value : Nat) (w : Who),
  value < 2 ^ 24 → s.takes dt w (writeItem P.riptideLaneDown 0 [value]) {} →
  DoesDev (.riptideLaneDown dt w value) s (fun t =>
    t.a P.riptideLaneDown = value ∧
    (s.dev.ripOn = true → ∀ l, l < 24 → bit value l = true → t.dev.laneSt l = 0))

/-- R651: what may go leaves or is served, in order; what still waits stays. -/
def riptideReorderRelease : Prop := ∀ (s : State) (dt : Nat) (h : RipHold) (m : Msg),
  let d := s.at_ dt
  s.dev.rip.held = [h] → h.op = none → h.instr = none → h.msg = some m → h.port < 5 →
  DoesDev (.riptideReorderRelease dt) s (fun t =>
    (d.mayGo h = true → t.dev.rip.held = [] ∧ t.dev.out = [d.msgOut h.port m]) ∧
    (d.mayGo h = false → t.dev.rip.held = [h] ∧ t.dev.out = []))

end Sys2Proof.Claims

open Sys2Proof Sys2Proof.Machine

/-- A step runs the command at the front of the queue; on an empty queue one clock edge passes (spec/INDEX.md, notes/assumptions/12.md). -/
def Obligations.StepTakesTheFront : Prop :=
  (∀ (c : Instr) (rest : List Instr) (s : State), s.pending = c :: rest → step s = exec c { s with pending := rest }) ∧
  (∀ s : State, s.pending = [] → ∃ t, step s = .next t ∧ t.pending = [] ∧ t.mem = s.mem ∧ (s.dev.clk.onLpo = false → t.dev.now = s.dev.now + 10000) ∧
    ∀ k, evKey k = false → t.a k = s.a k)

/-- Every command answers a next state in every state and leaves the queue alone (spec/opcode_table.json, R570). -/
def Obligations.EveryCommandAnswers : Prop :=
  ∀ (c : Instr) (s : State), ∃ t, exec c s = .next t ∧ t.pending = s.pending

/-- The state after reset is good and as the spec says (R6, R31, R36, R359, R640, notes/assumptions/2.md, notes/assumptions/4.md). -/
def Obligations.ResetIsGood : Prop :=
  State.reset.Inv ∧ State.reset.dev.shaped = true ∧ State.reset.pending = [] ∧ State.reset.dev.pwr.phase = .inReset ∧
  State.reset.dev.pwr.pwrOk = false ∧ (∀ i, i < 80 → State.reset.a (P.biasOutputState + i) = 0) ∧ State.reset.dev.tim.valid = false ∧
  State.reset.dev.eph.ent = [] ∧ State.reset.places = {} ∧ (∀ k, State.reset.a k = dfltOf k) ∧ ∀ a, State.reset.mem.get a = unlisted a

/-- Every step keeps the invariant (R589, R642, R644). -/
def Obligations.EveryStepKeepsInv : Prop :=
  ∀ s t : State, s.Inv → step s = .next t → t.Inv

/-- Every command keeps the fixed tables in shape (R72, R286, R473, R537, R595, R601, R646). -/
def Obligations.EveryCommandKeepsShape : Prop :=
  ∀ (c : Instr) (s t : State), s.dev.shaped = true → exec c s = .next t → t.dev.shaped = true

/-- A raised event is numbered, counted, latched and recorded (R639, R640, R641, notes/assumptions/10.md). -/
def Obligations.EventsAreNumbered : Prop :=
  ∀ (d : Dev) (n arg : Nat), n < 128 →
  let e := d.note n arg
  e.a P.eventSeq = (if d.a P.eventSeq = 0xFFFFFFFF then 1 else d.a P.eventSeq + 1) ∧
  (d.a (P.eventCount + n) + 1 < 2 ^ 32 → e.a (P.eventCount + n) = d.a (P.eventCount + n) + 1) ∧
  (∀ m, m < 128 → m ≠ n → e.a (P.eventCount + m) = d.a (P.eventCount + m)) ∧
  (∀ m, m < 128 → bit (e.a (P.eventPending + m / 8)) (m % 8) =
    (bit (d.a (P.eventPending + m / 8)) (m % 8) || (m == n && d.maskBit P.eventLatchMask n))) ∧
  (∃ r, r.n = n ∧ r.arg = arg % 2 ^ 17 ∧ r.secs = d.secs ∧ r.frac = d.frac ∧ r.ml = d.maskBit P.eventMaskMainland n ∧
    r.log = d.maskBit P.eventLogMask n ∧ (∀ x, x ∈ e.edge ↔ x = r ∨ x ∈ d.edge) ∧ e.edge.length = d.edge.length + 1) ∧
  (∀ k, evKey k = false → e.a k = d.a k) ∧ e = { d with alm := e.alm, edge := e.edge }

/-- A refused write changes nothing but what counting, auditing and answering it takes (R570, R569, R610). -/
def Obligations.RefusedWriteChangesNothing : Prop :=
  Claims.refusedWrite

/-- ResetCommand acts with 0xA5 alone, and is acknowledged before the reset (R38). -/
def Obligations.ResetCommandTakesA5Alone : Prop :=
  Claims.resetValue

/-- In thermal shutdown no wake cause has an effect (R62). -/
def Obligations.WakeCausesRestInShutdown : Prop :=
  Claims.wakesInShutdown

/-- After a detection none is declared for SentinelHoldoff (R229). -/
def Obligations.HoldoffSilencesDetections : Prop :=
  Claims.holdoff

/-- No command programs fuses with the junction outside 0 to 85 degrees C (R405). -/
def Obligations.FusesRefuseOutsideTemperature : Prop :=
  Claims.fuseTemperature

/-- A COLLIMATE entry that fires in an open window only extends it (R341). -/
def Obligations.OpenWindowOnlyExtends : Prop :=
  Claims.collimateOnce

/-- The resets: what each clears, what it keeps, where it leaves the device (R26, R29, R30, R32, R36, R359, R362, notes/assumptions/6.md). -/
def Obligations.ResetsTakeHold : Prop :=
  Claims.powerOnReset ∧ Claims.pwrOkFall ∧ Claims.resetNAssert ∧ Claims.coreBrownout ∧ Claims.watchdogExpiry

/-- The steps of a boot and the bias clamp (R27, R30, R31, R34, R35, R141, R360, R361, R363, R505, R637). -/
def Obligations.BootStepsAct : Prop :=
  Claims.pwrOkRise ∧ Claims.resetNRelease ∧ Claims.chartPinsSample ∧ Claims.packageMemoryInitDone ∧ Claims.bootRetry ∧
  Claims.biasParkLoad ∧ Claims.biasClampEngage ∧ Claims.railRecovered

/-- A boot whose images pass completes and the device runs (R33, R603, R630). -/
def Obligations.BootCompletes : Prop :=
  Claims.bootComplete

/-- A rail fault and the loss of REFCLK end ACTIVE (R30, R35, R44, R46). -/
def Obligations.RailFaultAndClockLossPark : Prop :=
  Claims.railFault ∧ Claims.refclkLost

/-- REFCLK returns, PLLs lose and regain lock, SYNC is stamped, forwarded and acted on (R35, R40, R45, R47, R48, R49, R50, R51, R131, R132). -/
def Obligations.ClocksRecoverAndSync : Prop :=
  Claims.refclkRestored ∧ Claims.pllUnlock ∧ Claims.pllRelock ∧ Claims.pllRelockFail ∧ Claims.syncEdge ∧ Claims.syncoForward ∧
  Claims.syncMissing ∧ Claims.synchronisingReset

/-- Wakes, idling and transitions (R53, R55, R58, R59, R60, R61, R67). -/
def Obligations.PowerStatesChange : Prop :=
  Claims.pwrIdleTimeout ∧ Claims.wakeMl0Signal ∧ Claims.wakeFieldFrame ∧ Claims.trigInEdge ∧ Claims.stateEntered ∧
  Claims.unitActivationStart

/-- Accepted requests for a power state, a reset, a thermal restart, a revert (R38, R66, R68, R401, R634). -/
def Obligations.RequestsForStatesAndResets : Prop :=
  Claims.resetCommand ∧ Claims.pwrRequestState ∧ Claims.thermRestart ∧ Claims.updRevert

/-- Converter cores: takeover, calibration, pre-alignment, trims (R82, R85, R86, R87, R88, R90). -/
def Obligations.CoresCalibrate : Prop :=
  Claims.coreTakeover ∧ Claims.coreCalibrationDone ∧ Claims.prealignResume ∧ Claims.trimStore

/-- What the receive paths report (R95, R96, R97, R116, R122, R123, R130, R133, R134, R135, R368). -/
def Obligations.ReceivePathReports : Prop :=
  Claims.interleaveSkewLimit ∧ Claims.rxClip ∧ Claims.rxBlocker ∧ Claims.firCrossfadeDone ∧ Claims.channelizerOverflow ∧
  Claims.settleDone ∧ Claims.threshBlockDone ∧ Claims.threshEventWindowEnd ∧ Claims.biasCurrentLimit

/-- Catalogue fetches, scrub, and operations that arrive (R149, R150, R151, R152, R153, R161, R165, R167, R169, R170). -/
def Obligations.CatalogueIsReadAndScrubbed : Prop :=
  Claims.catalogueFetch ∧ Claims.scrubBurst ∧ Claims.scrubCorrected ∧ Claims.scrubUncorrectable ∧ Claims.catgenMramCopy ∧
  Claims.catalogueOpWrite ∧ Claims.catalogueOpClear ∧ Claims.catalogueOpRead ∧ Claims.catalogueOpSetState ∧
  Claims.catalogueOpQuery

/-- Operations, ATTACH and write-backs commit to their entries alone (R151, R162, R168, R171, R172, R209, R210, R211, R212, R213, R216, notes/assumptions/92.md). -/
def Obligations.CatalogueCommits : Prop :=
  Claims.catalogueOpComplete ∧ Claims.attachComplete ∧ Claims.refreshWriteback

/-- Plans arrive in segments and are queued or refused (R190, R193, R194, R196, R197, R256, R258, R261, R693). -/
def Obligations.PlansAreTaken : Prop :=
  Claims.slotPlan ∧ Claims.dlPlan

/-- Plans incomplete at their deadline; an ATTACH arrives; a verdict that does not come (R167, R194, R209, R259, R514). -/
def Obligations.PlansComeLate : Prop :=
  Claims.slotPlanDeadline ∧ Claims.dlPlanDeadline ∧ Claims.attach ∧ Claims.verdictDeadline

/-- At the slot boundary the plans of the slot are in force (R175, R176, R217, R281, R485). -/
def Obligations.SlotsTurn : Prop :=
  Claims.slotBoundary

/-- Uplink and replay words leave in order and are counted as sent (R203, R208, R241, R242, R243, R486, R518). -/
def Obligations.UplinkWordsLeave : Prop :=
  Claims.ulDataSend ∧ Claims.ulDataReduced ∧ Claims.sentinelReplaySend

/-- A sentinel detection is counted, recorded, reported and may wake group A (R226, R227, R228, R229, R230, R234). -/
def Obligations.SentinelDeclares : Prop :=
  Claims.sentinelDetection ∧ Claims.detectionRule ∧ Claims.sentinelWakes ∧ Claims.sentinelHoldoffEnd

/-- Downlink words arrive, are consumed at their instant, and are scaled to the path ceilings (R265, R266, R267, R268, R274). -/
def Obligations.DownlinkDataFlows : Prop :=
  Claims.dlData ∧ Claims.dlConsume ∧ Claims.dlCeilingScale

/-- Bursts: requested, started or dropped, silent in slots that do not fit, ramped, ended, stopped with the grant (R276, R277, R278, R279, R280, R293, R294, R295, R308). -/
def Obligations.BurstsRun : Prop :=
  Claims.txRequestInstant ∧ Claims.burstStart ∧ Claims.burstSilent ∧ Claims.rampStart ∧ Claims.burstEnd ∧ Claims.coexGrantWithdrawn

/-- Synthesisers lock and fail; RF control and coexistence pins (R286, R288, R289, R296, R297, R298, R306, R308, R345, R347). -/
def Obligations.SynthesisersAndPins : Prop :=
  Claims.synthLock ∧ Claims.synthCalFail ∧ Claims.synthUnlock ∧ Claims.rfctlEdge ∧ Claims.coexReqEdge ∧ Claims.probeWithoutGrant ∧ Claims.coexGntEdge

/-- Predistortion: visits, captures, models, warm-start records (R314, R315, R316, R317, R320, R322, R324, R327). -/
def Obligations.PredistortionAdapts : Prop :=
  Claims.dpdVisit ∧ Claims.dpdCaptureDone ∧ Claims.dpdComputeDone ∧ Claims.dpdWarmStore

/-- Collimation releases, walks its delays, closes its window; a deferred SLEEP takes effect (R334, R339, R340, R346, R354, R445). -/
def Obligations.CollimationRuns : Prop :=
  Claims.collimRelease ∧ Claims.collimDelayWalkStep ∧ Claims.collimWindowEnd ∧ Claims.sleepTakeEffect

/-- Writes to the bias outputs (R358, R362, R363, R364, R367). -/
def Obligations.BiasWritesAct : Prop :=
  Claims.biasParkCommand ∧ Claims.biasWrite ∧ Claims.biasRangeChange ∧ Claims.biasParkWrite

/-- The housekeeping converter: scan, limits, self-check, injected slots, self-calibration (R374, R375, R376, R377, R378, R380, R381, R383, R384, R385). -/
def Obligations.HousekeepingConverts : Prop :=
  Claims.hkScanConversion ∧ Claims.hkLimitWindowEnd ∧ Claims.hkCheckConversion ∧ Claims.hkInjectConversion ∧
  Claims.hkCalPeriodic ∧ Claims.hkCalStart ∧ Claims.hkCalDone

/-- A housekeeping frame, the always-on sensor, the end of a substitute's hold (R370, R387, R388, R397). -/
def Obligations.TemperaturesAreRead : Prop :=
  Claims.hkFrame ∧ Claims.tsaReading ∧ Claims.substituteHoldEnd

/-- PTP messages, PPS edges, Strait exchanges, loss of the source (R411, R413, R415, R418, R419, R421, R422, R424, R426, R427, R428, R429). -/
def Obligations.TimeIsKept : Prop :=
  Claims.ptpSync ∧ Claims.ptpFollowUp ∧ Claims.ptpDelayResp ∧ Claims.ptpDelayMeasured ∧ Claims.ptpAnnounce ∧ Claims.ptpUnsupportedMessage ∧
  Claims.delayReqSend ∧ Claims.straitTimeExchange ∧ Claims.timeSourceLost ∧ Claims.steppedClear ∧ Claims.ppsInEdge ∧
  Claims.ppsMissing ∧ Claims.ppsOutEdge ∧ Claims.ppsOutPulseEnd ∧ Claims.holdoverBoundGrowth

/-- Writes of time and of Ephemeris entries (R417, R424, R437, R438, R439, R449). -/
def Obligations.TimeAndEphemerisWrites : Prop :=
  Claims.timeSetTime ∧ Claims.timePpsNextSeconds ∧ Claims.ephWrite ∧ Claims.ephCancel

/-- Ephemeris entries that wake, sleep, arm, inject, enable and disable (R65, R379, R435, R436, R441, R445, R446, R555, R556, R561, R626, R627). -/
def Obligations.EphemerisActsOnUnits : Prop :=
  Claims.ephPrepare ∧ Claims.ephWake ∧ Claims.ephWakeBegins ∧ Claims.ephSleep ∧ Claims.ephTransitArm ∧ Claims.ephTransitCondition ∧
  Claims.ephTransitClose ∧ Claims.ephHkInject ∧ Claims.ephTxEnable ∧ Claims.ephTxDisable ∧ Claims.ephFirmwareActivate

/-- Ephemeris entries that hand over, select a Chart, open a window, reset in synchrony (R50, R131, R339, R341, R436, R441, R443, R447, R450, R582). -/
def Obligations.EphemerisCommits : Prop :=
  Claims.ephHandover ∧ Claims.ephChart ∧ Claims.ephCollimate ∧ Claims.ephSyncReset

/-- Lanes: detection to ACTIVE, timeouts, waits, losses, frames, error seconds, margin scans (R452, R454, R455, R457, R458, R459, R460, R461, R462, R464, R466, R467). -/
def Obligations.LanesComeUpAndFail : Prop :=
  Claims.laneDetectStep ∧ Claims.laneTerminationFound ∧ Claims.laneTrainDone ∧ Claims.laneLockDone ∧ Claims.laneCapsDone ∧
  Claims.laneStageTimeout ∧ Claims.laneWaitEnd ∧ Claims.laneLossOfSignal ∧ Claims.laneMarkerLoss ∧ Claims.laneFrame ∧ Claims.laneFrameGood ∧
  Claims.laneErrorSecond ∧ Claims.laneMarginScanDone

/-- Credit units and HEARTBEATs, received and sent (R474, R476, R480, R481, R483, R496). -/
def Obligations.CreditAndHeartbeats : Prop :=
  Claims.creditReceive ∧ Claims.creditSend ∧ Claims.heartbeatReceive ∧ Claims.heartbeatSend ∧ Claims.partnerSilent

/-- Events, telemetry and Transit records leave on the Mainland (R494, R495, R498, R562, R648). -/
def Obligations.RecordsLeave : Prop :=
  Claims.eventSend ∧ Claims.telemetrySend ∧ Claims.captureDataSend

/-- Discovery and assignment of chips; SYNC stamps (R501, R506, R507, R508). -/
def Obligations.ChipsAreAssigned : Prop :=
  Claims.discoverRequest ∧ Claims.discoverReport ∧ Claims.assign ∧ Claims.assignApply ∧ Claims.syncStamp

/-- Messages between islands, verdicts on group plans, reduction of child streams (R504, R514, R515, R518, R521, R522, R527). -/
def Obligations.RoutedMessagesAndReduction : Prop :=
  Claims.routedForward ∧ Claims.planVerdict ∧ Claims.reduce ∧ Claims.reductionWindowClose

/-- DMA start, abort, CONTINUE, enable and disable (R535, R538, R540, R543, R544). -/
def Obligations.DmaCommandsAct : Prop :=
  Claims.dmaStart ∧ Claims.dmaAbort ∧ Claims.dmaContinue ∧ Claims.dmaDisable ∧ Claims.dmaEnable

/-- The bulk queue turns; FILL, COPY and COMPARE complete (R533, R534, R537, R540, R541, R543). -/
def Obligations.DmaDescriptorsComplete : Prop :=
  Claims.dmaQueueTurn ∧ Claims.dmaDescriptorDone ∧ Claims.dmaDescriptorDoneCopy ∧ Claims.dmaDescriptorDoneCompare

/-- Transit is armed, forced, read out and disabled (R555, R558, R560, R561, R562). -/
def Obligations.TransitCommandsAct : Prop :=
  Claims.transitArm ∧ Claims.transitForce ∧ Claims.transitSendRecord ∧ Claims.transitEnableClear

/-- The Transit sequencer: occurrences, timeouts, records, rearming, the trigger pulse (R553, R554, R555, R556, R557, R558, R559, R560, R561). -/
def Obligations.TransitSequences : Prop :=
  Claims.transitCondOccurrence ∧ Claims.transitStateTimeout ∧ Claims.transitRecordComplete ∧ Claims.transitRearmEnd ∧
  Claims.trigOutPulseEnd

/-- READ, READ_BLOCK and SURVEY answer and change nothing (R565, R566, R567, R568, R588). -/
def Obligations.AlmanacAnswersReads : Prop :=
  Claims.almanacRead ∧ Claims.almanacReadBlock ∧ Claims.survey

/-- An accepted WRITE or WRITE_BLOCK makes its changes and nothing else (R569, R570). -/
def Obligations.AlmanacWritesAct : Prop :=
  Claims.almanacWrite ∧ Claims.almanacWriteBlock

/-- Sessions: challenge, proof, close, timeouts, lockout (R595, R596, R597, R598, R599, R600). -/
def Obligations.SessionsOpenAndClose : Prop :=
  Claims.sessionOpen ∧ Claims.sessionProve ∧ Claims.sessionClose ∧ Claims.sessionChallengeTimeout ∧ Claims.sessionIdleTimeout ∧
  Claims.sessionLockoutEnd

/-- Charts: stored, selected, loaded, deferred values applied (R580, R581, R582, R583, R585, R586). -/
def Obligations.ChartsLoadAndStore : Prop :=
  Claims.storeChart ∧ Claims.storeChartDone ∧ Claims.chartSelect ∧ Claims.chartLoadDone ∧ Claims.chartDeferredApply

/-- The FIELD bus: segments, aborts, heartbeats, events, bus errors, the restricted service (R402, R574, R575, R576, R577, R578, R598). -/
def Obligations.FieldBusWorks : Prop :=
  Claims.fieldRequestSegment ∧ Claims.fieldAbort ∧ Claims.fieldSegmentTimeout ∧ Claims.fieldHeartbeatReceive ∧
  Claims.fieldHeartbeatSend ∧ Claims.fieldEventSend ∧ Claims.fieldBusOff ∧ Claims.fieldErrorPassive ∧
  Claims.fieldBusOffRecovery ∧ Claims.fieldErrorActive ∧ Claims.restrictedServiceStart ∧ Claims.restrictedServiceTimeout

/-- Keys, revocation, lifecycle and the debug token (R598, R602, R603, R604, R606). -/
def Obligations.FusesAreProgrammed : Prop :=
  Claims.fuseKeyProgram ∧ Claims.fuseKeyRevoke ∧ Claims.lifecycleAdvance ∧ Claims.debugUnlockToken

/-- Update: BEGIN, chunks, VERIFY, ABANDON, CONFIRM (R615, R621, R622, R624, R625, R635). -/
def Obligations.UpdateCommandsAct : Prop :=
  Claims.updBegin ∧ Claims.updChunk ∧ Claims.updVerify ∧ Claims.updAbandon ∧ Claims.updConfirm

/-- Update: verification ends, activation runs step by step, a trial confirms itself (R618, R624, R628, R629, R632, R633, R636). -/
def Obligations.UpdateActivates : Prop :=
  Claims.updVerifyDone ∧ Claims.activationStart ∧ Claims.activationStepDone ∧ Claims.updAutoConfirm

/-- Background activities starve and recover; Riptide runs start, stop, expire, hold and release (R647, R649, R651, R652). -/
def Obligations.BackgroundAndRiptide : Prop :=
  Claims.bgStarved ∧ Claims.bgRecovered ∧ Claims.riptideStart ∧ Claims.riptideStop ∧ Claims.riptideExpire ∧
  Claims.riptideLaneDown ∧ Claims.riptideReorderRelease

/-- Masks of paths, groups and modes act as their chapter says (R88, R98, R99, R217, R281, R485). -/
def Obligations.PathAndGroupWritesAct : Prop :=
  Claims.rxPathDisable ∧ Claims.rxPathEnable ∧ Claims.rxRetiredMaskClear ∧ Claims.apGroupDisable ∧ Claims.apModeDisable ∧
  Claims.dlGroupDisable ∧ Claims.mainlandTrustClear

/-- Command parameters: scans, injected slots, self-calibration, windows of the logs, pending bits, lane rates (R335, R374, R380, R383, R461, R471, R611, R643, R644). -/
def Obligations.CommandParametersAct : Prop :=
  Claims.hkScanStart ∧ Claims.hkInjectArm ∧ Claims.hkInjectDisarm ∧ Claims.hkCalRequest ∧ Claims.collimRequest ∧
  Claims.laneMaxRateWrite ∧ Claims.laneMarginScan ∧ Claims.auditReadFrom ∧ Claims.eventPendingClear ∧ Claims.eventLogReadFrom
end

