-- ==== Sys2Proof/Laws/Memory.lean ====
section
/-!
SUPPORT. Memory: reading what was written, and the canonical form, which every operation keeps.
-/

namespace Sys2Proof.Machine

theorem Memory.wfFrom_mono {lo hi : Nat} (h : lo ≤ hi) {m : Memory} (w : Memory.wfFrom hi m = true) : Memory.wfFrom lo m = true := by
  cases m with
  | nil => rfl
  | cons c m =>
    obtain ⟨x, v⟩ := c
    simp only [Memory.wfFrom, Bool.and_eq_true, decide_eq_true_eq] at w ⊢
    exact ⟨⟨by omega, w.1.2⟩, w.2⟩

theorem Memory.get_of_wfFrom {lo a : Nat} {m : Memory} (w : Memory.wfFrom lo m = true) (h : a < lo) : m.get a = unlisted a := by
  induction m generalizing lo with
  | nil => rfl
  | cons c m ih =>
    obtain ⟨x, v⟩ := c
    simp only [Memory.wfFrom, Bool.and_eq_true, decide_eq_true_eq] at w
    have : ¬ x = a := by omega
    simp only [Memory.get, this, if_false]
    exact ih w.2 (by omega)

theorem Memory.wfFrom_put {lo : Nat} {m : Memory} (w : Memory.wfFrom lo m = true) (a : Nat) (b : Byte) (h : lo ≤ a) :
    Memory.wfFrom lo (m.put a b) = true := by
  induction m generalizing lo with
  | nil =>
    simp only [Memory.put]
    split
    · rfl
    · next hb => simp [Memory.wfFrom, h, hb]
  | cons c m ih =>
    obtain ⟨x, v⟩ := c
    have w0 := w
    simp only [Memory.wfFrom, Bool.and_eq_true, decide_eq_true_eq] at w
    obtain ⟨⟨w1, w2⟩, w3⟩ := w
    simp only [Memory.put]
    split
    · next hax =>
      split
      · exact w0
      · next hb =>
        simp only [Memory.wfFrom, Bool.and_eq_true, decide_eq_true_eq]
        exact ⟨⟨h, by simpa using hb⟩, ⟨⟨by omega, w2⟩, w3⟩⟩
    · next hax =>
      split
      · next hx =>
        subst hx
        split
        · exact Memory.wfFrom_mono (by omega) w3
        · next hb =>
          simp only [Memory.wfFrom, Bool.and_eq_true, decide_eq_true_eq]
          exact ⟨⟨h, by simpa using hb⟩, w3⟩
      · next hx =>
        simp only [Memory.wfFrom, Bool.and_eq_true, decide_eq_true_eq]
        exact ⟨⟨w1, w2⟩, ih w3 (by omega)⟩

theorem Memory.wf_put {m : Memory} (w : m.wf = true) (a : Nat) (b : Byte) : (m.put a b).wf = true :=
  Memory.wfFrom_put w a b (Nat.zero_le a)

theorem Memory.wf_write {m : Memory} (w : m.wf = true) (a : Nat) (bs : List Byte) : (m.write a bs).wf = true := by
  induction bs generalizing m a with
  | nil => exact w
  | cons b bs ih => exact ih (Memory.wf_put w a b) (a + 1)

theorem Memory.wfFrom_filter {lo : Nat} {m : Memory} (w : Memory.wfFrom lo m = true) (p : Host.Cell → Bool) :
    Memory.wfFrom lo (m.filter p) = true := by
  induction m generalizing lo with
  | nil => rfl
  | cons c m ih =>
    obtain ⟨x, v⟩ := c
    simp only [Memory.wfFrom, Bool.and_eq_true, decide_eq_true_eq] at w
    obtain ⟨⟨w1, w2⟩, w3⟩ := w
    by_cases hp : p (x, v) = true
    · rw [List.filter_cons_of_pos hp]
      simp only [Memory.wfFrom, Bool.and_eq_true, decide_eq_true_eq]
      exact ⟨⟨w1, w2⟩, ih w3⟩
    · rw [List.filter_cons_of_neg hp]
      exact ih (Memory.wfFrom_mono (by omega) w3)

theorem Memory.wf_wipe {m : Memory} (w : m.wf = true) (lo hi : Nat) : (m.wipe lo hi).wf = true :=
  Memory.wfFrom_filter w _

theorem Memory.wf_apply {m : Memory} (w : m.wf = true) (op : MemOp) : (m.apply op).wf = true := by
  cases op with
  | put a bs => exact Memory.wf_write w a bs
  | wipe lo hi => exact Memory.wf_wipe w lo hi

/-- Every change a command asks for keeps the canonical form. -/
theorem Memory.wf_applyAll {m : Memory} (w : m.wf = true) (ops : List MemOp) : (m.applyAll ops).wf = true := by
  unfold Memory.applyAll
  induction ops generalizing m with
  | nil => exact w
  | cons op ops ih => exact ih (Memory.wf_apply w op)

@[simp] theorem Memory.applyAll_nil (m : Memory) : m.applyAll [] = m := rfl

theorem Memory.get_put {lo : Nat} {m : Memory} (w : Memory.wfFrom lo m = true) (a : Nat) (b : Byte) (i : Nat) :
    (m.put a b).get i = if a = i then b else m.get i := by
  induction m generalizing lo with
  | nil =>
    simp only [Memory.put]
    split
    · next hb => subst hb; simp only [Memory.get]; split <;> simp_all
    · simp [Memory.get]
  | cons c m ih =>
    obtain ⟨x, v⟩ := c
    simp only [Memory.wfFrom, Bool.and_eq_true, decide_eq_true_eq] at w
    obtain ⟨⟨w1, w2⟩, w3⟩ := w
    simp only [Memory.put]
    split
    · next hax =>
      split
      · next hb =>
        subst hb
        split
        · next hai =>
          subst hai
          have hx : ¬ x = a := by omega
          simp only [Memory.get, hx, if_false]
          exact Memory.get_of_wfFrom w3 (by omega)
        · rfl
      · simp [Memory.get]
    · split
      · next hx =>
        subst hx
        split
        · next hb =>
          subst hb
          split
          · next hai => subst hai; exact Memory.get_of_wfFrom w3 (by omega)
          · next hai => simp [Memory.get, hai]
        · simp only [Memory.get]; split <;> rfl
      · next hx =>
        by_cases hxi : x = i
        · subst hxi
          have : ¬ a = x := hx
          simp [Memory.get, this]
        · simp [Memory.get, hxi, ih w3]

/-- A byte string written is read back, and every other address reads as before. -/
theorem Memory.get_write {m : Memory} (w : m.wf = true) (a : Nat) (bs : List Byte) (i : Nat) :
    (m.write a bs).get i = if a ≤ i ∧ i < a + bs.length then bs.getD (i - a) 0 else m.get i := by
  induction bs generalizing m a with
  | nil =>
    have : ¬ (a ≤ i ∧ i < a + ([] : List Byte).length) := by simp
    rw [if_neg this]; rfl
  | cons b bs ih =>
    simp only [Memory.write]
    rw [ih (Memory.wf_put w a b), Memory.get_put w]
    by_cases h1 : a = i
    · subst h1
      simp
    · by_cases h2 : a + 1 ≤ i ∧ i < a + 1 + bs.length
      · have h3 : a ≤ i ∧ i < a + (b :: bs).length := by simp only [List.length_cons]; omega
        have h4 : i - a = (i - (a + 1)) + 1 := by omega
        rw [if_pos h2, if_pos h3, h4, List.getD_cons_succ]
      · have h3 : ¬ (a ≤ i ∧ i < a + (b :: bs).length) := by simp only [List.length_cons]; omega
        rw [if_neg h2, if_neg h3, if_neg h1]

/-- A wiped range reads as unlisted, every other address as before. -/
theorem Memory.get_wipe (m : Memory) (lo hi i : Nat) :
    (m.wipe lo hi).get i = if lo ≤ i ∧ i < hi then unlisted i else m.get i := by
  unfold Memory.wipe
  induction m with
  | nil => simp [Memory.get]
  | cons c m ih =>
    obtain ⟨x, v⟩ := c
    by_cases hx : lo ≤ x ∧ x < hi
    · rw [List.filter_cons_of_neg (by simp [hx])]
      rw [ih]
      split
      · rfl
      · next h => have : ¬ x = i := by intro h'; subst h'; exact h hx
                  simp [Memory.get, this]
    · rw [List.filter_cons_of_pos (by simp only [Bool.not_eq_true', Bool.and_eq_false_iff, decide_eq_false_iff_not]; omega)]
      simp only [Memory.get]
      split
      · next h => subst h; rw [if_neg hx]
      · exact ih

end Sys2Proof.Machine
end

