-- ==== Sys2Proof/Laws/NMap.lean ====
section
/-!
SUPPORT. Read after write on a sparse map: what is set is read, every other key reads as before.
-/

namespace Sys2Proof.Machine

@[simp] theorem NMap.get?_nil (k : Nat) : NMap.get? [] k = none := rfl

theorem NMap.get?_del (m : NMap) (k j : Nat) : (m.del k).get? j = if k = j then none else m.get? j := by
  induction m with
  | nil => simp [NMap.del]
  | cons e m ih =>
    obtain ⟨a, v⟩ := e
    by_cases hak : a = k
    · subst hak
      simp only [NMap.del, if_true, ih, NMap.get?]
      split <;> rfl
    · by_cases haj : a = j
      · subst haj
        simp [NMap.del, hak, NMap.get?, Ne.symm hak]
      · simp [NMap.del, hak, NMap.get?, haj, ih]

theorem NMap.get?_ins (m : NMap) (k v j : Nat) (h : m.get? k = none) :
    (m.ins k v).get? j = if k = j then some v else m.get? j := by
  induction m with
  | nil => simp [NMap.ins, NMap.get?]
  | cons e m ih =>
    obtain ⟨a, w⟩ := e
    by_cases hak : a = k
    · simp [NMap.get?, hak] at h
    · have h' : NMap.get? m k = none := by simpa [NMap.get?, hak] using h
      by_cases hlt : k < a
      · simp [NMap.ins, hlt, NMap.get?]
      · by_cases haj : a = j
        · subst haj
          simp [NMap.ins, hlt, NMap.get?, Ne.symm hak]
        · simp [NMap.ins, hlt, NMap.get?, haj, ih h']

/-- Read after write. -/
theorem NMap.get?_set (m : NMap) (k v j : Nat) : (m.set k v).get? j = if k = j then some v else m.get? j := by
  rw [NMap.set, NMap.get?_ins _ _ _ _ (by simp [NMap.get?_del]), NMap.get?_del]
  split <;> rfl

theorem NMap.getD_set (m : NMap) (k v j d : Nat) : (m.set k v).getD j d = if k = j then v else m.getD j d := by
  unfold NMap.getD
  rw [NMap.get?_set]
  split <;> rfl

end Sys2Proof.Machine
end

