-- ==== Sys2Proof/Laws/State.lean ====
section
/-!
SUPPORT. What the shared operations leave alone: one lemma per operation and field of `Dev`. A parameter write changes the
parameters, bookkeeping changes `aux`, raising an event changes the parameters and the events of the edge.
-/

namespace Sys2Proof.Machine

theorem Dev.add_shape (d : Dev) (k n : Nat) : ∃ m, d.add k n = { d with alm := m } := by
  by_cases h1 : d.a k + n < 2 ^ keyBits k
  · simp only [Dev.add, if_pos h1]; exact ⟨_, rfl⟩
  · by_cases h2 : saturates k = true
    · simp only [Dev.add, if_neg h1, if_pos h2]; exact ⟨_, rfl⟩
    · simp only [Dev.add, if_neg h1, if_neg h2]; exact ⟨_, rfl⟩

theorem Dev.inc_shape (d : Dev) (k : Nat) : ∃ m, d.inc k = { d with alm := m } := d.add_shape k 1

theorem Dev.wList_shape (d : Dev) (k : Nat) (vs : List Nat) : ∃ m, d.wList k vs = { d with alm := m } := by
  unfold Dev.wList
  generalize vs.zip (List.range vs.length) = l
  induction l generalizing d with
  | nil => exact ⟨d.alm, rfl⟩
  | cons x l ih => exact ih (d.w (k + x.2) x.1)

theorem Dev.note_shape (d : Dev) (n arg : Nat) : ∃ m e, d.note n arg = { d with alm := m, edge := e } := by
  obtain ⟨m, h⟩ := (d.w P.eventSeq (if d.a P.eventSeq = 0xFFFFFFFF then 1 else d.a P.eventSeq + 1)).inc_shape (P.eventCount + n)
  by_cases hl : Dev.maskBit { (d.w P.eventSeq (if d.a P.eventSeq = 0xFFFFFFFF then 1 else d.a P.eventSeq + 1)) with alm := m } P.eventLatchMask n = true
  · simp only [Dev.note, h, if_pos hl]; exact ⟨_, _, rfl⟩
  · simp only [Dev.note, h, if_neg hl]; exact ⟨_, _, rfl⟩

theorem Dev.injectDrop_shape (d : Dev) (i cause : Nat) : ∃ m e, d.injectDrop i cause = { d with alm := m, edge := e } := by
  obtain ⟨m, h⟩ := d.inc_shape P.hkInjectDropCount
  obtain ⟨m', e, h'⟩ := (d.inc P.hkInjectDropCount).note_shape 76 (i + 4 * cause)
  exact ⟨m', e, by rw [Dev.injectDrop, h', h]⟩

/-- A fold keeps what each of its steps keeps. -/
theorem foldl_keeps {α β : Type} (R : α → α → Prop) (refl : ∀ a, R a a) (trans : ∀ a b c, R a b → R b c → R a c) (f : α → β → α)
    (h : ∀ a x, R a (f a x)) (l : List β) (a : α) : R a (l.foldl f a) := by
  induction l generalizing a with
  | nil => exact refl a
  | cons x l ih => exact trans _ _ _ (h a x) (ih (f a x))

theorem Dev.injectTrigger_shape (d : Dev) (mask : Nat) : ∃ m e, d.injectTrigger mask = { d with alm := m, edge := e } := by
  refine foldl_keeps (fun d d' => ∃ m e, d' = { d with alm := m, edge := e }) (fun d => ⟨_, _, rfl⟩) ?_ _ ?_ _ d
  · rintro a b c ⟨m, e, rfl⟩ ⟨m', e', rfl⟩
    exact ⟨m', e', rfl⟩
  · intro d i
    by_cases h1 : (!bit mask i || d.a (P.hkInjectState + i) != 1) = true
    · exact ⟨d.alm, d.edge, by rw [if_pos h1]⟩
    · rw [if_neg h1]
      split
      · exact d.injectDrop_shape i 3
      · split
        · exact d.injectDrop_shape i 2
        · split
          · exact d.injectDrop_shape i 1
          · exact ⟨_, _, rfl⟩

theorem Dev.raise_shape (d : Dev) (n arg : Nat) : ∃ m e, d.raise n arg = { d with alm := m, edge := e } := by
  obtain ⟨m, e, h⟩ := d.note_shape n arg
  obtain ⟨m', e', h'⟩ := (d.note n arg).injectTrigger_shape ((d.note n arg).injectOn n)
  by_cases hm : (d.note n arg).injectOn n = 0
  · simp only [Dev.raise, if_pos hm]; exact ⟨m, e, h⟩
  · simp only [Dev.raise, if_neg hm]; exact ⟨m', e', by rw [h', h]⟩

theorem Dev.raiseRate_shape (d : Dev) (n sub period amount : Nat) (mk : Nat → Nat) :
    ∃ m e x, d.raiseRate n sub period amount mk = { d with alm := m, edge := e, aux := x } := by
  by_cases hr : d.x (rateKey n sub) = 0 ∨ d.x (rateKey n sub) - 1 + period ≤ d.now
  · simp only [Dev.raiseRate, if_pos hr]
    obtain ⟨m, e, h⟩ := ((d.wx (rateKey n sub) (d.now + 1)).wx (rateKey n sub + 1) 0).raise_shape n (mk (d.x (rateKey n sub + 1) + amount))
    exact ⟨m, e, _, h⟩
  · simp only [Dev.raiseRate, if_neg hr]; exact ⟨_, _, _, rfl⟩

@[simp] theorem Dev.w_clk (d : Dev) (k v : Nat) : (d.w k v).clk = d.clk := rfl
@[simp] theorem Dev.w_aux (d : Dev) (k v : Nat) : (d.w k v).aux = d.aux := rfl
@[simp] theorem Dev.w_edge (d : Dev) (k v : Nat) : (d.w k v).edge = d.edge := rfl
@[simp] theorem Dev.w_out (d : Dev) (k v : Nat) : (d.w k v).out = d.out := rfl
@[simp] theorem Dev.w_flush (d : Dev) (k v : Nat) : (d.w k v).flush = d.flush := rfl
@[simp] theorem Dev.w_pwr (d : Dev) (k v : Nat) : (d.w k v).pwr = d.pwr := rfl
@[simp] theorem Dev.w_rx (d : Dev) (k v : Nat) : (d.w k v).rx = d.rx := rfl
@[simp] theorem Dev.w_cat (d : Dev) (k v : Nat) : (d.w k v).cat = d.cat := rfl
@[simp] theorem Dev.w_ul (d : Dev) (k v : Nat) : (d.w k v).ul = d.ul := rfl
@[simp] theorem Dev.w_sen (d : Dev) (k v : Nat) : (d.w k v).sen = d.sen := rfl
@[simp] theorem Dev.w_dl (d : Dev) (k v : Nat) : (d.w k v).dl = d.dl := rfl
@[simp] theorem Dev.w_syn (d : Dev) (k v : Nat) : (d.w k v).syn = d.syn := rfl
@[simp] theorem Dev.w_coex (d : Dev) (k v : Nat) : (d.w k v).coex = d.coex := rfl
@[simp] theorem Dev.w_dpd (d : Dev) (k v : Nat) : (d.w k v).dpd = d.dpd := rfl
@[simp] theorem Dev.w_col (d : Dev) (k v : Nat) : (d.w k v).col = d.col := rfl
@[simp] theorem Dev.w_bias (d : Dev) (k v : Nat) : (d.w k v).bias = d.bias := rfl
@[simp] theorem Dev.w_hk (d : Dev) (k v : Nat) : (d.w k v).hk = d.hk := rfl
@[simp] theorem Dev.w_thm (d : Dev) (k v : Nat) : (d.w k v).thm = d.thm := rfl
@[simp] theorem Dev.w_shutRec (d : Dev) (k v : Nat) : (d.w k v).shutRec = d.shutRec := rfl
@[simp] theorem Dev.w_shutLog (d : Dev) (k v : Nat) : (d.w k v).shutLog = d.shutLog := rfl
@[simp] theorem Dev.w_nvm (d : Dev) (k v : Nat) : (d.w k v).nvm = d.nvm := rfl
@[simp] theorem Dev.w_tim (d : Dev) (k v : Nat) : (d.w k v).tim = d.tim := rfl
@[simp] theorem Dev.w_eph (d : Dev) (k v : Nat) : (d.w k v).eph = d.eph := rfl
@[simp] theorem Dev.w_lane (d : Dev) (k v : Nat) : (d.w k v).lane = d.lane := rfl
@[simp] theorem Dev.w_port (d : Dev) (k v : Nat) : (d.w k v).port = d.port := rfl
@[simp] theorem Dev.w_arch (d : Dev) (k v : Nat) : (d.w k v).arch = d.arch := rfl
@[simp] theorem Dev.w_dma (d : Dev) (k v : Nat) : (d.w k v).dma = d.dma := rfl
@[simp] theorem Dev.w_tra (d : Dev) (k v : Nat) : (d.w k v).tra = d.tra := rfl
@[simp] theorem Dev.w_ses (d : Dev) (k v : Nat) : (d.w k v).ses = d.ses := rfl
@[simp] theorem Dev.w_fld (d : Dev) (k v : Nat) : (d.w k v).fld = d.fld := rfl
@[simp] theorem Dev.w_cha (d : Dev) (k v : Nat) : (d.w k v).cha = d.cha := rfl
@[simp] theorem Dev.w_fus (d : Dev) (k v : Nat) : (d.w k v).fus = d.fus := rfl
@[simp] theorem Dev.w_aud (d : Dev) (k v : Nat) : (d.w k v).aud = d.aud := rfl
@[simp] theorem Dev.w_upd (d : Dev) (k v : Nat) : (d.w k v).upd = d.upd := rfl
@[simp] theorem Dev.w_rip (d : Dev) (k v : Nat) : (d.w k v).rip = d.rip := rfl
@[simp] theorem Dev.w_bg (d : Dev) (k v : Nat) : (d.w k v).bg = d.bg := rfl
@[simp] theorem Dev.w_mgmt (d : Dev) (k v : Nat) : (d.w k v).mgmt = d.mgmt := rfl
@[simp] theorem Dev.w_telem (d : Dev) (k v : Nat) : (d.w k v).telem = d.telem := rfl

@[simp] theorem Dev.wx_clk (d : Dev) (k v : Nat) : (d.wx k v).clk = d.clk := rfl
@[simp] theorem Dev.wx_alm (d : Dev) (k v : Nat) : (d.wx k v).alm = d.alm := rfl
@[simp] theorem Dev.wx_edge (d : Dev) (k v : Nat) : (d.wx k v).edge = d.edge := rfl
@[simp] theorem Dev.wx_out (d : Dev) (k v : Nat) : (d.wx k v).out = d.out := rfl
@[simp] theorem Dev.wx_flush (d : Dev) (k v : Nat) : (d.wx k v).flush = d.flush := rfl
@[simp] theorem Dev.wx_pwr (d : Dev) (k v : Nat) : (d.wx k v).pwr = d.pwr := rfl
@[simp] theorem Dev.wx_rx (d : Dev) (k v : Nat) : (d.wx k v).rx = d.rx := rfl
@[simp] theorem Dev.wx_cat (d : Dev) (k v : Nat) : (d.wx k v).cat = d.cat := rfl
@[simp] theorem Dev.wx_ul (d : Dev) (k v : Nat) : (d.wx k v).ul = d.ul := rfl
@[simp] theorem Dev.wx_sen (d : Dev) (k v : Nat) : (d.wx k v).sen = d.sen := rfl
@[simp] theorem Dev.wx_dl (d : Dev) (k v : Nat) : (d.wx k v).dl = d.dl := rfl
@[simp] theorem Dev.wx_syn (d : Dev) (k v : Nat) : (d.wx k v).syn = d.syn := rfl
@[simp] theorem Dev.wx_coex (d : Dev) (k v : Nat) : (d.wx k v).coex = d.coex := rfl
@[simp] theorem Dev.wx_dpd (d : Dev) (k v : Nat) : (d.wx k v).dpd = d.dpd := rfl
@[simp] theorem Dev.wx_col (d : Dev) (k v : Nat) : (d.wx k v).col = d.col := rfl
@[simp] theorem Dev.wx_bias (d : Dev) (k v : Nat) : (d.wx k v).bias = d.bias := rfl
@[simp] theorem Dev.wx_hk (d : Dev) (k v : Nat) : (d.wx k v).hk = d.hk := rfl
@[simp] theorem Dev.wx_thm (d : Dev) (k v : Nat) : (d.wx k v).thm = d.thm := rfl
@[simp] theorem Dev.wx_shutRec (d : Dev) (k v : Nat) : (d.wx k v).shutRec = d.shutRec := rfl
@[simp] theorem Dev.wx_shutLog (d : Dev) (k v : Nat) : (d.wx k v).shutLog = d.shutLog := rfl
@[simp] theorem Dev.wx_nvm (d : Dev) (k v : Nat) : (d.wx k v).nvm = d.nvm := rfl
@[simp] theorem Dev.wx_tim (d : Dev) (k v : Nat) : (d.wx k v).tim = d.tim := rfl
@[simp] theorem Dev.wx_eph (d : Dev) (k v : Nat) : (d.wx k v).eph = d.eph := rfl
@[simp] theorem Dev.wx_lane (d : Dev) (k v : Nat) : (d.wx k v).lane = d.lane := rfl
@[simp] theorem Dev.wx_port (d : Dev) (k v : Nat) : (d.wx k v).port = d.port := rfl
@[simp] theorem Dev.wx_arch (d : Dev) (k v : Nat) : (d.wx k v).arch = d.arch := rfl
@[simp] theorem Dev.wx_dma (d : Dev) (k v : Nat) : (d.wx k v).dma = d.dma := rfl
@[simp] theorem Dev.wx_tra (d : Dev) (k v : Nat) : (d.wx k v).tra = d.tra := rfl
@[simp] theorem Dev.wx_ses (d : Dev) (k v : Nat) : (d.wx k v).ses = d.ses := rfl
@[simp] theorem Dev.wx_fld (d : Dev) (k v : Nat) : (d.wx k v).fld = d.fld := rfl
@[simp] theorem Dev.wx_cha (d : Dev) (k v : Nat) : (d.wx k v).cha = d.cha := rfl
@[simp] theorem Dev.wx_fus (d : Dev) (k v : Nat) : (d.wx k v).fus = d.fus := rfl
@[simp] theorem Dev.wx_aud (d : Dev) (k v : Nat) : (d.wx k v).aud = d.aud := rfl
@[simp] theorem Dev.wx_upd (d : Dev) (k v : Nat) : (d.wx k v).upd = d.upd := rfl
@[simp] theorem Dev.wx_rip (d : Dev) (k v : Nat) : (d.wx k v).rip = d.rip := rfl
@[simp] theorem Dev.wx_bg (d : Dev) (k v : Nat) : (d.wx k v).bg = d.bg := rfl
@[simp] theorem Dev.wx_mgmt (d : Dev) (k v : Nat) : (d.wx k v).mgmt = d.mgmt := rfl
@[simp] theorem Dev.wx_telem (d : Dev) (k v : Nat) : (d.wx k v).telem = d.telem := rfl

@[simp] theorem Dev.emit_clk (d : Dev) (o : Out) : (d.emit o).clk = d.clk := rfl
@[simp] theorem Dev.emit_alm (d : Dev) (o : Out) : (d.emit o).alm = d.alm := rfl
@[simp] theorem Dev.emit_aux (d : Dev) (o : Out) : (d.emit o).aux = d.aux := rfl
@[simp] theorem Dev.emit_edge (d : Dev) (o : Out) : (d.emit o).edge = d.edge := rfl
@[simp] theorem Dev.emit_flush (d : Dev) (o : Out) : (d.emit o).flush = d.flush := rfl
@[simp] theorem Dev.emit_pwr (d : Dev) (o : Out) : (d.emit o).pwr = d.pwr := rfl
@[simp] theorem Dev.emit_rx (d : Dev) (o : Out) : (d.emit o).rx = d.rx := rfl
@[simp] theorem Dev.emit_cat (d : Dev) (o : Out) : (d.emit o).cat = d.cat := rfl
@[simp] theorem Dev.emit_ul (d : Dev) (o : Out) : (d.emit o).ul = d.ul := rfl
@[simp] theorem Dev.emit_sen (d : Dev) (o : Out) : (d.emit o).sen = d.sen := rfl
@[simp] theorem Dev.emit_dl (d : Dev) (o : Out) : (d.emit o).dl = d.dl := rfl
@[simp] theorem Dev.emit_syn (d : Dev) (o : Out) : (d.emit o).syn = d.syn := rfl
@[simp] theorem Dev.emit_coex (d : Dev) (o : Out) : (d.emit o).coex = d.coex := rfl
@[simp] theorem Dev.emit_dpd (d : Dev) (o : Out) : (d.emit o).dpd = d.dpd := rfl
@[simp] theorem Dev.emit_col (d : Dev) (o : Out) : (d.emit o).col = d.col := rfl
@[simp] theorem Dev.emit_bias (d : Dev) (o : Out) : (d.emit o).bias = d.bias := rfl
@[simp] theorem Dev.emit_hk (d : Dev) (o : Out) : (d.emit o).hk = d.hk := rfl
@[simp] theorem Dev.emit_thm (d : Dev) (o : Out) : (d.emit o).thm = d.thm := rfl
@[simp] theorem Dev.emit_shutRec (d : Dev) (o : Out) : (d.emit o).shutRec = d.shutRec := rfl
@[simp] theorem Dev.emit_shutLog (d : Dev) (o : Out) : (d.emit o).shutLog = d.shutLog := rfl
@[simp] theorem Dev.emit_nvm (d : Dev) (o : Out) : (d.emit o).nvm = d.nvm := rfl
@[simp] theorem Dev.emit_tim (d : Dev) (o : Out) : (d.emit o).tim = d.tim := rfl
@[simp] theorem Dev.emit_eph (d : Dev) (o : Out) : (d.emit o).eph = d.eph := rfl
@[simp] theorem Dev.emit_lane (d : Dev) (o : Out) : (d.emit o).lane = d.lane := rfl
@[simp] theorem Dev.emit_port (d : Dev) (o : Out) : (d.emit o).port = d.port := rfl
@[simp] theorem Dev.emit_arch (d : Dev) (o : Out) : (d.emit o).arch = d.arch := rfl
@[simp] theorem Dev.emit_dma (d : Dev) (o : Out) : (d.emit o).dma = d.dma := rfl
@[simp] theorem Dev.emit_tra (d : Dev) (o : Out) : (d.emit o).tra = d.tra := rfl
@[simp] theorem Dev.emit_ses (d : Dev) (o : Out) : (d.emit o).ses = d.ses := rfl
@[simp] theorem Dev.emit_fld (d : Dev) (o : Out) : (d.emit o).fld = d.fld := rfl
@[simp] theorem Dev.emit_cha (d : Dev) (o : Out) : (d.emit o).cha = d.cha := rfl
@[simp] theorem Dev.emit_fus (d : Dev) (o : Out) : (d.emit o).fus = d.fus := rfl
@[simp] theorem Dev.emit_aud (d : Dev) (o : Out) : (d.emit o).aud = d.aud := rfl
@[simp] theorem Dev.emit_upd (d : Dev) (o : Out) : (d.emit o).upd = d.upd := rfl
@[simp] theorem Dev.emit_rip (d : Dev) (o : Out) : (d.emit o).rip = d.rip := rfl
@[simp] theorem Dev.emit_bg (d : Dev) (o : Out) : (d.emit o).bg = d.bg := rfl
@[simp] theorem Dev.emit_mgmt (d : Dev) (o : Out) : (d.emit o).mgmt = d.mgmt := rfl
@[simp] theorem Dev.emit_telem (d : Dev) (o : Out) : (d.emit o).telem = d.telem := rfl

@[simp] theorem Dev.add_clk (d : Dev) (k n : Nat) : (d.add k n).clk = d.clk := by obtain ⟨_, h⟩ := d.add_shape k n; rw [h]
@[simp] theorem Dev.add_aux (d : Dev) (k n : Nat) : (d.add k n).aux = d.aux := by obtain ⟨_, h⟩ := d.add_shape k n; rw [h]
@[simp] theorem Dev.add_edge (d : Dev) (k n : Nat) : (d.add k n).edge = d.edge := by obtain ⟨_, h⟩ := d.add_shape k n; rw [h]
@[simp] theorem Dev.add_out (d : Dev) (k n : Nat) : (d.add k n).out = d.out := by obtain ⟨_, h⟩ := d.add_shape k n; rw [h]
@[simp] theorem Dev.add_flush (d : Dev) (k n : Nat) : (d.add k n).flush = d.flush := by obtain ⟨_, h⟩ := d.add_shape k n; rw [h]
@[simp] theorem Dev.add_pwr (d : Dev) (k n : Nat) : (d.add k n).pwr = d.pwr := by obtain ⟨_, h⟩ := d.add_shape k n; rw [h]
@[simp] theorem Dev.add_rx (d : Dev) (k n : Nat) : (d.add k n).rx = d.rx := by obtain ⟨_, h⟩ := d.add_shape k n; rw [h]
@[simp] theorem Dev.add_cat (d : Dev) (k n : Nat) : (d.add k n).cat = d.cat := by obtain ⟨_, h⟩ := d.add_shape k n; rw [h]
@[simp] theorem Dev.add_ul (d : Dev) (k n : Nat) : (d.add k n).ul = d.ul := by obtain ⟨_, h⟩ := d.add_shape k n; rw [h]
@[simp] theorem Dev.add_sen (d : Dev) (k n : Nat) : (d.add k n).sen = d.sen := by obtain ⟨_, h⟩ := d.add_shape k n; rw [h]
@[simp] theorem Dev.add_dl (d : Dev) (k n : Nat) : (d.add k n).dl = d.dl := by obtain ⟨_, h⟩ := d.add_shape k n; rw [h]
@[simp] theorem Dev.add_syn (d : Dev) (k n : Nat) : (d.add k n).syn = d.syn := by obtain ⟨_, h⟩ := d.add_shape k n; rw [h]
@[simp] theorem Dev.add_coex (d : Dev) (k n : Nat) : (d.add k n).coex = d.coex := by obtain ⟨_, h⟩ := d.add_shape k n; rw [h]
@[simp] theorem Dev.add_dpd (d : Dev) (k n : Nat) : (d.add k n).dpd = d.dpd := by obtain ⟨_, h⟩ := d.add_shape k n; rw [h]
@[simp] theorem Dev.add_col (d : Dev) (k n : Nat) : (d.add k n).col = d.col := by obtain ⟨_, h⟩ := d.add_shape k n; rw [h]
@[simp] theorem Dev.add_bias (d : Dev) (k n : Nat) : (d.add k n).bias = d.bias := by obtain ⟨_, h⟩ := d.add_shape k n; rw [h]
@[simp] theorem Dev.add_hk (d : Dev) (k n : Nat) : (d.add k n).hk = d.hk := by obtain ⟨_, h⟩ := d.add_shape k n; rw [h]
@[simp] theorem Dev.add_thm (d : Dev) (k n : Nat) : (d.add k n).thm = d.thm := by obtain ⟨_, h⟩ := d.add_shape k n; rw [h]
@[simp] theorem Dev.add_shutRec (d : Dev) (k n : Nat) : (d.add k n).shutRec = d.shutRec := by obtain ⟨_, h⟩ := d.add_shape k n; rw [h]
@[simp] theorem Dev.add_shutLog (d : Dev) (k n : Nat) : (d.add k n).shutLog = d.shutLog := by obtain ⟨_, h⟩ := d.add_shape k n; rw [h]
@[simp] theorem Dev.add_nvm (d : Dev) (k n : Nat) : (d.add k n).nvm = d.nvm := by obtain ⟨_, h⟩ := d.add_shape k n; rw [h]
@[simp] theorem Dev.add_tim (d : Dev) (k n : Nat) : (d.add k n).tim = d.tim := by obtain ⟨_, h⟩ := d.add_shape k n; rw [h]
@[simp] theorem Dev.add_eph (d : Dev) (k n : Nat) : (d.add k n).eph = d.eph := by obtain ⟨_, h⟩ := d.add_shape k n; rw [h]
@[simp] theorem Dev.add_lane (d : Dev) (k n : Nat) : (d.add k n).lane = d.lane := by obtain ⟨_, h⟩ := d.add_shape k n; rw [h]
@[simp] theorem Dev.add_port (d : Dev) (k n : Nat) : (d.add k n).port = d.port := by obtain ⟨_, h⟩ := d.add_shape k n; rw [h]
@[simp] theorem Dev.add_arch (d : Dev) (k n : Nat) : (d.add k n).arch = d.arch := by obtain ⟨_, h⟩ := d.add_shape k n; rw [h]
@[simp] theorem Dev.add_dma (d : Dev) (k n : Nat) : (d.add k n).dma = d.dma := by obtain ⟨_, h⟩ := d.add_shape k n; rw [h]
@[simp] theorem Dev.add_tra (d : Dev) (k n : Nat) : (d.add k n).tra = d.tra := by obtain ⟨_, h⟩ := d.add_shape k n; rw [h]
@[simp] theorem Dev.add_ses (d : Dev) (k n : Nat) : (d.add k n).ses = d.ses := by obtain ⟨_, h⟩ := d.add_shape k n; rw [h]
@[simp] theorem Dev.add_fld (d : Dev) (k n : Nat) : (d.add k n).fld = d.fld := by obtain ⟨_, h⟩ := d.add_shape k n; rw [h]
@[simp] theorem Dev.add_cha (d : Dev) (k n : Nat) : (d.add k n).cha = d.cha := by obtain ⟨_, h⟩ := d.add_shape k n; rw [h]
@[simp] theorem Dev.add_fus (d : Dev) (k n : Nat) : (d.add k n).fus = d.fus := by obtain ⟨_, h⟩ := d.add_shape k n; rw [h]
@[simp] theorem Dev.add_aud (d : Dev) (k n : Nat) : (d.add k n).aud = d.aud := by obtain ⟨_, h⟩ := d.add_shape k n; rw [h]
@[simp] theorem Dev.add_upd (d : Dev) (k n : Nat) : (d.add k n).upd = d.upd := by obtain ⟨_, h⟩ := d.add_shape k n; rw [h]
@[simp] theorem Dev.add_rip (d : Dev) (k n : Nat) : (d.add k n).rip = d.rip := by obtain ⟨_, h⟩ := d.add_shape k n; rw [h]
@[simp] theorem Dev.add_bg (d : Dev) (k n : Nat) : (d.add k n).bg = d.bg := by obtain ⟨_, h⟩ := d.add_shape k n; rw [h]
@[simp] theorem Dev.add_mgmt (d : Dev) (k n : Nat) : (d.add k n).mgmt = d.mgmt := by obtain ⟨_, h⟩ := d.add_shape k n; rw [h]
@[simp] theorem Dev.add_telem (d : Dev) (k n : Nat) : (d.add k n).telem = d.telem := by obtain ⟨_, h⟩ := d.add_shape k n; rw [h]

@[simp] theorem Dev.inc_clk (d : Dev) (k : Nat) : (d.inc k).clk = d.clk := by obtain ⟨_, h⟩ := d.inc_shape k; rw [h]
@[simp] theorem Dev.inc_aux (d : Dev) (k : Nat) : (d.inc k).aux = d.aux := by obtain ⟨_, h⟩ := d.inc_shape k; rw [h]
@[simp] theorem Dev.inc_edge (d : Dev) (k : Nat) : (d.inc k).edge = d.edge := by obtain ⟨_, h⟩ := d.inc_shape k; rw [h]
@[simp] theorem Dev.inc_out (d : Dev) (k : Nat) : (d.inc k).out = d.out := by obtain ⟨_, h⟩ := d.inc_shape k; rw [h]
@[simp] theorem Dev.inc_flush (d : Dev) (k : Nat) : (d.inc k).flush = d.flush := by obtain ⟨_, h⟩ := d.inc_shape k; rw [h]
@[simp] theorem Dev.inc_pwr (d : Dev) (k : Nat) : (d.inc k).pwr = d.pwr := by obtain ⟨_, h⟩ := d.inc_shape k; rw [h]
@[simp] theorem Dev.inc_rx (d : Dev) (k : Nat) : (d.inc k).rx = d.rx := by obtain ⟨_, h⟩ := d.inc_shape k; rw [h]
@[simp] theorem Dev.inc_cat (d : Dev) (k : Nat) : (d.inc k).cat = d.cat := by obtain ⟨_, h⟩ := d.inc_shape k; rw [h]
@[simp] theorem Dev.inc_ul (d : Dev) (k : Nat) : (d.inc k).ul = d.ul := by obtain ⟨_, h⟩ := d.inc_shape k; rw [h]
@[simp] theorem Dev.inc_sen (d : Dev) (k : Nat) : (d.inc k).sen = d.sen := by obtain ⟨_, h⟩ := d.inc_shape k; rw [h]
@[simp] theorem Dev.inc_dl (d : Dev) (k : Nat) : (d.inc k).dl = d.dl := by obtain ⟨_, h⟩ := d.inc_shape k; rw [h]
@[simp] theorem Dev.inc_syn (d : Dev) (k : Nat) : (d.inc k).syn = d.syn := by obtain ⟨_, h⟩ := d.inc_shape k; rw [h]
@[simp] theorem Dev.inc_coex (d : Dev) (k : Nat) : (d.inc k).coex = d.coex := by obtain ⟨_, h⟩ := d.inc_shape k; rw [h]
@[simp] theorem Dev.inc_dpd (d : Dev) (k : Nat) : (d.inc k).dpd = d.dpd := by obtain ⟨_, h⟩ := d.inc_shape k; rw [h]
@[simp] theorem Dev.inc_col (d : Dev) (k : Nat) : (d.inc k).col = d.col := by obtain ⟨_, h⟩ := d.inc_shape k; rw [h]
@[simp] theorem Dev.inc_bias (d : Dev) (k : Nat) : (d.inc k).bias = d.bias := by obtain ⟨_, h⟩ := d.inc_shape k; rw [h]
@[simp] theorem Dev.inc_hk (d : Dev) (k : Nat) : (d.inc k).hk = d.hk := by obtain ⟨_, h⟩ := d.inc_shape k; rw [h]
@[simp] theorem Dev.inc_thm (d : Dev) (k : Nat) : (d.inc k).thm = d.thm := by obtain ⟨_, h⟩ := d.inc_shape k; rw [h]
@[simp] theorem Dev.inc_shutRec (d : Dev) (k : Nat) : (d.inc k).shutRec = d.shutRec := by obtain ⟨_, h⟩ := d.inc_shape k; rw [h]
@[simp] theorem Dev.inc_shutLog (d : Dev) (k : Nat) : (d.inc k).shutLog = d.shutLog := by obtain ⟨_, h⟩ := d.inc_shape k; rw [h]
@[simp] theorem Dev.inc_nvm (d : Dev) (k : Nat) : (d.inc k).nvm = d.nvm := by obtain ⟨_, h⟩ := d.inc_shape k; rw [h]
@[simp] theorem Dev.inc_tim (d : Dev) (k : Nat) : (d.inc k).tim = d.tim := by obtain ⟨_, h⟩ := d.inc_shape k; rw [h]
@[simp] theorem Dev.inc_eph (d : Dev) (k : Nat) : (d.inc k).eph = d.eph := by obtain ⟨_, h⟩ := d.inc_shape k; rw [h]
@[simp] theorem Dev.inc_lane (d : Dev) (k : Nat) : (d.inc k).lane = d.lane := by obtain ⟨_, h⟩ := d.inc_shape k; rw [h]
@[simp] theorem Dev.inc_port (d : Dev) (k : Nat) : (d.inc k).port = d.port := by obtain ⟨_, h⟩ := d.inc_shape k; rw [h]
@[simp] theorem Dev.inc_arch (d : Dev) (k : Nat) : (d.inc k).arch = d.arch := by obtain ⟨_, h⟩ := d.inc_shape k; rw [h]
@[simp] theorem Dev.inc_dma (d : Dev) (k : Nat) : (d.inc k).dma = d.dma := by obtain ⟨_, h⟩ := d.inc_shape k; rw [h]
@[simp] theorem Dev.inc_tra (d : Dev) (k : Nat) : (d.inc k).tra = d.tra := by obtain ⟨_, h⟩ := d.inc_shape k; rw [h]
@[simp] theorem Dev.inc_ses (d : Dev) (k : Nat) : (d.inc k).ses = d.ses := by obtain ⟨_, h⟩ := d.inc_shape k; rw [h]
@[simp] theorem Dev.inc_fld (d : Dev) (k : Nat) : (d.inc k).fld = d.fld := by obtain ⟨_, h⟩ := d.inc_shape k; rw [h]
@[simp] theorem Dev.inc_cha (d : Dev) (k : Nat) : (d.inc k).cha = d.cha := by obtain ⟨_, h⟩ := d.inc_shape k; rw [h]
@[simp] theorem Dev.inc_fus (d : Dev) (k : Nat) : (d.inc k).fus = d.fus := by obtain ⟨_, h⟩ := d.inc_shape k; rw [h]
@[simp] theorem Dev.inc_aud (d : Dev) (k : Nat) : (d.inc k).aud = d.aud := by obtain ⟨_, h⟩ := d.inc_shape k; rw [h]
@[simp] theorem Dev.inc_upd (d : Dev) (k : Nat) : (d.inc k).upd = d.upd := by obtain ⟨_, h⟩ := d.inc_shape k; rw [h]
@[simp] theorem Dev.inc_rip (d : Dev) (k : Nat) : (d.inc k).rip = d.rip := by obtain ⟨_, h⟩ := d.inc_shape k; rw [h]
@[simp] theorem Dev.inc_bg (d : Dev) (k : Nat) : (d.inc k).bg = d.bg := by obtain ⟨_, h⟩ := d.inc_shape k; rw [h]
@[simp] theorem Dev.inc_mgmt (d : Dev) (k : Nat) : (d.inc k).mgmt = d.mgmt := by obtain ⟨_, h⟩ := d.inc_shape k; rw [h]
@[simp] theorem Dev.inc_telem (d : Dev) (k : Nat) : (d.inc k).telem = d.telem := by obtain ⟨_, h⟩ := d.inc_shape k; rw [h]

@[simp] theorem Dev.note_clk (d : Dev) (n arg : Nat) : (d.note n arg).clk = d.clk := by obtain ⟨_, _, h⟩ := d.note_shape n arg; rw [h]
@[simp] theorem Dev.note_aux (d : Dev) (n arg : Nat) : (d.note n arg).aux = d.aux := by obtain ⟨_, _, h⟩ := d.note_shape n arg; rw [h]
@[simp] theorem Dev.note_out (d : Dev) (n arg : Nat) : (d.note n arg).out = d.out := by obtain ⟨_, _, h⟩ := d.note_shape n arg; rw [h]
@[simp] theorem Dev.note_flush (d : Dev) (n arg : Nat) : (d.note n arg).flush = d.flush := by obtain ⟨_, _, h⟩ := d.note_shape n arg; rw [h]
@[simp] theorem Dev.note_pwr (d : Dev) (n arg : Nat) : (d.note n arg).pwr = d.pwr := by obtain ⟨_, _, h⟩ := d.note_shape n arg; rw [h]
@[simp] theorem Dev.note_rx (d : Dev) (n arg : Nat) : (d.note n arg).rx = d.rx := by obtain ⟨_, _, h⟩ := d.note_shape n arg; rw [h]
@[simp] theorem Dev.note_cat (d : Dev) (n arg : Nat) : (d.note n arg).cat = d.cat := by obtain ⟨_, _, h⟩ := d.note_shape n arg; rw [h]
@[simp] theorem Dev.note_ul (d : Dev) (n arg : Nat) : (d.note n arg).ul = d.ul := by obtain ⟨_, _, h⟩ := d.note_shape n arg; rw [h]
@[simp] theorem Dev.note_sen (d : Dev) (n arg : Nat) : (d.note n arg).sen = d.sen := by obtain ⟨_, _, h⟩ := d.note_shape n arg; rw [h]
@[simp] theorem Dev.note_dl (d : Dev) (n arg : Nat) : (d.note n arg).dl = d.dl := by obtain ⟨_, _, h⟩ := d.note_shape n arg; rw [h]
@[simp] theorem Dev.note_syn (d : Dev) (n arg : Nat) : (d.note n arg).syn = d.syn := by obtain ⟨_, _, h⟩ := d.note_shape n arg; rw [h]
@[simp] theorem Dev.note_coex (d : Dev) (n arg : Nat) : (d.note n arg).coex = d.coex := by obtain ⟨_, _, h⟩ := d.note_shape n arg; rw [h]
@[simp] theorem Dev.note_dpd (d : Dev) (n arg : Nat) : (d.note n arg).dpd = d.dpd := by obtain ⟨_, _, h⟩ := d.note_shape n arg; rw [h]
@[simp] theorem Dev.note_col (d : Dev) (n arg : Nat) : (d.note n arg).col = d.col := by obtain ⟨_, _, h⟩ := d.note_shape n arg; rw [h]
@[simp] theorem Dev.note_bias (d : Dev) (n arg : Nat) : (d.note n arg).bias = d.bias := by obtain ⟨_, _, h⟩ := d.note_shape n arg; rw [h]
@[simp] theorem Dev.note_hk (d : Dev) (n arg : Nat) : (d.note n arg).hk = d.hk := by obtain ⟨_, _, h⟩ := d.note_shape n arg; rw [h]
@[simp] theorem Dev.note_thm (d : Dev) (n arg : Nat) : (d.note n arg).thm = d.thm := by obtain ⟨_, _, h⟩ := d.note_shape n arg; rw [h]
@[simp] theorem Dev.note_shutRec (d : Dev) (n arg : Nat) : (d.note n arg).shutRec = d.shutRec := by obtain ⟨_, _, h⟩ := d.note_shape n arg; rw [h]
@[simp] theorem Dev.note_shutLog (d : Dev) (n arg : Nat) : (d.note n arg).shutLog = d.shutLog := by obtain ⟨_, _, h⟩ := d.note_shape n arg; rw [h]
@[simp] theorem Dev.note_nvm (d : Dev) (n arg : Nat) : (d.note n arg).nvm = d.nvm := by obtain ⟨_, _, h⟩ := d.note_shape n arg; rw [h]
@[simp] theorem Dev.note_tim (d : Dev) (n arg : Nat) : (d.note n arg).tim = d.tim := by obtain ⟨_, _, h⟩ := d.note_shape n arg; rw [h]
@[simp] theorem Dev.note_eph (d : Dev) (n arg : Nat) : (d.note n arg).eph = d.eph := by obtain ⟨_, _, h⟩ := d.note_shape n arg; rw [h]
@[simp] theorem Dev.note_lane (d : Dev) (n arg : Nat) : (d.note n arg).lane = d.lane := by obtain ⟨_, _, h⟩ := d.note_shape n arg; rw [h]
@[simp] theorem Dev.note_port (d : Dev) (n arg : Nat) : (d.note n arg).port = d.port := by obtain ⟨_, _, h⟩ := d.note_shape n arg; rw [h]
@[simp] theorem Dev.note_arch (d : Dev) (n arg : Nat) : (d.note n arg).arch = d.arch := by obtain ⟨_, _, h⟩ := d.note_shape n arg; rw [h]
@[simp] theorem Dev.note_dma (d : Dev) (n arg : Nat) : (d.note n arg).dma = d.dma := by obtain ⟨_, _, h⟩ := d.note_shape n arg; rw [h]
@[simp] theorem Dev.note_tra (d : Dev) (n arg : Nat) : (d.note n arg).tra = d.tra := by obtain ⟨_, _, h⟩ := d.note_shape n arg; rw [h]
@[simp] theorem Dev.note_ses (d : Dev) (n arg : Nat) : (d.note n arg).ses = d.ses := by obtain ⟨_, _, h⟩ := d.note_shape n arg; rw [h]
@[simp] theorem Dev.note_fld (d : Dev) (n arg : Nat) : (d.note n arg).fld = d.fld := by obtain ⟨_, _, h⟩ := d.note_shape n arg; rw [h]
@[simp] theorem Dev.note_cha (d : Dev) (n arg : Nat) : (d.note n arg).cha = d.cha := by obtain ⟨_, _, h⟩ := d.note_shape n arg; rw [h]
@[simp] theorem Dev.note_fus (d : Dev) (n arg : Nat) : (d.note n arg).fus = d.fus := by obtain ⟨_, _, h⟩ := d.note_shape n arg; rw [h]
@[simp] theorem Dev.note_aud (d : Dev) (n arg : Nat) : (d.note n arg).aud = d.aud := by obtain ⟨_, _, h⟩ := d.note_shape n arg; rw [h]
@[simp] theorem Dev.note_upd (d : Dev) (n arg : Nat) : (d.note n arg).upd = d.upd := by obtain ⟨_, _, h⟩ := d.note_shape n arg; rw [h]
@[simp] theorem Dev.note_rip (d : Dev) (n arg : Nat) : (d.note n arg).rip = d.rip := by obtain ⟨_, _, h⟩ := d.note_shape n arg; rw [h]
@[simp] theorem Dev.note_bg (d : Dev) (n arg : Nat) : (d.note n arg).bg = d.bg := by obtain ⟨_, _, h⟩ := d.note_shape n arg; rw [h]
@[simp] theorem Dev.note_mgmt (d : Dev) (n arg : Nat) : (d.note n arg).mgmt = d.mgmt := by obtain ⟨_, _, h⟩ := d.note_shape n arg; rw [h]
@[simp] theorem Dev.note_telem (d : Dev) (n arg : Nat) : (d.note n arg).telem = d.telem := by obtain ⟨_, _, h⟩ := d.note_shape n arg; rw [h]

@[simp] theorem Dev.raise_clk (d : Dev) (n arg : Nat) : (d.raise n arg).clk = d.clk := by obtain ⟨_, _, h⟩ := d.raise_shape n arg; rw [h]
@[simp] theorem Dev.raise_aux (d : Dev) (n arg : Nat) : (d.raise n arg).aux = d.aux := by obtain ⟨_, _, h⟩ := d.raise_shape n arg; rw [h]
@[simp] theorem Dev.raise_out (d : Dev) (n arg : Nat) : (d.raise n arg).out = d.out := by obtain ⟨_, _, h⟩ := d.raise_shape n arg; rw [h]
@[simp] theorem Dev.raise_flush (d : Dev) (n arg : Nat) : (d.raise n arg).flush = d.flush := by obtain ⟨_, _, h⟩ := d.raise_shape n arg; rw [h]
@[simp] theorem Dev.raise_pwr (d : Dev) (n arg : Nat) : (d.raise n arg).pwr = d.pwr := by obtain ⟨_, _, h⟩ := d.raise_shape n arg; rw [h]
@[simp] theorem Dev.raise_rx (d : Dev) (n arg : Nat) : (d.raise n arg).rx = d.rx := by obtain ⟨_, _, h⟩ := d.raise_shape n arg; rw [h]
@[simp] theorem Dev.raise_cat (d : Dev) (n arg : Nat) : (d.raise n arg).cat = d.cat := by obtain ⟨_, _, h⟩ := d.raise_shape n arg; rw [h]
@[simp] theorem Dev.raise_ul (d : Dev) (n arg : Nat) : (d.raise n arg).ul = d.ul := by obtain ⟨_, _, h⟩ := d.raise_shape n arg; rw [h]
@[simp] theorem Dev.raise_sen (d : Dev) (n arg : Nat) : (d.raise n arg).sen = d.sen := by obtain ⟨_, _, h⟩ := d.raise_shape n arg; rw [h]
@[simp] theorem Dev.raise_dl (d : Dev) (n arg : Nat) : (d.raise n arg).dl = d.dl := by obtain ⟨_, _, h⟩ := d.raise_shape n arg; rw [h]
@[simp] theorem Dev.raise_syn (d : Dev) (n arg : Nat) : (d.raise n arg).syn = d.syn := by obtain ⟨_, _, h⟩ := d.raise_shape n arg; rw [h]
@[simp] theorem Dev.raise_coex (d : Dev) (n arg : Nat) : (d.raise n arg).coex = d.coex := by obtain ⟨_, _, h⟩ := d.raise_shape n arg; rw [h]
@[simp] theorem Dev.raise_dpd (d : Dev) (n arg : Nat) : (d.raise n arg).dpd = d.dpd := by obtain ⟨_, _, h⟩ := d.raise_shape n arg; rw [h]
@[simp] theorem Dev.raise_col (d : Dev) (n arg : Nat) : (d.raise n arg).col = d.col := by obtain ⟨_, _, h⟩ := d.raise_shape n arg; rw [h]
@[simp] theorem Dev.raise_bias (d : Dev) (n arg : Nat) : (d.raise n arg).bias = d.bias := by obtain ⟨_, _, h⟩ := d.raise_shape n arg; rw [h]
@[simp] theorem Dev.raise_hk (d : Dev) (n arg : Nat) : (d.raise n arg).hk = d.hk := by obtain ⟨_, _, h⟩ := d.raise_shape n arg; rw [h]
@[simp] theorem Dev.raise_thm (d : Dev) (n arg : Nat) : (d.raise n arg).thm = d.thm := by obtain ⟨_, _, h⟩ := d.raise_shape n arg; rw [h]
@[simp] theorem Dev.raise_shutRec (d : Dev) (n arg : Nat) : (d.raise n arg).shutRec = d.shutRec := by obtain ⟨_, _, h⟩ := d.raise_shape n arg; rw [h]
@[simp] theorem Dev.raise_shutLog (d : Dev) (n arg : Nat) : (d.raise n arg).shutLog = d.shutLog := by obtain ⟨_, _, h⟩ := d.raise_shape n arg; rw [h]
@[simp] theorem Dev.raise_nvm (d : Dev) (n arg : Nat) : (d.raise n arg).nvm = d.nvm := by obtain ⟨_, _, h⟩ := d.raise_shape n arg; rw [h]
@[simp] theorem Dev.raise_tim (d : Dev) (n arg : Nat) : (d.raise n arg).tim = d.tim := by obtain ⟨_, _, h⟩ := d.raise_shape n arg; rw [h]
@[simp] theorem Dev.raise_eph (d : Dev) (n arg : Nat) : (d.raise n arg).eph = d.eph := by obtain ⟨_, _, h⟩ := d.raise_shape n arg; rw [h]
@[simp] theorem Dev.raise_lane (d : Dev) (n arg : Nat) : (d.raise n arg).lane = d.lane := by obtain ⟨_, _, h⟩ := d.raise_shape n arg; rw [h]
@[simp] theorem Dev.raise_port (d : Dev) (n arg : Nat) : (d.raise n arg).port = d.port := by obtain ⟨_, _, h⟩ := d.raise_shape n arg; rw [h]
@[simp] theorem Dev.raise_arch (d : Dev) (n arg : Nat) : (d.raise n arg).arch = d.arch := by obtain ⟨_, _, h⟩ := d.raise_shape n arg; rw [h]
@[simp] theorem Dev.raise_dma (d : Dev) (n arg : Nat) : (d.raise n arg).dma = d.dma := by obtain ⟨_, _, h⟩ := d.raise_shape n arg; rw [h]
@[simp] theorem Dev.raise_tra (d : Dev) (n arg : Nat) : (d.raise n arg).tra = d.tra := by obtain ⟨_, _, h⟩ := d.raise_shape n arg; rw [h]
@[simp] theorem Dev.raise_ses (d : Dev) (n arg : Nat) : (d.raise n arg).ses = d.ses := by obtain ⟨_, _, h⟩ := d.raise_shape n arg; rw [h]
@[simp] theorem Dev.raise_fld (d : Dev) (n arg : Nat) : (d.raise n arg).fld = d.fld := by obtain ⟨_, _, h⟩ := d.raise_shape n arg; rw [h]
@[simp] theorem Dev.raise_cha (d : Dev) (n arg : Nat) : (d.raise n arg).cha = d.cha := by obtain ⟨_, _, h⟩ := d.raise_shape n arg; rw [h]
@[simp] theorem Dev.raise_fus (d : Dev) (n arg : Nat) : (d.raise n arg).fus = d.fus := by obtain ⟨_, _, h⟩ := d.raise_shape n arg; rw [h]
@[simp] theorem Dev.raise_aud (d : Dev) (n arg : Nat) : (d.raise n arg).aud = d.aud := by obtain ⟨_, _, h⟩ := d.raise_shape n arg; rw [h]
@[simp] theorem Dev.raise_upd (d : Dev) (n arg : Nat) : (d.raise n arg).upd = d.upd := by obtain ⟨_, _, h⟩ := d.raise_shape n arg; rw [h]
@[simp] theorem Dev.raise_rip (d : Dev) (n arg : Nat) : (d.raise n arg).rip = d.rip := by obtain ⟨_, _, h⟩ := d.raise_shape n arg; rw [h]
@[simp] theorem Dev.raise_bg (d : Dev) (n arg : Nat) : (d.raise n arg).bg = d.bg := by obtain ⟨_, _, h⟩ := d.raise_shape n arg; rw [h]
@[simp] theorem Dev.raise_mgmt (d : Dev) (n arg : Nat) : (d.raise n arg).mgmt = d.mgmt := by obtain ⟨_, _, h⟩ := d.raise_shape n arg; rw [h]
@[simp] theorem Dev.raise_telem (d : Dev) (n arg : Nat) : (d.raise n arg).telem = d.telem := by obtain ⟨_, _, h⟩ := d.raise_shape n arg; rw [h]

@[simp] theorem Dev.raiseRate_clk (d : Dev) (n sub period amount : Nat) (mk : Nat → Nat) : (d.raiseRate n sub period amount mk).clk = d.clk := by obtain ⟨_, _, _, h⟩ := d.raiseRate_shape n sub period amount mk; rw [h]
@[simp] theorem Dev.raiseRate_out (d : Dev) (n sub period amount : Nat) (mk : Nat → Nat) : (d.raiseRate n sub period amount mk).out = d.out := by obtain ⟨_, _, _, h⟩ := d.raiseRate_shape n sub period amount mk; rw [h]
@[simp] theorem Dev.raiseRate_flush (d : Dev) (n sub period amount : Nat) (mk : Nat → Nat) : (d.raiseRate n sub period amount mk).flush = d.flush := by obtain ⟨_, _, _, h⟩ := d.raiseRate_shape n sub period amount mk; rw [h]
@[simp] theorem Dev.raiseRate_pwr (d : Dev) (n sub period amount : Nat) (mk : Nat → Nat) : (d.raiseRate n sub period amount mk).pwr = d.pwr := by obtain ⟨_, _, _, h⟩ := d.raiseRate_shape n sub period amount mk; rw [h]
@[simp] theorem Dev.raiseRate_rx (d : Dev) (n sub period amount : Nat) (mk : Nat → Nat) : (d.raiseRate n sub period amount mk).rx = d.rx := by obtain ⟨_, _, _, h⟩ := d.raiseRate_shape n sub period amount mk; rw [h]
@[simp] theorem Dev.raiseRate_cat (d : Dev) (n sub period amount : Nat) (mk : Nat → Nat) : (d.raiseRate n sub period amount mk).cat = d.cat := by obtain ⟨_, _, _, h⟩ := d.raiseRate_shape n sub period amount mk; rw [h]
@[simp] theorem Dev.raiseRate_ul (d : Dev) (n sub period amount : Nat) (mk : Nat → Nat) : (d.raiseRate n sub period amount mk).ul = d.ul := by obtain ⟨_, _, _, h⟩ := d.raiseRate_shape n sub period amount mk; rw [h]
@[simp] theorem Dev.raiseRate_sen (d : Dev) (n sub period amount : Nat) (mk : Nat → Nat) : (d.raiseRate n sub period amount mk).sen = d.sen := by obtain ⟨_, _, _, h⟩ := d.raiseRate_shape n sub period amount mk; rw [h]
@[simp] theorem Dev.raiseRate_dl (d : Dev) (n sub period amount : Nat) (mk : Nat → Nat) : (d.raiseRate n sub period amount mk).dl = d.dl := by obtain ⟨_, _, _, h⟩ := d.raiseRate_shape n sub period amount mk; rw [h]
@[simp] theorem Dev.raiseRate_syn (d : Dev) (n sub period amount : Nat) (mk : Nat → Nat) : (d.raiseRate n sub period amount mk).syn = d.syn := by obtain ⟨_, _, _, h⟩ := d.raiseRate_shape n sub period amount mk; rw [h]
@[simp] theorem Dev.raiseRate_coex (d : Dev) (n sub period amount : Nat) (mk : Nat → Nat) : (d.raiseRate n sub period amount mk).coex = d.coex := by obtain ⟨_, _, _, h⟩ := d.raiseRate_shape n sub period amount mk; rw [h]
@[simp] theorem Dev.raiseRate_dpd (d : Dev) (n sub period amount : Nat) (mk : Nat → Nat) : (d.raiseRate n sub period amount mk).dpd = d.dpd := by obtain ⟨_, _, _, h⟩ := d.raiseRate_shape n sub period amount mk; rw [h]
@[simp] theorem Dev.raiseRate_col (d : Dev) (n sub period amount : Nat) (mk : Nat → Nat) : (d.raiseRate n sub period amount mk).col = d.col := by obtain ⟨_, _, _, h⟩ := d.raiseRate_shape n sub period amount mk; rw [h]
@[simp] theorem Dev.raiseRate_bias (d : Dev) (n sub period amount : Nat) (mk : Nat → Nat) : (d.raiseRate n sub period amount mk).bias = d.bias := by obtain ⟨_, _, _, h⟩ := d.raiseRate_shape n sub period amount mk; rw [h]
@[simp] theorem Dev.raiseRate_hk (d : Dev) (n sub period amount : Nat) (mk : Nat → Nat) : (d.raiseRate n sub period amount mk).hk = d.hk := by obtain ⟨_, _, _, h⟩ := d.raiseRate_shape n sub period amount mk; rw [h]
@[simp] theorem Dev.raiseRate_thm (d : Dev) (n sub period amount : Nat) (mk : Nat → Nat) : (d.raiseRate n sub period amount mk).thm = d.thm := by obtain ⟨_, _, _, h⟩ := d.raiseRate_shape n sub period amount mk; rw [h]
@[simp] theorem Dev.raiseRate_shutRec (d : Dev) (n sub period amount : Nat) (mk : Nat → Nat) : (d.raiseRate n sub period amount mk).shutRec = d.shutRec := by obtain ⟨_, _, _, h⟩ := d.raiseRate_shape n sub period amount mk; rw [h]
@[simp] theorem Dev.raiseRate_shutLog (d : Dev) (n sub period amount : Nat) (mk : Nat → Nat) : (d.raiseRate n sub period amount mk).shutLog = d.shutLog := by obtain ⟨_, _, _, h⟩ := d.raiseRate_shape n sub period amount mk; rw [h]
@[simp] theorem Dev.raiseRate_nvm (d : Dev) (n sub period amount : Nat) (mk : Nat → Nat) : (d.raiseRate n sub period amount mk).nvm = d.nvm := by obtain ⟨_, _, _, h⟩ := d.raiseRate_shape n sub period amount mk; rw [h]
@[simp] theorem Dev.raiseRate_tim (d : Dev) (n sub period amount : Nat) (mk : Nat → Nat) : (d.raiseRate n sub period amount mk).tim = d.tim := by obtain ⟨_, _, _, h⟩ := d.raiseRate_shape n sub period amount mk; rw [h]
@[simp] theorem Dev.raiseRate_eph (d : Dev) (n sub period amount : Nat) (mk : Nat → Nat) : (d.raiseRate n sub period amount mk).eph = d.eph := by obtain ⟨_, _, _, h⟩ := d.raiseRate_shape n sub period amount mk; rw [h]
@[simp] theorem Dev.raiseRate_lane (d : Dev) (n sub period amount : Nat) (mk : Nat → Nat) : (d.raiseRate n sub period amount mk).lane = d.lane := by obtain ⟨_, _, _, h⟩ := d.raiseRate_shape n sub period amount mk; rw [h]
@[simp] theorem Dev.raiseRate_port (d : Dev) (n sub period amount : Nat) (mk : Nat → Nat) : (d.raiseRate n sub period amount mk).port = d.port := by obtain ⟨_, _, _, h⟩ := d.raiseRate_shape n sub period amount mk; rw [h]
@[simp] theorem Dev.raiseRate_arch (d : Dev) (n sub period amount : Nat) (mk : Nat → Nat) : (d.raiseRate n sub period amount mk).arch = d.arch := by obtain ⟨_, _, _, h⟩ := d.raiseRate_shape n sub period amount mk; rw [h]
@[simp] theorem Dev.raiseRate_dma (d : Dev) (n sub period amount : Nat) (mk : Nat → Nat) : (d.raiseRate n sub period amount mk).dma = d.dma := by obtain ⟨_, _, _, h⟩ := d.raiseRate_shape n sub period amount mk; rw [h]
@[simp] theorem Dev.raiseRate_tra (d : Dev) (n sub period amount : Nat) (mk : Nat → Nat) : (d.raiseRate n sub period amount mk).tra = d.tra := by obtain ⟨_, _, _, h⟩ := d.raiseRate_shape n sub period amount mk; rw [h]
@[simp] theorem Dev.raiseRate_ses (d : Dev) (n sub period amount : Nat) (mk : Nat → Nat) : (d.raiseRate n sub period amount mk).ses = d.ses := by obtain ⟨_, _, _, h⟩ := d.raiseRate_shape n sub period amount mk; rw [h]
@[simp] theorem Dev.raiseRate_fld (d : Dev) (n sub period amount : Nat) (mk : Nat → Nat) : (d.raiseRate n sub period amount mk).fld = d.fld := by obtain ⟨_, _, _, h⟩ := d.raiseRate_shape n sub period amount mk; rw [h]
@[simp] theorem Dev.raiseRate_cha (d : Dev) (n sub period amount : Nat) (mk : Nat → Nat) : (d.raiseRate n sub period amount mk).cha = d.cha := by obtain ⟨_, _, _, h⟩ := d.raiseRate_shape n sub period amount mk; rw [h]
@[simp] theorem Dev.raiseRate_fus (d : Dev) (n sub period amount : Nat) (mk : Nat → Nat) : (d.raiseRate n sub period amount mk).fus = d.fus := by obtain ⟨_, _, _, h⟩ := d.raiseRate_shape n sub period amount mk; rw [h]
@[simp] theorem Dev.raiseRate_aud (d : Dev) (n sub period amount : Nat) (mk : Nat → Nat) : (d.raiseRate n sub period amount mk).aud = d.aud := by obtain ⟨_, _, _, h⟩ := d.raiseRate_shape n sub period amount mk; rw [h]
@[simp] theorem Dev.raiseRate_upd (d : Dev) (n sub period amount : Nat) (mk : Nat → Nat) : (d.raiseRate n sub period amount mk).upd = d.upd := by obtain ⟨_, _, _, h⟩ := d.raiseRate_shape n sub period amount mk; rw [h]
@[simp] theorem Dev.raiseRate_rip (d : Dev) (n sub period amount : Nat) (mk : Nat → Nat) : (d.raiseRate n sub period amount mk).rip = d.rip := by obtain ⟨_, _, _, h⟩ := d.raiseRate_shape n sub period amount mk; rw [h]
@[simp] theorem Dev.raiseRate_bg (d : Dev) (n sub period amount : Nat) (mk : Nat → Nat) : (d.raiseRate n sub period amount mk).bg = d.bg := by obtain ⟨_, _, _, h⟩ := d.raiseRate_shape n sub period amount mk; rw [h]
@[simp] theorem Dev.raiseRate_mgmt (d : Dev) (n sub period amount : Nat) (mk : Nat → Nat) : (d.raiseRate n sub period amount mk).mgmt = d.mgmt := by obtain ⟨_, _, _, h⟩ := d.raiseRate_shape n sub period amount mk; rw [h]
@[simp] theorem Dev.raiseRate_telem (d : Dev) (n sub period amount : Nat) (mk : Nat → Nat) : (d.raiseRate n sub period amount mk).telem = d.telem := by obtain ⟨_, _, _, h⟩ := d.raiseRate_shape n sub period amount mk; rw [h]

@[simp] theorem Dev.wList_clk (d : Dev) (k : Nat) (vs : List Nat) : (d.wList k vs).clk = d.clk := by obtain ⟨_, h⟩ := d.wList_shape k vs; rw [h]
@[simp] theorem Dev.wList_aux (d : Dev) (k : Nat) (vs : List Nat) : (d.wList k vs).aux = d.aux := by obtain ⟨_, h⟩ := d.wList_shape k vs; rw [h]
@[simp] theorem Dev.wList_edge (d : Dev) (k : Nat) (vs : List Nat) : (d.wList k vs).edge = d.edge := by obtain ⟨_, h⟩ := d.wList_shape k vs; rw [h]
@[simp] theorem Dev.wList_out (d : Dev) (k : Nat) (vs : List Nat) : (d.wList k vs).out = d.out := by obtain ⟨_, h⟩ := d.wList_shape k vs; rw [h]
@[simp] theorem Dev.wList_flush (d : Dev) (k : Nat) (vs : List Nat) : (d.wList k vs).flush = d.flush := by obtain ⟨_, h⟩ := d.wList_shape k vs; rw [h]
@[simp] theorem Dev.wList_pwr (d : Dev) (k : Nat) (vs : List Nat) : (d.wList k vs).pwr = d.pwr := by obtain ⟨_, h⟩ := d.wList_shape k vs; rw [h]
@[simp] theorem Dev.wList_rx (d : Dev) (k : Nat) (vs : List Nat) : (d.wList k vs).rx = d.rx := by obtain ⟨_, h⟩ := d.wList_shape k vs; rw [h]
@[simp] theorem Dev.wList_cat (d : Dev) (k : Nat) (vs : List Nat) : (d.wList k vs).cat = d.cat := by obtain ⟨_, h⟩ := d.wList_shape k vs; rw [h]
@[simp] theorem Dev.wList_ul (d : Dev) (k : Nat) (vs : List Nat) : (d.wList k vs).ul = d.ul := by obtain ⟨_, h⟩ := d.wList_shape k vs; rw [h]
@[simp] theorem Dev.wList_sen (d : Dev) (k : Nat) (vs : List Nat) : (d.wList k vs).sen = d.sen := by obtain ⟨_, h⟩ := d.wList_shape k vs; rw [h]
@[simp] theorem Dev.wList_dl (d : Dev) (k : Nat) (vs : List Nat) : (d.wList k vs).dl = d.dl := by obtain ⟨_, h⟩ := d.wList_shape k vs; rw [h]
@[simp] theorem Dev.wList_syn (d : Dev) (k : Nat) (vs : List Nat) : (d.wList k vs).syn = d.syn := by obtain ⟨_, h⟩ := d.wList_shape k vs; rw [h]
@[simp] theorem Dev.wList_coex (d : Dev) (k : Nat) (vs : List Nat) : (d.wList k vs).coex = d.coex := by obtain ⟨_, h⟩ := d.wList_shape k vs; rw [h]
@[simp] theorem Dev.wList_dpd (d : Dev) (k : Nat) (vs : List Nat) : (d.wList k vs).dpd = d.dpd := by obtain ⟨_, h⟩ := d.wList_shape k vs; rw [h]
@[simp] theorem Dev.wList_col (d : Dev) (k : Nat) (vs : List Nat) : (d.wList k vs).col = d.col := by obtain ⟨_, h⟩ := d.wList_shape k vs; rw [h]
@[simp] theorem Dev.wList_bias (d : Dev) (k : Nat) (vs : List Nat) : (d.wList k vs).bias = d.bias := by obtain ⟨_, h⟩ := d.wList_shape k vs; rw [h]
@[simp] theorem Dev.wList_hk (d : Dev) (k : Nat) (vs : List Nat) : (d.wList k vs).hk = d.hk := by obtain ⟨_, h⟩ := d.wList_shape k vs; rw [h]
@[simp] theorem Dev.wList_thm (d : Dev) (k : Nat) (vs : List Nat) : (d.wList k vs).thm = d.thm := by obtain ⟨_, h⟩ := d.wList_shape k vs; rw [h]
@[simp] theorem Dev.wList_shutRec (d : Dev) (k : Nat) (vs : List Nat) : (d.wList k vs).shutRec = d.shutRec := by obtain ⟨_, h⟩ := d.wList_shape k vs; rw [h]
@[simp] theorem Dev.wList_shutLog (d : Dev) (k : Nat) (vs : List Nat) : (d.wList k vs).shutLog = d.shutLog := by obtain ⟨_, h⟩ := d.wList_shape k vs; rw [h]
@[simp] theorem Dev.wList_nvm (d : Dev) (k : Nat) (vs : List Nat) : (d.wList k vs).nvm = d.nvm := by obtain ⟨_, h⟩ := d.wList_shape k vs; rw [h]
@[simp] theorem Dev.wList_tim (d : Dev) (k : Nat) (vs : List Nat) : (d.wList k vs).tim = d.tim := by obtain ⟨_, h⟩ := d.wList_shape k vs; rw [h]
@[simp] theorem Dev.wList_eph (d : Dev) (k : Nat) (vs : List Nat) : (d.wList k vs).eph = d.eph := by obtain ⟨_, h⟩ := d.wList_shape k vs; rw [h]
@[simp] theorem Dev.wList_lane (d : Dev) (k : Nat) (vs : List Nat) : (d.wList k vs).lane = d.lane := by obtain ⟨_, h⟩ := d.wList_shape k vs; rw [h]
@[simp] theorem Dev.wList_port (d : Dev) (k : Nat) (vs : List Nat) : (d.wList k vs).port = d.port := by obtain ⟨_, h⟩ := d.wList_shape k vs; rw [h]
@[simp] theorem Dev.wList_arch (d : Dev) (k : Nat) (vs : List Nat) : (d.wList k vs).arch = d.arch := by obtain ⟨_, h⟩ := d.wList_shape k vs; rw [h]
@[simp] theorem Dev.wList_dma (d : Dev) (k : Nat) (vs : List Nat) : (d.wList k vs).dma = d.dma := by obtain ⟨_, h⟩ := d.wList_shape k vs; rw [h]
@[simp] theorem Dev.wList_tra (d : Dev) (k : Nat) (vs : List Nat) : (d.wList k vs).tra = d.tra := by obtain ⟨_, h⟩ := d.wList_shape k vs; rw [h]
@[simp] theorem Dev.wList_ses (d : Dev) (k : Nat) (vs : List Nat) : (d.wList k vs).ses = d.ses := by obtain ⟨_, h⟩ := d.wList_shape k vs; rw [h]
@[simp] theorem Dev.wList_fld (d : Dev) (k : Nat) (vs : List Nat) : (d.wList k vs).fld = d.fld := by obtain ⟨_, h⟩ := d.wList_shape k vs; rw [h]
@[simp] theorem Dev.wList_cha (d : Dev) (k : Nat) (vs : List Nat) : (d.wList k vs).cha = d.cha := by obtain ⟨_, h⟩ := d.wList_shape k vs; rw [h]
@[simp] theorem Dev.wList_fus (d : Dev) (k : Nat) (vs : List Nat) : (d.wList k vs).fus = d.fus := by obtain ⟨_, h⟩ := d.wList_shape k vs; rw [h]
@[simp] theorem Dev.wList_aud (d : Dev) (k : Nat) (vs : List Nat) : (d.wList k vs).aud = d.aud := by obtain ⟨_, h⟩ := d.wList_shape k vs; rw [h]
@[simp] theorem Dev.wList_upd (d : Dev) (k : Nat) (vs : List Nat) : (d.wList k vs).upd = d.upd := by obtain ⟨_, h⟩ := d.wList_shape k vs; rw [h]
@[simp] theorem Dev.wList_rip (d : Dev) (k : Nat) (vs : List Nat) : (d.wList k vs).rip = d.rip := by obtain ⟨_, h⟩ := d.wList_shape k vs; rw [h]
@[simp] theorem Dev.wList_bg (d : Dev) (k : Nat) (vs : List Nat) : (d.wList k vs).bg = d.bg := by obtain ⟨_, h⟩ := d.wList_shape k vs; rw [h]
@[simp] theorem Dev.wList_mgmt (d : Dev) (k : Nat) (vs : List Nat) : (d.wList k vs).mgmt = d.mgmt := by obtain ⟨_, h⟩ := d.wList_shape k vs; rw [h]
@[simp] theorem Dev.wList_telem (d : Dev) (k : Nat) (vs : List Nat) : (d.wList k vs).telem = d.telem := by obtain ⟨_, h⟩ := d.wList_shape k vs; rw [h]

end Sys2Proof.Machine
end

