-- ==== Sys2Proof/Laws/Ops.lean ====
section
/-!
SUPPORT. What reading a parameter gives after each shared operation, and which events stand after one is raised.
-/

namespace Sys2Proof.Machine

/-! ### Parameters -/

/-- Read after write of a parameter. -/
theorem Dev.a_w (d : Dev) (k v j : Nat) : (d.w k v).a j = if k = j then v else d.a j := by
  unfold Dev.w Dev.a
  by_cases hv : v = dfltOf k
  · rw [if_pos hv]
    simp only [NMap.get?_del]
    by_cases hk : k = j
    · subst hk; simp [hv]
    · simp [hk]
  · rw [if_neg hv]
    simp only [NMap.get?_set]
    by_cases hk : k = j
    · subst hk; simp
    · simp [hk]

@[simp] theorem Dev.a_w_self (d : Dev) (k v : Nat) : (d.w k v).a k = v := by rw [Dev.a_w, if_pos rfl]

theorem Dev.a_w_ne (d : Dev) {k j : Nat} (v : Nat) (h : k ≠ j) : (d.w k v).a j = d.a j := by rw [Dev.a_w, if_neg h]

@[simp] theorem Dev.a_wx (d : Dev) (k v j : Nat) : (d.wx k v).a j = d.a j := rfl

@[simp] theorem Dev.a_emit (d : Dev) (o : Out) (j : Nat) : (d.emit o).a j = d.a j := rfl

/-- A counter that stays within its width holds its old value and what was added. -/
theorem Dev.a_add_lt (d : Dev) (k n : Nat) (h : d.a k + n < 2 ^ keyBits k) : (d.add k n).a k = d.a k + n := by
  simp only [Dev.add, if_pos h, Dev.a_w_self]

/-- A saturating counter stays at its maximum. -/
theorem Dev.a_add_sat (d : Dev) (k n : Nat) (h : ¬ d.a k + n < 2 ^ keyBits k) (hs : saturates k = true) :
    (d.add k n).a k = 2 ^ keyBits k - 1 := by
  simp only [Dev.add, if_neg h, if_pos hs, Dev.a_w_self]

theorem Dev.a_add_ne (d : Dev) {k j : Nat} (n : Nat) (h : k ≠ j) : (d.add k n).a j = d.a j := by
  by_cases h1 : d.a k + n < 2 ^ keyBits k
  · simp only [Dev.add, if_pos h1, Dev.a_w_ne d _ h]
  · by_cases h2 : saturates k = true
    · simp only [Dev.add, if_neg h1, if_pos h2, Dev.a_w_ne d _ h]
    · simp only [Dev.add, if_neg h1, if_neg h2, Dev.a_w_ne d _ h]

theorem Dev.a_inc_lt (d : Dev) (k : Nat) (h : d.a k + 1 < 2 ^ keyBits k) : (d.inc k).a k = d.a k + 1 := d.a_add_lt k 1 h

theorem Dev.a_inc_ne (d : Dev) {k j : Nat} (h : k ≠ j) : (d.inc k).a j = d.a j := d.a_add_ne 1 h

/-! ### Events -/

theorem evKey_seq : evKey P.eventSeq = true := by simp [evKey]

theorem evKey_count {n : Nat} (h : n < 128) : evKey (P.eventCount + n) = true := by
  simp [evKey, show P.eventCount ≤ P.eventCount + n from Nat.le_add_right _ _, h]

theorem evKey_pending {n : Nat} (h : n < 16) : evKey (P.eventPending + n) = true := by
  simp [evKey, show P.eventPending ≤ P.eventPending + n from Nat.le_add_right _ _, h]

theorem evKey_drop {n : Nat} (h : n < 3) : evKey (P.eventDropCount + n) = true := by
  simp [evKey, show P.eventDropCount ≤ P.eventDropCount + n from Nat.le_add_right _ _, h]

theorem evKey_wrap : evKey P.eventLogWrapCount = true := by simp [evKey]

theorem evKey_discard : evKey P.nvmDeferredDiscardCount = true := by simp [evKey]

theorem evKey_injectDrop : evKey P.hkInjectDropCount = true := by simp [evKey]

theorem evKey_inject {n : Nat} (h : n < 4) : evKey (P.hkInjectState + n) = true := by
  simp [evKey, show P.hkInjectState ≤ P.hkInjectState + n from Nat.le_add_right _ _, h]

theorem ne_of_evKey {k j : Nat} (hk : evKey k = true) (hj : evKey j = false) : k ≠ j := by
  intro h
  rw [h, hj] at hk
  exact Bool.false_ne_true hk

theorem Dev.a_note (d : Dev) {n : Nat} (arg : Nat) {j : Nat} (hn : n < 128) (hj : evKey j = false) : (d.note n arg).a j = d.a j := by
  have h1 := ne_of_evKey evKey_seq hj
  have h2 := ne_of_evKey (evKey_count hn) hj
  have h3 : P.eventPending + n / 8 ≠ j := ne_of_evKey (evKey_pending (by omega)) hj
  by_cases hl : Dev.maskBit ((d.w P.eventSeq (if d.a P.eventSeq = 0xFFFFFFFF then 1 else d.a P.eventSeq + 1)).inc (P.eventCount + n))
      P.eventLatchMask n = true
  · simp only [Dev.note, if_pos hl]
    exact ((Dev.a_w_ne _ _ h3).trans (Dev.a_inc_ne _ h2)).trans (Dev.a_w_ne _ _ h1)
  · simp only [Dev.note, if_neg hl]
    exact (Dev.a_inc_ne _ h2).trans (Dev.a_w_ne _ _ h1)

theorem Dev.a_injectDrop (d : Dev) (i cause : Nat) {j : Nat} (hj : evKey j = false) : (d.injectDrop i cause).a j = d.a j :=
  ((d.inc P.hkInjectDropCount).a_note (i + 4 * cause) (by omega) hj).trans (d.a_inc_ne (ne_of_evKey evKey_injectDrop hj))

theorem Dev.a_injectTrigger (d : Dev) (mask : Nat) {j : Nat} (hj : evKey j = false) : (d.injectTrigger mask).a j = d.a j := by
  unfold Dev.injectTrigger
  have key : ∀ (l : List Nat), (∀ i ∈ l, i < 4) → ∀ d : Dev, (l.foldl (fun d i =>
      if !bit mask i || d.a (P.hkInjectState + i) != 1 then d
      else if !d.hk.running then d.injectDrop i 3
      else if d.a P.hkCalState = 2 then d.injectDrop i 2
      else if (List.range 4).any (fun j => d.a (P.hkInjectState + j) == 2) then d.injectDrop i 1
      else d.w (P.hkInjectState + i) 2) d).a j = d.a j := by
    intro l
    induction l with
    | nil => intros; rfl
    | cons i l ih =>
      intro hl d
      have hi : i < 4 := hl i (List.mem_cons_self ..)
      rw [List.foldl_cons, ih (fun x hx => hl x (List.mem_cons_of_mem _ hx))]
      by_cases h1 : (!bit mask i || d.a (P.hkInjectState + i) != 1) = true
      · rw [if_pos h1]
      · rw [if_neg h1]
        split
        · exact d.a_injectDrop i 3 hj
        · split
          · exact d.a_injectDrop i 2 hj
          · split
            · exact d.a_injectDrop i 1 hj
            · exact d.a_w_ne 2 (ne_of_evKey (evKey_inject hi) hj)
  exact key _ (by simp) d

/-- Raising an event changes no parameter but those of the records and of the injected slots. -/
theorem Dev.a_raise (d : Dev) {n : Nat} (arg : Nat) {j : Nat} (hn : n < 128) (hj : evKey j = false) : (d.raise n arg).a j = d.a j := by
  by_cases hm : (d.note n arg).injectOn n = 0
  · simp only [Dev.raise, if_pos hm]; exact d.a_note arg hn hj
  · simp only [Dev.raise, if_neg hm]; exact (Dev.a_injectTrigger _ _ hj).trans (d.a_note arg hn hj)

theorem Dev.a_raiseRate (d : Dev) {n : Nat} (sub period amount : Nat) (mk : Nat → Nat) {j : Nat} (hn : n < 128) (hj : evKey j = false) :
    (d.raiseRate n sub period amount mk).a j = d.a j := by
  by_cases hr : d.x (rateKey n sub) = 0 ∨ d.x (rateKey n sub) - 1 + period ≤ d.now
  · simp only [Dev.raiseRate, if_pos hr]
    exact (Dev.a_raise _ _ hn hj).trans (by simp)
  · simp only [Dev.raiseRate, if_neg hr]
    simp

theorem mem_insertBy {α : Type} (key : α → Nat) (x y : α) (l : List α) : y ∈ insertBy key x l ↔ y = x ∨ y ∈ l := by
  induction l with
  | nil => simp [insertBy]
  | cons a l ih =>
    simp only [insertBy]
    split
    · simp
    · simp only [List.mem_cons, ih]; tauto

theorem Dev.raised_note (d : Dev) (n arg : Nat) : Raised (d.note n arg) n arg := by
  unfold Raised Dev.note
  exact ⟨_, (mem_insertBy _ _ _ _).mpr (Or.inl rfl), rfl, rfl⟩

theorem Dev.edge_note (d : Dev) (n arg : Nat) {e : Ev} (h : e ∈ d.edge) : e ∈ (d.note n arg).edge := by
  refine (mem_insertBy _ _ _ _).mpr (Or.inr ?_)
  by_cases hl : Dev.maskBit ((d.w P.eventSeq (if d.a P.eventSeq = 0xFFFFFFFF then 1 else d.a P.eventSeq + 1)).inc (P.eventCount + n))
      P.eventLatchMask n = true
  · rw [if_pos hl]; simpa using h
  · rw [if_neg hl]; simpa using h

theorem Dev.edge_injectDrop (d : Dev) (i c : Nat) {e : Ev} (h : e ∈ d.edge) : e ∈ (d.injectDrop i c).edge := by
  unfold Dev.injectDrop
  exact Dev.edge_note _ _ _ (by simpa using h)

theorem Dev.edge_injectTrigger (d : Dev) (mask : Nat) {e : Ev} (h : e ∈ d.edge) : e ∈ (d.injectTrigger mask).edge := by
  refine foldl_keeps (fun a b : Dev => e ∈ a.edge → e ∈ b.edge) (fun _ h => h) (fun _ _ _ f g h => g (f h)) _ ?_ _ d h
  intro d i h
  by_cases h1 : (!bit mask i || d.a (P.hkInjectState + i) != 1) = true
  · rw [if_pos h1]; exact h
  · rw [if_neg h1]
    split
    · exact d.edge_injectDrop i 3 h
    · split
      · exact d.edge_injectDrop i 2 h
      · split
        · exact d.edge_injectDrop i 1 h
        · exact h

theorem Dev.edge_raise (d : Dev) (n arg : Nat) {e : Ev} (h : e ∈ d.edge) : e ∈ (d.raise n arg).edge := by
  by_cases hm : (d.note n arg).injectOn n = 0
  · simp only [Dev.raise, if_pos hm]; exact d.edge_note n arg h
  · simp only [Dev.raise, if_neg hm]; exact Dev.edge_injectTrigger _ _ (d.edge_note n arg h)

/-- What is raised stands on the edge. -/
theorem Dev.raised_raise (d : Dev) (n arg : Nat) : Raised (d.raise n arg) n arg := by
  obtain ⟨e, he, h⟩ := d.raised_note n arg
  by_cases hm : (d.note n arg).injectOn n = 0
  · simp only [Dev.raise, if_pos hm]; exact ⟨e, he, h⟩
  · simp only [Dev.raise, if_neg hm]; exact ⟨e, Dev.edge_injectTrigger _ _ he, h⟩

theorem Raised.raise {d : Dev} {n arg : Nat} (h : Raised d n arg) (n' arg' : Nat) : Raised (d.raise n' arg') n arg := by
  obtain ⟨e, he, h⟩ := h
  exact ⟨e, d.edge_raise n' arg' he, h⟩

/-- What was raised stands as long as the events of the edge do. -/
theorem Raised.of_edge {d d' : Dev} {n arg : Nat} (h : Raised d n arg) (he : d'.edge = d.edge) : Raised d' n arg := by
  unfold Raised at *
  rw [he]; exact h

/-- An event of a limited rate is raised where none was for the period. -/
theorem Dev.raised_raiseRate (d : Dev) (n sub period amount : Nat) (mk : Nat → Nat)
    (h : d.x (rateKey n sub) = 0 ∨ d.x (rateKey n sub) - 1 + period ≤ d.now) :
    Raised (d.raiseRate n sub period amount mk) n (mk (d.x (rateKey n sub + 1) + amount)) := by
  simp only [Dev.raiseRate, if_pos h]
  exact Dev.raised_raise _ _ _

theorem Dev.iff_true (d : Dev) (f : Dev → Dev) : d.iff true f = f d := rfl

theorem Dev.iff_false (d : Dev) (f : Dev → Dev) : d.iff false f = d := rfl

/-- What each step of a loop keeps, the loop keeps. -/
theorem Dev.each_keeps {α β : Type} (g : Dev → β) (l : List α) (f : α → Dev → Dev) (h : ∀ x d, g (f x d) = g d) (d : Dev) :
    g (d.each l f) = g d := by
  unfold Dev.each
  induction l generalizing d with
  | nil => rfl
  | cons x l ih => rw [List.foldl_cons, ih, h]

end Sys2Proof.Machine
end

