-- ==== Sys2Proof/Laws/Frame.lean ====
section
/-!
SUPPORT. The frame every command runs in: what arriving at its instant and leaving it changes beside the command's own effect, and
that each of the four frames keeps the good states.
-/

namespace Sys2Proof.Machine

/-! ### Records on their way to the places -/

/-- Delivering records changes nothing of the device but the parameters of `evKey` and the use of the deferral buffer. -/
def Dev.Drops (d d' : Dev) : Prop :=
  (∃ m n, d' = { d with alm := m, nvm := n }) ∧ ∀ k, evKey k = false → d'.a k = d.a k

theorem Dev.Drops.refl (d : Dev) : d.Drops d := ⟨⟨_, _, rfl⟩, fun _ _ => rfl⟩

theorem Dev.Drops.trans {a b c : Dev} (h : a.Drops b) (g : b.Drops c) : a.Drops c := by
  obtain ⟨⟨m, n, rfl⟩, h⟩ := h
  obtain ⟨⟨m', n', rfl⟩, g⟩ := g
  exact ⟨⟨_, _, rfl⟩, fun k hk => (g k hk).trans (h k hk)⟩

theorem Dev.Drops.add (d : Dev) {k : Nat} (n : Nat) (hk : evKey k = true) : d.Drops (d.add k n) := by
  obtain ⟨m, h⟩ := d.add_shape k n
  exact ⟨⟨m, d.nvm, h⟩, fun j hj => d.a_add_ne n (ne_of_evKey hk hj)⟩

theorem Dev.Drops.iff (d : Dev) (c : Bool) (f : Dev → Dev) (h : ∀ d : Dev, d.Drops (f d)) : d.Drops (d.iff c f) := by
  cases c
  · exact Dev.Drops.refl d
  · exact h d

theorem Dev.Drops.nvm (d : Dev) (n : Nvm) : d.Drops { d with nvm := n } := ⟨⟨_, _, rfl⟩, fun _ _ => rfl⟩

theorem evKey_drop0 : evKey P.eventDropCount = true := evKey_drop (n := 0) (by omega)

theorem placeOne_drops (dp : Dev × Places) (e : Ev) : dp.1.Drops (placeOne dp e).1 := by
  obtain ⟨d, p⟩ := dp
  unfold placeOne
  simp only []
  refine Dev.Drops.trans ?_ (Dev.Drops.iff _ _ _ (fun d => Dev.Drops.add d 1 evKey_wrap))
  refine Dev.Drops.trans ?_ (Dev.Drops.iff _ _ _ (fun d => Dev.Drops.nvm d _))
  refine Dev.Drops.trans ?_ (Dev.Drops.iff _ _ _ (fun d => Dev.Drops.add d 1 evKey_discard))
  refine Dev.Drops.trans ?_ (Dev.Drops.iff _ _ _ (fun d => Dev.Drops.add d 1 (evKey_drop (n := 1) (by omega))))
  exact Dev.Drops.iff _ _ _ (fun d => Dev.Drops.add d 1 evKey_drop0)

theorem deliver_drops (dp : Dev × Places) (e : Ev) : dp.1.Drops (deliver dp e).1 := by
  unfold deliver
  split
  · exact Dev.Drops.iff _ _ _ (fun d => Dev.Drops.add d 1 (evKey_drop (n := 2) (by omega)))
  · exact placeOne_drops dp e

theorem foldl_drops (f : Dev × Places → Ev → Dev × Places) (h : ∀ (dp : Dev × Places) (e : Ev), dp.1.Drops (f dp e).1) (l : List Ev) (dp : Dev × Places) :
    dp.1.Drops (l.foldl f dp).1 :=
  foldl_keeps (fun a b : Dev × Places => a.1.Drops b.1) (fun a => Dev.Drops.refl a.1) (fun _ _ _ h g => h.trans g) f h l dp

/-- Reporting a deferral changes nothing of the device but events and the deferral buffer's account. -/
theorem tellDefer_drops (d : Dev) : Dev.Drops { d with edge := [] } { d.tellDefer with edge := [] } := by
  unfold Dev.tellDefer
  cases !d.nvm.told
  · exact Dev.Drops.refl _
  · obtain ⟨m, e, h⟩ := ({ d with nvm := { d.nvm with told := true } } : Dev).raise_shape 70 (ux 12 (d.thm.junction.getD 0))
    refine ⟨⟨m, { d.nvm with told := true }, ?_⟩, fun k hk => ?_⟩
    · simp only [Dev.iff, if_true, h]
    · exact Dev.a_raise (n := 70) ({ d with nvm := { d.nvm with told := true } } : Dev) _ (by omega) hk

theorem logDefer_drops (d : Dev) : Dev.Drops { d with edge := [] } { d.logDefer with edge := [] } := by
  unfold Dev.logDefer
  cases d.nvm.deferring && (d.nvm.count != 0 || d.edge.any (fun e => e.log && !e.deep))
  · exact Dev.Drops.refl _
  · exact tellDefer_drops d

/-- Closing the edge empties it, and otherwise only delivers. -/
theorem closeEdge_drops (d : Dev) (p : Places) : Dev.Drops { d with edge := [] } (closeEdge d p).1 := by
  unfold closeEdge
  exact (logDefer_drops d).trans (foldl_drops deliver deliver_drops _ _)

theorem passDeep_drops (d : Dev) (p : Places) : d.Drops (passDeep d p).1 := by
  unfold passDeep
  exact foldl_drops placeOne placeOne_drops _ _

theorem settlePlaces_drops (d : Dev) (p : Places) : Dev.Drops { d with flush := 0 } (settlePlaces d p).1 := by
  unfold settlePlaces
  split
  · unfold emptyQueues
    exact (Dev.Drops.add _ _ evKey_drop0).trans (Dev.Drops.add _ _ (evKey_drop (n := 1) (by omega)))
  · exact passDeep_drops _ _
  · unfold resetPlaces
    exact Dev.Drops.nvm _ _
  · exact Dev.Drops.refl _

/-! ### The sizes of the places -/

theorem length_keepLast {α : Type} (n : Nat) (l : List α) : (keepLast n l).length ≤ n := by
  unfold keepLast; simp only [List.length_drop]; omega

theorem length_keepLast_le {α : Type} (n : Nat) (l : List α) : (keepLast n l).length ≤ l.length := by
  unfold keepLast; simp only [List.length_drop]; omega

theorem length_pushCap (cap : Nat) (q : List Ev) (e : Ev) (h : q.length ≤ cap) : (pushCap cap q e).1.length ≤ cap := by
  unfold pushCap
  split
  · simp only [List.length_append, List.length_singleton]; omega
  · exact h

theorem Places.ok_iff (p : Places) : p.ok = true ↔ p.ml.length ≤ mlCap ∧ p.fieldQ.length ≤ fieldCap ∧ p.deep.length ≤ deepCap ∧
    p.recent.length ≤ recentCap ∧ p.log.length ≤ logCap ∧ p.log.length ≤ p.logged := by
  simp only [Places.ok, Bool.and_eq_true, decide_eq_true_eq]; tauto

theorem length_logged (b : Bool) (l : List Ev) (e : Ev) (h : l.length ≤ logCap) :
    (if b then keepLast logCap (l ++ [e]) else l).length ≤ logCap := by
  cases b
  · simpa using h
  · simp only [if_true]; exact length_keepLast logCap _

theorem length_logged_le (b : Bool) (l : List Ev) (e : Ev) (n : Nat) (h : l.length ≤ n) :
    (if b then keepLast logCap (l ++ [e]) else l).length ≤ (if b then n + 1 else n) := by
  cases b
  · simpa using h
  · simp only [if_true]
    refine (length_keepLast_le logCap _).trans ?_
    simp only [List.length_append, List.length_singleton]
    omega

theorem placeOne_ok (dp : Dev × Places) (e : Ev) (h : dp.2.ok = true) : (placeOne dp e).2.ok = true := by
  obtain ⟨d, p⟩ := dp
  rw [Places.ok_iff] at h ⊢
  obtain ⟨h1, h2, h3, h4, h5, h6⟩ := h
  unfold placeOne
  dsimp only
  refine ⟨?_, ?_, h3, length_keepLast _ _, ?_, ?_⟩
  · cases e.ml
    · exact h1
    · exact length_pushCap _ _ _ h1
  · cases e.fieldP
    · exact h2
    · exact length_pushCap _ _ _ h2
  · exact length_logged _ _ _ h5
  · exact length_logged_le _ _ _ _ h6

theorem deliver_ok (dp : Dev × Places) (e : Ev) (h : dp.2.ok = true) : (deliver dp e).2.ok = true := by
  unfold deliver
  split
  · rw [Places.ok_iff] at h ⊢
    exact ⟨h.1, h.2.1, length_pushCap _ _ _ h.2.2.1, h.2.2.2⟩
  · exact placeOne_ok dp e h

theorem foldl_ok (f : Dev × Places → Ev → Dev × Places) (h : ∀ dp e, dp.2.ok = true → (f dp e).2.ok = true) (l : List Ev)
    (dp : Dev × Places) (w : dp.2.ok = true) : (l.foldl f dp).2.ok = true := by
  induction l generalizing dp with
  | nil => exact w
  | cons e l ih => exact ih (f dp e) (h dp e w)

theorem closeEdge_ok (d : Dev) (p : Places) (h : p.ok = true) : (closeEdge d p).2.ok = true := by
  unfold closeEdge
  exact foldl_ok deliver deliver_ok _ _ h

theorem settlePlaces_ok (d : Dev) (p : Places) (h : p.ok = true) : (settlePlaces d p).2.ok = true := by
  have h' := (Places.ok_iff p).mp h
  unfold settlePlaces
  split
  · unfold emptyQueues
    rw [Places.ok_iff]
    exact ⟨Nat.zero_le _, Nat.zero_le _, h'.2.2⟩
  · unfold passDeep
    refine foldl_ok placeOne placeOne_ok _ _ ?_
    rw [Places.ok_iff]
    exact ⟨h'.1, h'.2.1, Nat.zero_le _, h'.2.2.2⟩
  · unfold resetPlaces
    rw [Places.ok_iff]
    refine ⟨Nat.zero_le _, Nat.zero_le _, Nat.zero_le _, Nat.zero_le _, ?_, ?_⟩
    · dsimp only
      split
      · simp only [List.length_take]; omega
      · exact h'.2.2.2.2.1
    · dsimp only
      split
      · simp only [List.length_take]; omega
      · exact h'.2.2.2.2.2
  · exact h

/-! ### Arriving and leaving -/

/-- The device at the instant a command acts: the clocks have moved on, the events of earlier edges are delivered and what left
before is forgotten; nothing else has changed. -/
theorem State.arrive_shape (s : State) (dt : Nat) :
    (∃ m n c e, (s.arrive dt).dev = { s.dev with alm := m, nvm := n, clk := c, edge := e, out := [] }) ∧
      (∀ k, evKey k = false → (s.arrive dt).dev.a k = s.dev.a k) ∧ (s.arrive dt).mem = s.mem ∧ (s.arrive dt).pending = s.pending := by
  unfold State.arrive
  by_cases h : dt = 0
  · rw [if_pos h]; exact ⟨⟨_, _, _, _, rfl⟩, fun _ _ => rfl, rfl, rfl⟩
  · rw [if_neg h]
    obtain ⟨⟨m, n, hd⟩, ha⟩ := closeEdge_drops { s.dev with out := [] } s.places
    refine ⟨?_, ?_, rfl, rfl⟩
    · dsimp only
      rw [hd]
      unfold Dev.advance
      dsimp only
      split <;> exact ⟨_, _, _, _, rfl⟩
    · intro k hk
      have := ha k hk
      dsimp only
      rw [hd] at this ⊢
      unfold Dev.advance
      dsimp only
      split <;> exact this

/-- The state a command leaves differs from what it made in what delivering and emptying the places moves. -/
theorem State.leave_shape (s : State) (d : Dev) (mem : Memory) :
    (∃ m n, (s.leave d mem).dev = { d with alm := m, nvm := n, flush := 0 }) ∧
      (∀ k, evKey k = false → (s.leave d mem).dev.a k = d.a k) ∧ (s.leave d mem).mem = mem ∧ (s.leave d mem).pending = s.pending := by
  obtain ⟨⟨m, n, hd⟩, ha⟩ := settlePlaces_drops d s.places
  exact ⟨⟨m, n, hd⟩, ha, rfl, rfl⟩

theorem State.arrive_a (s : State) (dt : Nat) {k : Nat} (hk : evKey k = false) : (s.arrive dt).dev.a k = s.dev.a k :=
  (s.arrive_shape dt).2.1 k hk

theorem State.leave_a (s : State) (d : Dev) (mem : Memory) {k : Nat} (hk : evKey k = false) : (s.leave d mem).dev.a k = d.a k :=
  (s.leave_shape d mem).2.1 k hk

@[simp] theorem State.arrive_mem (s : State) (dt : Nat) : (s.arrive dt).mem = s.mem := (s.arrive_shape dt).2.2.1

@[simp] theorem State.arrive_pending (s : State) (dt : Nat) : (s.arrive dt).pending = s.pending := (s.arrive_shape dt).2.2.2

@[simp] theorem State.leave_mem (s : State) (d : Dev) (mem : Memory) : (s.leave d mem).mem = mem := rfl

@[simp] theorem State.leave_pending (s : State) (d : Dev) (mem : Memory) : (s.leave d mem).pending = s.pending := rfl

theorem State.leave_raised (s : State) (d : Dev) (mem : Memory) (n arg : Nat) : Raised (s.leave d mem).dev n arg ↔ Raised d n arg := by
  obtain ⟨⟨m, x, h⟩, _⟩ := s.leave_shape d mem
  rw [h]; exact Iff.rfl

/-- A command whose effect asks nothing of the places leaves the device as made. -/
theorem State.leave_dev (s : State) (d : Dev) (mem : Memory) (h : d.flush = 0) : (s.leave d mem).dev = d := by
  obtain ⟨⟩ := d
  cases h
  rfl

theorem State.leave_places (s : State) (d : Dev) (mem : Memory) (h : d.flush = 0) : (s.leave d mem).places = s.places := by
  obtain ⟨⟩ := d
  cases h
  rfl

@[simp] theorem State.arrive_out (s : State) (dt : Nat) : (s.arrive dt).dev.out = [] := by
  obtain ⟨⟨_, _, _, _, h⟩, _⟩ := s.arrive_shape dt
  rw [h]

theorem State.arrive_inv (s : State) (dt : Nat) (h : s.Inv) : (s.arrive dt).Inv := by
  obtain ⟨hm, hp, hf⟩ := h
  obtain ⟨⟨_, _, _, _, hd⟩, _⟩ := s.arrive_shape dt
  refine ⟨by simpa using hm, ?_, by rw [hd]; exact hf⟩
  unfold State.arrive
  split
  · exact hp
  · exact closeEdge_ok _ _ hp

theorem State.leave_inv (s : State) (d : Dev) (mem : Memory) (hm : mem.wf = true) (hp : s.places.ok = true) : (s.leave d mem).Inv := by
  obtain ⟨⟨_, _, h⟩, _⟩ := s.leave_shape d mem
  exact ⟨hm, settlePlaces_ok _ _ hp, by rw [h]⟩

/-! ### The four frames -/

/-- A command on the device alone: it always completes, and memory and the queue stand as they were. -/
theorem onDev_next (dt : Nat) (f : Dev → Dev) (s : State) :
    onDev dt f s = .next ((s.arrive dt).leave (f (s.arrive dt).dev) s.mem) := by
  rw [onDev, State.arrive_mem]

theorem onMem_next (dt : Nat) (f : Dev → Memory → Dev × List MemOp) (s : State) :
    onMem dt f s = .next ((s.arrive dt).leave (f (s.arrive dt).dev s.mem).1 (s.mem.applyAll (f (s.arrive dt).dev s.mem).2)) := by
  unfold onMem
  simp only [State.arrive_mem]

theorem onAll_next (dt : Nat) (f : Dev → Memory → Places → Dev × List MemOp) (s : State) :
    onAll dt f s = .next ((s.arrive dt).leave (f (s.arrive dt).dev s.mem (s.arrive dt).places).1
      (s.mem.applyAll (f (s.arrive dt).dev s.mem (s.arrive dt).places).2)) := by
  unfold onAll
  simp only [State.arrive_mem]

theorem onDev_inv {dt : Nat} {f : Dev → Dev} {s t : State} (h : s.Inv) (ht : onDev dt f s = .next t) : t.Inv ∧ t.pending = s.pending := by
  rw [onDev_next] at ht
  cases ht
  exact ⟨State.leave_inv _ _ _ h.1 (s.arrive_inv dt h).2.1, by simp⟩

theorem onMem_inv {dt : Nat} {f : Dev → Memory → Dev × List MemOp} {s t : State} (h : s.Inv) (ht : onMem dt f s = .next t) :
    t.Inv ∧ t.pending = s.pending := by
  rw [onMem_next] at ht
  cases ht
  exact ⟨State.leave_inv _ _ _ (Memory.wf_applyAll h.1 _) (s.arrive_inv dt h).2.1, by simp⟩

theorem onAll_inv {dt : Nat} {f : Dev → Memory → Places → Dev × List MemOp} {s t : State} (h : s.Inv) (ht : onAll dt f s = .next t) :
    t.Inv ∧ t.pending = s.pending := by
  rw [onAll_next] at ht
  cases ht
  exact ⟨State.leave_inv _ _ _ (Memory.wf_applyAll h.1 _) (s.arrive_inv dt h).2.1, by simp⟩

theorem onPlaces_inv {dt : Nat} {mlN fieldN : Dev → Places → Nat} {f : Dev → Places → Dev} {s t : State} (h : s.Inv)
    (ht : onPlaces dt mlN fieldN f s = .next t) : t.Inv ∧ t.pending = s.pending := by
  unfold onPlaces at ht
  cases ht
  have hp := (Places.ok_iff _).mp (s.arrive_inv dt h).2.1
  refine ⟨State.leave_inv _ _ _ (by simpa using h.1) ?_, by simp⟩
  rw [Places.ok_iff]
  refine ⟨?_, ?_, hp.2.2⟩
  · simp only [List.length_drop]; omega
  · simp only [List.length_drop]; omega

/-! ### What arriving and leaving leave of each part of the device -/

@[simp] theorem State.leave_clk (s : State) (d : Dev) (m : Memory) : (s.leave d m).dev.clk = d.clk := by
  obtain ⟨⟨_, _, h⟩, _⟩ := s.leave_shape d m; rw [h]
@[simp] theorem State.arrive_aux (s : State) (dt : Nat) : (s.arrive dt).dev.aux = s.dev.aux := by
  obtain ⟨⟨_, _, _, _, h⟩, _⟩ := s.arrive_shape dt; rw [h]
@[simp] theorem State.leave_aux (s : State) (d : Dev) (m : Memory) : (s.leave d m).dev.aux = d.aux := by
  obtain ⟨⟨_, _, h⟩, _⟩ := s.leave_shape d m; rw [h]
@[simp] theorem State.leave_edge (s : State) (d : Dev) (m : Memory) : (s.leave d m).dev.edge = d.edge := by
  obtain ⟨⟨_, _, h⟩, _⟩ := s.leave_shape d m; rw [h]
@[simp] theorem State.leave_out (s : State) (d : Dev) (m : Memory) : (s.leave d m).dev.out = d.out := by
  obtain ⟨⟨_, _, h⟩, _⟩ := s.leave_shape d m; rw [h]
@[simp] theorem State.arrive_flush (s : State) (dt : Nat) : (s.arrive dt).dev.flush = s.dev.flush := by
  obtain ⟨⟨_, _, _, _, h⟩, _⟩ := s.arrive_shape dt; rw [h]
@[simp] theorem State.arrive_pwr (s : State) (dt : Nat) : (s.arrive dt).dev.pwr = s.dev.pwr := by
  obtain ⟨⟨_, _, _, _, h⟩, _⟩ := s.arrive_shape dt; rw [h]
@[simp] theorem State.leave_pwr (s : State) (d : Dev) (m : Memory) : (s.leave d m).dev.pwr = d.pwr := by
  obtain ⟨⟨_, _, h⟩, _⟩ := s.leave_shape d m; rw [h]
@[simp] theorem State.arrive_rx (s : State) (dt : Nat) : (s.arrive dt).dev.rx = s.dev.rx := by
  obtain ⟨⟨_, _, _, _, h⟩, _⟩ := s.arrive_shape dt; rw [h]
@[simp] theorem State.leave_rx (s : State) (d : Dev) (m : Memory) : (s.leave d m).dev.rx = d.rx := by
  obtain ⟨⟨_, _, h⟩, _⟩ := s.leave_shape d m; rw [h]
@[simp] theorem State.arrive_cat (s : State) (dt : Nat) : (s.arrive dt).dev.cat = s.dev.cat := by
  obtain ⟨⟨_, _, _, _, h⟩, _⟩ := s.arrive_shape dt; rw [h]
@[simp] theorem State.leave_cat (s : State) (d : Dev) (m : Memory) : (s.leave d m).dev.cat = d.cat := by
  obtain ⟨⟨_, _, h⟩, _⟩ := s.leave_shape d m; rw [h]
@[simp] theorem State.arrive_ul (s : State) (dt : Nat) : (s.arrive dt).dev.ul = s.dev.ul := by
  obtain ⟨⟨_, _, _, _, h⟩, _⟩ := s.arrive_shape dt; rw [h]
@[simp] theorem State.leave_ul (s : State) (d : Dev) (m : Memory) : (s.leave d m).dev.ul = d.ul := by
  obtain ⟨⟨_, _, h⟩, _⟩ := s.leave_shape d m; rw [h]
@[simp] theorem State.arrive_sen (s : State) (dt : Nat) : (s.arrive dt).dev.sen = s.dev.sen := by
  obtain ⟨⟨_, _, _, _, h⟩, _⟩ := s.arrive_shape dt; rw [h]
@[simp] theorem State.leave_sen (s : State) (d : Dev) (m : Memory) : (s.leave d m).dev.sen = d.sen := by
  obtain ⟨⟨_, _, h⟩, _⟩ := s.leave_shape d m; rw [h]
@[simp] theorem State.arrive_dl (s : State) (dt : Nat) : (s.arrive dt).dev.dl = s.dev.dl := by
  obtain ⟨⟨_, _, _, _, h⟩, _⟩ := s.arrive_shape dt; rw [h]
@[simp] theorem State.leave_dl (s : State) (d : Dev) (m : Memory) : (s.leave d m).dev.dl = d.dl := by
  obtain ⟨⟨_, _, h⟩, _⟩ := s.leave_shape d m; rw [h]
@[simp] theorem State.arrive_syn (s : State) (dt : Nat) : (s.arrive dt).dev.syn = s.dev.syn := by
  obtain ⟨⟨_, _, _, _, h⟩, _⟩ := s.arrive_shape dt; rw [h]
@[simp] theorem State.leave_syn (s : State) (d : Dev) (m : Memory) : (s.leave d m).dev.syn = d.syn := by
  obtain ⟨⟨_, _, h⟩, _⟩ := s.leave_shape d m; rw [h]
@[simp] theorem State.arrive_coex (s : State) (dt : Nat) : (s.arrive dt).dev.coex = s.dev.coex := by
  obtain ⟨⟨_, _, _, _, h⟩, _⟩ := s.arrive_shape dt; rw [h]
@[simp] theorem State.leave_coex (s : State) (d : Dev) (m : Memory) : (s.leave d m).dev.coex = d.coex := by
  obtain ⟨⟨_, _, h⟩, _⟩ := s.leave_shape d m; rw [h]
@[simp] theorem State.arrive_dpd (s : State) (dt : Nat) : (s.arrive dt).dev.dpd = s.dev.dpd := by
  obtain ⟨⟨_, _, _, _, h⟩, _⟩ := s.arrive_shape dt; rw [h]
@[simp] theorem State.leave_dpd (s : State) (d : Dev) (m : Memory) : (s.leave d m).dev.dpd = d.dpd := by
  obtain ⟨⟨_, _, h⟩, _⟩ := s.leave_shape d m; rw [h]
@[simp] theorem State.arrive_col (s : State) (dt : Nat) : (s.arrive dt).dev.col = s.dev.col := by
  obtain ⟨⟨_, _, _, _, h⟩, _⟩ := s.arrive_shape dt; rw [h]
@[simp] theorem State.leave_col (s : State) (d : Dev) (m : Memory) : (s.leave d m).dev.col = d.col := by
  obtain ⟨⟨_, _, h⟩, _⟩ := s.leave_shape d m; rw [h]
@[simp] theorem State.arrive_bias (s : State) (dt : Nat) : (s.arrive dt).dev.bias = s.dev.bias := by
  obtain ⟨⟨_, _, _, _, h⟩, _⟩ := s.arrive_shape dt; rw [h]
@[simp] theorem State.leave_bias (s : State) (d : Dev) (m : Memory) : (s.leave d m).dev.bias = d.bias := by
  obtain ⟨⟨_, _, h⟩, _⟩ := s.leave_shape d m; rw [h]
@[simp] theorem State.arrive_hk (s : State) (dt : Nat) : (s.arrive dt).dev.hk = s.dev.hk := by
  obtain ⟨⟨_, _, _, _, h⟩, _⟩ := s.arrive_shape dt; rw [h]
@[simp] theorem State.leave_hk (s : State) (d : Dev) (m : Memory) : (s.leave d m).dev.hk = d.hk := by
  obtain ⟨⟨_, _, h⟩, _⟩ := s.leave_shape d m; rw [h]
@[simp] theorem State.arrive_thm (s : State) (dt : Nat) : (s.arrive dt).dev.thm = s.dev.thm := by
  obtain ⟨⟨_, _, _, _, h⟩, _⟩ := s.arrive_shape dt; rw [h]
@[simp] theorem State.leave_thm (s : State) (d : Dev) (m : Memory) : (s.leave d m).dev.thm = d.thm := by
  obtain ⟨⟨_, _, h⟩, _⟩ := s.leave_shape d m; rw [h]
@[simp] theorem State.arrive_shutRec (s : State) (dt : Nat) : (s.arrive dt).dev.shutRec = s.dev.shutRec := by
  obtain ⟨⟨_, _, _, _, h⟩, _⟩ := s.arrive_shape dt; rw [h]
@[simp] theorem State.leave_shutRec (s : State) (d : Dev) (m : Memory) : (s.leave d m).dev.shutRec = d.shutRec := by
  obtain ⟨⟨_, _, h⟩, _⟩ := s.leave_shape d m; rw [h]
@[simp] theorem State.arrive_shutLog (s : State) (dt : Nat) : (s.arrive dt).dev.shutLog = s.dev.shutLog := by
  obtain ⟨⟨_, _, _, _, h⟩, _⟩ := s.arrive_shape dt; rw [h]
@[simp] theorem State.leave_shutLog (s : State) (d : Dev) (m : Memory) : (s.leave d m).dev.shutLog = d.shutLog := by
  obtain ⟨⟨_, _, h⟩, _⟩ := s.leave_shape d m; rw [h]
@[simp] theorem State.arrive_tim (s : State) (dt : Nat) : (s.arrive dt).dev.tim = s.dev.tim := by
  obtain ⟨⟨_, _, _, _, h⟩, _⟩ := s.arrive_shape dt; rw [h]
@[simp] theorem State.leave_tim (s : State) (d : Dev) (m : Memory) : (s.leave d m).dev.tim = d.tim := by
  obtain ⟨⟨_, _, h⟩, _⟩ := s.leave_shape d m; rw [h]
@[simp] theorem State.arrive_eph (s : State) (dt : Nat) : (s.arrive dt).dev.eph = s.dev.eph := by
  obtain ⟨⟨_, _, _, _, h⟩, _⟩ := s.arrive_shape dt; rw [h]
@[simp] theorem State.leave_eph (s : State) (d : Dev) (m : Memory) : (s.leave d m).dev.eph = d.eph := by
  obtain ⟨⟨_, _, h⟩, _⟩ := s.leave_shape d m; rw [h]
@[simp] theorem State.arrive_lane (s : State) (dt : Nat) : (s.arrive dt).dev.lane = s.dev.lane := by
  obtain ⟨⟨_, _, _, _, h⟩, _⟩ := s.arrive_shape dt; rw [h]
@[simp] theorem State.leave_lane (s : State) (d : Dev) (m : Memory) : (s.leave d m).dev.lane = d.lane := by
  obtain ⟨⟨_, _, h⟩, _⟩ := s.leave_shape d m; rw [h]
@[simp] theorem State.arrive_port (s : State) (dt : Nat) : (s.arrive dt).dev.port = s.dev.port := by
  obtain ⟨⟨_, _, _, _, h⟩, _⟩ := s.arrive_shape dt; rw [h]
@[simp] theorem State.leave_port (s : State) (d : Dev) (m : Memory) : (s.leave d m).dev.port = d.port := by
  obtain ⟨⟨_, _, h⟩, _⟩ := s.leave_shape d m; rw [h]
@[simp] theorem State.arrive_arch (s : State) (dt : Nat) : (s.arrive dt).dev.arch = s.dev.arch := by
  obtain ⟨⟨_, _, _, _, h⟩, _⟩ := s.arrive_shape dt; rw [h]
@[simp] theorem State.leave_arch (s : State) (d : Dev) (m : Memory) : (s.leave d m).dev.arch = d.arch := by
  obtain ⟨⟨_, _, h⟩, _⟩ := s.leave_shape d m; rw [h]
@[simp] theorem State.arrive_dma (s : State) (dt : Nat) : (s.arrive dt).dev.dma = s.dev.dma := by
  obtain ⟨⟨_, _, _, _, h⟩, _⟩ := s.arrive_shape dt; rw [h]
@[simp] theorem State.leave_dma (s : State) (d : Dev) (m : Memory) : (s.leave d m).dev.dma = d.dma := by
  obtain ⟨⟨_, _, h⟩, _⟩ := s.leave_shape d m; rw [h]
@[simp] theorem State.arrive_tra (s : State) (dt : Nat) : (s.arrive dt).dev.tra = s.dev.tra := by
  obtain ⟨⟨_, _, _, _, h⟩, _⟩ := s.arrive_shape dt; rw [h]
@[simp] theorem State.leave_tra (s : State) (d : Dev) (m : Memory) : (s.leave d m).dev.tra = d.tra := by
  obtain ⟨⟨_, _, h⟩, _⟩ := s.leave_shape d m; rw [h]
@[simp] theorem State.arrive_ses (s : State) (dt : Nat) : (s.arrive dt).dev.ses = s.dev.ses := by
  obtain ⟨⟨_, _, _, _, h⟩, _⟩ := s.arrive_shape dt; rw [h]
@[simp] theorem State.leave_ses (s : State) (d : Dev) (m : Memory) : (s.leave d m).dev.ses = d.ses := by
  obtain ⟨⟨_, _, h⟩, _⟩ := s.leave_shape d m; rw [h]
@[simp] theorem State.arrive_fld (s : State) (dt : Nat) : (s.arrive dt).dev.fld = s.dev.fld := by
  obtain ⟨⟨_, _, _, _, h⟩, _⟩ := s.arrive_shape dt; rw [h]
@[simp] theorem State.leave_fld (s : State) (d : Dev) (m : Memory) : (s.leave d m).dev.fld = d.fld := by
  obtain ⟨⟨_, _, h⟩, _⟩ := s.leave_shape d m; rw [h]
@[simp] theorem State.arrive_cha (s : State) (dt : Nat) : (s.arrive dt).dev.cha = s.dev.cha := by
  obtain ⟨⟨_, _, _, _, h⟩, _⟩ := s.arrive_shape dt; rw [h]
@[simp] theorem State.leave_cha (s : State) (d : Dev) (m : Memory) : (s.leave d m).dev.cha = d.cha := by
  obtain ⟨⟨_, _, h⟩, _⟩ := s.leave_shape d m; rw [h]
@[simp] theorem State.arrive_fus (s : State) (dt : Nat) : (s.arrive dt).dev.fus = s.dev.fus := by
  obtain ⟨⟨_, _, _, _, h⟩, _⟩ := s.arrive_shape dt; rw [h]
@[simp] theorem State.leave_fus (s : State) (d : Dev) (m : Memory) : (s.leave d m).dev.fus = d.fus := by
  obtain ⟨⟨_, _, h⟩, _⟩ := s.leave_shape d m; rw [h]
@[simp] theorem State.arrive_aud (s : State) (dt : Nat) : (s.arrive dt).dev.aud = s.dev.aud := by
  obtain ⟨⟨_, _, _, _, h⟩, _⟩ := s.arrive_shape dt; rw [h]
@[simp] theorem State.leave_aud (s : State) (d : Dev) (m : Memory) : (s.leave d m).dev.aud = d.aud := by
  obtain ⟨⟨_, _, h⟩, _⟩ := s.leave_shape d m; rw [h]
@[simp] theorem State.arrive_upd (s : State) (dt : Nat) : (s.arrive dt).dev.upd = s.dev.upd := by
  obtain ⟨⟨_, _, _, _, h⟩, _⟩ := s.arrive_shape dt; rw [h]
@[simp] theorem State.leave_upd (s : State) (d : Dev) (m : Memory) : (s.leave d m).dev.upd = d.upd := by
  obtain ⟨⟨_, _, h⟩, _⟩ := s.leave_shape d m; rw [h]
@[simp] theorem State.arrive_rip (s : State) (dt : Nat) : (s.arrive dt).dev.rip = s.dev.rip := by
  obtain ⟨⟨_, _, _, _, h⟩, _⟩ := s.arrive_shape dt; rw [h]
@[simp] theorem State.leave_rip (s : State) (d : Dev) (m : Memory) : (s.leave d m).dev.rip = d.rip := by
  obtain ⟨⟨_, _, h⟩, _⟩ := s.leave_shape d m; rw [h]
@[simp] theorem State.arrive_bg (s : State) (dt : Nat) : (s.arrive dt).dev.bg = s.dev.bg := by
  obtain ⟨⟨_, _, _, _, h⟩, _⟩ := s.arrive_shape dt; rw [h]
@[simp] theorem State.leave_bg (s : State) (d : Dev) (m : Memory) : (s.leave d m).dev.bg = d.bg := by
  obtain ⟨⟨_, _, h⟩, _⟩ := s.leave_shape d m; rw [h]
@[simp] theorem State.arrive_mgmt (s : State) (dt : Nat) : (s.arrive dt).dev.mgmt = s.dev.mgmt := by
  obtain ⟨⟨_, _, _, _, h⟩, _⟩ := s.arrive_shape dt; rw [h]
@[simp] theorem State.leave_mgmt (s : State) (d : Dev) (m : Memory) : (s.leave d m).dev.mgmt = d.mgmt := by
  obtain ⟨⟨_, _, h⟩, _⟩ := s.leave_shape d m; rw [h]
@[simp] theorem State.arrive_telem (s : State) (dt : Nat) : (s.arrive dt).dev.telem = s.dev.telem := by
  obtain ⟨⟨_, _, _, _, h⟩, _⟩ := s.arrive_shape dt; rw [h]
@[simp] theorem State.leave_telem (s : State) (d : Dev) (m : Memory) : (s.leave d m).dev.telem = d.telem := by
  obtain ⟨⟨_, _, h⟩, _⟩ := s.leave_shape d m; rw [h]

end Sys2Proof.Machine
end

