-- ==== Sys2Proof/Laws/Shape.lean ====
section
/-!
SUPPORT. Tables of fixed size keep their size: what the shared operations and the setters of one record leave of `Dev.shaped`, and
how it passes through a condition, a fold and a command's frame.
-/

namespace Sys2Proof.Machine

@[simp] theorem modAt_length {α : Type} (l : List α) (i : Nat) (f : α → α) : (modAt l i f).length = l.length := by
  induction l generalizing i with
  | nil => cases i <;> rfl
  | cons x xs ih => cases i <;> simp [modAt, ih]

/-- A property of every entry that the change keeps. -/
theorem modAt_all {α : Type} (l : List α) (i : Nat) (f : α → α) (p : α → Bool) (h : ∀ x, p x = true → p (f x) = true)
    (a : l.all p = true) : (modAt l i f).all p = true := by
  induction l generalizing i with
  | nil => cases i <;> exact a
  | cons x xs ih =>
    simp only [List.all_cons, Bool.and_eq_true] at a
    cases i with
    | zero => simp [modAt, h x a.1, a.2]
    | succ n => simp only [modAt, List.all_cons, a.1, ih n a.2, Bool.and_self]

/-- The records whose sizes `Dev.shaped` speaks of. -/
def Dev.SameTables (d d' : Dev) : Prop :=
  d'.lane = d.lane ∧ d'.port = d.port ∧ d'.rx = d.rx ∧ d'.dl = d.dl ∧ d'.syn = d.syn ∧ d'.dpd = d.dpd ∧ d'.col = d.col ∧ d'.hk = d.hk ∧
    d'.thm = d.thm ∧ d'.dma = d.dma ∧ d'.ses = d.ses ∧ d'.cha = d.cha ∧ d'.fus = d.fus ∧ d'.upd = d.upd ∧ d'.rip = d.rip ∧ d'.bg = d.bg ∧
    d'.nvm = d.nvm

/-- An operation that leaves those records alone keeps the shape. -/
theorem Dev.SameTables.shaped {d d' : Dev} (h : d.SameTables d') : d'.shaped = d.shaped := by
  obtain ⟨h1, h2, h3, h4, h5, h6, h7, h8, h9, h10, h11, h12, h13, h14, h15, h16, h17⟩ := h
  simp only [Dev.shaped, h1, h2, h3, h4, h5, h6, h7, h8, h9, h10, h11, h12, h13, h14, h15, h16, h17]

theorem Dev.SameTables.refl (d : Dev) : d.SameTables d := by simp [Dev.SameTables]

theorem Dev.SameTables.trans {a b c : Dev} (h : a.SameTables b) (k : b.SameTables c) : a.SameTables c := by
  simp only [Dev.SameTables] at *
  obtain ⟨h1, h2, h3, h4, h5, h6, h7, h8, h9, h10, h11, h12, h13, h14, h15, h16, h17⟩ := h
  obtain ⟨k1, k2, k3, k4, k5, k6, k7, k8, k9, k10, k11, k12, k13, k14, k15, k16, k17⟩ := k
  exact ⟨k1.trans h1, k2.trans h2, k3.trans h3, k4.trans h4, k5.trans h5, k6.trans h6, k7.trans h7, k8.trans h8, k9.trans h9,
    k10.trans h10, k11.trans h11, k12.trans h12, k13.trans h13, k14.trans h14, k15.trans h15, k16.trans h16, k17.trans h17⟩

/-! ### Parameters, bookkeeping, events -/

@[simp] theorem Dev.w_shaped (d : Dev) (k v : Nat) : (d.w k v).shaped = d.shaped := rfl
@[simp] theorem Dev.wx_shaped (d : Dev) (k v : Nat) : (d.wx k v).shaped = d.shaped := rfl
@[simp] theorem Dev.emit_shaped (d : Dev) (o : Out) : (d.emit o).shaped = d.shaped := rfl
@[simp] theorem Dev.pin_shaped (d : Dev) (p : Pin) (l : Bool) : (d.pin p l).shaped = d.shaped := rfl
@[simp] theorem Dev.free_shaped (d : Dev) (t w : Nat) : (d.free t w).2.shaped = d.shaped := rfl

@[simp] theorem Dev.add_shaped (d : Dev) (k n : Nat) : (d.add k n).shaped = d.shaped := by
  obtain ⟨_, h⟩ := d.add_shape k n; rw [h]; rfl

@[simp] theorem Dev.inc_shaped (d : Dev) (k : Nat) : (d.inc k).shaped = d.shaped := d.add_shaped k 1

@[simp] theorem Dev.wList_shaped (d : Dev) (k : Nat) (vs : List Nat) : (d.wList k vs).shaped = d.shaped := by
  obtain ⟨_, h⟩ := d.wList_shape k vs; rw [h]; rfl

@[simp] theorem Dev.raise_shaped (d : Dev) (n arg : Nat) : (d.raise n arg).shaped = d.shaped := by
  obtain ⟨_, _, h⟩ := d.raise_shape n arg; rw [h]; rfl

@[simp] theorem Dev.raiseRate_shaped (d : Dev) (n sub period amount : Nat) (mk : Nat → Nat) :
    (d.raiseRate n sub period amount mk).shaped = d.shaped := by
  obtain ⟨_, _, _, h⟩ := d.raiseRate_shape n sub period amount mk; rw [h]; rfl

/-! ### Conditions and folds -/

theorem Dev.iff_shaped (d : Dev) (c : Bool) (f : Dev → Dev) (h : d.shaped = true → (f d).shaped = true) (s : d.shaped = true) :
    (d.iff c f).shaped = true := by
  cases c
  · exact s
  · exact h s

theorem Dev.each_shaped {α : Type} (d : Dev) (l : List α) (f : α → Dev → Dev)
    (h : ∀ x e, e.shaped = true → (f x e).shaped = true) (s : d.shaped = true) : (d.each l f).shaped = true := by
  unfold Dev.each
  induction l generalizing d with
  | nil => exact s
  | cons x l ih => exact ih (f x d) (h x d s)

/-! ### Setters of one record -/

@[simp] theorem Dev.setLaneRec_shaped (d : Dev) (l : Nat) (f : Lane → Lane) : (d.setLaneRec l f).shaped = d.shaped := by
  simp [Dev.setLaneRec, Dev.shaped]

@[simp] theorem Dev.setBurst_shaped (d : Dev) (q : Nat) (f : Burst → Burst) : (d.setBurst q f).shaped = d.shaped := by
  simp [Dev.setBurst, Dev.shaped]

@[simp] theorem Dev.setDma_shaped (d : Dev) (c : Nat) (f : DmaCh → DmaCh) : (d.setDma c f).shaped = d.shaped := by
  simp [Dev.setDma, Dev.shaped]

@[simp] theorem Dev.setDpdQ_shaped (d : Dev) (q : Nat) (f : DpdQ → DpdQ) : (d.setDpdQ q f).shaped = d.shaped := by
  simp [Dev.setDpdQ, Dev.shaped]

@[simp] theorem Dev.setDpdP_shaped (d : Dev) (p : Nat) (f : DpdP → DpdP) : (d.setDpdP p f).shaped = d.shaped := by
  simp [Dev.setDpdP, Dev.shaped]

@[simp] theorem Dev.setSens_shaped (d : Dev) (n : Nat) (f : DieSens → DieSens) : (d.setSens n f).shaped = d.shaped := by
  simp [Dev.setSens, Dev.shaped]

@[simp] theorem Dev.setSes_shaped (d : Dev) (h : Nat) (f : Ses → Ses) : (d.setSes h f).shaped = d.shaped := by
  simp [Dev.setSes, Dev.shaped]

@[simp] theorem Dev.setQuad_shaped (d : Dev) (u : Nat) (f : Quad → Quad) : (d.setQuad u f).shaped = d.shaped := by
  simp [Dev.setQuad, Dev.shaped]

/-- A change of a port that keeps its four channels. -/
theorem Dev.setPort_shaped (d : Dev) (p : Nat) (f : Port → Port) (h : ∀ x, (f x).ch.length = x.ch.length) (s : d.shaped = true) :
    (d.setPort p f).shaped = true := by
  have a : (modAt d.port p f).all (fun q => q.ch.length == 4) = true := by
    apply modAt_all
    · intro x hx
      simp only [beq_iff_eq] at *
      exact (h x).trans hx
    · simp only [Dev.shaped, Bool.and_eq_true] at s
      simp only [s]
  simp only [Dev.shaped, Bool.and_eq_true] at s
  simp only [Dev.shaped, Dev.setPort, modAt_length, a, s, Bool.and_self]

theorem Dev.setChan_shaped (d : Dev) (p vc : Nat) (f : Chan → Chan) (s : d.shaped = true) : (d.setChan p vc f).shaped = true :=
  d.setPort_shaped p _ (fun x => by simp) s

end Sys2Proof.Machine
end

