-- ==== Sys2Proof/Machine/Package.lean ====
section
/-!
DEFINITION. The package (25_package_balls.md R655 to R667): what every ball carries, the pulls and levels of the digital signals
before reset release, the straps, and the levels of the pins that follow from the state. Rows and columns are the indexes 1 to 53 of
R655.
-/

namespace Sys2Proof.Machine

/-- The supply nets of R665. -/
inductive Net where
  | vss | core | rf | rf18 | conv | conv18 | syn | nvm | lane | lane12 | io18 | sram | ipm | ipmQ | io33 | aon
  deriving DecidableEq, Repr

/-- The digital signals of R663. -/
inductive IoSig where
  | refclk (neg : Bool) | refo (neg : Bool) | sync (neg : Bool) | synco (neg : Bool)
  | ppsIn | ppsOut | trigIn | trigOut | coexReq | coexGnt | coexPri | fieldTxd | fieldRxd | fieldStb
  | xspiClk | xspiDqs | xspiCsN | xspiDq (k : Nat) | tck | tms | tdi | tdo | trstN
  | resetN | pwrOk | alertN | chart (k : Nat) | rootN
  deriving DecidableEq, Repr

/-- What a ball carries. Lanes are numbered 0 to 23, `neg` is the N leg of a pair. -/
inductive Ball where
  | net (n : Net)
  | vclamp (g : Nat) | vbp (g : Nat) | vbn (g : Nat)
  | txout (p : Nat) (neg : Bool) | rxin (p : Nat) (neg : Bool) | fbin (p : Nat) | calio (neg : Bool)
  | bias (i : Nat) | rfctl (i : Nat) | hk (i : Nat)
  | laneTx (l : Nat) (neg : Bool) | laneRx (l : Nat) (neg : Bool)
  | io (s : IoSig)
  deriving DecidableEq, Repr

/-! ### Grid (R655, R656) -/

/-- The letters of R655 in order. -/
def rowLetters : List Char := ['A', 'B', 'C', 'D', 'E', 'F', 'G', 'H', 'J', 'K', 'L', 'M', 'N', 'P', 'T', 'U', 'V', 'W', 'Y']

/-- The letters that name a row: Y is 19, AA 20, BT 53. -/
def rowName (r : Nat) : List Char :=
  let c (i : Nat) : Char := rowLetters.getD i '?'
  if r ≤ 19 then [c (r - 1)] else if r ≤ 38 then ['A', c (r - 20)] else ['B', c (r - 39)]

/-- The ring of a ball (R656). -/
def ringOf (r k : Nat) : Nat := min (min r k) (min (54 - r) (54 - k))

/-- Side and position of a ball of ring `n` (R656). -/
def sideOf (n r k : Nat) : Nat × Nat :=
  if r = n ∧ n < k then (0, k)
  else if k = 54 - n ∧ n < r then (1, r)
  else if r = 54 - n then (2, 54 - k)
  else (3, 54 - r)

/-! ### RF balls (R657, R658) -/

/-- A ball of an RF band at depth `d` and position `u` of quadrant `q` (R657). -/
def rfBall (q d u : Nat) : Ball :=
  let p := 16 * q + (u - 5) / 3
  match d, (u - 5) % 3 with
  | 1, 0 => .txout p false
  | 1, 1 => .txout p true
  | 3, 0 => .rxin p false
  | 3, 1 => .rxin p true
  | 4, 0 => .fbin p
  | _, _ => .net .vss

/-- A ball of rings 1 to 4: in the band of a quadrant, or one of the sixteen of R658. -/
def edgeBall (r k : Nat) : Ball :=
  let band (u : Nat) : Bool := 5 ≤ u && u ≤ 52
  if r ≤ 4 ∧ band k then rfBall 0 r k
  else if 50 ≤ k ∧ band r then rfBall 1 (54 - k) r
  else if 50 ≤ r ∧ band (54 - k) then rfBall 2 (54 - r) (54 - k)
  else if k ≤ 4 ∧ band (54 - r) then rfBall 3 k (54 - r)
  else if r = 1 ∧ k = 2 then .calio false
  else if r = 1 ∧ k = 3 then .calio true
  else .net .vss

/-! ### Interior rings (R659 to R664) -/

/-- Ring 7 (R660). -/
def biasRing (s u : Nat) : Ball :=
  if 8 ≤ u ∧ u ≤ 39 then (if u % 2 = 0 then .bias (16 * s + (u - 8) / 2) else .net .vss)
  else if u = 40 then .vclamp s
  else if u = 41 ∨ u = 42 then .vbp s
  else if u = 43 ∨ u = 44 then .vbn s
  else if u = 45 then (if s < 2 then .vbp 4 else .vbn 4)
  else if u = 46 ∧ s = 0 then .vclamp 4
  else .net .vss

/-- Ring 9 (R661). -/
def controlRing (s u : Nat) : Ball :=
  if u % 2 = 0 ∧ 10 ≤ u ∧ u ≤ 24 then .rfctl (8 * s + (u - 10) / 2)
  else if u % 2 = 0 ∧ 26 ≤ u ∧ u ≤ 40 then .hk (8 * s + (u - 26) / 2)
  else if 41 ≤ u ∧ u ≤ 44 then .bias (64 + 4 * s + (u - 41))
  else .net .vss

/-- Sides 0 to 2 of rings 13 and 15 (R662): slot `n` of side `s` is lane 8 s + n. -/
def laneRing (ring s u : Nat) : Ball :=
  if u < 15 ∨ 38 < u then .net .vss
  else
    let l := 8 * s + (u - 15) / 3
    match ring, (u - 15) % 3 with
    | 13, 0 => .laneTx l false
    | 13, 1 => .laneTx l true
    | 15, 1 => .laneRx l false
    | 15, 2 => .laneRx l true
    | _, _ => .net .vss

/-- Power domains of the digital signals. -/
inductive Domain where
  | aon | io18 | io33
  deriving DecidableEq, Repr

/-- How a signal stands before reset release (R663), pulls included. -/
inductive Before where
  | terminated | forwarding | low | high | released | floating | pullUp | pullDown
  deriving DecidableEq, Repr

/-- Direction of a signal. -/
inductive Dir where
  | inp | out | both | openDrain
  deriving DecidableEq, Repr

/-- One row of R663: row, column, signal, domain, direction, state before reset release. -/
structure IoBall where
  row : Nat
  col : Nat
  sig : IoSig
  domain : Domain
  dir : Dir
  before : Before
  deriving DecidableEq, Repr

/-- Column 13 of R663. -/
def ioBallsC13 : List IoBall :=
  [⟨14, 13, .refclk false, .aon, .inp, .terminated⟩, ⟨15, 13, .refclk true, .aon, .inp, .terminated⟩,
   ⟨17, 13, .refo false, .io18, .out, .forwarding⟩, ⟨18, 13, .refo true, .io18, .out, .forwarding⟩,
   ⟨20, 13, .sync false, .aon, .inp, .terminated⟩, ⟨21, 13, .sync true, .aon, .inp, .terminated⟩,
   ⟨23, 13, .synco false, .io18, .out, .forwarding⟩, ⟨24, 13, .synco true, .io18, .out, .forwarding⟩,
   ⟨26, 13, .ppsIn, .io18, .inp, .pullDown⟩, ⟨27, 13, .ppsOut, .io18, .out, .low⟩, ⟨29, 13, .trigIn, .io18, .inp, .pullDown⟩,
   ⟨30, 13, .trigOut, .io18, .out, .low⟩, ⟨32, 13, .coexReq, .io18, .out, .low⟩, ⟨33, 13, .coexGnt, .io18, .inp, .pullDown⟩,
   ⟨34, 13, .coexPri, .io18, .out, .low⟩, ⟨36, 13, .fieldTxd, .io33, .out, .high⟩, ⟨37, 13, .fieldRxd, .io33, .inp, .pullUp⟩,
   ⟨38, 13, .fieldStb, .io33, .out, .high⟩]

/-- Column 15 of R663 down to AG. -/
def ioBallsXspi : List IoBall :=
  [⟨15, 15, .xspiClk, .io18, .out, .low⟩, ⟨17, 15, .xspiDqs, .io18, .inp, .pullDown⟩, ⟨18, 15, .xspiCsN, .io18, .out, .high⟩,
   ⟨19, 15, .xspiDq 0, .io18, .both, .pullDown⟩, ⟨20, 15, .xspiDq 1, .io18, .both, .pullDown⟩,
   ⟨21, 15, .xspiDq 2, .io18, .both, .pullDown⟩, ⟨22, 15, .xspiDq 3, .io18, .both, .pullDown⟩,
   ⟨23, 15, .xspiDq 4, .io18, .both, .pullDown⟩, ⟨24, 15, .xspiDq 5, .io18, .both, .pullDown⟩,
   ⟨25, 15, .xspiDq 6, .io18, .both, .pullDown⟩, ⟨26, 15, .xspiDq 7, .io18, .both, .pullDown⟩]

/-- Column 15 of R663 from AJ on. -/
def ioBallsC15 : List IoBall :=
  [⟨28, 15, .tck, .io18, .inp, .pullDown⟩, ⟨29, 15, .tms, .io18, .inp, .pullUp⟩, ⟨30, 15, .tdi, .io18, .inp, .pullUp⟩,
   ⟨31, 15, .tdo, .io18, .out, .floating⟩, ⟨32, 15, .trstN, .io18, .inp, .pullUp⟩, ⟨33, 15, .resetN, .aon, .inp, .pullUp⟩,
   ⟨34, 15, .pwrOk, .aon, .inp, .pullDown⟩, ⟨35, 15, .alertN, .aon, .openDrain, .released⟩,
   ⟨36, 15, .chart 0, .io33, .inp, .pullDown⟩, ⟨37, 15, .chart 1, .io33, .inp, .pullDown⟩,
   ⟨38, 15, .rootN, .io33, .inp, .pullUp⟩]

/-- The table of R663. -/
def ioBalls : List IoBall := ioBallsC13 ++ ioBallsXspi ++ ioBallsC15

/-- Side 3 of rings 13 and 15 (R663). -/
def ioBall (r k : Nat) : Ball :=
  match ioBalls.find? (fun x => x.row == r && x.col == k) with
  | some x => .io x.sig
  | none => .net .vss

/-- The core region, rows V to AW and columns 17 to 37 (R664). -/
def coreBall (r k : Nat) : Ball :=
  if (r + k) % 2 = 1 then .net .vss
  else if r ≤ 19 then .net (if k ≤ 27 then .ipm else .ipmQ)
  else if r ≤ 21 then .net .sram
  else if r = 36 ∧ k ≤ 22 then .net .nvm
  else if r = 36 ∧ 34 ≤ k then .net .aon
  else .net .core

/-- What the ball at row `r` and column `k` carries (R656 to R664). [Log: 80 DESIGN CHOICE] -/
def ballAt (r k : Nat) : Ball :=
  let n := ringOf r k
  let (s, u) := sideOf n r k
  let odd (a b : Net) : Ball := .net (if u % 2 = 0 then a else b)
  if n ≤ 4 then edgeBall r k
  else if n = 6 then odd .rf .rf18
  else if n = 7 then biasRing s u
  else if n = 9 then controlRing s u
  else if n = 10 then odd .conv .conv18
  else if n = 12 then odd .syn .vss
  else if n = 13 ∨ n = 15 then (if s = 3 then ioBall r k else laneRing n s u)
  else if n = 14 then
    if s ≠ 3 then .net .vss
    else if r = 33 ∨ r = 34 ∨ r = 36 ∨ r = 37 then .net .io33
    else .net (if r % 2 = 0 then .io18 else .vss)
  else if n = 16 then (if s = 3 then odd .io18 .vss else odd .lane .lane12)
  else if 17 ≤ n then coreBall r k
  else .net .vss

/-! ### Straps and levels (R667, R573, R643) -/

/-- What a strap pin reads: its level, or, unconnected, the level of its pull (R667, R663). -/
def strapRead (s : IoSig) (level : Option Bool) : Bool :=
  level.getD (ioBalls.any (fun x => x.sig == s && x.before == .pullUp))

/-- FIELD_STB: high until reset release, and while FieldEnable is 0 in every power state (R573, R663). -/
def Dev.fieldStb (d : Dev) : Bool := d.pwr.phase == .inReset || d.a P.fieldEnable == 0

end Sys2Proof.Machine
end

