-- ==== Sys2Proof/Machine/Electrical.lean ====
section
/-!
DEFINITION. The electrical and thermal limits (26_electrical.md R672 to R688, 25_package_balls.md R654): the figures as tables of
closed ranges, each with its unit, and the judgements other rules make by them: when a rail is within limits, what its monitor may
declare, what a digital level reads as, when a self-calibration passes. No command brings a voltage, so the meanings take these
judgements as their operands (RAIL_FAULT, PWR_OK_RISE, HK_CAL_DONE).
-/

namespace Sys2Proof.Machine

/-- Units of the figures. -/
inductive LimitUnit where
  | mV | uV | mA | uA | nA | mW | ohm | kOhm | ppm | percent | permille | mdB | mdBm | mdBFS | mdBc | mdBPerHz | fs | ps | ns | us | ms
  | kHz | hz | mHz | mLsb | mC | mCPerW | um | newton | volt | unitInterval | cycles | years | level
  deriving DecidableEq, Repr

/-- A limit: its item, the least and the greatest value allowed, and the unit they are counted in. -/
structure Limit where
  item : String
  lo : Option Int
  hi : Option Int
  unit : LimitUnit
  deriving DecidableEq, Repr

/-- A value keeps a limit. -/
def Limit.holds (l : Limit) (v : Int) : Bool := l.lo.all (fun x => x ≤ v) && l.hi.all (fun x => v ≤ x)

/-- At most, at least, plus or minus, between. -/
def atMost (item : String) (v : Int) (u : LimitUnit) : Limit := ⟨item, none, some v, u⟩
def atLeast (item : String) (v : Int) (u : LimitUnit) : Limit := ⟨item, some v, none, u⟩
def within (item : String) (lo hi : Int) (u : LimitUnit) : Limit := ⟨item, some lo, some hi, u⟩
def plusMinus (item : String) (mid d : Int) (u : LimitUnit) : Limit := ⟨item, some (mid - d), some (mid + d), u⟩

/-! ### Supplies (R25, R30, R673, R674) -/

/-- A rail (R673): its range, nominal (none for the bias supplies) in 0.1 mV, and its greatest current in mA. -/
structure RailSpec where
  lo : Int
  nominal : Option Int
  hi : Int
  mA : Nat
  deriving DecidableEq, Repr

/-- The rails in the order of RailStatus: VDD_AON to VDD_IO33, VBP0 to VBP4, VBN0 to VBN4 (R25, R68, R673). -/
def railSpecs : List RailSpec :=
  [⟨7275, some 7500, 7725, 100⟩, ⟨7275, some 7500, 7725, 26000⟩, ⟨8245, some 8500, 8755, 2500⟩, ⟨10185, some 10500, 10815, 2000⟩,
   ⟨4850, some 5000, 5150, 2000⟩, ⟨9700, some 10000, 10300, 4500⟩, ⟨17460, some 18000, 18540, 1200⟩,
   ⟨9700, some 10000, 10300, 4000⟩, ⟨17460, some 18000, 18540, 800⟩, ⟨9700, some 10000, 10300, 1200⟩,
   ⟨8730, some 9000, 9270, 2500⟩, ⟨11640, some 12000, 12360, 800⟩, ⟨17100, some 18000, 18900, 150⟩,
   ⟨17100, some 18000, 18900, 200⟩, ⟨31350, some 33000, 34650, 50⟩] ++
  List.replicate 5 ⟨45000, none, 110000, 330⟩ ++ List.replicate 5 ⟨-110000, none, -45000, 330⟩

/-- A rail at `v` (0.1 mV) is within limits (R673). -/
def RailSpec.inLimits (r : RailSpec) (v : Int) : Bool := decide (r.lo ≤ v ∧ v ≤ r.hi)

/-- What the monitor of a rail declares (R674): never out of limits inside the range, always out within 2 us once more than 2 % of
nominal beyond it; between the two, and for a rail without a nominal value beyond its range, the declaration is unspecified.
[Log: 80 DESIGN CHOICE] -/
def RailSpec.monitor (r : RailSpec) (v : Int) : Option Bool :=
  if r.inLimits v then some true
  else r.nominal.bind (fun n => if 50 * (v - r.hi) > n ∨ 50 * (r.lo - v) > n then some false else none)

/-- RailStatus of a set of voltages: a bit per rail that is within limits. -/
def railBits (v : List Int) : Nat :=
  maskOf 25 (fun i => (railSpecs.getD i ⟨0, none, 0, 0⟩).inLimits (v.getD i 0))

/-- The absolute maximum ratings of the rails in the order of RailStatus (R672). -/
def railRatings : List Limit :=
  ([850, 850, 1000, 1200, 600, 1100, 2000, 1100, 2000, 1100, 1000, 1350, 2000, 2000, 3800] : List Int).map
      (fun hi => within "rail" (-300) hi .mV) ++
    List.replicate 5 (within "VBP" (-300) 12000 .mV) ++ List.replicate 5 (within "VBN" (-12000) 300 .mV)

/-- The other ratings of R672. -/
def otherRatings : List Limit :=
  [within "HK0-HK31" (-300) 2000 .mV, atMost "RXIN, CALIO input power" 10000 .mdBm, atMost "FBIN input power" 15000 .mdBm,
   within "Junction temperature" (-40000) 125000 .mC, within "Storage temperature" (-55000) 125000 .mC]

/-- The rating of a signal ball by its domain's supply (IO18, AON: VDD_IO18; IO33: VDD_IO33), and of VCLAMP and BIAS balls, mV (R672). -/
def signalRating (supply : Int) : Limit := within "signal ball" (-300) (supply + 300) .mV
def biasRating (vbn vbp : Int) : Limit := within "VCLAMPg, BIASi" (vbn - 300) (vbp + 300) .mV

/-- The ramp of a rail from 10 % to 90 % of nominal (R674), and the load steps of VDD_CORE (R675). -/
def rampTime : Limit := within "ramp" 50 20000 .us
def coreStepUp : Limit := atMost "READY to ACTIVE, within 20 us" 18000 .mA
def coreStepDown : Limit := atMost "ACTIVE to READY, within 5 us" 18000 .mA

/-- The greatest power of a state: DEEP, WATCH, READY, ACTIVE (R52, R676). -/
def powerMax (state : Nat) : Limit := atMost "power" (([450, 4600, 11000, 42000] : List Int).getD state 0) .mW

/-! ### Figures of R23 that no other definition holds -/

/-- The receive bandwidth of a chain and the most a transmit path carries, MHz. -/
def rxBandwidth (wide : Bool) : Nat := if wide then 640 else 320
def txBandwidth : Nat := 640

/-- Bits of a receive converter sample and of a DAC sample, and their rates in MS/s, complex. -/
def coreBits : Nat := 14
def dacBits : Nat := 16
def coreRate : Nat := 400
def dacRate : Nat := 800

/-- The fuse bits of a device. -/
def fuseBits : Nat := 16384

/-- A junction temperature in operation. -/
def operatingJunction : Limit := within "Junction temperature, operating" (-40000) 110000 .mC

/-! ### Clocks (R677) -/

def clockLimits : List Limit :=
  [plusMinus "REFCLK frequency" 100000000 5000 .hz, within "REFCLK swing" 400 1600 .mV, within "REFCLK duty cycle" 45 55 .percent,
   atMost "REFCLK rms jitter" 150 .fs, atMost "REFO additive rms jitter per hop" 30 .fs, within "REFO swing" 600 1000 .mV,
   plusMinus "SYNCO to REFO skew" 0 150 .ps, atLeast "SYNC set-up" 400 .ps, atLeast "SYNC hold" 400 .ps]

/-- The LPO's frequency in mHz: 32.768 kHz within 0.3 % (R677, R41). -/
def lpoFrequency : Limit := plusMinus "LPO frequency" 32768000 98304 .mHz

/-! ### Receive, converters, transmit (R678 to R680) -/

def receiveLimits : List Limit :=
  [within "RXIN differential impedance" 100 100 .ohm, atLeast "RXIN return loss" 10000 .mdB, atMost "Noise figure at g = 60, to 2,000 MHz" 6500 .mdB,
   atMost "Noise figure at g = 60, to 3,000 MHz" 7500 .mdB, atLeast "Input IP3 at g = 0" 18000 .mdBm,
   plusMinus "Gain step error" 0 200 .mdB, atLeast "Image rejection" 65000 .mdBc, atLeast "Isolation, chain A to B" 65000 .mdB,
   atLeast "Isolation, path to path" 60000 .mdB, plusMinus "Blocker detector error" 0 1500 .mdB]

/-- Full scale at gain code `g` (R678). -/
def rxFullScale (g : Nat) : Limit := plusMinus "Full scale" (2000 - 500 * g) 1000 .mdBm

def converterLimits : List Limit :=
  [atLeast "SNR" 64000 .mdBFS, atLeast "SFDR" 75000 .mdBc, atMost "Noise spectral density" (-147000) .mdBPerHz,
   atMost "Wide-mode interleave spur" (-70000) .mdBc]

def transmitLimits : List Limit :=
  [plusMinus "TXOUT at a full-scale tone" 2000 1000 .mdBm, atMost "DAC noise floor" (-155000) .mdBPerHz, atLeast "ACLR" 60000 .mdB,
   atMost "LO leakage" (-70000) .mdBFS, within "CALIO impedance" 100 100 .ohm,
   atLeast "CALIO return loss" 12000 .mdB, atMost "Phase noise at 1 MHz" (-136000) .mdBPerHz]

/-- The error of a TX attenuator setting of `mdB` (R680): 0.1 dB and 2 % of the setting. -/
def txAttenError (mdB : Int) : Limit := plusMinus "TX attenuator error" 0 (100 + mdB / 50) .mdB

/-- Full scale of FBIN at DpdOrxAtten dB (R680). -/
def fbinFullScale (atten : Nat) : Limit := plusMinus "FBIN full scale" (-10000 + 1000 * atten) 1000 .mdBm

/-! ### Lanes, digital signals, interfaces (R681 to R683) -/

/-- The channel loss in dB up to which a rate keeps a bit error ratio of 10^-12 (R681). -/
def laneLoss (rate : Nat) : Nat := [12, 18, 24, 28].getD rate 0

def laneLimits : List Limit :=
  [within "Transmitter swing" 800 1100 .mV, atMost "Total jitter, 1/100 UI" 25 .unitInterval, atLeast "Return loss" 8000 .mdB]

/-- Whether a signal of this swing is declared lost (R681, R462): below 65 mV it is, above 175 mV it is not.
[Log: 80 DESIGN CHOICE] -/
def signalLost (mV : Nat) : Option Bool := if mV < 65 then some true else if 175 < mV then some false else none

/-- What a digital input reads (R682): low, high, or neither stated. Levels in mV, IO18 by its supply. -/
def inputReads (d : Domain) (supply v : Int) : Option Bool :=
  match d with
  | .io18 => if 100 * v ≤ 35 * supply then some false else if 65 * supply ≤ 100 * v then some true else none
  | .aon => if v ≤ 500 then some false else if 1200 ≤ v then some true else none
  | .io33 => if v ≤ 800 then some false else if 2000 ≤ v then some true else none

/-- Output levels under load (R682). -/
def outputLow (d : Domain) : Limit := atMost "output low" (match d with | .io33 => 400 | _ => 450) .mV
def outputHigh (d : Domain) (supply : Int) : Limit := atLeast "output high" (match d with | .io33 => 2400 | _ => supply - 450) .mV
def pullResistance : Limit := within "internal pull" 35 65 .kOhm
def alertSink : Limit := atLeast "ALERT_N sink at 0.4 V" 8 .mA

def interfaceLimits : List Limit :=
  [atMost "XSPI_CLK" 200000 .kHz, atLeast "DQ output valid about each edge" 800 .ps, plusMinus "DQS to DQ skew" 0 400 .ps,
   atLeast "XSPI_CS_N before the first edge" 3000 .ps, atMost "TCK" 25000 .kHz, atLeast "TMS, TDI set-up and hold" 4 .ns,
   atMost "TDO valid" 12 .ns, atMost "FIELD loop delay" 255 .ns, atLeast "PPS_IN, TRIG_IN pulse width" 100 .ns,
   atMost "PPS_IN, TRIG_IN rise time" 5 .ns, plusMinus "PPS_OUT edge" 0 500 .ps, atMost "TRIG_OUT after the trigger" 100 .ns]

/-! ### Bias, housekeeping, memory, package (R684 to R688, R654) -/

def biasLimits : List Limit :=
  [plusMinus "Differential non-linearity" 0 500 .mLsb, plusMinus "Integral non-linearity" 0 4000 .mLsb, plusMinus "Offset" 0 10 .mV,
   plusMinus "Gain error" 0 5 .permille, plusMinus "Drift per degree" 0 50 .ppm, atMost "Noise" 50 .uV,
   within "Current limit" 25 40 .mA, atMost "Clamp resistance" 20 .ohm]

/-- VCLAMPg lies between VBNg and VBPg (R684). -/
def clampSupplyOk (vclamp vbn vbp : Int) : Bool := decide (vbn ≤ vclamp ∧ vclamp ≤ vbp)

def housekeepingLimits : List Limit :=
  [plusMinus "Offset" 0 2000 .mLsb, plusMinus "Gain error" 0 2 .permille, plusMinus "Integral non-linearity" 0 2000 .mLsb,
   plusMinus "Paired gain error" 0 5 .permille, plusMinus "Input leakage" 0 100 .nA, plusMinus "Check DAC error" 0 1000 .mLsb,
   plusMinus "Open-wire currents" 0 20 .percent, plusMinus "Die sensors" 0 2000 .mC, plusMinus "Always-on sensor" 0 3000 .mC]

/-- A self-calibration passes (R685, R384): the offset left within 2 LSB, the gain error within 0.2 % (both in thousandths).
[Log: 80 DESIGN CHOICE] -/
def calPasses (offsetMilliLsb gainMillipercent : Int) : Bool :=
  decide (-2000 ≤ offsetMilliLsb ∧ offsetMilliLsb ≤ 2000 ∧ -200 ≤ gainMillipercent ∧ gainMillipercent ≤ 200)

def memoryLimits : List Limit :=
  [atLeast "MRAM write cycles" 100000000 .cycles, atLeast "Retention at 85 degrees" 20 .years, atLeast "Retention at 110 degrees" 5 .years]

def packageLimits : List Limit :=
  [plusMinus "Body edge" 47500 100 .um, atMost "Seated height" 3600 .um, within "Ball pitch" 850 850 .um,
   within "Outer ball from the edge" 1650 1650 .um, within "Ball diameter" 500 500 .um, atMost "Coplanarity" 200 .um,
   atMost "Junction to lid top" 100 .mCPerW, atMost "Junction to board" 1600 .mCPerW, atMost "Load on the lid" 300 .newton,
   within "Moisture sensitivity" 3 3 .level, atMost "Peak reflow" 260000 .mC,
   plusMinus "Charged-device model" 0 250 .volt, plusMinus "Latch-up" 0 100 .mA]

/-- The human-body model a ball withstands, V (R688). -/
def esdHbm (b : Ball) : Limit :=
  plusMinus "Human-body model" 0 (match b with | .rxin _ _ => 1000 | .txout _ _ => 1000 | .fbin _ => 1000 | .calio _ => 1000 | _ => 2000)
    .volt

/-- The series capacitor of a lane leg (R670), nF counted in pF. -/
def laneCapacitorOk (pF : Nat) : Bool := 75000 ≤ pF && pF ≤ 265000

end Sys2Proof.Machine
end

