-- ==== Sys2Proof/Machine/TxChain.lean ====
section
/-!
DEFINITION. What the transmit chain forms from the precoder's output to the DAC (08_downlink_transmit.md R248 to R253, R275, R276;
09_synthesisers_sequencing.md R295, R301; 10_predistortion.md R311 to R314; 11_collimation.md R332, R333). A stream is a function of the
sample's index; transmitted samples carry no tags. The samples leave as waves at the TXOUT balls, so no command reads one: these functions
say what the wave is. Fixed filters whose taps the spec does not list take them from Config, and so the samples that saturate behind the
precoder are a free number (DL_CONSUME).
-/

namespace Sys2Proof.Machine

/-- A stream that begins at a point: zeros before it, the state a start or a synchronising reset leaves (R253). -/
def zeroBefore (x : Stream18) : Stream18 := fun k => if k < 0 then 0 else x k

/-- A word without tags. -/
def untagged (w : Nat) : Nat := w / 16 * 16

/-! ### Synthesis (R248 to R250) -/

/-- The gain of synthesis in units of 2^-60: with independent unit-power data a path load of N gives a mean power of -15.0 dBFS, where 0
dBFS is |x|^2 = 2^34 and unit power 2^32 (R250): gain^2 = 4 10^(-3/2) H / (N sum h^2). -/
def synthGain (n hop : Nat) : Nat :=
  let hh := ((prototype n).map (fun t => (t * t).toNat)).sum
  isqrtAux (isqrtAux (16 * hop * hop * 2 ^ 480 / (1000 * n * n * (hh * hh))) 280 0) 240 0

/-- Band sample t of a group from the precoder words of bin and bin instant (R248, R249): each bin's response is the prototype about its
centre frequency, whose centre, (8 N - 1) / 2 samples after its first, is the reference instant. -/
def Dev.synthOut (d : Dev) (g : Nat) (z : Nat → Stream18) : Stream18 := fun t =>
  let n := d.a (gk P.chanLog2BinsA g)
  let big := 2 ^ n
  let h := d.hop g
  let s := ((prototype big).zip (List.range (8 * big))).foldl (fun (acc : CInt) x =>
    let m : Int := (x.2 : Nat)
    if (t - m) % h ≠ 0 then acc
    else (List.range big).foldl (fun (acc : CInt) (b : Nat) =>
      let c := turnOf (((b : Int) - (big / 2 : Nat)) * (2 * m - (8 * big - 1 : Nat))) (n + 1)
      let y := cmul (cword (z b ((t - m) / h))) c
      (acc.1 + x.1 * y.1, acc.2 + x.1 * y.2)) acc) (0, 0)
  let k : Int := (synthGain big h : Nat)
  untagged (roundWord (s.1 * k) (s.2 * k) (2 ^ 180) 0)

/-! ### Interpolation (R248) -/

/-- An interpolator by a factor with linear-phase taps in units of 2^-60, a zero between inputs. -/
def interpOut (taps : List Int) (by_ : Nat) (x : Stream18) : Stream18 := fun t =>
  let s := (taps.zip (List.range taps.length)).foldl (fun (acc : CInt) y =>
    let k := t - (y.2 : Nat)
    if k % by_ ≠ 0 then acc else let w := cword (x (k / by_)); (acc.1 + y.1 * w.1, acc.2 + y.1 * w.2)) (0, 0)
  untagged (roundWord s.1 s.2 (2 ^ 60) 0)

/-- The taps from the band rate of a code to 400 MS/s. [Log: 91 DEDUCED] -/
def interpTaps (code : Nat) : List Int :=
  let n := 2 * Config.interpLen code
  (List.range n).map (fun m => Config.interpTap code (min m (n - 1 - m)))

/-- The taps of HBT, with the gain of 2 that an interpolation by 2 takes. [Log: 91 DEDUCED] -/
def hbtTaps : List Int := (halfBand 3 (4 * Config.hbtLen + 3)).map (2 * ·)

/-! ### Correction (R275, R332, R333) -/

/-- 10^(mdb / 20000) in units of 2^-60. -/
def gainOf (mdb : Int) : Nat :=
  let down := powDown (2 ^ 60) mdb.natAbs 20000
  if mdb < 0 then down else 2 ^ 120 / down

/-- PHASE and GAIN in force on path p of group g: CORR plus BRIDGE. -/
def Dev.corrPhase (d : Dev) (g p : Nat) : Nat :=
  (bits (d.a (P.collimCorrection + 64 * g + p)) 27 14 + bits (d.a (P.collimBridge + g)) 27 14) % 2 ^ 14
def Dev.corrGain (d : Dev) (g p : Nat) : Int :=
  sx 14 (bits (d.a (P.collimCorrection + 64 * g + p)) 13 0) + sx 14 (bits (d.a (P.collimBridge + g)) 13 0)

/-- The correction of a path's 400 MS/s stream: the delay walked to so far in 1/64 samples, a phase and a gain; none while no record is in
force. The fractional part is a filter of 16 taps (R334). [Log: 91 DEDUCED] -/
def Dev.corrOut (d : Dev) (g p : Nat) (x : Stream18) : Stream18 := fun t =>
  if d.col.rcd.isNone then x t
  else
    let delay := d.col.delays.getD (64 * g + p) 0
    let whole := delay.fdiv 64
    let part := (delay - 64 * whole).toNat
    let s := (List.range 16).foldl (fun (acc : CInt) m =>
      let w := cword (x (t - whole - (m : Nat)))
      let h := Config.delayTap part m
      (acc.1 + h * w.1, acc.2 + h * w.2)) (0, 0)
    let y := cmul s (turnPair (d.corrPhase g p) 14)
    let k : Int := (gainOf (d.corrGain g p) : Nat)
    untagged (roundWord (y.1 * k) (y.2 * k) (2 ^ 180) 0)

/-! ### TX NCO, power table, predistortion, DAC (R248, R254, R301, R311) -/

/-- The mix up by the group's TX NCO (R248, R254). [Log: 91 DEDUCED] -/
def txMix (phase : Int → Nat) (x : Stream18) : Stream18 := fun t =>
  let y := cmul (cword (x t)) (turnPair (phase t) 40)
  untagged (roundWord y.1 y.2 (2 ^ 60) 0)

/-- The sum of the groups that transmit. -/
def sumWords (ws : List Nat) : Nat := untagged (roundWord (ws.map wordI).sum (ws.map wordQ).sum 1 0)

/-- The digital gain of the effective step (R301, R303). -/
def Dev.dgainOut (d : Dev) (p : Nat) (x : Stream18) : Stream18 := fun t =>
  let k : Int := (bits (d.powerEntry p (d.a (P.txStepEffective + p))) 39 20 : Nat)
  untagged (roundWord (k * wordI (x t)) (k * wordQ (x t)) (2 ^ 18) 0)

/-- The drive magnitude u of a sample in units of 2^-30 (R311). -/
def Dev.driveOf (d : Dev) (p : Nat) (x : CInt) : Nat :=
  let a := powDown (2 ^ 60) (bits (d.powerEntry p (d.a (P.txStepEffective + p))) 19 12) 80
  isqrt (a * a * cabs2 x / 2 ^ 60)

/-- g_m(u) of a model in units of 2^-59 (R311, R313). -/
def gainAt (model : List Nat) (m u : Nat) : CInt :=
  let at_ (k : Nat) : CInt := let e := model.getD (64 * m + k) 0; (sx 20 (bits e 39 20), sx 20 (bits e 19 0))
  let k := u / 2 ^ 41
  if 63 ≤ k then (2 ^ 41 * (at_ 63).1, 2 ^ 41 * (at_ 63).2)
  else
    let f : Int := (u % 2 ^ 41 : Nat)
    ((2 ^ 41 - f) * (at_ k).1 + f * (at_ (k + 1)).1, (2 ^ 41 - f) * (at_ k).2 + f * (at_ (k + 1)).2)

/-- The model a path applies: the identity in mode 0 (R314). -/
def Dev.modelInForce (d : Dev) (p : Nat) : List Nat :=
  if d.dpd.modes.getD (p / 16) 0 = 0 then identityModel else d.entries (modelKey p) 448

/-- Predistortion and the 16-bit DAC code, I and Q (R248, R311): a full-scale native sample is a full-scale code. [Log: 91 DEDUCED] -/
def Dev.dacOut (d : Dev) (p : Nat) (x : Stream18) : Int → CInt := fun t =>
  let model := d.modelInForce p
  let s := (List.range 7).foldl (fun (acc : CInt) m =>
    let w := cword (x (t - (m : Nat)))
    cadd acc (cmul w (gainAt model m (d.driveOf p w)))) (0, 0)
  (clampI (-32768) 32767 (rhe s.1 (2 ^ 61)), clampI (-32768) 32767 (rhe s.2 (2 ^ 61)))

/-- Raised-cosine factor of sample i of n of a ramp from 1 to 0, in units of 2^-61 (R295). -/
def rampAt (i n : Nat) : Int := 2 ^ 60 + (turnPair (i * 2 ^ 20 / (2 * n)) 20).1

/-- What a path emits at an elapsed instant (R276, R277, R295): nothing outside a burst, the samples while ON, the ramp's share in RAMP,
which began at `ramp`. -/
def Dev.emitted (d : Dev) (p ramp : Nat) (y : CInt) : CInt :=
  match (d.burst (p / 16)).st with
  | 2 => y
  | 0 => (0, 0)
  | 1 => (0, 0)
  | 3 => (0, 0)
  | _ =>
    let n := d.a P.txRampTime * 1000
    if ramp + n ≤ d.now then (0, 0)
    else let k := rampAt (d.now - ramp) n; (rhe (k * y.1) (2 ^ 61), rhe (k * y.2) (2 ^ 61))

/-- The whole chain of a path before the DAC: each group's precoder words to 800 MS/s, the groups that fit the TX window summed, the
power step (R248, R255, R278). -/
def Dev.txOut (d : Dev) (p slot : Nat) (phase : Nat → Int → Nat) (z : Nat → Nat → Stream18) : Stream18 :=
  let one (g : Nat) : Stream18 :=
    let y := interpOut (interpTaps (d.a (gk P.bandRateCodeA g))) (d.decim g) (zeroBefore (d.synthOut g (z g)))
    txMix (phase g) (interpOut hbtTaps 2 (d.corrOut g p (zeroBefore y)))
  let gs := [0, 1].filter (fun g => d.dlPlanned slot g && d.fitsWindow g (p / 16))
  d.dgainOut p (fun t => sumWords (gs.map (fun g => one g t)))

end Sys2Proof.Machine
end

