-- ==== Sys2Proof/Tests/Slice0.lean ====
section
/-!
SUPPORT. Tests: which commands are well-formed, figures the spec works out by hand, and for each statement with hypotheses states
and operands that meet all of them together (`wit_<clause>`; where a clause distinguishes cases, one state for each).
-/

namespace Sys2Proof.Tests

open Sys2Proof Sys2Proof.Machine

set_option Elab.async false

/-! ### States -/

/-- A running device in READY, the Mainland up, an open session of each role on it. -/
def ready : State :=
  { dev := { pwr := { phase := .running, pwrOk := true, base := 2, biasDone := true }, cat := { ctlOk := true },
             clk := { ps := 10 ^ 15, mer := 5 * 2 ^ 112 },
             alm := [(P.pwrState, 2), (P.mlLinkWidth, 1), (P.railStatus, 2 ^ 25 - 1), (P.biasOutputState, 1)],
             ses := { h := [{ st := 2, role := 0 }, { st := 2, role := 1 }, { st := 2, role := 2 }, {}] } } }

/-- The sessions of `ready`: operator, installer, maker. -/
def wO : Who := ⟨0, 0⟩
def wI : Who := ⟨0, 1⟩
def wM : Who := ⟨0, 2⟩

/-- A state with its device changed. -/
def mod (s : State) (f : Dev → Dev) : State := { s with dev := f s.dev }

/-- A state with parameters changed. -/
def put (s : State) (l : List (Nat × Nat)) : State := mod s (·.wAll l)

/-- Credit open on all channels of all ports. -/
def credit (s : State) : State :=
  mod s (fun d => { d with port := d.port.map (fun p => { p with ch := p.ch.map (fun c => { c with opened := true, limit := 100000, limitSent := 200000 }) }) })

/-- Every unit ACTIVE. -/
def units : State := put ready [(P.pwrState, 3), (P.pwrActiveMask, 63)]

/-- The header of a message in sequence. -/
def mh (port vc : Nat) : Hdr :=
  { port := port, vc := vc, resp := false, island := if port = 0 then 0 else 0xFE, seq := 0, crcOk := true }

/-- Two Strait ports and the Mainland up, the Mainland trusted, with and without an Archipelago. -/
def netted : State := put (credit units) [(P.stLinkWidth, 4), (P.stLinkWidth + 1, 4), (P.mainlandTrust, 1), (P.archIslandNumber, 2)]
def mainl : State := put (credit units) [(P.mainlandTrust, 1)]

/-! ### Well-formed commands: for each check a command at the edge of what it takes, and one just beyond (WellFormed.lean) -/

theorem test_wf_takes :
    ([.chartPinsSample 0 3 true,
     .bootRetry 0 [⟨3, 1, true⟩],
     .biasParkLoad 0 [true, true, true, true, true] [true, true, true, true, true],
     .railFault 0 2,
     .resetCommand 0 ⟨1, 0xFF⟩ (2 ^ 8 - 1),
     .wakeFieldFrame 0 63,
     .trigInEdge 0 true 9999,
     .unitActivationStart 0 5,
     .coreTakeover 0 15,
     .rxRetiredMaskClear 0 ⟨1, 0xFF⟩ (2 ^ 16 - 1),
     .interleaveSkewLimit 0 63 0,
     .rxClip 0 1 63 0,
     .rxPathDisable 0 ⟨1, 0xFF⟩ 1 (2 ^ 64 - 1),
     .threshEventWindowEnd 0 1 63 1,
     .catalogueFetch 0 1 (2 ^ 23 - 1) ⟨.ok, 3⟩,
     .catalogueOpComplete ⟨0, [2 ^ 30 - 1]⟩,
     .attachComplete 0 ⟨[], .ok, 3⟩,
     .refreshWriteback 0 1 ⟨2 ^ 23 - 1, .uncorrectable, 3⟩,
     .catalogueOpWrite 0 ⟨4, 3, false, 255, 65535, true⟩ (List.replicate 9216 0),
     .slotPlanDeadline 0 1 (2 ^ 64 - 1),
     .sentinelDetection 0 [0, 1, 2, 3] [2, 2, 2, 2] [1, 1, 1, 1] 0,
     .sentinelReplaySend 0 3008 ⟨.ok, 2 ^ 21 - 1⟩,
     .burstStart 0 3,
     .synthLock 0 11,
     .rfctlEdge 0 31 true,
     .dpdComputeDone 0 63 0 0 (List.replicate 448 (0, 0)),
     .collimRequest 0 ⟨1, 0xFF⟩ (2 ^ 1 - 1),
     .biasWrite 0 ⟨1, 0xFF⟩ 79 (2 ^ 40 - 1),
     .biasRangeChange 0 ⟨1, 0xFF⟩ 4 (2 ^ 40 - 1),
     .hkLimitWindowEnd 0 63 true,
     .ptpFollowUp 0 65535 ⟨2 ^ 48 - 1, 2 ^ 32 - 1, -(2 ^ 63)⟩,
     .timeSourceLost 0 5,
     .timeSetTime 0 ⟨1, 0xFF⟩ (2 ^ 64 - 1) (2 ^ 40 - 1),
     .ephWrite 0 ⟨1, 0xFF⟩ (List.replicate 24 0),
     .ephCancel 0 ⟨1, 0xFF⟩ 65535,
     .ephPrepare 0 1023,
     .laneDetectStep 0 23,
     .laneCapsDone 0 23 (List.replicate 32 0),
     .laneFrame 0 23 (List.replicate 4096 true),
     .laneMaxRateWrite 0 ⟨1, 0xFF⟩ 4 (2 ^ 8 - 1),
     .laneMarginScan 0 ⟨1, 0xFF⟩ (2 ^ 32 - 1),
     .creditReceive 0 4 (List.replicate 8 0),
     .creditSend 0 4 3,
     .routedForward 0 ⟨4, 3, false, 255, 65535, true⟩ 255 255 (List.replicate 9216 0),
     .dmaStart 0 ⟨1, 0xFF⟩ 15 (2 ^ 40 - 1),
     .transitCondOccurrence 0 7 0 0 0,
     .transitRecordComplete 0 (2 ^ 40 - 1) [],
     .almanacRead 0 ⟨1, 3, 255⟩ ⟨65535, 255, 65535, 65535, []⟩,
     .almanacReadBlock 0 ⟨1, 3, 255⟩ (List.replicate 64 ⟨0, 0, 0, 0, []⟩),
     .fieldRequestSegment 0 63 255 1023 (List.replicate 64 0),
     .sessionChallengeTimeout 0 3,
     .sessionLockoutEnd 0 1,
     .updChunk 0 ⟨1, 0xFF⟩ (2 ^ 32 - 1) (List.replicate 8192 0),
     .eventPendingClear 0 ⟨1, 0xFF⟩ (List.replicate 16 0),
     .bgStarved 0 7] : List Instr).all Instr.wf = true := by decide +kernel

theorem test_wf_refuses :
    ([.chartPinsSample 0 4 true,
     .bootRetry 0 [⟨4, 0, true⟩],
     .biasParkLoad 0 [true] [true, true, true, true, true],
     .biasParkLoad 0 [true, true, true, true, true] [true],
     .railFault 0 1,
     .resetCommand 0 ⟨2, 0⟩ (2 ^ 8 - 1),
     .resetCommand 0 ⟨1, 0xFF⟩ (2 ^ 8),
     .wakeFieldFrame 0 64,
     .trigInEdge 0 true 10000,
     .unitActivationStart 0 6,
     .coreTakeover 0 16,
     .rxRetiredMaskClear 0 ⟨1, 0xFF⟩ (2 ^ 16),
     .interleaveSkewLimit 0 64 0,
     .rxClip 0 2 63 0,
     .rxPathDisable 0 ⟨1, 0xFF⟩ 1 (2 ^ 64),
     .threshEventWindowEnd 0 1 63 2,
     .catalogueFetch 0 1 (2 ^ 23) ⟨.ok, 3⟩,
     .catalogueFetch 0 1 (2 ^ 23 - 1) ⟨.ok, 4⟩,
     .catalogueOpComplete ⟨0, [2 ^ 30]⟩,
     .attachComplete 0 ⟨[], .ok, 4⟩,
     .refreshWriteback 0 1 ⟨2 ^ 23, .uncorrectable, 3⟩,
     .catalogueOpWrite 0 ⟨0, 4, false, 0, 0, true⟩ (List.replicate 9216 0),
     .catalogueOpWrite 0 ⟨4, 3, false, 255, 65535, true⟩ (List.replicate 9217 0),
     .slotPlanDeadline 0 1 (2 ^ 64),
     .sentinelDetection 0 [0, 4] [2, 2] [1, 1] 0,
     .sentinelDetection 0 [0, 1] [2] [1, 1] 0,
     .sentinelReplaySend 0 3009 ⟨.ok, 0⟩,
     .sentinelReplaySend 0 3008 ⟨.ok, 2 ^ 21⟩,
     .burstStart 0 4,
     .synthLock 0 12,
     .rfctlEdge 0 32 true,
     .dpdComputeDone 0 63 0 0 (List.replicate 447 (0, 0)),
     .collimRequest 0 ⟨1, 0xFF⟩ (2 ^ 1),
     .biasWrite 0 ⟨1, 0xFF⟩ 80 (2 ^ 40 - 1),
     .biasWrite 0 ⟨1, 0xFF⟩ 79 (2 ^ 40),
     .biasRangeChange 0 ⟨1, 0xFF⟩ 5 (2 ^ 40 - 1),
     .hkLimitWindowEnd 0 64 true,
     .ptpFollowUp 0 65536 ⟨0, 0, 0⟩,
     .ptpFollowUp 0 65535 ⟨2 ^ 48, 0, 0⟩,
     .ptpDelayResp 0 65535 ⟨0, 0, 2 ^ 63⟩ 0,
     .timeSourceLost 0 6,
     .timeSetTime 0 ⟨1, 0xFF⟩ (2 ^ 64) (2 ^ 40 - 1),
     .timeSetTime 0 ⟨1, 0xFF⟩ (2 ^ 64 - 1) (2 ^ 40),
     .ephWrite 0 ⟨1, 0xFF⟩ (List.replicate 23 0),
     .ephCancel 0 ⟨1, 0xFF⟩ 65534,
     .ephPrepare 0 1024,
     .laneDetectStep 0 24,
     .laneCapsDone 0 23 (List.replicate 31 0),
     .laneFrame 0 23 (List.replicate 4095 true),
     .laneMaxRateWrite 0 ⟨1, 0xFF⟩ 5 (2 ^ 8 - 1),
     .laneMarginScan 0 ⟨1, 0xFF⟩ (2 ^ 32),
     .creditReceive 0 4 (List.replicate 7 0),
     .creditSend 0 4 4,
     .routedForward 0 ⟨4, 3, false, 255, 65535, true⟩ 256 255 (List.replicate 9216 0),
     .routedForward 0 ⟨4, 3, false, 255, 65535, true⟩ 255 256 (List.replicate 9216 0),
     .dmaStart 0 ⟨1, 0xFF⟩ 16 (2 ^ 40 - 1),
     .transitCondOccurrence 0 8 0 0 0,
     .transitRecordComplete 0 (2 ^ 40) [],
     .almanacRead 0 ⟨1, 3, 256⟩ ⟨65535, 255, 65535, 65535, []⟩,
     .almanacRead 0 ⟨1, 3, 255⟩ ⟨65536, 0, 0, 0, []⟩,
     .almanacReadBlock 0 ⟨1, 3, 255⟩ (List.replicate 65 ⟨0, 0, 0, 0, []⟩),
     .fieldRequestSegment 0 63 256 1023 (List.replicate 64 0),
     .fieldRequestSegment 0 63 255 1024 (List.replicate 64 0),
     .fieldRequestSegment 0 63 255 1023 (List.replicate 65 0),
     .sessionChallengeTimeout 0 4,
     .sessionLockoutEnd 0 2,
     .updChunk 0 ⟨1, 0xFF⟩ (2 ^ 32) (List.replicate 8192 0),
     .updChunk 0 ⟨1, 0xFF⟩ (2 ^ 32 - 1) (List.replicate 8191 0),
     .eventPendingClear 0 ⟨1, 0xFF⟩ (List.replicate 15 0),
     .bgStarved 0 8] : List Instr).all (fun c => !c.wf) = true := by decide +kernel

theorem test_wf_records :
    ([.bootComplete 0 ⟨[⟨3, 1, true⟩], 2 ^ 32 - 1, [], 0, 2 ^ 12 - 1⟩, .slotBoundary 0 ⟨[⟨1, 5, [List.replicate 64 0]⟩], []⟩,
      .ulDataSend 0 ⟨9, 1, 7, 0, [[2 ^ 40 - 1]]⟩, .collimRelease 0 ⟨3, [], [], [], [], 0, false⟩,
      .ptpSync 0 ⟨65535, 255, true, 0, ⟨0, 0⟩, 0⟩, .ptpAnnounce 0 ⟨0, 1, 1, 1, 1, 1, 1, 1, 1, 37, false⟩,
      .straitTimeExchange 0 ⟨4, true, 0, ⟨0, 0⟩, ⟨0, 0⟩, ⟨0, 0, 0⟩, ⟨0, 0, 0⟩, none⟩] : List Instr).all Instr.wf = true ∧
    ([.bootComplete 0 ⟨[⟨3, 2, true⟩], 0, [], 0, 0⟩, .bootComplete 0 ⟨[], 2 ^ 32, [], 0, 0⟩, .bootComplete 0 ⟨[], 0, [], 0, 2 ^ 12⟩,
      .slotBoundary 0 ⟨[⟨1, 5, [List.replicate 63 0]⟩], []⟩, .ulDataSend 0 ⟨9, 1, 8, 0, []⟩,
      .collimRelease 0 ⟨4, [], [], [], [], 0, false⟩, .ptpSync 0 ⟨65536, 0, true, 0, ⟨0, 0⟩, 0⟩,
      .ptpAnnounce 0 ⟨256, 1, 1, 1, 1, 1, 1, 1, 1, 37, false⟩,
      .straitTimeExchange 0 ⟨0, true, 0, ⟨0, 0⟩, ⟨0, 0⟩, ⟨0, 0, 0⟩, ⟨0, 0, 0⟩, none⟩] : List Instr).all (fun c => !c.wf) = true := by decide +kernel

/-! ### Figures the spec works out by hand -/

/-- The table gives no row bits. -/
theorem test_no_table_word : decodeTableWord 64 0x1234 = none := by decide

/-- 05_package_memory_catalogue.md, the Kesterby ledger: 24,012.896 MB/s (kB/s here), of which term 4 is 2,000 MB/s. -/
def kesterbyLedger : State :=
  put ready [(P.ledgerPlacementsA, 65536), (P.ledgerRefreshA, 4096), (P.ledgerHoldA, 3125), (P.ledgerDmaRt, 1000),
    (P.ledgerDmaBulk, 2000), (P.bandRateCodeA, 3), (P.chanLog2BinsA, 12), (P.sentinelEnable, 1), (P.sentinelPathMask, 255), (P.transitSource, 1),
    (P.transitPathMask, 2 ^ 64 - 1)]

/-- 04_filters_channelizer.md, group A at 25 MS/s with L = 96, N = 4,096 and o = 1: span 487, S_b = 31, band delay 607.5 ns, bin
delay 655,947.5 ns. -/
def kesterbyBand : Dev :=
  (put ready [(P.bandRateCodeA, 3), (P.firLengthA, 96), (P.chanLog2BinsA, 12), (P.chanOversampleA, 1)]).dev

theorem test_band_delay : kesterbyBand.span 0 = 487 ∧ kesterbyBand.bandSettle 0 = 31 ∧ kesterbyBand.bandDelay 0 = 607500 := by
  decide +kernel

theorem test_bin_delay : kesterbyBand.binDelay 0 = 655947500 := by decide +kernel

/-- 00_scope.md: I = -3,000, Q = +1,234 and SETTLE set make 0xFD_1200_4D21. -/
theorem test_native_word : mkWord (-3000) 1234 1 = 0xFD12004D21 ∧ wordI 0xFD12004D21 = -3000 ∧ wordQ 0xFD12004D21 = 1234 := by
  decide +kernel

/-- 04 (R126): span, band group delay in ps and S_b at 200, 50 and 12.5 MS/s with L = 32, 64 and 96; in wide mode 23 spans and
28.75 ns more. -/
def band (rate len : Nat) : Dev := (put ready [(P.bandRateCodeA, rate), (P.firLengthA, len)]).dev
theorem test_band_table :
    ([(0, 32), (2, 64), (4, 96)].map fun x => let d := band x.1 x.2; (d.span 0, d.bandDelay 0, d.bandSettle 0)) =
      [(109, 135000, 54), (359, 447500, 45), (487, 607500, 16)] ∧
    (let d := { band 1 32 with rx := { wide := true } }; (d.span 0, d.bandDelay 0) = (254, 316250)) := by decide +kernel

/-- 14_meridian_time.md, one exchange between Kesterby islands 0 and 3: the four corrected stamps and theta. -/
def isle0 : Dev := (mod (put ready [(P.laneState + 16, 16), (P.timeBoardDelayStTx + 8, 410)]) (fun d => { d with clk := { d.clk with mer := 0 } })).dev
def isle3 : Dev := (mod (put ready [(P.laneState + 8, 16), (P.timeBoardDelayStTx, 455)]) (fun d => { d with clk := { d.clk with mer := 0 } })).dev
theorem test_stamps :
    isle0.stamp 3 true ⟨10000000, 0⟩ = 10002060 * 2 ^ 40 ∧ isle3.stamp 1 false ⟨10005284, 0⟩ = 10002234 * 2 ^ 40 ∧
    isle3.stamp 1 true ⟨10500000, 0⟩ = 10502105 * 2 ^ 40 ∧ isle0.stamp 3 false ⟨10505005, 0⟩ = 10501955 * 2 ^ 40 ∧
    (let d := (isle3.exchange (10002060 * 2 ^ 40) (10002234 * 2 ^ 40) (10502105 * 2 ^ 40) (10501955 * 2 ^ 40) 8).1
     d.a P.timeMeanPathDelay = 12 ∧ d.a P.timeOffset = 154) := by decide +kernel

/-- 12_bias_outputs.md: in range 1 -2.650 V is code 1,925, which gives -2.64957 V, and -5,000 mV is code 0. -/
theorem test_bias_code : parkCode 1 (ux 16 (-2650)) = 1925 ∧ biasVoltage 1 1925 = -10850000 ∧ parkCode 1 (ux 16 (-5000)) = 0 := by decide +kernel

/-- The cosines and sines of the chain at the 64th parts of a turn are those of the beam transform. -/
theorem test_turns : ((List.range 64).all fun k => turnPair k 6 == (cos64 k, cos64 (k + 48))) = true := by decide +kernel

/-- 07_sentinel_watch.md: 8 sentinel paths give a ring of 1,677,721 records. -/
theorem test_sentinel_ring : kesterbyLedger.dev.ringRecords = 1677721 := by decide +kernel

theorem test_ledger : (List.range 11).map kesterbyLedger.dev.ledgerKb =
    [8388608, 0, 524288, 0, 2000000, 0, 2000000, 8000000, 1000000, 2000000, 100000] := by decide +kernel

theorem test_ledger_total : kesterbyLedger.dev.ledgerTotalKb = 24012896 := by decide +kernel

/-- The same example, raw samples of one quadrant: 48,012.896 MB/s is one unit of 16 MB/s too much. -/
theorem test_ledger_excess :
    (put kesterbyLedger [(P.transitSource, 0), (P.transitPathMask, 0xFFFF)]).dev.ledgerExcess = 1 := by decide +kernel

/-- 08_downlink_transmit.md: DlDataLead is 706.50 us. -/
theorem test_dl_lead : kesterbyBand.dlLeadNs 0 = 706500 := by decide +kernel

/-- The check value of CRC-32C over "123456789" (R475 names the polynomial). -/
theorem test_crc32c : crc32c [0x31, 0x32, 0x33, 0x34, 0x35, 0x36, 0x37, 0x38, 0x39] = 0xE3069283 := by decide +kernel

/-- 06 (R183): with the 8×8 shape and every path's bin sample Q = 1000, beam (0, 0) is 64 · 1000 / 8 and every other beam zero. -/
theorem test_beam_transform :
    ((List.range 3).map fun b => ready.dev.beamWord 0 (2 ^ 64 - 1) 0 b (List.replicate 64 0x3E80)) = [0x1F400, 0, 0] := by decide +kernel

/-- R505, R416, R578: a device without a number and without a root in reach serves FIELD as island 0. -/
theorem test_field_alone :
    let d := (put ready [(P.archIslandNumber, 0xFF), (P.fieldEnable, 1), (P.fieldState, 1)]).dev
    d.fieldOn = true ∧ d.island = 0 ∧
    (put ready [(P.archIslandNumber, 3), (P.fieldEnable, 1), (P.fieldState, 1)]).dev.island = 3 := by decide +kernel

/-- 25 (R665): the balls of four of the supply nets. -/
def allBalls : List Ball := (List.range 53).flatMap (fun r => (List.range 53).map (fun k => ballAt (r + 1) (k + 1)))

theorem test_ball_counts :
    (([.vss, .core, .syn, .io18] : List Net).map (fun n => allBalls.countP (· == .net n))) = [1505, 163, 60, 22] := by decide +kernel

/-- 25: path 37 (TXOUT_P37 at BT34, RXIN_N37 at BN33, FBIN37 at BM34) and S1 lane 2 (AP41 and AU39), of the spec's examples. -/
theorem test_ball_places :
    rowName 53 = ['B', 'T'] ∧ rowName 33 = ['A', 'P'] ∧ ballAt 53 34 = .txout 37 false ∧ ballAt 51 33 = .rxin 37 true ∧
    ballAt 50 34 = .fbin 37 ∧ ballAt 33 41 = .laneTx 14 false ∧ ballAt 35 39 = .laneRx 14 true := by decide +kernel

/-- 26 (R674): the monitor of VDD_CORE inside its range, within 2 % of nominal beyond it, and further out. -/
theorem test_rail_monitor :
    ([7725, 7800, 7876, 7100].map fun v => (railSpecs.getD 1 ⟨0, none, 0, 0⟩).monitor v) =
      [some true, none, some false, some false] := by decide +kernel

/-! ### Rules -/

namespace Rules

def y1 (s : State) (h : Nat := 1) : Ses := ((s.at_ 5).sesOn 0 h).getD {}
def sn (l : List (Nat × Nat) := []) : State := mod (put units ([(P.sentinelEnable,1),(P.sentinelTriggerMode,0),(P.sentinelSeqEnable,15),(P.wakeSourceMask,0)] ++ l)) (fun d => { d with sen := { d.sen with startAt := some 0 } })
def sq : List Nat := [0, 1]
def nu : List Nat := [0, 10]
def de : List Nat := [10, 10]
def fields : State := mod mainl (fun d => d)
def qa (ses : Nat) : Req := ⟨0,ses,42⟩
def rfz (s : State) (l : List Item) (y : Ses) : OpEnd := (((s.at_ 5).desk (reqOp (qa 1) 4 l)).writeRefused s.mem (reqOp (qa 1) 4 l) y.role (4 * y.role + y.slot) ([], false)).getD { status := 77, dev := {} }
def l1 : List Item := [writeItem P.hkCheckTolerance 0 [5], writeItem P.resetCommand 0 [3]]
def l2 : List Item := [writeItem P.ephWrite 0 (List.replicate 24 1)]

theorem wit_resetValue :
   (let s : State := mainl; let dt : Nat := 5; let value : Nat := 0xA5; let w : Who := wI
    let y : Ses := (y1 mainl)
    value < 256 ∧ ((((s.at_ dt).free 742 32).2.serves (s.rowOp dt w (writeItem P.resetCommand 0 [value]) {}) = true) ∧
    (((s.at_ dt).free 742 32).2.sesOn w.port w.ses = some y) ∧
    (itemStatus y.role true (writeItem P.resetCommand 0 [value]) = 0) ∧ s.dev.pwr.phase ≠ .restricted) ∧ value = 0xA5) ∧
   (let s : State := mainl; let dt : Nat := 5; let value : Nat := 0xA4; let w : Who := wI
    let y : Ses := (y1 mainl)
    value < 256 ∧ ((((s.at_ dt).free 742 32).2.serves (s.rowOp dt w (writeItem P.resetCommand 0 [value]) {}) = true) ∧
    (((s.at_ dt).free 742 32).2.sesOn w.port w.ses = some y) ∧
    (itemStatus y.role true (writeItem P.resetCommand 0 [value]) = 0) ∧ s.dev.pwr.phase ≠ .restricted)) := by decide +kernel

theorem wit_holdoff :
   (let s : State := sn; let dt : Nat := 5; let back : Nat := 0; let sq : List Nat := sq; let num : List Nat := nu; let den : List Nat := de
    let ms : List (Nat × Nat) := metricsOf sq num den
    let d := s.at_ dt
    d.up = true ∧ s.dev.sen.startAt.isSome = true ∧ s.dev.sen.holdTill ≤ d.now ∧ (d.detects ms back).isSome = true) ∧
   (let s : State := mod sn (fun d => { d with sen := { d.sen with holdTill := 10 ^ 16 } }); let dt : Nat := 5
    let d := s.at_ dt
    d.now < s.dev.sen.holdTill) := by decide +kernel

end Rules

/-! ### Resets -/

namespace Resets

def rst : State := State.reset
def bootin : BootIn := { images := [], openWires := 0, fuseBad := [], schema := 0, keyBad := 0 }
def booting : State := mod ready (fun d => { d with pwr := { d.pwr with phase := .booting, kind := 0, biasDone := false } })
def deep : State := mod (put ready [(P.pwrState,0),(P.wakeSourceMask,255)]) (fun d => { d with pwr := { d.pwr with base := 0 } })

theorem wit_powerOnReset :
    let br : Bool := false
    br = false := by decide +kernel

theorem wit_pwrOkRise :
   (let s : State := rst
    s.dev.pwr.phase = .inReset ∧ s.dev.pwr.resetN = true) ∧
   (let s : State := ready
    (¬ (s.dev.pwr.phase = .inReset ∧ s.dev.pwr.resetN = true))) := by decide +kernel

theorem wit_pwrOkFall :
    let s : State := units
    s.dev.pwr.pwrOk = true ∧ s.dev.pwr.phase ≠ .inReset := by decide +kernel

theorem wit_resetNAssert :
   (let s : State := units
    s.dev.pwr.phase ≠ .inReset) ∧
   (let s : State := rst
    s.dev.pwr.phase = .inReset) := by decide +kernel

theorem wit_resetNRelease :
   (let s : State := (mod rst (fun d => { d with pwr := { d.pwr with pwrOk := true, resetN := false } }))
    s.dev.pwr.phase = .inReset ∧ s.dev.pwr.pwrOk = true) ∧
   (let s : State := ready
    (¬ (s.dev.pwr.phase = .inReset ∧ s.dev.pwr.pwrOk = true))) := by decide +kernel

theorem wit_coreBrownout :
    let s : State := units
    s.dev.pwr.pwrOk = true ∧ s.dev.pwr.phase ≠ .inReset := by decide +kernel

theorem wit_watchdogExpiry :
    let s : State := units; let dt : Nat := 5
    (s.at_ dt).up = true := by decide +kernel

theorem wit_chartPinsSample :
   (let s : State := booting; let rootLow : Bool := true
    s.dev.pwr.phase = .booting ∧ s.dev.samplesPins = true ∧ s.dev.pwr.sampled = false ∧ rootLow = true) ∧
   (let s : State := booting; let rootLow : Bool := false
    s.dev.pwr.phase = .booting ∧ s.dev.samplesPins = true ∧ s.dev.pwr.sampled = false ∧ rootLow = false) := by decide +kernel

theorem wit_packageMemoryInitDone :
   (let s : State := booting; let ok : Bool := true
    s.dev.pwr.phase = .booting ∧ s.dev.losesMem = true ∧ s.dev.pwr.memDone = false ∧ ok = true) ∧
   (let s : State := booting; let ok : Bool := false
    s.dev.pwr.phase = .booting ∧ s.dev.losesMem = true ∧ s.dev.pwr.memDone = false ∧ ok = false) := by decide +kernel

theorem wit_bootComplete :
    let s : State := (mod booting (fun d => { d with pwr := { d.pwr with sampled := true, memDone := true } }))
    let dt : Nat := 5; let b : BootIn := bootin
    (s.at_ dt).bootReady = true ∧ (s.dev.fus.lifecycle = 1 ∨ s.dev.fus.lifecycle = 2) ∧ s.a P.updStage = 0 ∧
    (∀ c, c < 4 → imagePasses b.images c (s.dev.upd.slots.getD c 0) = true) ∧ s.dev.pwr.railBad = 0 ∧
    s.dev.thm.shut = false := by decide +kernel

theorem wit_bootRetry :
    let s : State := (mod ready (fun d => { d with pwr := { d.pwr with phase := .noImage } }))
    let dt : Nat := 5
    s.dev.pwr.phase = .noImage ∧ (s.dev.fus.lifecycle = 1 ∨ s.dev.fus.lifecycle = 2) ∧
    s.dev.pwr.releasedAt + 10 ^ 13 ≤ (s.at_ dt).now := by decide +kernel

theorem wit_biasParkLoad :
    let s : State := (put (mod booting (fun d => d)) [(P.biasOutputState,0)])
    s.dev.pwr.pwrOk = true ∧ s.dev.pwr.biasDone = false := by decide +kernel

theorem wit_biasClampEngage :
    let s : State := (mod units (fun d => { d with pwr := { d.pwr with pwrOk := false } }))
    s.dev.pwr.pwrOk = false := by decide +kernel

theorem wit_railFault :
   (let s : State := units; let rail : Nat := 4
    isRail rail = true ∧ s.dev.pwr.pwrOk = true ∧ bit s.dev.pwr.railBad rail = false ∧
    (s.dev.pwr.phase = .running ∨ s.dev.pwr.phase = .shutdown)) ∧
   (let s : State := booting; let rail : Nat := 4
    isRail rail = true ∧ s.dev.pwr.pwrOk = true ∧ bit s.dev.pwr.railBad rail = false ∧ s.dev.pwr.phase = .booting) ∧
   (let s : State := (mod ready (fun d => { d with pwr := { d.pwr with phase := .shutdown } }))
    let rail : Nat := 4
    isRail rail = true ∧ s.dev.pwr.pwrOk = true ∧ bit s.dev.pwr.railBad rail = false) := by decide +kernel

theorem wit_railRecovered :
    let s : State := (put (mod ready (fun d => { d with pwr := { d.pwr with railBad := 16 } })) [(P.biasParkCause,2),(P.biasParkCause+4,3)])
    let rail : Nat := 4
    rail < 25 ∧ s.dev.pwr.railBad ≠ 0 := by decide +kernel

theorem wit_refclkLost :
   (let s : State := units
    s.dev.clk.onLpo = false ∧ s.dev.pwr.phase = .running) ∧
   (let s : State := booting
    s.dev.clk.onLpo = false ∧ s.dev.pwr.phase = .booting) ∧
   (let s : State := (mod ready (fun d => { d with pwr := { d.pwr with phase := .shutdown } }))
    s.dev.clk.onLpo = false ∧ s.dev.pwr.phase = .shutdown) := by decide +kernel

theorem wit_refclkRestored :
   (let s : State := (mod ready (fun d => { d with clk := { d.clk with onLpo := true } }))
    s.dev.clk.onLpo = true ∧ s.dev.eph.ent = [] ∧ s.dev.pwr.phase = .running) ∧
   (let s : State := (mod ready (fun d => { d with clk := { d.clk with onLpo := true }, pwr := { d.pwr with phase := .waitRefclk } }))
    s.dev.clk.onLpo = true ∧ s.dev.eph.ent = [] ∧ s.dev.pwr.phase = .waitRefclk) := by decide +kernel

theorem wit_pllUnlock :
   (let s : State := units; let dt : Nat := 5; let conv : Bool := true
    (s.at_ dt).up = true ∧ s.dev.pllBad conv = false ∧ conv = true) ∧
   (let s : State := units; let dt : Nat := 5; let conv : Bool := false
    (s.at_ dt).up = true ∧ s.dev.pllBad conv = false) := by decide +kernel

theorem wit_pllRelock :
   (let s : State := (mod units (fun d => { d with pwr := { d.pwr with coreBad := true } }))
    let conv : Bool := false
    s.dev.pllBad conv = true ∧ s.dev.eph.ent = []) ∧
   (let s : State := (mod units (fun d => { d with pwr := { d.pwr with convBad := true } }))
    let conv : Bool := true
    s.dev.pllBad conv = true ∧ s.dev.eph.ent = []) := by decide +kernel

theorem wit_pllRelockFail :
   (let s : State := (mod units (fun d => { d with pwr := { d.pwr with convBad := true } }))
    let conv : Bool := true
    s.dev.pllBad conv = true ∧ s.dev.pllTries conv < 2) ∧
   (let s : State := (mod units (fun d => { d with pwr := { d.pwr with convBad := true, pllFails := 8 } }))
    let conv : Bool := true
    s.dev.pllBad conv = true ∧ 2 ≤ s.dev.pllTries conv) ∧
   (let s : State := (mod units (fun d => { d with pwr := { d.pwr with coreBad := true, pllFails := 2 } }))
    let conv : Bool := false
    s.dev.pllBad conv = true) := by decide +kernel

theorem wit_syncEdge :
    let s : State := (put units [(P.syncoEnable,1),(P.syncAction,1)])
    s.dev.clk.onLpo = false ∧ s.dev.pwr.phase = .running ∧ s.a P.syncoEnable = 1 ∧ s.a P.syncAction = 1 ∧
    s.a P.pwrState ≠ 0 := by decide +kernel

theorem wit_syncoForward :
   (let s : State := (put (mod units (fun d => { d with pwr := { d.pwr with syncoPend := [1,2] } })) [(P.syncoEnable,1)])
    let dt : Nat := 5; let at_ : Nat := 1; let rest : List Nat := [2]
    s.dev.pwr.syncoPend = at_ :: rest ∧ at_ ≤ (s.at_ dt).now ∧ s.a P.syncoEnable = 1) ∧
   (let s : State := (put (mod units (fun d => { d with pwr := { d.pwr with syncoPend := [1,2] } })) [(P.syncoEnable,0)])
    let dt : Nat := 5; let at_ : Nat := 1; let rest : List Nat := [2]
    s.dev.pwr.syncoPend = at_ :: rest ∧ at_ ≤ (s.at_ dt).now ∧ s.a P.syncoEnable ≠ 1) := by decide +kernel

theorem wit_syncMissing :
    let s : State := (put (mod units (fun d => { d with pwr := { d.pwr with syncLast := some 1 } })) [(P.syncExpectPeriod,10)])
    let dt : Nat := 5; let last : Nat := 1
    s.dev.pwr.syncLast = some last ∧ s.a P.syncExpectPeriod ≠ 0 ∧
    last + (s.dev.pwr.syncMissed + 1) * s.a P.syncExpectPeriod * 10 ^ 6 + 10 ^ 6 ≤ (s.at_ dt).now := by decide +kernel

theorem wit_pwrIdleTimeout :
    let s : State := (put (mod ready (fun d => { d with pwr := { d.pwr with idleSince := some 1 } })) [(P.pwrIdleTimeout,10),(P.pwrIdleState,1)])
    let dt : Nat := 5; let since : Nat := 1
    s.dev.pwr.phase = .running ∧ s.a P.pwrIdleTimeout ≠ 0 ∧ s.dev.pwr.idleSince = some since ∧
    since + s.a P.pwrIdleTimeout * 10 ^ 6 ≤ (s.at_ dt).now ∧ (s.at_ dt).idleNow = true ∧ s.dev.pwr.jobs = [] ∧
    s.dev.pwr.base = 2 ∧ s.a P.pwrIdleState = 1 := by decide +kernel

theorem wit_wakeMl0Signal :
    let s : State := deep
    s.dev.mayWake = true ∧ bit (s.a P.wakeSourceMask) 3 = true ∧ s.a P.pwrActiveMask = 0 ∧ s.dev.pwr.base = 0 ∧
    s.dev.pwr.jobs = [] := by decide +kernel

theorem wit_wakeFieldFrame :
    let s : State := (put deep [(P.archIslandNumber,3),(P.fieldEnable,1)]); let island : Nat := 3
    s.dev.mayWake = true ∧ bit (s.a P.wakeSourceMask) 2 = true ∧ s.a P.pwrActiveMask = 0 ∧ s.dev.pwr.base = 0 ∧
    s.dev.pwr.jobs = [] ∧ s.dev.numbered = true ∧ s.a P.fieldEnable = 1 ∧ island = s.dev.island := by decide +kernel

theorem wit_trigInEdge :
    let s : State := deep
    s.dev.mayWake = true ∧ bit (s.a P.wakeSourceMask) 4 = true ∧ s.a P.pwrActiveMask = 0 ∧ s.dev.pwr.base = 0 ∧
    s.dev.pwr.jobs = [] ∧ s.dev.traSt ≠ 1 := by decide +kernel

theorem wit_stateEntered :
   (let s : State := (mod units (fun d => { d with pwr := { d.pwr with jobs := [⟨2,1,5⟩] } }))
    let j : Job := ⟨2,1,5⟩; let rest : List Job := []
    s.dev.pwr.jobs = j :: rest ∧ j.kind = 2 ∧ (¬ (3 ≤ j.kind ∧ j.arg = 0))) ∧
   (let s : State := (mod ready (fun d => { d with pwr := { d.pwr with jobs := [⟨3,0,5⟩] } }))
    let j : Job := ⟨3,0,5⟩; let rest : List Job := []
    s.dev.pwr.jobs = j :: rest ∧ j.kind = 3 ∧ j.arg = 0) ∧
   (let s : State := (mod ready (fun d => { d with pwr := { d.pwr with jobs := [⟨3,1,5⟩] } }))
    let j : Job := ⟨3,1,5⟩; let rest : List Job := []
    s.dev.pwr.jobs = j :: rest) ∧
   (let s : State := (mod ready (fun d => { d with pwr := { d.pwr with jobs := [⟨0,2,5⟩] } }))
    let j : Job := ⟨0,2,5⟩; let rest : List Job := []
    s.dev.pwr.jobs = j :: rest) := by decide +kernel

theorem wit_unitActivationStart :
    let s : State := (mod ready (fun d => { d with col := { d.col with win := some (0, 10^19) } }))
    let dt : Nat := 5; let unit : Nat := 0
    unit < 6 ∧ (s.at_ dt).up = true ∧ (s.at_ dt).unitDue unit = true ∧ s.dev.active unit = false ∧
    bit s.dev.bringing unit = false ∧ (2 ≤ unit → s.dev.txHeld (unit - 2) = false) ∧ s.dev.pwr.jobs = [] ∧
    s.dev.pwr.base = 2 := by decide +kernel

theorem wit_resetCommand :
    let s : State := units; let dt : Nat := 5; let w : Who := wI
    s.takes dt w (writeItem P.resetCommand 0 [0xA5]) {} := by decide +kernel

theorem wit_pwrRequestState :
   (let s : State := ready; let dt : Nat := 5; let value : Nat := 2; let w : Who := wO
    s.takes dt w (writeItem P.pwrRequestState 0 [value]) {} ∧ s.dev.pwr.base = 2 ∧ s.dev.pwr.jobs = [] ∧ value = 2) ∧
   (let s : State := units; let dt : Nat := 5; let value : Nat := 1; let w : Who := wO
    s.takes dt w (writeItem P.pwrRequestState 0 [value]) {} ∧ s.dev.pwr.base = 2 ∧ s.dev.pwr.jobs = [] ∧ value < 2 ∧
    s.a P.pwrActiveMask ≠ 0) ∧
   (let s : State := ready; let dt : Nat := 5; let value : Nat := 1; let w : Who := wO
    s.takes dt w (writeItem P.pwrRequestState 0 [value]) {} ∧ s.dev.pwr.base = 2 ∧ s.dev.pwr.jobs = [] ∧ value = 1 ∧
    s.a P.pwrActiveMask = 0 ∧ s.dev.bringing = 0 ∧ s.dev.col.win = none ∧ s.dev.sen.win = none) := by decide +kernel

end Resets

/-! ### Receive -/

namespace Receive

def q (st : Nat) (tg : Nat := 1) (f : Nat := 0) : State := mod units (fun d => { d with rx := { d.rx with quads := modAt d.rx.quads 3 (fun _ => { stage := st, target := tg, fails := f }) } })

/-- A hand-over of the Ephemeris is due. -/
def handDue : State := mod units (fun d => { d with tim := { d.tim with valid := true }, eph := { d.eph with ent := [(9, ⟨5,0,3,0,1,1,7⟩)] } })

theorem wit_synchronisingReset :
   (let s : State := mod units (fun d => { d with pwr := { d.pwr with syncPend := some 7 } }); let dt : Nat := 5
    let at_ : Nat := 7
    let d := s.at_ dt
    let first := !d.ephHeld && d.eph.ent.any (fun x => x.2.action == 3 && d.ephDue x.2 && d.ephInstant x.2 ≤ at_)
    s.dev.pwr.syncPend = some at_ ∧ at_ ≤ d.now ∧ s.a P.pwrState ≠ 0 ∧ s.a P.syncResetCount + 1 < 2 ^ 32 ∧ first = false) ∧
   (let s : State := mod handDue (fun d => { d with pwr := { d.pwr with syncPend := some (10 ^ 15 + 50000) } })
    let dt : Nat := 5; let at_ : Nat := 10 ^ 15 + 50000
    let d := s.at_ dt
    let first := !d.ephHeld && d.eph.ent.any (fun x => x.2.action == 3 && d.ephDue x.2 && d.ephInstant x.2 ≤ at_)
    s.dev.pwr.syncPend = some at_ ∧ at_ ≤ d.now ∧ s.a P.pwrState ≠ 0 ∧ s.a P.syncResetCount + 1 < 2 ^ 32 ∧ first = true) := by decide +kernel

theorem wit_coreTakeover :
   (let s : State := (q 2); let dt : Nat := 5; let u : Nat := 3
    u < 16 ∧ (s.at_ dt).up = true ∧ (s.dev.rx.quads.getD u {}).stage = 2 ∧ (s.dev.rx.quads.getD u {}).target < 8 ∧
    bit (s.dev.rolesRun u) (s.dev.rx.quads.getD u {}).target = true ∧
    (s.at_ dt).roleSettling u (s.dev.rx.quads.getD u {}).target = false ∧ s.dev.shaped = true) ∧
   (let s : State := (q 2 7); let dt : Nat := 5; let u : Nat := 3
    u < 16 ∧ (s.at_ dt).up = true ∧ (s.dev.rx.quads.getD u {}).stage = 2 ∧ (s.dev.rx.quads.getD u {}).target < 8 ∧
    bit (s.dev.rolesRun u) (s.dev.rx.quads.getD u {}).target = true ∧
    (s.at_ dt).roleSettling u (s.dev.rx.quads.getD u {}).target = false ∧ s.dev.shaped = true) := by decide +kernel

theorem wit_coreCalibrationDone :
   (let s : State := q 1; let dt : Nat := 5; let u : Nat := 3; let res : CoreResult := ⟨2000, -2000, 50, -500, 1000, 1500⟩
    let pass := decide (res.offsetI.natAbs ≤ 2000 ∧ res.offsetQ.natAbs ≤ 2000 ∧ res.gain.natAbs ≤ 50 ∧ res.phase.natAbs ≤ 500 ∧ res.skew.natAbs ≤ 1000 ∧ res.inl.natAbs ≤ 1500)
    u < 16 ∧ (s.at_ dt).up = true ∧ (s.dev.rx.quads.getD u {}).stage = 1 ∧ s.dev.shaped = true ∧ pass = true) ∧
   (let s : State := q 1; let dt : Nat := 5; let u : Nat := 3; let res : CoreResult := ⟨2001, 0, 0, 0, 0, 0⟩
    let pass := decide (res.offsetI.natAbs ≤ 2000 ∧ res.offsetQ.natAbs ≤ 2000 ∧ res.gain.natAbs ≤ 50 ∧ res.phase.natAbs ≤ 500 ∧ res.skew.natAbs ≤ 1000 ∧ res.inl.natAbs ≤ 1500)
    u < 16 ∧ (s.at_ dt).up = true ∧ (s.dev.rx.quads.getD u {}).stage = 1 ∧ s.dev.shaped = true ∧ pass = false ∧
    (s.dev.rx.quads.getD u {}).fails < 2) ∧
   (let s : State := q 1 1 2; let dt : Nat := 5; let u : Nat := 3; let res : CoreResult := ⟨2001, 0, 0, 0, 0, 0⟩
    let pass := decide (res.offsetI.natAbs ≤ 2000 ∧ res.offsetQ.natAbs ≤ 2000 ∧ res.gain.natAbs ≤ 50 ∧ res.phase.natAbs ≤ 500 ∧ res.skew.natAbs ≤ 1000 ∧ res.inl.natAbs ≤ 1500)
    u < 16 ∧ (s.at_ dt).up = true ∧ (s.dev.rx.quads.getD u {}).stage = 1 ∧ s.dev.shaped = true ∧ pass = false ∧
    2 ≤ (s.dev.rx.quads.getD u {}).fails) := by decide +kernel

theorem wit_prealignResume :
    let s : State := (q 3); let dt : Nat := 5; let u : Nat := 3
    (s.at_ dt).up = true ∧ (s.dev.rx.quads.getD u {}).stage = 3 ∧ s.dev.shaped = true ∧
    (s.at_ dt).roleSettling u (s.dev.rx.quads.getD u {}).target = false := by decide +kernel

theorem wit_trimStore :
    let s : State := mod units (fun d => { d with rx := { d.rx with trimAt := 999 * 10 ^ 12 - 3600 * 10 ^ 12 } })
    let dt : Nat := 5
    (s.at_ dt).up = true ∧ (s.at_ dt).nvm.deferring = false ∧
    s.dev.rx.trimAt + s.a P.convTrimStorePeriod * 10 ^ 12 ≤ (s.at_ dt).now := by decide +kernel

theorem wit_interleaveSkewLimit :
    let s : State := (put (mod units (fun d => { d with rx := { d.rx with wide := true } })) [(P.interleaveSkewLimit,10)])
    let dt : Nat := 5; let path : Nat := 3; let skew : Nat := 20
    s.dev.wide = true ∧ s.dev.active 0 = true ∧ s.dev.powered 0 path = true ∧ s.a P.interleaveSkewLimit < skew ∧
    (s.dev.x (rateKey 21 path) = 0 ∨ s.dev.x (rateKey 21 path) - 1 + 10 ^ 12 ≤ (s.at_ dt).now) := by decide +kernel

theorem wit_rxClip :
   (let s : State := units; let group : Nat := 0; let path : Nat := 3; let samples : Nat := 7
    isGroup group = true ∧ isPath path = true ∧ samples ≠ 0 ∧ s.dev.chainRuns group path = true) ∧
   (let s : State := units; let group : Nat := 1; let path : Nat := 63; let samples : Nat := 7
    isGroup group = true ∧ isPath path = true ∧ samples ≠ 0 ∧ s.dev.chainRuns group path = true) := by decide +kernel

theorem wit_rxBlocker :
    let s : State := units; let dt : Nat := 5; let path : Nat := 9; let power : Nat := 70000
    (s.at_ dt).up = true ∧ s.a P.rxBlockerThreshold < power ∧
    (s.dev.x (rateKey 31 path) = 0 ∨ s.dev.x (rateKey 31 path) - 1 + 10 ^ 9 ≤ (s.at_ dt).now) := by decide +kernel

theorem wit_firCrossfadeDone :
   (let s : State := put (mod units (fun d => { d with rx := { d.rx with fade := [some (0, 0), none] } })) [(gk P.firBankActiveA 0, 2), (gk P.firBankStateA 0 + 2, 3)]
    let dt : Nat := 5; let group : Nat := 0; let old : Nat := 0; let began : Nat := 0
    isGroup group = true ∧ s.dev.rx.fade.getD group none = some (old, began) ∧
    (s.at_ dt).fadeOutput group began 255 ≤ (s.at_ dt).now ∧ old < 4 ∧ s.a (gk P.firBankActiveA group) < 4 ∧
    old ≠ s.a (gk P.firBankActiveA group)) ∧
   (let s : State := put (mod units (fun d => { d with rx := { d.rx with fade := [none, some (0, 0)] } })) [(gk P.firBankActiveA 1, 2), (gk P.firBankStateA 1 + 2, 3)]
    let dt : Nat := 5; let group : Nat := 1; let old : Nat := 0; let began : Nat := 0
    isGroup group = true ∧ s.dev.rx.fade.getD group none = some (old, began) ∧
    (s.at_ dt).fadeOutput group began 255 ≤ (s.at_ dt).now ∧ old < 4 ∧ s.a (gk P.firBankActiveA group) < 4 ∧
    old ≠ s.a (gk P.firBankActiveA group)) := by decide +kernel

theorem wit_channelizerOverflow :
    let s : State := units; let group : Nat := 1; let path : Nat := 3; let samples : Nat := 7
    isGroup group = true ∧ samples ≠ 0 ∧ s.dev.chainRuns group path = true := by decide +kernel

theorem wit_settleDone :
    let s : State := mod units (fun d => { d with rx := { d.rx with zero := [none, some (5, 2)] } }); let dt : Nat := 5
    let group : Nat := 1; let start : Nat := 5; let cause : Nat := 2
    isGroup group = true ∧ s.dev.rx.zero.getD group none = some (start, cause) ∧ s.dev.active group = true ∧
    start ≤ (s.at_ dt).newestBin group ∧ (s.at_ dt).groupClear group = true := by decide +kernel

theorem wit_threshBlockDone :
   (let s : State := units; let dt : Nat := 5; let group : Nat := 0; let path : Nat := 3; let tagged : Bool := true
    let on := bit (s.dev.contrib group) path
    let spoilt := (tagged || (s.at_ dt).blockSettling group path) && on
    isGroup group = true ∧ isPath path = true ∧ s.dev.groupExists group = true ∧
    (s.dev.active group = true ∨ s.dev.chainRuns group path = true) ∧ (s.at_ dt).blockDue group path = true ∧
    spoilt = true) ∧
   (let s : State := units; let dt : Nat := 5; let group : Nat := 1; let path : Nat := 63; let tagged : Bool := false
    let on := bit (s.dev.contrib group) path
    let spoilt := (tagged || (s.at_ dt).blockSettling group path) && on
    isGroup group = true ∧ isPath path = true ∧ s.dev.groupExists group = true ∧
    (s.dev.active group = true ∨ s.dev.chainRuns group path = true) ∧ (s.at_ dt).blockDue group path = true ∧
    spoilt = false) ∧
   (let s : State := put units [(P.threshRiseA, 10), (P.threshFallA, 5), (P.threshRiseA + 1, 100000), (P.threshFallA + 1, 50000)]
    let dt : Nat := 5; let group : Nat := 0; let path : Nat := 3; let tagged : Bool := false
    let on := bit (s.dev.contrib group) path
    let spoilt := (tagged || (s.at_ dt).blockSettling group path) && on
    isGroup group = true ∧ isPath path = true ∧ s.dev.groupExists group = true ∧
    (s.dev.active group = true ∨ s.dev.chainRuns group path = true) ∧ (s.at_ dt).blockDue group path = true ∧
    spoilt = false) := by decide +kernel

theorem wit_threshEventWindowEnd :
    let s : State := (mod units (fun d => d.wx (auxKey 2 (128 * 0 + 2 * 3 + 0)) (2*7+1))); let dt : Nat := 5
    let group : Nat := 0; let path : Nat := 3; let thr : Nat := 0
    isGroup group = true ∧ s.dev.x (auxKey 2 (128 * group + 2 * path + thr)) ≠ 0 ∧
    s.dev.x (auxKey 2 (128 * group + 2 * path + thr)) / 2 - 1 + 10 ^ 9 ≤ (s.at_ dt).now ∧
    bit (s.a (threshKey group thr)) path ≠ (s.dev.x (auxKey 2 (128 * group + 2 * path + thr)) % 2 == 1) := by decide +kernel

theorem wit_rxPathDisable :
   (let s : State := ready; let dt : Nat := 5; let group : Nat := 0; let mask : Nat := 2 ^ 64 - 2; let w : Who := wI
    isGroup group = true ∧ mask < 2 ^ 64 ∧ s.takes dt w (writeItem (gk P.rxPathEnableA group) 0 [mask]) {} ∧
    s.dev.groupExists group = true ∧ s.dev.active group = false) ∧
   (let s : State := units; let dt : Nat := 5; let group : Nat := 1; let mask : Nat := 2 ^ 64 - 2; let w : Who := wO
    isGroup group = true ∧ mask < 2 ^ 64 ∧ s.takes dt w (writeItem (gk P.rxPathEnableA group) 0 [mask]) {} ∧
    s.dev.groupExists group = true ∧ s.dev.active group = true) := by decide +kernel

theorem wit_rxPathEnable :
   (let s : State := (put ready [(P.rxPathEnableA,0)]); let dt : Nat := 5; let group : Nat := 0
    let mask : Nat := (2^63+1); let w : Who := wI
    isGroup group = true ∧ mask < 2 ^ 64 ∧ s.takes dt w (writeItem (gk P.rxPathEnableA group) 0 [mask]) {}) ∧
   (let s : State := (put ready [(P.rxPathEnableA,0)]); let dt : Nat := 5; let group : Nat := 0
    let mask : Nat := (2^63+1); let w : Who := wO
    isGroup group = true ∧ mask < 2 ^ 64 ∧ s.takes dt w (writeItem (gk P.rxPathEnableA group) 0 [mask]) {}) := by decide +kernel

theorem wit_rxRetiredMaskClear :
   (let s : State := put ready [(P.rxRetiredMask, 7)]; let dt : Nat := 5; let value : Nat := 3; let w : Who := wM
    value < 2 ^ 16 ∧ s.takes dt w (writeItem P.rxRetiredMask 0 [value]) {} ∧ s.dev.shaped = true ∧
    bit (s.a P.rxRetiredMask) 2 = true ∧ bit value 2 = false ∧ s.dev.rolesRun 2 = 0) ∧
   (let s : State := put units [(P.rxRetiredMask, 7)]; let dt : Nat := 5; let value : Nat := 3; let w : Who := wM
    value < 2 ^ 16 ∧ s.takes dt w (writeItem P.rxRetiredMask 0 [value]) {} ∧ s.dev.shaped = true ∧
    bit (s.a P.rxRetiredMask) 2 = true ∧ bit value 2 = false ∧ s.dev.rolesRun 2 ≠ 0) := by decide +kernel

end Receive

/-! ### Catalogue -/

namespace Catalogue

def pl : State := mod units (fun d => { d with ul := { d.ul with plans := [{slot := 30000, group := 0, compact := false, items := [], places := [⟨77,0,1,0,false,0,0⟩]}] } })
def cop (op arg first count : Nat) : List Byte := leBytes 1 op ++ leBytes 1 arg ++ zeros 2 ++ leBytes 4 first ++ leBytes 4 count ++ leBytes 4 9
def vc (b : List Byte) : State := mod mainl (fun d => { d with cat := { d.cat with vc1 := [⟨0,false,tCatOp,b⟩] } })

/-- The same, with entry 77 written. -/
def has77 : State := { pl with mem := Memory.write [] (77 * 128) (bareEntry 77 stAttached 0) }
def wr (c : Nat) : List Byte := cop 1 0 c 1 ++ bareEntry c stAttached 0

theorem wit_catalogueFetch :
   (let s : State := has77; let dt : Nat := 5; let g : Nat := 0; let c : Nat := 77; let slot : Nat := 30000
    let ecc : Ecc := .ok
    (s.at_ dt).fetchSlot g c = some slot ∧ s.a P.memState = 0 ∧ c < 2 ^ 23 ∧ s.mem.wf = true ∧
    (ecc ≠ .uncorrectable ∧ entCat (s.mem.entry c) = c)) ∧
   (let s : State := pl; let dt : Nat := 5; let g : Nat := 0; let c : Nat := 77; let slot : Nat := 30000
    let ecc : Ecc := .uncorrectable
    (s.at_ dt).fetchSlot g c = some slot ∧ s.a P.memState = 0 ∧ c < 2 ^ 23 ∧ s.mem.wf = true ∧
    (¬ (ecc ≠ .uncorrectable ∧ entCat (s.mem.entry c) = c))) ∧
   (let s : State := { pl with mem := Memory.write [] (77 * 128) (bareEntry 78 stAttached 0) }; let dt : Nat := 5
    let g : Nat := 0; let c : Nat := 77; let slot : Nat := 30000; let ecc : Ecc := .ok
    (s.at_ dt).fetchSlot g c = some slot ∧ s.a P.memState = 0 ∧ c < 2 ^ 23 ∧ s.mem.wf = true ∧
    (¬ (ecc ≠ .uncorrectable ∧ entCat (s.mem.entry c) = c))) := by decide +kernel

theorem wit_scrubBurst :
   (let s : State := units; let dt : Nat := 5
    (s.at_ dt).up = true ∧ s.a P.memState = 0 ∧ s.a P.memScrubPosition + 32 < ipmEnd) ∧
   (let s : State := (put units [(P.memScrubPosition, ipmEnd-32)]); let dt : Nat := 5
    (s.at_ dt).up = true ∧ s.a P.memState = 0 ∧ ipmEnd ≤ s.a P.memScrubPosition + 32) := by decide +kernel

theorem wit_scrubCorrected :
    let s : State := units; let dt : Nat := 5
    (s.at_ dt).up = true ∧ s.a P.memState = 0 ∧ s.a P.memScrubPosition + 32 < ipmEnd := by decide +kernel

theorem wit_scrubUncorrectable :
   (let s : State := put units [(P.memScrubPosition, 128 * 9 + 32)]; let dt : Nat := 5
    let a := s.a P.memScrubPosition
    (s.at_ dt).up = true ∧ s.a P.memState = 0 ∧ a < ipmEnd ∧ a % 32 = 0 ∧ s.mem.wf = true ∧ a < catBytes) ∧
   (let s : State := put units [(P.memScrubPosition, catBytes)]; let dt : Nat := 5
    let a := s.a P.memScrubPosition
    (s.at_ dt).up = true ∧ s.a P.memState = 0 ∧ a < ipmEnd ∧ a % 32 = 0 ∧ s.mem.wf = true ∧ catBytes ≤ a) ∧
   (let s : State := put units [(P.memScrubPosition, ipmEnd - 32)]; let dt : Nat := 5
    let a := s.a P.memScrubPosition
    (s.at_ dt).up = true ∧ s.a P.memState = 0 ∧ a < ipmEnd ∧ a % 32 = 0 ∧ s.mem.wf = true ∧ catBytes ≤ a) := by decide +kernel

theorem wit_catgenMramCopy :
    let s : State := units; let dt : Nat := 5
    (s.at_ dt).up = true ∧ (s.at_ dt).nvm.deferring = false := by decide +kernel

theorem wit_catalogueOpClear :
   (let s : State := mainl; let dt : Nat := 5; let h : Hdr := (mh 0 1); let body : List Byte := (cop 2 0 5 1)
    s.hears dt h tCatOp body.length ∧ s.dev.cat.vc1 = [] ∧ (catOp body).op = 2 ∧ (s.at_ dt).catStatus (catOp body) = 0) ∧
   (let s : State := netted; let dt : Nat := 5; let h : Hdr := (mh 1 1); let body : List Byte := (cop 2 0 5 0)
    s.hears dt h tCatOp body.length ∧ s.dev.cat.vc1 = [] ∧ (catOp body).op = 2 ∧ (s.at_ dt).catStatus (catOp body) ≠ 0) := by decide +kernel

theorem wit_catalogueOpRead :
   (let s : State := mainl; let dt : Nat := 5; let h : Hdr := (mh 0 1); let body : List Byte := (cop 3 0 5 1)
    s.hears dt h tCatOp body.length ∧ s.dev.cat.vc1 = [] ∧ (catOp body).op = 3 ∧ (s.at_ dt).catStatus (catOp body) = 0) ∧
   (let s : State := netted; let dt : Nat := 5; let h : Hdr := (mh 1 1); let body : List Byte := (cop 3 0 5 0)
    s.hears dt h tCatOp body.length ∧ s.dev.cat.vc1 = [] ∧ (catOp body).op = 3 ∧ (s.at_ dt).catStatus (catOp body) ≠ 0) := by decide +kernel

theorem wit_catalogueOpSetState :
   (let s : State := mainl; let dt : Nat := 5; let h : Hdr := (mh 0 1); let body : List Byte := (cop 4 1 5 1)
    s.hears dt h tCatOp body.length ∧ s.dev.cat.vc1 = [] ∧ (catOp body).op = 4 ∧ (s.at_ dt).catStatus (catOp body) = 0) ∧
   (let s : State := netted; let dt : Nat := 5; let h : Hdr := (mh 1 1); let body : List Byte := (cop 4 1 5 0)
    s.hears dt h tCatOp body.length ∧ s.dev.cat.vc1 = [] ∧ (catOp body).op = 4 ∧ (s.at_ dt).catStatus (catOp body) ≠ 0) := by decide +kernel

theorem wit_catalogueOpQuery :
   (let s : State := mainl; let dt : Nat := 5; let h : Hdr := (mh 0 1); let body : List Byte := (cop 5 0 0 0)
    s.hears dt h tCatOp body.length ∧ s.dev.cat.vc1 = [] ∧ (catOp body).op = 5 ∧ (s.at_ dt).catStatus (catOp body) = 0) ∧
   (let s : State := (put netted [(P.memState,2)]); let dt : Nat := 5; let h : Hdr := (mh 1 1)
    let body : List Byte := (cop 5 0 5 0)
    s.hears dt h tCatOp body.length ∧ s.dev.cat.vc1 = [] ∧ (catOp body).op = 5 ∧ (s.at_ dt).catStatus (catOp body) ≠ 0) := by decide +kernel

theorem wit_catalogueOpWrite :
   (let s : State := mainl; let dt : Nat := 5; let h : Hdr := (mh 0 1)
    let body : List Byte := (cop 1 0 5 1 ++ (setGen (bareEntry 5 stAttached 0) 0))
    s.hears dt h tCatOp body.length ∧ s.dev.cat.vc1 = [] ∧ (catOp body).op = 1 ∧ (s.at_ dt).catStatus (catOp body) = 0) ∧
   (let s : State := (put netted [(P.memState,2)]); let dt : Nat := 5; let h : Hdr := (mh 1 1)
    let body : List Byte := (cop 1 0 5 1 ++ (setGen (bareEntry 5 stAttached 0) 0))
    s.hears dt h tCatOp body.length ∧ s.dev.cat.vc1 = [] ∧ (catOp body).op = 1 ∧ (s.at_ dt).catStatus (catOp body) ≠ 0) := by decide +kernel

theorem wit_catalogueOpComplete :
   (let s : State := vc (wr 5); let dt : Nat := 5; let x : Vc1 := ⟨0, false, tCatOp, wr 5⟩
    let o := catOp x.body
    s.dev.cat.vc1 = [x] ∧ x.type = tCatOp ∧ (s.at_ dt).catStatus o = 0 ∧ x.port < 5 ∧ s.dev.shaped = true ∧
    (s.at_ dt).quiet = true ∧ s.mem.wf = true ∧ o.op = 1 ∧ o.count = 1) ∧
   (let s : State := vc (cop 2 0 5 3); let dt : Nat := 5; let x : Vc1 := ⟨0, false, tCatOp, cop 2 0 5 3⟩
    let o := catOp x.body
    s.dev.cat.vc1 = [x] ∧ x.type = tCatOp ∧ (s.at_ dt).catStatus o = 0 ∧ x.port < 5 ∧ s.dev.shaped = true ∧
    (s.at_ dt).quiet = true ∧ s.mem.wf = true ∧ o.op = 2) ∧
   (let s : State := vc (cop 3 0 5 3); let dt : Nat := 5; let bad : List Nat := []
    let x : Vc1 := ⟨0, false, tCatOp, cop 3 0 5 3⟩
    let o := catOp x.body
    let hit (c : Nat) : Bool := (o.op == 3 || o.op == 4) && bad.any (fun a => a / 128 == c)
    s.dev.cat.vc1 = [x] ∧ x.type = tCatOp ∧ (s.at_ dt).catStatus o = 0 ∧ x.port < 5 ∧ s.dev.shaped = true ∧
    (s.at_ dt).quiet = true ∧ s.mem.wf = true ∧ o.op = 3 ∧ hit 5 = false) ∧
   (let s : State := vc (cop 3 0 5 3); let dt : Nat := 5; let bad : List Nat := [128 * 6]
    let x : Vc1 := ⟨0, false, tCatOp, cop 3 0 5 3⟩
    let o := catOp x.body
    let hit (c : Nat) : Bool := (o.op == 3 || o.op == 4) && bad.any (fun a => a / 128 == c)
    s.dev.cat.vc1 = [x] ∧ x.type = tCatOp ∧ (s.at_ dt).catStatus o = 0 ∧ x.port < 5 ∧ s.dev.shaped = true ∧
    (s.at_ dt).quiet = true ∧ s.mem.wf = true ∧ o.op = 3 ∧ hit 6 = true) ∧
   (let s : State := vc (cop 4 3 5 3); let dt : Nat := 5; let bad : List Nat := []
    let x : Vc1 := ⟨0, false, tCatOp, cop 4 3 5 3⟩
    let o := catOp x.body
    let hit (c : Nat) : Bool := (o.op == 3 || o.op == 4) && bad.any (fun a => a / 128 == c)
    s.dev.cat.vc1 = [x] ∧ x.type = tCatOp ∧ (s.at_ dt).catStatus o = 0 ∧ x.port < 5 ∧ s.dev.shaped = true ∧
    (s.at_ dt).quiet = true ∧ s.mem.wf = true ∧ o.op = 4 ∧ hit 5 = false) ∧
   (let s : State := vc (cop 4 3 5 3); let dt : Nat := 5; let bad : List Nat := [128 * 5 + 32]
    let x : Vc1 := ⟨0, false, tCatOp, cop 4 3 5 3⟩
    let o := catOp x.body
    let hit (c : Nat) : Bool := (o.op == 3 || o.op == 4) && bad.any (fun a => a / 128 == c)
    s.dev.cat.vc1 = [x] ∧ x.type = tCatOp ∧ (s.at_ dt).catStatus o = 0 ∧ x.port < 5 ∧ s.dev.shaped = true ∧
    (s.at_ dt).quiet = true ∧ s.mem.wf = true ∧ o.op = 4 ∧ hit 5 = true) ∧
   (let s : State := vc (cop 5 0 0 0); let dt : Nat := 5; let x : Vc1 := ⟨0, false, tCatOp, cop 5 0 0 0⟩
    let o := catOp x.body
    s.dev.cat.vc1 = [x] ∧ x.type = tCatOp ∧ (s.at_ dt).catStatus o = 0 ∧ x.port < 5 ∧ s.dev.shaped = true ∧
    (s.at_ dt).quiet = true ∧ s.mem.wf = true ∧ o.op = 5) := by decide +kernel

end Catalogue

/-! ### Uplink -/

namespace Uplink

def seg (slot group seg flags items count total : Nat) : List Byte := leBytes 8 slot ++ leBytes 1 group ++ leBytes 1 seg ++ leBytes 1 flags ++ leBytes 1 items ++ leBytes 2 count ++ zeros 2 ++ leBytes 4 total ++ zeros 12
def lv := mod mainl (fun d => { d with tim := { d.tim with valid := true } })
def pp : PlanPart := {slot := 7, group := 1}
def pb : PlanPart := {slot := 7, group := 1, bad := true}
def lt (p : PlanPart) : State := mod mainl (fun d => { d with tim := { d.tim with valid := true }, ul := { d.ul with part := [p] }, dl := { d.dl with part := [p] } })
def okOut : OutKind := { slot := 4998, group := 0, kind := 2, kept := 4, shed := 0, block := 4, compact := false, sent := 0 }
def pln : Plan := {slot := 4998, group := 0, compact := false, items := [⟨2,0,4,0,0⟩], places := []}
def ods : State := mod mainl (fun d => { d with ul := { d.ul with outs := [okOut], cur := [pln], slot := some 5000 } })
def atb (cat g slot first count : Nat) : List Byte := leBytes 4 cat ++ leBytes 1 g ++ zeros 3 ++ leBytes 8 slot ++ leBytes 2 first ++ leBytes 2 count ++ leBytes 4 9
def va (b : List Byte) (hh : List HoldRec := []) : State := mod mainl (fun d => { d with cat := { d.cat with vc1 := [⟨0,false,tAttach,b⟩] }, ul := { d.ul with holdHist := hh } })
def rf : Refresh := ⟨19999,0,5,0,[],0⟩
def hr : HoldRec := ⟨20000, 0, 0, 1, 1, 0⟩
def at1 : List Byte := atb 5 0 20000 0 1
def pn (slot g : Nat) : Plan := { slot := slot, group := g, compact := false, items := [], places := [] }
def planned (l : List Plan) : State := mod mainl (fun d => { d with ul := { d.ul with plans := l } })
def has5 : State := { mainl with mem := Memory.write [] (5 * 128) (bareEntry 5 stAttached 0) }
def red : Red := { slot := 5000, group := 0, total := 20, block := 5, kept := 5, own := [⟨1, 1, 0, 0⟩] }
def red2 : State := mod (put netted [(P.redState,1),(P.redGroupSize,2),(P.redHeight,1)]) (fun d => { d with arch := { d.arch with red := [red] }, ul := { d.ul with cur := [{ slot := 5000, group := 0, compact := false, items := [], places := [], fwd := true }] } })

theorem wit_slotPlan :
   (let s : State := lv; let dt : Nat := 5; let h : Hdr := (mh 0 1)
    let body : List Byte := (seg 5010 0 0 1 0 0 0)
    let g := segHdr false body
    let mine (x : PlanPart) : Bool := x.is g.slot g.group false
    let x := ({ slot := g.slot, group := g.group } : PlanPart).add false g body
    let rest := (s.dev.parts false).filter (fun y => !mine y)
    let j := (s.heard dt h tSlotPlan body.length).setParts false rest
    s.hears dt h tSlotPlan body.length ∧ 32 ≤ body.length ∧ s.dev.cat.vc1 = [] ∧ s.a P.redState ≠ 1 ∧
    s.a P.redState ≠ 2 ∧ (s.dev.parts false).find? mine = none ∧
    ((s.at_ dt).tim.valid = true → (s.at_ dt).merNs ≤ (s.at_ dt).deadlineNs false g.slot g.group) ∧
    x.complete = true ∧ (if false then j.dlReason x x.plan else j.ulReason x x.plan) = 0 ∧
    j.planTerm false x.plan = none) ∧
   (let s : State := lv; let dt : Nat := 5; let h : Hdr := (mh 0 1)
    let body : List Byte := (seg 5010 0 0 0 0 0 0)
    let g := segHdr false body
    let mine (x : PlanPart) : Bool := x.is g.slot g.group false
    let x := ({ slot := g.slot, group := g.group } : PlanPart).add false g body
    s.hears dt h tSlotPlan body.length ∧ 32 ≤ body.length ∧ s.dev.cat.vc1 = [] ∧ s.a P.redState ≠ 1 ∧
    s.a P.redState ≠ 2 ∧ (s.dev.parts false).find? mine = none ∧
    ((s.at_ dt).tim.valid = true → (s.at_ dt).merNs ≤ (s.at_ dt).deadlineNs false g.slot g.group) ∧ x.complete = false) ∧
   (let s : State := mainl; let dt : Nat := 5; let h : Hdr := (mh 0 1)
    let body : List Byte := (seg 30000 0 0 1 0 1 0)
    let g := segHdr false body
    let mine (x : PlanPart) : Bool := x.is g.slot g.group false
    let x := ({ slot := g.slot, group := g.group } : PlanPart).add false g body
    s.hears dt h tSlotPlan body.length ∧ 32 ≤ body.length ∧ s.dev.cat.vc1 = [] ∧ s.a P.redState ≠ 1 ∧
    s.a P.redState ≠ 2 ∧ (s.dev.parts false).find? mine = none ∧
    ((s.at_ dt).tim.valid = true → (s.at_ dt).merNs ≤ (s.at_ dt).deadlineNs false g.slot g.group) ∧
    x.complete = true ∧ x.bad = true) ∧
   (let s : State := netted; let dt : Nat := 5; let h : Hdr := (mh 1 1)
    let body : List Byte := (seg 30000 0 0 1 0 0 0)
    let g := segHdr false body
    let mine (x : PlanPart) : Bool := x.is g.slot g.group false
    s.hears dt h tSlotPlan body.length ∧ 32 ≤ body.length ∧ s.dev.cat.vc1 = [] ∧ s.a P.redState ≠ 1 ∧
    s.a P.redState ≠ 2 ∧ (s.dev.parts false).find? mine = none ∧
    ((s.at_ dt).tim.valid = true → (s.at_ dt).merNs ≤ (s.at_ dt).deadlineNs false g.slot g.group)) := by decide +kernel

theorem wit_dlPlan :
   (let s : State := lv; let dt : Nat := 5; let h : Hdr := (mh 0 1)
    let body : List Byte := (seg 5010 0 0 1 0 0 0)
    let g := segHdr true body
    let mine (x : PlanPart) : Bool := x.is g.slot g.group false
    let x := ({ slot := g.slot, group := g.group } : PlanPart).add true g body
    let rest := (s.dev.parts true).filter (fun y => !mine y)
    let j := (s.heard dt h tDlPlan body.length).setParts true rest
    s.hears dt h tDlPlan body.length ∧ 32 ≤ body.length ∧ s.dev.cat.vc1 = [] ∧ s.a P.redState ≠ 1 ∧
    s.a P.redState ≠ 2 ∧ (s.dev.parts true).find? mine = none ∧
    ((s.at_ dt).tim.valid = true → (s.at_ dt).merNs ≤ (s.at_ dt).deadlineNs true g.slot g.group) ∧ x.complete = true ∧
    (if true then j.dlReason x x.plan else j.ulReason x x.plan) = 0 ∧ j.planTerm true x.plan = none) ∧
   (let s : State := mainl; let dt : Nat := 5; let h : Hdr := (mh 0 1)
    let body : List Byte := (seg 30000 0 0 0 0 0 0)
    let g := segHdr true body
    let mine (x : PlanPart) : Bool := x.is g.slot g.group false
    let x := ({ slot := g.slot, group := g.group } : PlanPart).add true g body
    s.hears dt h tDlPlan body.length ∧ 32 ≤ body.length ∧ s.dev.cat.vc1 = [] ∧ s.a P.redState ≠ 1 ∧
    s.a P.redState ≠ 2 ∧ (s.dev.parts true).find? mine = none ∧
    ((s.at_ dt).tim.valid = true → (s.at_ dt).merNs ≤ (s.at_ dt).deadlineNs true g.slot g.group) ∧ x.complete = false) ∧
   (let s : State := mainl; let dt : Nat := 5; let h : Hdr := (mh 0 1)
    let body : List Byte := (seg 30000 1 0 1 0 1 0)
    let g := segHdr true body
    let mine (x : PlanPart) : Bool := x.is g.slot g.group false
    let x := ({ slot := g.slot, group := g.group } : PlanPart).add true g body
    s.hears dt h tDlPlan body.length ∧ 32 ≤ body.length ∧ s.dev.cat.vc1 = [] ∧ s.a P.redState ≠ 1 ∧
    s.a P.redState ≠ 2 ∧ (s.dev.parts true).find? mine = none ∧
    ((s.at_ dt).tim.valid = true → (s.at_ dt).merNs ≤ (s.at_ dt).deadlineNs true g.slot g.group) ∧ x.complete = true ∧
    x.bad = true) := by decide +kernel

theorem wit_slotPlanDeadline :
   (let s : State := (lt pp); let dt : Nat := 5; let g : Nat := 1; let slot : Nat := 7; let x : PlanPart := pp
    ((s.dev.parts false).find? (fun y => y.is slot g false) = some x) ∧ x.late = false ∧ (s.at_ dt).tim.valid = true ∧
    (s.at_ dt).deadlineNs false slot g ≤ (s.at_ dt).merNs ∧ x.bad = false) ∧
   (let s : State := (lt pb); let dt : Nat := 5; let g : Nat := 1; let slot : Nat := 7; let x : PlanPart := pb
    ((s.dev.parts false).find? (fun y => y.is slot g false) = some x) ∧ x.late = false ∧ (s.at_ dt).tim.valid = true ∧
    (s.at_ dt).deadlineNs false slot g ≤ (s.at_ dt).merNs ∧ x.bad = true) := by decide +kernel

theorem wit_dlPlanDeadline :
   (let s : State := (lt pp); let dt : Nat := 5; let g : Nat := 1; let slot : Nat := 7; let x : PlanPart := pp
    ((s.dev.parts true).find? (fun y => y.is slot g false) = some x) ∧ x.late = false ∧ (s.at_ dt).tim.valid = true ∧
    (s.at_ dt).deadlineNs true slot g ≤ (s.at_ dt).merNs ∧ x.bad = false) ∧
   (let s : State := (lt pb); let dt : Nat := 5; let g : Nat := 1; let slot : Nat := 7; let x : PlanPart := pb
    ((s.dev.parts true).find? (fun y => y.is slot g false) = some x) ∧ x.late = false ∧ (s.at_ dt).tim.valid = true ∧
    (s.at_ dt).deadlineNs true slot g ≤ (s.at_ dt).merNs ∧ x.bad = true) := by decide +kernel

theorem wit_slotBoundary :
   (let s : State := planned [pn 20000 0, pn 20009 0]; let dt : Nat := 5
    let n := (s.at_ dt).slotNow
    let u := s.dev.ul
    (s.at_ dt).up = true ∧ u.slot ≠ some n ∧ u.slot = none) ∧
   (let s : State := mod (planned [pn 20000 0, pn 20000 1]) (fun d => { d with ul := { d.ul with slot := some 19999, grpOff := 1 } })
    let dt : Nat := 5
    let n := (s.at_ dt).slotNow
    let u := s.dev.ul
    (s.at_ dt).up = true ∧ u.slot ≠ some n) := by decide +kernel

theorem wit_ulDataSend :
    let s : State := ods; let dt : Nat := 5; let x : UlSeg := ⟨4998, 0, 2, 0, [[1], [2]]⟩; let o : OutKind := okOut
    let d := (s.at_ dt).gatherServe.cleanFollow.holdOutputs
    let m := d.homeMsg 3 0x0B false (d.ulMsg o x.offset 0 (d.ulWords o x))
    (x.kind = 1 → d.reduced x.slot x.group = false) ∧
    d.ul.outs.find? (fun o => o.slot == x.slot && o.group == x.group && o.kind == x.kind) = some o ∧ x.offset = o.sent ∧
    x.offset + x.words.length ≤ d.outFormed o ∧ ulShape o.compact x.offset x.words.length = true ∧
    (o.compact = true → x.words.length % 64 = 0 ∨ x.offset + x.words.length = d.outWords o) ∧ d.canSend d.egress m = true ∧
    (s.at_ dt).quiet = true := by decide +kernel

theorem wit_ulDataReduced :
    let s : State := red2; let dt : Nat := 5; let x : UlSeg := ⟨5000, 0, 1, 1, [List.replicate 64 0]⟩; let r : Red := red
    let d := (s.at_ dt).gatherServe.cleanFollow.holdOutputs
    x.kind = 1 ∧ d.reduced x.slot x.group = true ∧ d.redOf x.slot x.group = some r ∧ r.own.length = x.offset ∧
    x.offset + x.words.length ≤ r.total := by decide +kernel

theorem wit_attach :
    let s : State := mainl; let dt : Nat := 5; let h : Hdr := (mh 0 1)
    let body : List Byte := (atb 5 0 20000 0 4)
    s.hears dt h tAttach body.length ∧ s.dev.cat.vc1 = [] := by decide +kernel

theorem wit_attachComplete :
   (let s : State := va (atb 5 0 20000 0 0); let dt : Nat := 5; let x : Vc1 := ⟨0, false, tAttach, atb 5 0 20000 0 0⟩
    let r := attachReq x.body
    let d := s.at_ dt
    s.dev.cat.vc1 = [x] ∧ x.type = tAttach ∧ x.port < 5 ∧ s.dev.shaped = true ∧ d.quiet = true ∧ s.mem.wf = true ∧
    r.count = 0) ∧
   (let s : State := va (atb 5 0 20000 0 4); let dt : Nat := 5; let x : Vc1 := ⟨0, false, tAttach, atb 5 0 20000 0 4⟩
    let r := attachReq x.body
    let d := s.at_ dt
    s.dev.cat.vc1 = [x] ∧ x.type = tAttach ∧ x.port < 5 ∧ s.dev.shaped = true ∧ d.quiet = true ∧ s.mem.wf = true ∧
    (r.count ≠ 0 ∧ r.count ≤ 32768 ∧ r.first + r.count ≤ d.chanN r.group ∧ d.groupExists r.group = true) ∧
    d.holdFor r = none) ∧
   (let s : State := va at1 [hr]; let dt : Nat := 5; let unreadable : List Nat := [0]; let x : Vc1 := ⟨0, false, tAttach, at1⟩
    let r := attachReq x.body
    let d := s.at_ dt
    s.dev.cat.vc1 = [x] ∧ x.type = tAttach ∧ x.port < 5 ∧ s.dev.shaped = true ∧ d.quiet = true ∧ s.mem.wf = true ∧
    (r.count ≠ 0 ∧ r.count ≤ 32768 ∧ r.first + r.count ≤ d.chanN r.group ∧ d.groupExists r.group = true) ∧
    d.holdFor r = some hr ∧ (snapsOf hr r).any d.overwritten = false ∧
    (snapsOf hr r).any (fun k => !unreadable.contains k && (s.mem.snap k).all cleanTags) = false) := by decide +kernel

theorem wit_attachComplete_done :
    let s : State := va at1 [hr]; let dt : Nat := 5; let unreadable : List Nat := []; let x : Vc1 := ⟨0, false, tAttach, at1⟩
    let r := attachReq x.body
    let d := s.at_ dt
    s.dev.cat.vc1 = [x] ∧ x.type = tAttach ∧ x.port < 5 ∧ s.dev.shaped = true ∧ d.quiet = true ∧ s.mem.wf = true ∧
    (r.count ≠ 0 ∧ r.count ≤ 32768 ∧ r.first + r.count ≤ d.chanN r.group ∧ d.groupExists r.group = true) ∧
    d.holdFor r = some hr ∧ (snapsOf hr r).any d.overwritten = false ∧
    (snapsOf hr r).any (fun k => !unreadable.contains k && (s.mem.snap k).all cleanTags) = true ∧
    entState (s.mem.entry r.cat) ≠ stLocked ∧ s.a P.memState = 0 := by decide +kernel

theorem wit_attachComplete_unread :
    let s : State := va at1 [hr]; let dt : Nat := 5; let unreadable : List Nat := []; let ecc : Ecc := .uncorrectable
    let x : Vc1 := ⟨0, false, tAttach, at1⟩
    let r := attachReq x.body
    let d := s.at_ dt
    let old := s.mem.entry r.cat
    let read : Bool := ecc != .uncorrectable && entCat old == r.cat
    s.dev.cat.vc1 = [x] ∧ x.type = tAttach ∧ x.port < 5 ∧ s.dev.shaped = true ∧ d.quiet = true ∧ s.mem.wf = true ∧
    (r.count ≠ 0 ∧ r.count ≤ 32768 ∧ r.first + r.count ≤ d.chanN r.group ∧ d.groupExists r.group = true) ∧
    d.holdFor r = some hr ∧ (snapsOf hr r).any d.overwritten = false ∧
    (snapsOf hr r).any (fun k => !unreadable.contains k && (s.mem.snap k).all cleanTags) = true ∧
    entState (s.mem.entry r.cat) ≠ stLocked ∧ s.a P.memState = 0 ∧ read = false := by decide +kernel

theorem wit_refreshWriteback :
   (let s : State := mod has5 (fun d => { d with ul := { d.ul with refresh := [rf] } }); let g : Nat := 0; let c : Nat := 5
    let ecc : Ecc := .ok; let r : Refresh := rf
    let old := s.mem.entry c
    let read : Bool := ecc != .uncorrectable && entCat old == c
    let ok : Bool := read && entGen old == r.gen && entState old != stLocked
    s.dev.ul.refresh.find? (fun x => x.group == g && x.cat == c) = some r ∧ s.a P.memState = 0 ∧ c < 2 ^ 23 ∧
    s.mem.wf = true ∧ ok = true) ∧
   (let s : State := mod has5 (fun d => { d with ul := { d.ul with refresh := [{ rf with gen := 3 }] } }); let g : Nat := 0
    let c : Nat := 5; let ecc : Ecc := .ok; let r : Refresh := { rf with gen := 3 }
    let old := s.mem.entry c
    let read : Bool := ecc != .uncorrectable && entCat old == c
    let ok : Bool := read && entGen old == r.gen && entState old != stLocked
    s.dev.ul.refresh.find? (fun x => x.group == g && x.cat == c) = some r ∧ s.a P.memState = 0 ∧ c < 2 ^ 23 ∧
    s.mem.wf = true ∧ read = true ∧ ok = false) ∧
   (let s : State := mod mainl (fun d => { d with ul := { d.ul with refresh := [rf] } }); let g : Nat := 0; let c : Nat := 5
    let ecc : Ecc := .uncorrectable; let r : Refresh := rf
    let old := s.mem.entry c
    let read : Bool := ecc != .uncorrectable && entCat old == c
    s.dev.ul.refresh.find? (fun x => x.group == g && x.cat == c) = some r ∧ s.a P.memState = 0 ∧ c < 2 ^ 23 ∧
    s.mem.wf = true ∧ read = false) := by decide +kernel

theorem wit_apGroupDisable :
   (let s : State := ready; let dt : Nat := 5; let value : Nat := 2; let w : Who := wI
    value < 4 ∧ s.takes dt w (writeItem P.apGroupEnable 0 [value]) {}) ∧
   (let s : State := ready; let dt : Nat := 5; let value : Nat := 2; let w : Who := wO
    value < 4 ∧ s.takes dt w (writeItem P.apGroupEnable 0 [value]) {}) := by decide +kernel

theorem wit_apModeDisable :
   (let s : State := ready; let dt : Nat := 5; let group : Nat := 0; let value : Nat := 3; let w : Who := wO
    isGroup group = true ∧ value < 16 ∧ s.takes dt w (writeItem (gk P.apModeEnableA group) 0 [value]) {} ∧ group = 0) ∧
   (let s : State := ready; let dt : Nat := 5; let group : Nat := 1; let value : Nat := 3; let w : Who := wO
    isGroup group = true ∧ value < 16 ∧ s.takes dt w (writeItem (gk P.apModeEnableA group) 0 [value]) {} ∧ group = 1) := by decide +kernel

end Uplink

/-! ### Sentinel -/

namespace Sentinel

def sn (mode : Nat) (l : List (Nat × Nat) := []) : State := mod (put units ([(P.sentinelEnable,1),(P.sentinelTriggerMode,mode),(P.sentinelSeqEnable,15),(P.wakeSourceMask,0),(P.sentinelGateCount,0)] ++ l)) (fun d => { d with sen := { d.sen with startAt := some 0, rose := some (10 ^ 15) } })
def sq : List Nat := [0, 1, 2]
def nu : List Nat := [0, 10, 10]
def de : List Nat := [10, 10, 10]
def ms : List (Nat × Nat) := metricsOf sq nu de
def hi (s : State) : Nat := (s.at_ 5).sentinelT 0
def rp : State := mod (put mainl [(P.raBinCount,1)]) (fun d => { d with sen := { d.sen with win := some (0,0), replay := 640, replayAll := 640, cleanAt := 10^15, replayAt := 10^15 - 10^9, startAt := some 0 } })

theorem wit_sentinelDetection :
   (let s : State := sn 0; let dt : Nat := 5; let back : Nat := 0; let hi : Nat := hi (sn 0); let k : Nat := 1
    let m : Nat := 1023; let sq : List Nat := sq; let num : List Nat := nu; let den : List Nat := de
    let ms : List (Nat × Nat) := metricsOf sq num den
    let d := s.at_ dt
    d.up = true ∧ s.dev.sen.startAt.isSome = true ∧ s.dev.sen.holdTill ≤ d.now ∧ d.detects ms back = some (hi, k, m) ∧
    bit (s.a P.wakeSourceMask) 1 = false ∧ s.a P.sentinelTriggerMode = 0) ∧
   (let s : State := sn 2; let dt : Nat := 5; let back : Nat := 0; let hi : Nat := 10 ^ 15; let k : Nat := 0; let m : Nat := 0
    let sq : List Nat := sq; let num : List Nat := nu; let den : List Nat := de
    let ms : List (Nat × Nat) := metricsOf sq num den
    let d := s.at_ dt
    d.up = true ∧ s.dev.sen.startAt.isSome = true ∧ s.dev.sen.holdTill ≤ d.now ∧ d.detects ms back = some (hi, k, m) ∧
    bit (s.a P.wakeSourceMask) 1 = false ∧ s.a P.sentinelTriggerMode = 2) := by decide +kernel

theorem wit_detectionRule :
   (let d : Dev := (sn 0).at_ 5; let ms : List (Nat × Nat) := ms; let back : Nat := 0; let hi : Nat := hi (sn 0)
    let k : Nat := 1; let m : Nat := 1023
    d.a P.sentinelTriggerMode < 2 ∧ d.detects ms back = some (hi, k, m) ∧ d.a P.sentinelTriggerMode = 0) ∧
   (let d : Dev := (sn 1).at_ 5; let ms : List (Nat × Nat) := ms; let back : Nat := 0; let hi : Nat := hi (sn 1)
    let k : Nat := 1; let m : Nat := 1023
    d.a P.sentinelTriggerMode < 2 ∧ d.detects ms back = some (hi, k, m) ∧ d.a P.sentinelTriggerMode = 1) := by decide +kernel

theorem wit_sentinelWakes :
    let s : State := put (sn 0) [(P.pwrState, 1), (P.pwrActiveMask, 0), (P.wakeSourceMask, 2)]; let dt : Nat := 5
    let back : Nat := 0; let sq : List Nat := sq; let num : List Nat := nu; let den : List Nat := de
    let ms : List (Nat × Nat) := metricsOf sq num den
    let d := s.at_ dt
    d.up = true ∧ s.dev.sen.startAt.isSome = true ∧ s.dev.sen.holdTill ≤ d.now ∧ (d.detects ms back).isSome = true ∧
    bit (s.a P.wakeSourceMask) 1 = true ∧ s.a P.pwrState = 1 ∧ s.dev.sen.win = none ∧ s.dev.sen.wakeAt = none ∧
    d.mayWake = true ∧ s.dev.pwr.jobs = [] := by decide +kernel

theorem wit_sentinelHoldoffEnd :
    let s : State := units; let dt : Nat := 5
    s.dev.sen.holdTill ≤ (s.at_ dt).now := by decide +kernel

theorem wit_sentinelReplaySend :
   (let s : State := rp; let dt : Nat := 5; let n : Nat := 64; let burst : Nat := 0; let ecc : Ecc := .ok
    let d := (s.at_ dt).cleanFollow.holdOutputs
    let p := d.replayPos
    let m := d.homeMsg 3 0x0B false (d.replayMsg p (d.replayWords p n (if ecc = .uncorrectable then some burst else none)))
    d.sen.win.isSome = true ∧ n ≤ d.sen.replay ∧ d.replayLost = false ∧ d.liveWaits = false ∧ d.histShed = false ∧
    ulShape (s.a P.sentinelWakeCompact == 1) p.offset n = true ∧ p.offset + n ≤ p.instants * p.block ∧
    d.canSend d.egress m = true ∧ (s.at_ dt).quiet = true) ∧
   (let s : State := rp; let dt : Nat := 5; let n : Nat := 64; let burst : Nat := 2 ^ 21 - 1; let ecc : Ecc := .uncorrectable
    let d := (s.at_ dt).cleanFollow.holdOutputs
    let p := d.replayPos
    let m := d.homeMsg 3 0x0B false (d.replayMsg p (d.replayWords p n (if ecc = .uncorrectable then some burst else none)))
    d.sen.win.isSome = true ∧ n ≤ d.sen.replay ∧ d.replayLost = false ∧ d.liveWaits = false ∧ d.histShed = false ∧
    ulShape (s.a P.sentinelWakeCompact == 1) p.offset n = true ∧ p.offset + n ≤ p.instants * p.block ∧
    d.canSend d.egress m = true ∧ (s.at_ dt).quiet = true ∧ ecc = .uncorrectable) := by decide +kernel

end Sentinel

/-! ### Downlink -/

namespace Downlink

def lv := put (mod mainl (fun d => { d with tim := { d.tim with valid := true } })) [(P.dlGroupEnable,3),(P.dlPathEnable,2^64-1)]
def pln : Plan := {slot := 5000, group := 0, compact := false, items := [], places := [⟨5,0,4,0,false,0,0⟩]}
def nb := mod lv (fun d => { d with dl := { d.dl with plans := [{pln with slot := 5001}]} })
def ddb (slot group inst off count : Nat) (n : Nat) : List Byte := leBytes 8 slot ++ leBytes 1 group ++ leBytes 1 0 ++ leBytes 2 inst ++ leBytes 4 off ++ leBytes 2 count ++ zeros 14 ++ zeros n
def cur : State := mod lv (fun d => { d with dl := { d.dl with plans := [], cur := [pln]} })
def fe : Fetch := {slot := 5000, group := 0, cat := 5, image := setBytes (leBytes 128 0) 16 (leBytes 5 (2^32 + 2)), miss := false}
def ca := mod (put cur [(gk P.dlPathCeilingA 0,1000)]) (fun d => { d with ul := { d.ul with fetched := [fe] } })
def bu (st : Nat) := mod cur (fun d => d.setBurst 0 (fun b => { b with st := st, slot := 5000 }))

theorem wit_dlData :
   (let s : State := cur; let dt : Nat := 5; let h : Hdr := (mh 0 3)
    let body : List Byte := (ddb 5000 0 5 2 1 5)
    s.hears dt h tDlData body.length ∧ s.a P.redState ≠ 1 ∧ s.a P.redState ≠ 2) ∧
   (let s : State := cur; let dt : Nat := 5; let h : Hdr := (mh 0 3)
    let body : List Byte := (ddb 5001 0 0 2 1 5)
    let r := dlDataReq body
    let d := s.at_ dt
    s.hears dt h tDlData body.length ∧ s.a P.redState ≠ 1 ∧ s.a P.redState ≠ 2 ∧ d.slotPlans true r.slot r.group = []) := by decide +kernel

theorem wit_dlConsume :
    let s : State := cur; let dt : Nat := 5; let g : Nat := 0; let slot : Nat := 5000; let j : Nat := 0
    let n : Nat := 0; let p : Plan := pln; let c : Int := 999999354352500
    let d := s.at_ dt
    (d.slotPlans true slot g).head? = some p ∧ d.consumeAt slot g j = some c ∧ c ≤ (d.now : Int) ∧
    ((s.dev.dl.used.find? (fun u => u.1 == slot && u.2.1 == g)).getD (slot, g, 0, 0) = (slot, g, n, j)) := by decide +kernel

theorem wit_dlCeilingScale :
   (let s : State := cur; let dt : Nat := 5; let g : Nat := 0; let slot : Nat := 5000; let p : Plan := pln
    let d := s.at_ dt
    ((s.dev.dl.scale.any (fun x => x.1 == slot && x.2.1 == g)) = false) ∧ (d.slotPlans true slot g).head? = some p ∧
    isGroup g = true) ∧
   (let s : State := ca; let dt : Nat := 5; let g : Nat := 0; let slot : Nat := 5000; let p : Plan := pln
    let d := s.at_ dt
    ((s.dev.dl.scale.any (fun x => x.1 == slot && x.2.1 == g)) = false) ∧ (d.slotPlans true slot g).head? = some p ∧
    isGroup g = true) := by decide +kernel

theorem wit_burstStart :
   (let s : State := cur; let dt : Nat := 5; let q : Nat := 0
    let d := s.at_ dt
    let out := d.active (2 + q) = false ∧ d.txHeld q = true
    q < 4 ∧ s.dev.shaped = true ∧ d.txEmits d.slotNow q = true ∧ (s.dev.burst q).st ≤ 1 ∧ (¬ out) ∧ d.txReady q = false) ∧
   (let s : State := put cur [(P.pwrActiveMask, 3), (P.synthState + 2, 3), (P.ephTxDisabledMask, 1)]; let dt : Nat := 5
    let q : Nat := 0
    let d := s.at_ dt
    let out := d.active (2 + q) = false ∧ d.txHeld q = true
    q < 4 ∧ s.dev.shaped = true ∧ d.txEmits d.slotNow q = true ∧ (s.dev.burst q).st ≤ 1 ∧ out) ∧
   (let s : State := put cur [(P.synthState + 2, 3)]; let dt : Nat := 5; let q : Nat := 0
    let d := s.at_ dt
    let out := d.active (2 + q) = false ∧ d.txHeld q = true
    q < 4 ∧ s.dev.shaped = true ∧ d.txEmits d.slotNow q = true ∧ (s.dev.burst q).st ≤ 1 ∧ (¬ out) ∧ d.txReady q = true ∧
    d.granted = true) ∧
   (let s : State := put cur [(P.synthState + 2, 3), (P.coexEnable, 1)]; let dt : Nat := 5; let q : Nat := 0
    let d := s.at_ dt
    let out := d.active (2 + q) = false ∧ d.txHeld q = true
    q < 4 ∧ s.dev.shaped = true ∧ d.txEmits d.slotNow q = true ∧ (s.dev.burst q).st ≤ 1 ∧ (¬ out) ∧ d.txReady q = true ∧
    d.granted = false) := by decide +kernel

theorem wit_burstSilent :
   (let s : State := put cur [(gk P.txNcoActiveA 0, 2 ^ 39 - 1)]; let dt : Nat := 5; let q : Nat := 0
    let d := s.at_ dt
    q < 4 ∧ s.dev.shaped = true ∧ d.txPlanned d.slotNow q = true ∧ d.txEmits d.slotNow q = false ∧ (s.dev.burst q).st ≤ 1 ∧
    (s.dev.burst q).silent ≠ some d.slotNow ∧ d.inCollim d.slotNow = false) ∧
   (let s : State := mod cur (fun d => { d with col := { d.col with win := some (4999999999, 5000000001) } })
    let dt : Nat := 5; let q : Nat := 3
    let d := s.at_ dt
    q < 4 ∧ s.dev.shaped = true ∧ d.txPlanned d.slotNow q = true ∧ d.txEmits d.slotNow q = false ∧ (s.dev.burst q).st ≤ 1 ∧
    (s.dev.burst q).silent ≠ some d.slotNow ∧ d.inCollim d.slotNow = true) := by decide +kernel

theorem wit_rampStart :
    let s : State := put (bu 2) [(P.txRampTime, 60000)]; let dt : Nat := 99995; let q : Nat := 0
    let d := s.at_ dt
    q < 4 ∧ s.dev.shaped = true ∧ (s.dev.burst q).st = 2 ∧
    d.burstEndAt q d.slotNow ≤ (d.now : Int) + (s.a P.txRampTime * 1000 : Nat) := by decide +kernel

theorem wit_burstEnd :
   (let s : State := bu 5; let q : Nat := 0
    s.dev.shaped = true ∧ (s.dev.burst q).st = 5) ∧
   (let s : State := mod (bu 2) (fun d => { d with dl := { d.dl with cur := [] } }); let dt : Nat := 5; let q : Nat := 0
    let d := s.at_ dt
    s.dev.shaped = true ∧ (s.dev.burst q).st = 2 ∧ d.txEmits d.slotNow q = false) ∧
   (let s : State := mod (bu 4) (fun d => { d with dl := { d.dl with cur := [] } }); let dt : Nat := 5; let q : Nat := 0
    let d := s.at_ dt
    s.dev.shaped = true ∧ (s.dev.burst q).st = 4 ∧ d.txEmits d.slotNow q = false) := by decide +kernel

theorem wit_dlGroupDisable :
    let s : State := cur; let dt : Nat := 5; let value : Nat := 0; let w : Who := wO
    value < 4 ∧ s.takes dt w (writeItem P.dlGroupEnable 0 [value]) {} := by decide +kernel

theorem wit_synthLock :
   (let s : State := (put units [(P.synthState,1)]); let k : Nat := 0
    k < 12 ∧ s.dev.shaped = true ∧ (s.a (P.synthState + k) = 1 ∨ s.a (P.synthState + k) = 2)) ∧
   (let s : State := (mod (put units [(P.synthState+11,2)]) (fun d => { d with syn := { d.syn with change := List.replicate 12 true } }))
    let k : Nat := 11
    k < 12 ∧ s.dev.shaped = true ∧ (s.a (P.synthState + k) = 1 ∨ s.a (P.synthState + k) = 2) ∧
    s.dev.syn.change.getD k false = true) := by decide +kernel

theorem wit_synthCalFail :
   (let s : State := (put units [(P.synthState,1)]); let k : Nat := 0
    k < 12 ∧ s.dev.shaped = true ∧ (s.a (P.synthState + k) = 1 ∨ s.a (P.synthState + k) = 2) ∧
    s.dev.syn.fails.getD k 0 < 2) ∧
   (let s : State := (mod (put units [(P.synthState+11,2)]) (fun d => { d with syn := { d.syn with fails := List.replicate 12 2 } }))
    let k : Nat := 11
    k < 12 ∧ s.dev.shaped = true ∧ (s.a (P.synthState + k) = 1 ∨ s.a (P.synthState + k) = 2) ∧
    2 ≤ s.dev.syn.fails.getD k 0) := by decide +kernel

theorem wit_synthUnlock :
   (let s : State := (put units [(P.synthState+11,3)]); let k : Nat := 11
    k < 12 ∧ s.a (P.synthState + k) = 3) ∧
   (let s : State := (put units [(P.synthState,3)]); let k : Nat := 0
    k < 12 ∧ s.a (P.synthState + k) = 3) := by decide +kernel

theorem wit_txRequestInstant :
    let s : State := (put nb [(P.coexEnable,1),(P.coexLeadTime,60000)]); let dt : Nat := 99995
    let q : Nat := 0; let slot : Nat := 5001
    let d := s.at_ dt
    s.dev.shaped = true ∧ d.nextBurst q = some slot ∧ (s.dev.burst q).st = 0 ∧
    d.slotStart slot ≤ (d.now : Int) + (d.burstLead q : Nat) := by decide +kernel

theorem wit_rfctlEdge :
   (let s : State := (put nb []); let dt : Nat := 5; let i : Nat := 0; let assert : Bool := false
    i < 32 ∧ (s.at_ dt).rfWanted i = assert) ∧
   (let s : State := (put nb []); let dt : Nat := 5; let i : Nat := 31; let assert : Bool := false
    i < 32 ∧ (s.at_ dt).rfWanted i = assert) ∧
   (let s : State := (put nb [(P.rfctlConfig,4),(P.rfctlLevels,0)]); let dt : Nat := 5; let i : Nat := 0
    let assert : Bool := false
    i < 32 ∧ (s.at_ dt).rfWanted i = assert) ∧
   (let s : State := (put (bu 2) [(P.rfctlConfig,32)]); let dt : Nat := 5; let i : Nat := 0
    let assert : Bool := true
    i < 32 ∧ (s.at_ dt).rfWanted i = assert) := by decide +kernel

/-- A run of Collimation with a probe step, COEX_GNT inactive since an instant. -/
def probing (p : Option Nat) (since : Nat) : State := mod (put (bu 0) [(P.coexEnable,1)]) (fun d =>
  { d with col := { d.col with run := some 0 }, coex := { d.coex with probe := p, gntAt := since } })

theorem wit_coexReqEdge :
   (let s : State := (put (bu 2) [(P.coexEnable,1)]); let dt : Nat := 5; let assert : Bool := true
    let d := s.at_ dt
    ¬ (s.dev.col.run.isSome = true ∧ s.a P.coexEnable = 1) ∧ [0, 1, 2, 3].any d.coexHolds = assert) ∧
   (let s : State := (put (bu 0) [(P.coexEnable,1)]); let dt : Nat := 5; let assert : Bool := false
    let d := s.at_ dt
    ¬ (s.dev.col.run.isSome = true ∧ s.a P.coexEnable = 1) ∧ [0, 1, 2, 3].any d.coexHolds = assert) ∧
   (let s : State := probing (some 0) 0; let dt : Nat := 5; let assert : Bool := true
    s.dev.col.run.isSome = true ∧ s.a P.coexEnable = 1 ∧ assert = true) ∧
   (let s : State := probing none 0; let dt : Nat := 5; let assert : Bool := false
    let judged : Prop := ∃ t, s.dev.coex.probe = some t ∧ t ≤ (s.at_ dt).now ∧ (s.at_ dt).grantedAt t = false
    s.dev.col.run.isSome = true ∧ s.a P.coexEnable = 1 ∧ assert = false ∧ ¬ judged) := by
  refine ⟨by decide +kernel, by decide +kernel, by decide +kernel, by decide +kernel, by decide +kernel, by decide +kernel, ?_⟩
  rintro ⟨t, h, _⟩
  exact absurd h (by simp [probing, mod, put])

theorem wit_probeWithoutGrant :
    let s : State := probing (some 1000) 0; let dt : Nat := 5; let t : Nat := 1000; let d := s.at_ dt
    s.dev.col.run.isSome = true ∧ s.dev.coex.probe = some t ∧ t ≤ d.now ∧ d.grantedAt t = false ∧ s.a P.coexEnable = 1 := by
  decide +kernel

theorem wit_coexGrantWithdrawn :
    let s : State := (put (bu 2) [(P.coexEnable,1)])
    let on := maskOf 4 (fun q => (s.dev.burst q).st == 2)
    s.a P.coexEnable = 1 ∧ on ≠ 0 ∧ s.dev.shaped = true := by decide +kernel

theorem wit_coexGntEdge :
    let s : State := (bu 2); let level : Bool := true
    s.dev.col.run = none ∧ s.dev.coex.gnt ≠ level := by decide +kernel

end Downlink

/-! ### Dpd -/

namespace Dpd

def bu (st : Nat) := mod (put units [(P.synthState+2,3),(P.dpdCaptureLog2,10)]) (fun d => d.setBurst 0 (fun b => { b with st := st, slot := 5000 }))
def q0 (s : State) (f : DpdQ → DpdQ) := mod s (fun d => { d with dpd := { d.dpd with quads := modAt d.dpd.quads 0 f } })
def p0 (s : State) (f : DpdP → DpdP) := mod s (fun d => { d with dpd := { d.dpd with paths := modAt d.dpd.paths 0 f } })
def run := mod units (fun d => { d with col := { d.col with run := some 0, win := some (4998, 5004) } })
def res : CollimResult := ⟨3,[],[],[],[],0,false⟩
def bi := put units [(P.hkSupplyVoltage+18,9000),(P.biasOutputState+16,2),(P.biasOutputState+17,1),(P.biasCodeShadow+16,99),(P.biasParkCause+4,31)]
def br := put ready [(P.hkSupplyVoltage+16,9000),(P.biasOutputState+16,2),(P.biasOutputState+17,1),(P.biasCodeShadow+16,99)]

theorem wit_dpdVisit :
   (let s : State := mod (bu 2) (fun d => d.setBurst 0 (fun b => { b with on := 10 ^ 15 })); let dt : Nat := 5
    let q : Nat := 0
    let d := s.at_ dt
    let due := 2000000000 ≤ (s.dev.dpdQ q).onTime + (d.now - (s.dev.burst q).on)
    s.dev.shaped = true ∧ (s.dev.burst q).st = 2 ∧ s.dev.dpd.modes.getD q 0 = 2 ∧ (s.dev.dpdQ q).cap = none ∧
    d.synthSt (3 * q + 2) = 3 ∧ (¬ due)) ∧
   (let s : State := q0 (bu 2) (fun x => { x with onTime := 2000000000, turn := [7] }); let dt : Nat := 5; let q : Nat := 0
    let d := s.at_ dt
    let due := 2000000000 ≤ (s.dev.dpdQ q).onTime + (d.now - (s.dev.burst q).on)
    s.dev.shaped = true ∧ (s.dev.burst q).st = 2 ∧ s.dev.dpd.modes.getD q 0 = 2 ∧ (s.dev.dpdQ q).cap = none ∧
    d.synthSt (3 * q + 2) = 3 ∧ due ∧ (s.dev.dpdQ q).turn.find? (fun p => bit s.dev.dl.pathEff p) = some 7) ∧
   (let s : State := q0 (bu 2) (fun x => { x with onTime := 2000000000 }); let dt : Nat := 5; let q : Nat := 0
    let d := s.at_ dt
    let due := 2000000000 ≤ (s.dev.dpdQ q).onTime + (d.now - (s.dev.burst q).on)
    s.dev.shaped = true ∧ (s.dev.burst q).st = 2 ∧ s.dev.dpd.modes.getD q 0 = 2 ∧ (s.dev.dpdQ q).cap = none ∧
    d.synthSt (3 * q + 2) = 3 ∧ due ∧ (s.dev.dpdQ q).turn.find? (fun p => bit s.dev.dl.pathEff p) = none ∧
    s.dev.nextVisit q = some 0) := by decide +kernel

theorem wit_dpdCaptureDone :
   (let s : State := q0 (bu 2) (fun x => { x with cap := some (0, 0) }); let dt : Nat := 5; let p : Nat := 0
    let t0 : Nat := 0; let clipped : Bool := true
    p < 64 ∧ s.dev.shaped = true ∧ (s.dev.dpdQ (p / 16)).cap = some (p, t0) ∧
    t0 + 2 ^ s.a P.dpdCaptureLog2 * 1250 ≤ (s.at_ dt).now ∧ clipped = true) ∧
   (let s : State := q0 (bu 2) (fun x => { x with cap := some (0, 0) }); let dt : Nat := 5; let p : Nat := 0
    let t0 : Nat := 0; let power : Nat := 2 ^ 44; let clipped : Bool := false
    p < 64 ∧ s.dev.shaped = true ∧ (s.dev.dpdQ (p / 16)).cap = some (p, t0) ∧
    t0 + 2 ^ s.a P.dpdCaptureLog2 * 1250 ≤ (s.at_ dt).now ∧ clipped = false ∧
    atLeastLevel (s.a P.dpdCaptureLog2) power (s.a P.dpdMinCapturePower) = true) ∧
   (let s : State := q0 (bu 2) (fun x => { x with cap := some (0, 0) }); let dt : Nat := 5; let p : Nat := 0
    let t0 : Nat := 0; let power : Nat := 0
    p < 64 ∧ s.dev.shaped = true ∧ (s.dev.dpdQ (p / 16)).cap = some (p, t0) ∧
    t0 + 2 ^ s.a P.dpdCaptureLog2 * 1250 ≤ (s.at_ dt).now ∧
    atLeastLevel (s.a P.dpdCaptureLog2) power (s.a P.dpdMinCapturePower) = false) := by decide +kernel

theorem wit_dpdComputeDone :
   (let s : State := (p0 (bu 2) (fun q => { q with busy := true })); let p : Nat := 0
    s.dev.shaped = true ∧ (s.dev.dpdP p).busy = true ∧ s.dev.dpd.modes.getD (p / 16) 0 = 2) ∧
   (let s : State := (mod (p0 (bu 2) (fun q => { q with busy := true })) (fun d => { d with dpd := { d.dpd with modes := [0,0,0,0] } }))
    let p : Nat := 0
    s.dev.shaped = true ∧ (s.dev.dpdP p).busy = true ∧ s.dev.dpd.modes.getD (p / 16) 0 ≠ 2) := by decide +kernel

theorem wit_dpdWarmStore :
    let s : State := (p0 (bu 2) (fun q => { q with updated := true })); let dt : Nat := 5; let p : Nat := 0
    let d := s.at_ dt
    p < 64 ∧ s.dev.shaped = true ∧ d.up = true ∧ (s.dev.dpdP p).updated = true ∧
    ((s.dev.dpdP p).stored = 0 ∨ (s.dev.dpdP p).stored - 1 + s.a P.dpdStorePeriod * 10 ^ 12 ≤ d.now) ∧
    d.nvm.deferring = false := by decide +kernel

theorem wit_collimRequest :
   (let s : State := units; let dt : Nat := 5; let value : Nat := 1; let w : Who := wO
    value ≤ 1 ∧ s.takes dt w (writeItem P.collimRequest 0 [value]) {} ∧ value = 1) ∧
   (let s : State := units; let dt : Nat := 5; let value : Nat := 0; let w : Who := wO
    value ≤ 1 ∧ s.takes dt w (writeItem P.collimRequest 0 [value]) {} ∧ value = 0) := by decide +kernel

theorem wit_collimRelease :
   (let s : State := run; let dt : Nat := 5; let t0 : Nat := 0; let r : CollimResult := res
    s.dev.col.run = some t0 ∧ (s.at_ dt).colDidGroup r 0 = true) ∧
   (let s : State := run; let dt : Nat := 5; let t0 : Nat := 0; let r : CollimResult := { res with groups := 0 }
    s.dev.col.run = some t0 ∧ (s.at_ dt).colDidGroup r 0 = false ∧ (s.at_ dt).colDidGroup r 1 = false) := by decide +kernel

theorem wit_collimDelayWalkStep :
   (let s : State := units; let dt : Nat := 5; let g : Nat := 0; let p : Nat := 0
    isGroup g = true ∧ isPath p = true ∧ (s.at_ dt).up = true ∧ s.dev.shaped = true) ∧
   (let s : State := (mod units (fun d => { d with col := { d.col with delays := d.col.delays.set 127 4 } }))
    let dt : Nat := 5; let g : Nat := 1; let p : Nat := 63
    isGroup g = true ∧ isPath p = true ∧ (s.at_ dt).up = true ∧ s.dev.shaped = true) ∧
   (let s : State := (mod units (fun d => { d with col := { d.col with delays := d.col.delays.set 127 (-4) } }))
    let dt : Nat := 5; let g : Nat := 1; let p : Nat := 63
    isGroup g = true ∧ isPath p = true ∧ (s.at_ dt).up = true ∧ s.dev.shaped = true) := by decide +kernel

theorem wit_biasParkCommand :
   (let s : State := bi; let dt : Nat := 5; let value : Nat := 1; let w : Who := wO
    0 < value ∧ value < 32 ∧ s.takes dt w (writeItem P.biasParkCommand 0 [value]) {}) ∧
   (let s : State := bi; let dt : Nat := 5; let value : Nat := 31; let w : Who := wO
    0 < value ∧ value < 32 ∧ s.takes dt w (writeItem P.biasParkCommand 0 [value]) {}) := by decide +kernel

theorem wit_biasWrite :
   (let s : State := bi; let dt : Nat := 5; let i : Nat := 0; let value : Nat := 4095; let w : Who := wI
    i < 80 ∧ value ≤ 4095 ∧ s.takes dt w (writeItem P.biasWrite i [value]) {} ∧ s.a (P.biasOutputState + i) ≠ 0) ∧
   (let s : State := bi; let dt : Nat := 5; let i : Nat := 16; let value : Nat := 4095; let w : Who := wI
    i < 80 ∧ value ≤ 4095 ∧ s.takes dt w (writeItem P.biasWrite i [value]) {}) := by decide +kernel

theorem wit_biasParkWrite :
   (let s : State := bi; let dt : Nat := 5; let i : Nat := 17; let value : Nat := 65535; let w : Who := wI
    i < 80 ∧ value < 2 ^ 16 ∧ s.takes dt w (writeItem P.biasPark i [value]) {} ∧ s.a (P.biasOutputState + i) = 1) ∧
   (let s : State := bi; let dt : Nat := 5; let i : Nat := 17; let value : Nat := 20; let w : Who := wI
    i < 80 ∧ value < 2 ^ 16 ∧ s.takes dt w (writeItem P.biasPark i [value]) {} ∧ s.a (P.biasOutputState + i) = 1) := by decide +kernel

theorem wit_biasCurrentLimit :
   (let s : State := bi; let dt : Nat := 5; let i : Nat := 17
    i < 80 ∧ s.a (P.biasOutputState + i) ≠ 0 ∧
    (s.dev.x (rateKey 62 i) = 0 ∨ s.dev.x (rateKey 62 i) - 1 + 10 ^ 12 ≤ (s.at_ dt).now)) ∧
   (let s : State := bi; let i : Nat := 16
    i < 80 ∧ s.a (P.biasOutputState + i) ≠ 0) := by decide +kernel

theorem wit_biasRangeChange :
    let s : State := br; let dt : Nat := 5; let g : Nat := 1; let value : Nat := 2; let w : Who := wI
    g < 5 ∧ value ≤ 3 ∧ s.takes dt w (writeItem P.biasRange g [value]) {} := by decide +kernel

end Dpd

/-! ### Housekeeping -/

namespace Housekeeping

def hk (l : List (Nat × Nat)) : State := mod (put units l) (fun d => { d with hk := { d.hk with running := true } })
def inj := hk [(P.hkInjectArm,2),(P.hkInjectState+1,1),(P.hkInjectState+2,2),(P.hkInjectState+3,2)]
def sub := mod units (fun d => { d with thm := { d.thm with holdTill := 5, junction := some 300 } })
def fld := put units [(P.archIslandNumber,3),(P.fieldEnable,1),(P.fieldState,1)]
def shut := mod (put fld [(P.pwrState,0),(P.pwrActiveMask,0)]) (fun d => { d with pwr := { d.pwr with phase := .shutdown } })
def restr := mod shut (fun d => { d with pwr := { d.pwr with phase := .restricted }, ses := { d.ses with h := [{st:=2,role:=0,port:=1},{},{},{}] }, thm := { d.thm with tsaCool := 2000 } })

theorem wit_hkFrame :
   (let s : State := hk []; let dt : Nat := 5; let temps : List Int := [250]; let supplies : List Nat := [1000, 65536]
    s.dev.hk.running = true ∧ ((s.at_ dt).hkFrame temps supplies).2.isNone = true ∧ s.a P.hkCalState ≠ 2) ∧
   (let s : State := hk [(P.hkCalState, 2)]; let dt : Nat := 5; let temps : List Int := [250]
    let supplies : List Nat := [1000]
    s.dev.hk.running = true ∧ ((s.at_ dt).hkFrame temps supplies).2.isNone = true ∧ s.a P.hkCalState = 2) := by decide +kernel

theorem wit_hkScanConversion :
   (let s : State := hk [(P.hkScanLength, 1)]
    s.dev.hk.running = true ∧ s.a P.hkCalState ≠ 2 ∧ s.dev.hk.pos < s.a P.hkScanLength ∧ s.a P.hkScanLength ≤ 64 ∧
    (s.a P.hkScanMode = 1 → s.dev.hk.passDue ≠ 0) ∧ s.dev.hk.pos + 1 = s.a P.hkScanLength) ∧
   (let s : State := mod (hk [(P.hkScanLength, 64)]) (fun d => { d with hk := { d.hk with pos := 63 } })
    s.dev.hk.running = true ∧ s.a P.hkCalState ≠ 2 ∧ s.dev.hk.pos < s.a P.hkScanLength ∧ s.a P.hkScanLength ≤ 64 ∧
    (s.a P.hkScanMode = 1 → s.dev.hk.passDue ≠ 0) ∧ s.dev.hk.pos + 1 = s.a P.hkScanLength) ∧
   (let s : State := mod (hk [(P.hkScanLength, 2), (P.hkScanMode, 1)]) (fun d => { d with hk := { d.hk with passDue := 1 } })
    s.dev.hk.running = true ∧ s.a P.hkCalState ≠ 2 ∧ s.dev.hk.pos < s.a P.hkScanLength ∧ s.a P.hkScanLength ≤ 64 ∧
    (s.a P.hkScanMode = 1 → s.dev.hk.passDue ≠ 0) ∧ s.dev.hk.pos + 1 < s.a P.hkScanLength) := by decide +kernel

theorem wit_hkLimitWindowEnd :
   (let s : State := (mod (hk [(P.hkResult+3,2^37)]) (fun d => (d.wx (auxKey 6 6) 2))); let dt : Nat := 5
    let e : Nat := 3; let high : Bool := true
    let dir := if high then 0 else 1
    let last := s.dev.x (auxKey 6 (2 * e + dir))
    let now := bit (s.a (P.hkResult + e)) (37 - dir)
    last ≠ 0 ∧ last / 2 - 1 + 10 ^ 10 ≤ (s.at_ dt).now ∧ now ≠ (last % 2 == 1)) ∧
   (let s : State := (mod (hk [(P.hkResult+3,2^37)]) (fun d => (d.wx (auxKey 6 7) 3))); let dt : Nat := 5
    let e : Nat := 3; let high : Bool := false
    let dir := if high then 0 else 1
    let last := s.dev.x (auxKey 6 (2 * e + dir))
    let now := bit (s.a (P.hkResult + e)) (37 - dir)
    last ≠ 0 ∧ last / 2 - 1 + 10 ^ 10 ≤ (s.at_ dt).now ∧ now ≠ (last % 2 == 1)) ∧
   (let s : State := (mod (hk [(P.hkResult+3,2^37),(P.hkScanList+3,2*2^9)]) (fun d => (d.wx (auxKey 6 6) 2))); let dt : Nat := 5
    let e : Nat := 3; let high : Bool := true
    let dir := if high then 0 else 1
    let last := s.dev.x (auxKey 6 (2 * e + dir))
    let now := bit (s.a (P.hkResult + e)) (37 - dir)
    let oc := hkOc (s.a (P.hkScanList + e))
    last ≠ 0 ∧ last / 2 - 1 + 10 ^ 10 ≤ (s.at_ dt).now ∧ now ≠ (last % 2 == 1) ∧ high = true ∧ now = true ∧ oc ≠ 0) := by decide +kernel

theorem wit_hkCheckConversion :
   (let s : State := (mod (hk [(P.hkCheckMask,2^31),(P.hkCheckTolerance,0)]) (fun d => { d with hk := { d.hk with checkDue := true } }))
    let code : Nat := 7; let n : Nat := 31
    let want := (rhe ((4095 * s.a P.hkCheckLevel : Nat)) 255).toNat
    let diff := if want ≤ code % 4096 then code % 4096 - want else want - code % 4096
    (((List.range 32).map (fun i => (s.dev.hk.checkPos + 1 + i) % 32)).find? (bit (s.a P.hkCheckMask)) = some n) ∧
    s.dev.hk.running = true ∧ s.dev.hk.checkDue = true ∧ s.a P.hkCalState ≠ 2 ∧ s.a P.hkCheckTolerance < diff) ∧
   (let s : State := (mod (hk [(P.hkCheckMask,1),(P.hkCheckTolerance,7)]) (fun d => { d with hk := { d.hk with checkDue := true } }))
    let n : Nat := 0
    (((List.range 32).map (fun i => (s.dev.hk.checkPos + 1 + i) % 32)).find? (bit (s.a P.hkCheckMask)) = some n) ∧
    s.dev.hk.running = true ∧ s.dev.hk.checkDue = true ∧ s.a P.hkCalState ≠ 2) := by decide +kernel

theorem wit_hkScanStart :
   (let s : State := (hk [(P.hkScanMode,1)]); let dt : Nat := 5; let value : Nat := 1; let w : Who := wO
    value ≤ 1 ∧ s.takes dt w (writeItem P.hkScanStart 0 [value]) {} ∧ value = 1 ∧ s.dev.hk.running = true ∧
    s.a P.hkScanMode = 1) ∧
   (let s : State := (hk [(P.hkScanMode,1)]); let dt : Nat := 5; let value : Nat := 0; let w : Who := wO
    value ≤ 1 ∧ s.takes dt w (writeItem P.hkScanStart 0 [value]) {} ∧ (¬ (value = 1 ∧ s.dev.hk.running = true ∧
    s.a P.hkScanMode = 1))) ∧
   (let s : State := (hk [(P.hkScanMode,0)]); let dt : Nat := 5; let value : Nat := 1; let w : Who := wO
    value ≤ 1 ∧ s.takes dt w (writeItem P.hkScanStart 0 [value]) {}) := by decide +kernel

theorem wit_hkInjectArm :
   (let s : State := inj; let dt : Nat := 5; let value : Nat := 5; let w : Who := wO
    value < 16 ∧ s.takes dt w (writeItem P.hkInjectArm 0 [value]) {}) ∧
   (let s : State := inj; let dt : Nat := 5; let value : Nat := 15; let w : Who := wO
    value < 16 ∧ s.takes dt w (writeItem P.hkInjectArm 0 [value]) {}) := by decide +kernel

theorem wit_hkInjectDisarm :
    let s : State := inj; let dt : Nat := 5; let value : Nat := 0; let w : Who := wO
    value < 16 ∧ s.takes dt w (writeItem P.hkInjectArm 0 [value]) {} := by decide +kernel

theorem wit_hkInjectConversion :
   (let s : State := inj; let i : Nat := 2
    ((List.range 4).find? (fun i => s.a (P.hkInjectState + i) == 2) = some i) ∧ s.dev.hk.running = true) ∧
   (let s : State := (put inj [(P.hkInjectArm,4),(P.hkInjectConfig+2,64)]); let i : Nat := 2
    ((List.range 4).find? (fun i => s.a (P.hkInjectState + i) == 2) = some i) ∧ s.dev.hk.running = true) ∧
   (let s : State := (put inj [(P.hkInjectArm,5),(P.hkInjectConfig+2,0)]); let i : Nat := 2
    ((List.range 4).find? (fun i => s.a (P.hkInjectState + i) == 2) = some i) ∧ s.dev.hk.running = true) := by decide +kernel

theorem wit_hkCalPeriodic :
   (let s : State := mod (hk []) (fun d => { d with hk := { d.hk with ran := 10 ^ 20 } }); let dt : Nat := 5
    s.dev.hk.running = true ∧ s.a P.hkCalPeriod * 10 ^ 12 ≤ s.dev.hk.ran + ((s.at_ dt).now - s.dev.hk.upAt) ∧
    s.a P.hkCalState = 0) ∧
   (let s : State := mod (hk [(P.hkCalState, 1)]) (fun d => { d with hk := { d.hk with ran := 10 ^ 20 } }); let dt : Nat := 5
    s.dev.hk.running = true ∧ s.a P.hkCalPeriod * 10 ^ 12 ≤ s.dev.hk.ran + ((s.at_ dt).now - s.dev.hk.upAt) ∧
    s.a P.hkCalState = 1) ∧
   (let s : State := mod (hk [(P.hkCalState, 2)]) (fun d => { d with hk := { d.hk with ran := 10 ^ 20 } }); let dt : Nat := 5
    s.dev.hk.running = true ∧ s.a P.hkCalPeriod * 10 ^ 12 ≤ s.dev.hk.ran + ((s.at_ dt).now - s.dev.hk.upAt) ∧
    s.a P.hkCalState = 2) := by decide +kernel

theorem wit_hkCalRequest :
   (let s : State := (hk []); let dt : Nat := 5; let value : Nat := 1; let w : Who := wO
    value ≤ 1 ∧ s.takes dt w (writeItem P.hkCalRequest 0 [value]) {} ∧ s.dev.hk.running = true ∧ s.a P.hkCalState = 0) ∧
   (let s : State := (hk []); let dt : Nat := 5; let value : Nat := 0; let w : Who := wO
    value ≤ 1 ∧ s.takes dt w (writeItem P.hkCalRequest 0 [value]) {} ∧ s.dev.hk.running = true ∧ s.a P.hkCalState = 0) := by decide +kernel

theorem wit_hkCalStart :
    let s : State := (hk [(P.hkCalState,1)])
    s.dev.hk.running = true ∧ s.a P.hkCalState = 1 ∧ s.dev.hk.calWait = 0 := by decide +kernel

theorem wit_hkCalDone :
   (let s : State := (hk [(P.hkCalState,2)])
    s.dev.hk.running = true ∧ s.a P.hkCalState = 2) ∧
   (let s : State := (mod (hk [(P.hkCalState,2)]) (fun d => { d with hk := { d.hk with calNext := true } }))
    s.dev.hk.running = true ∧ s.a P.hkCalState = 2) := by decide +kernel

theorem wit_tsaReading :
    let s : State := units
    s.dev.pwr.phase = .running ∧ s.a P.pwrState ≠ 0 := by decide +kernel

theorem wit_substituteHoldEnd :
   (let s : State := sub; let dt : Nat := 5; let j : Int := 300
    s.dev.thm.holdTill ≠ 0 ∧ s.dev.thm.holdTill ≤ (s.at_ dt).now ∧ s.dev.thm.junction = some j ∧
    bit (s.a P.thermState) 1 = false) ∧
   (let s : State := (put sub [(P.thermState,2)]); let dt : Nat := 5; let j : Int := 300
    s.dev.thm.holdTill ≠ 0 ∧ s.dev.thm.holdTill ≤ (s.at_ dt).now ∧ s.dev.thm.junction = some j) := by decide +kernel

theorem wit_thermRestart :
    let s : State := restr; let dt : Nat := 5; let w : Who := ⟨1,0⟩
    s.takes dt w (writeItem P.thermRestart 0 [0x5A]) {} := by decide +kernel

theorem wit_restrictedServiceStart :
    let s : State := shut; let island : Nat := 3
    s.dev.pwr.phase = .shutdown ∧ s.dev.fieldOn = true ∧ island = s.dev.island := by decide +kernel

theorem wit_restrictedServiceTimeout :
    let s : State := restr; let dt : Nat := 5
    s.dev.pwr.phase = .restricted ∧ s.dev.thm.lastField + 60 * 10 ^ 12 ≤ (s.at_ dt).now ∧ s.dev.shaped = true := by decide +kernel

end Housekeeping

/-! ### Time -/

namespace Time

def tm (k : Nat) (f : Tim → Tim := id) (l : List (Nat × Nat) := []) : State := mod (put units ((P.timeSourceSelect,k) :: (P.archIslandNumber, 0xFF) :: l)) (fun d => { d with tim := f d.tim })
def dr := tm 1 (fun t => { t with dreq := some (4,100), pair := some (7,10,20), skip := 3, delays := [4] })
def an (i : Nat) : PtpAnnounce := ⟨0,i,1,128,6,33,5,128,1,37,false⟩
def ms (i : Nat) : Master := let x := an i; ⟨x.identity, x.prio1, x.cls, x.accuracy, x.variance, x.prio2, x.steps, x.portId⟩

theorem wit_ptpSync :
   (let s : State := tm 1; let dt : Nat := 5; let x : PtpSync := ⟨7, 0, true, -7, ⟨0, 0⟩, 0⟩
    ((s.at_ dt).up = true ∧ s.dev.portWidth 0 ≠ 0 ∧ s.dev.ripOn = false) ∧ x.domain = s.a P.ptpDomain ∧ x.twoStep = true ∧
    (s.dev.timeSource = 1 ∧ -7 ≤ x.logInt ∧ x.logInt ≤ 1)) ∧
   (let s : State := tm 1; let dt : Nat := 5; let x : PtpSync := ⟨7, 0, true, 1, ⟨0, 0⟩, 0⟩
    ((s.at_ dt).up = true ∧ s.dev.portWidth 0 ≠ 0 ∧ s.dev.ripOn = false) ∧ x.domain = s.a P.ptpDomain ∧ x.twoStep = true ∧
    (s.dev.timeSource = 1 ∧ -7 ≤ x.logInt ∧ x.logInt ≤ 1)) ∧
   (let s : State := tm 1; let dt : Nat := 5; let x : PtpSync := ⟨7, 0, true, 2, ⟨0, 0⟩, 0⟩
    ((s.at_ dt).up = true ∧ s.dev.portWidth 0 ≠ 0 ∧ s.dev.ripOn = false) ∧ x.domain = s.a P.ptpDomain ∧ x.twoStep = true ∧
    (¬ (s.dev.timeSource = 1 ∧ -7 ≤ x.logInt ∧ x.logInt ≤ 1))) ∧
   (let s : State := tm 2; let dt : Nat := 5; let x : PtpSync := ⟨7, 0, true, 0, ⟨0, 0⟩, 0⟩
    ((s.at_ dt).up = true ∧ s.dev.portWidth 0 ≠ 0 ∧ s.dev.ripOn = false) ∧ x.domain = s.a P.ptpDomain ∧ x.twoStep = true ∧
    (¬ (s.dev.timeSource = 1 ∧ -7 ≤ x.logInt ∧ x.logInt ≤ 1))) ∧
   (let s : State := tm 1; let dt : Nat := 5; let x : PtpSync := ⟨7, 0, false, 0, ⟨0, 0⟩, 0⟩
    ((s.at_ dt).up = true ∧ s.dev.portWidth 0 ≠ 0 ∧ s.dev.ripOn = false) ∧ x.domain = s.a P.ptpDomain ∧ x.twoStep = false) := by decide +kernel

theorem wit_ptpFollowUp :
    let s : State := tm 1 (fun t => { t with syncSeq := some (7, 10, 3) }); let dt : Nat := 5; let n : Nat := 7
    let t2 : Int := 10; let corr : Int := 3
    ((s.at_ dt).up = true ∧ s.dev.portWidth 0 ≠ 0 ∧ s.dev.ripOn = false) ∧ s.dev.tim.syncSeq = some (n, t2, corr) := by decide +kernel

theorem wit_ptpDelayResp :
    let s : State := dr; let dt : Nat := 5; let n : Nat := 4; let m : Nat := 7; let t1 : Int := 10; let t2 : Int := 20
    let t3 : Int := 100
    ((s.at_ dt).up = true ∧ s.dev.portWidth 0 ≠ 0 ∧ s.dev.ripOn = false) ∧ s.dev.tim.dreq = some (n, t3) ∧
    s.dev.tim.pair = some (m, t1, t2) ∧ s.dev.tim.skip ≠ 0 := by decide +kernel

theorem wit_ptpDelayMeasured :
    let s : State := put (mod dr (fun d => { d with tim := { d.tim with skip := 0, valid := true, delays := [], pair := some (7, 0, 0), dreq := some (4, 0) } })) [(P.timeStepThreshold, 1000)]
    let dt : Nat := 5; let n : Nat := 4; let m : Nat := 7; let t1 : Int := 0; let t2 : Int := 0; let t3 : Int := 0
    let t4 : PtpTime := ⟨0, 0, 0⟩
    let delays := keepLast 16 (s.dev.tim.delays ++ [(t2 - t1) + ((s.at_ dt).ptpStamp t4 - t3)])
    let off := rhe ((t2 - t1 - sx 40 (s.a P.timeAsymmetryMl) * (stampUnit : Nat)) * (2 * delays.length : Nat) - delays.sum) (2 * delays.length * stampUnit)
    ((s.at_ dt).up = true ∧ s.dev.portWidth 0 ≠ 0 ∧ s.dev.ripOn = false) ∧ s.dev.tim.dreq = some (n, t3) ∧
    s.dev.tim.pair = some (m, t1, t2) ∧ s.dev.tim.skip = 0 ∧ s.dev.tim.valid = true ∧
    off.natAbs < s.a P.timeStepThreshold * 1000 := by decide +kernel

theorem wit_ptpAnnounce :
   (let s : State := (tm 1); let dt : Nat := 5; let x : PtpAnnounce := (an 9)
    ((s.at_ dt).up = true ∧ s.dev.portWidth 0 ≠ 0 ∧ s.dev.ripOn = false) ∧ x.domain = s.a P.ptpDomain ∧
    s.dev.timeSource = 1 ∧ s.dev.tim.master = none) ∧
   (let s : State := (tm 1 (fun t => { t with master := some (ms 7) })); let dt : Nat := 5
    let x : PtpAnnounce := (an 9)
    ((s.at_ dt).up = true ∧ s.dev.portWidth 0 ≠ 0 ∧ s.dev.ripOn = false) ∧ x.domain = s.a P.ptpDomain ∧
    s.dev.timeSource = 1) ∧
   (let s : State := (tm 1 (fun t => { t with master := some (ms 11) })); let dt : Nat := 5
    let x : PtpAnnounce := (an 9)
    ((s.at_ dt).up = true ∧ s.dev.portWidth 0 ≠ 0 ∧ s.dev.ripOn = false) ∧ x.domain = s.a P.ptpDomain ∧
    s.dev.timeSource = 1) := by decide +kernel

theorem wit_ptpUnsupportedMessage :
    let s : State := (tm 1); let dt : Nat := 5
    ((s.at_ dt).up = true ∧ s.dev.portWidth 0 ≠ 0 ∧ s.dev.ripOn = false) := by decide +kernel

theorem wit_delayReqSend :
    let s : State := tm 1; let dt : Nat := 5
    let d := s.at_ dt
    d.ptpRuns = true ∧ d.quiet = true ∧ s.dev.shaped = true := by decide +kernel

theorem wit_timeSourceLost :
   (let s : State := (tm 1 (fun t => {t with valid := true}))
    (s.dev.timeSource = 1 ∨ s.dev.timeSource = 3) ∧ s.dev.tim.valid = true ∧ s.a P.timeState ≠ 3) ∧
   (let s : State := (tm 1 (fun t => {t with valid := true}) [(P.archIslandNumber,2),(P.archIslandNumber,2),(P.timeState,1)])
    (s.dev.timeSource = 1 ∨ s.dev.timeSource = 3) ∧ s.dev.tim.valid = true ∧ s.a P.timeState ≠ 3) := by decide +kernel

theorem wit_steppedClear :
    let s : State := (tm 1 (fun t => {t with stepped := true, stepAt := 0})); let dt : Nat := 5
    s.dev.tim.stepAt + 10 ^ 12 ≤ (s.at_ dt).now := by decide +kernel

theorem wit_timeSetTime :
   (let s : State := (tm 4); let dt : Nat := 5; let secs : Nat := 5; let frac : Nat := 0; let w : Who := wO
    secs < 2 ^ 64 ∧ frac < 2 ^ 40 ∧ s.takes dt w (writeItem P.timeSetTime 0 [secs + frac * 2 ^ 64]) {} ∧
    secs * merUnit + frac * 2 ^ 72 ≤ (s.at_ dt).clk.mer) ∧
   (let s : State := (tm 4); let dt : Nat := 5; let secs : Nat := 0; let frac : Nat := (2^40-1)
    let w : Who := wO
    secs < 2 ^ 64 ∧ frac < 2 ^ 40 ∧ s.takes dt w (writeItem P.timeSetTime 0 [secs + frac * 2 ^ 64]) {} ∧
    secs * merUnit + frac * 2 ^ 72 ≤ (s.at_ dt).clk.mer) := by decide +kernel

theorem wit_timePpsNextSeconds :
    let s : State := (tm 2); let dt : Nat := 5; let value : Nat := (2^64-1); let w : Who := wO
    value < 2 ^ 64 ∧ s.takes dt w (writeItem P.timePpsNextSeconds 0 [value]) {} := by decide +kernel

theorem wit_ppsInEdge :
    let s : State := (tm 2 (fun t => {t with valid := true, ppsOn := true}) [(P.ppsInWindow,1000000),(P.timeStepThreshold,1000000)])
    let dt : Nat := 5; let finePs : Nat := 0
    let d := s.at_ dt
    let stamp : Int := (d.merPs : Int) + (finePs : Nat) - (s.a P.ppsInDelay : Nat)
    let off := stamp - rnear stamp (10 ^ 12) * 10 ^ 12
    s.dev.timeSource = 2 ∧ s.dev.clk.onLpo = false ∧ s.dev.tim.pps = none ∧ s.dev.tim.ppsOn = true ∧
    s.dev.tim.valid = true ∧ off.natAbs ≤ s.a P.ppsInWindow * 1000 ∧ off.natAbs < s.a P.timeStepThreshold * 1000 := by decide +kernel

theorem wit_ppsMissing :
   (let s : State := (tm 2 (fun t => {t with valid := true, ppsOn := true}))
    s.dev.timeSource = 2 ∧ s.dev.tim.ppsOn = true ∧ s.dev.tim.valid = true ∧ s.dev.tim.ppsMiss ≠ 1) ∧
   (let s : State := (tm 2 (fun t => {t with valid := true, ppsOn := true, ppsMiss := 1}))
    s.dev.timeSource = 2 ∧ s.dev.tim.ppsOn = true ∧ s.dev.tim.valid = true ∧ s.dev.tim.ppsMiss = 1) := by decide +kernel

theorem wit_ppsOutEdge :
    let s : State := (tm 2 (fun t => {t with valid := true}) [(P.ppsOutEnable,1)])
    s.a P.ppsOutEnable = 1 ∧ s.dev.tim.valid = true ∧ s.dev.clk.onLpo = false ∧ s.dev.tim.ppsOut = false := by decide +kernel

theorem wit_ppsOutPulseEnd :
    let s : State := (tm 2 (fun t => {t with valid := true, ppsOut := true}) [(P.ppsOutEnable,1)])
    s.dev.tim.ppsOut = true := by decide +kernel

theorem wit_straitTimeExchange :
   (let s : State := tm 1 (fun t => { t with skip := 2 }) [(P.archIslandNumber, 2), (P.timeParentPort, 0), (P.stLinkWidth + 0, 4)]
    let dt : Nat := 5; let x : StraitExchange := ⟨0, true, 1, ⟨2, 0⟩, ⟨3, 0⟩, ⟨0, 9, 0⟩, ⟨0, 9, 0⟩, none⟩
    let d := s.at_ dt
    let p := x.port + 1
    x.port < 4 ∧ d.timeCarries p = true ∧ d.quiet = true ∧ s.dev.shaped = true ∧ (x.child = true → s.dev.tim.skip ≠ 0) ∧
    x.child = true ∧ (s.dev.timeSource = 3 ∧ s.a P.timeParentPort = x.port)) ∧
   (let s : State := tm 1 (fun t => { t with skip := 2 }) [(P.archIslandNumber, 2), (P.timeParentPort, 3), (P.stLinkWidth + 3, 4)]
    let dt : Nat := 5; let x : StraitExchange := ⟨3, true, 1, ⟨2, 0⟩, ⟨3, 0⟩, ⟨0, 9, 0⟩, ⟨0, 9, 0⟩, none⟩
    let d := s.at_ dt
    let p := x.port + 1
    x.port < 4 ∧ d.timeCarries p = true ∧ d.quiet = true ∧ s.dev.shaped = true ∧ (x.child = true → s.dev.tim.skip ≠ 0) ∧
    x.child = true ∧ (s.dev.timeSource = 3 ∧ s.a P.timeParentPort = x.port)) ∧
   (let s : State := tm 1 (fun t => { t with skip := 2 }) [(P.archIslandNumber, 2), (P.timeParentPort, 0), (P.stLinkWidth + 3, 4)]
    let dt : Nat := 5; let x : StraitExchange := ⟨3, false, 1, ⟨2, 0⟩, ⟨3, 0⟩, ⟨0, 9, 0⟩, ⟨0, 9, 0⟩, none⟩
    let d := s.at_ dt
    let p := x.port + 1
    x.port < 4 ∧ d.timeCarries p = true ∧ d.quiet = true ∧ s.dev.shaped = true ∧ (x.child = true → s.dev.tim.skip ≠ 0) ∧
    x.child = false ∧ (¬ (s.dev.timeSource = 3 ∧ s.a P.timeParentPort = x.port))) := by decide +kernel

end Time

/-! ### Ephemeris -/

namespace Ephemeris

def eb (secs action flags arg idx : Nat) : List Byte := leBytes 8 secs ++ leBytes 5 0 ++ leBytes 1 action ++ leBytes 1 flags ++ zeros 1 ++ leBytes 4 arg ++ leBytes 2 idx ++ leBytes 2 7
def tv : State := mod units (fun d => { d with tim := { d.tim with valid := true } })
def en (e : EphEnt) (i : Nat := 9) (l : List (Nat × Nat) := []) : State := mod (put tv l) (fun d => { d with eph := { d.eph with ent := [(i,e)] } })
def e0 (a : Nat) (arg : Nat := 0) (fl : Nat := 0) (st : Nat := 1): EphEnt := ⟨5,0,a,fl,st,arg,7⟩
def deep : List (Nat × Nat) := [(P.pwrState,0),(P.pwrActiveMask,0)]
def cond (st n : Nat) (e : Nat := 0) : State := en (e0 7 1) 9 [(P.transitState, st), (P.transitStateCount, n), (P.transitStateCond, 5 + e)]
def sl := mod (put tv [(P.pwrActiveMask,0),(P.pwrState,2)]) (fun d => { d with pwr := { d.pwr with sleepTo := some 5 } })

theorem wit_ephWrite :
   (let s : State := tv; let dt : Nat := 5; let w : Who := wO; let body : List Byte := (eb 6 2 0 1 0xFFFF)
    let e := (ephBody body).1
    let i := (ephBody body).2
    body.length = 24 ∧ s.takes dt w (writeItem P.ephWrite 0 (body.map (·.toNat))) {} ∧ e.action ≠ 0 ∧
    (s.at_ dt).ephPast e = false ∧
    (∀ x, (s.at_ dt).ephLead e = some x → e.before (x + 10) (s.at_ dt).clk.mer = false) ∧ i = 0xFFFF) ∧
   (let s : State := tv; let dt : Nat := 5; let w : Who := wO; let body : List Byte := (eb 6 3 0 1 1023)
    let e := (ephBody body).1
    body.length = 24 ∧ s.takes dt w (writeItem P.ephWrite 0 (body.map (·.toNat))) {} ∧ e.action ≠ 0 ∧
    (s.at_ dt).ephPast e = false ∧ (∀ x, (s.at_ dt).ephLead e = some x → e.before (x + 10) (s.at_ dt).clk.mer = false)) ∧
   (let s : State := tv; let dt : Nat := 5; let w : Who := wO; let body : List Byte := (eb 2000 11 0 0 0)
    let e := (ephBody body).1
    body.length = 24 ∧ s.takes dt w (writeItem P.ephWrite 0 (body.map (·.toNat))) {} ∧ e.action ≠ 0 ∧
    (s.at_ dt).ephPast e = false ∧ (∀ x, (s.at_ dt).ephLead e = some x → e.before (x + 10) (s.at_ dt).clk.mer = false)) := by decide +kernel

theorem wit_ephCancel :
   (let s : State := (en (e0 2)); let dt : Nat := 5; let i : Nat := 9; let w : Who := wO
    i < 1024 ∧ s.takes dt w (writeItem P.ephWrite 0 ((zeros 20 ++ leBytes 2 i ++ zeros 2).map (·.toNat))) {}) ∧
   (let s : State := (en (e0 2) 1023); let dt : Nat := 5; let i : Nat := 1023; let w : Who := wO
    i < 1024 ∧ s.takes dt w (writeItem P.ephWrite 0 ((zeros 20 ++ leBytes 2 i ++ zeros 2).map (·.toNat))) {}) := by decide +kernel

theorem wit_ephPrepare :
   (let s : State := en (e0 3 1); let dt : Nat := 5; let i : Nat := 9; let ns : Nat := 2000; let e : EphEnt := e0 3 1
    s.dev.ephAt i = some e ∧ e.state = 1 ∧ (s.at_ dt).ephLead e = some ns ∧ (s.at_ dt).ephHeld = false ∧
    e.before (ns + 10) (s.at_ dt).clk.mer = true) ∧
   (let s : State := mod (en (e0 1 2) 9 [(P.pwrActiveMask, 0), (P.pwrState, 1)]) (fun d => { d with pwr := { d.pwr with base := 1 } })
    let dt : Nat := 5; let i : Nat := 9; let ns : Nat := upMax 1 2; let e : EphEnt := e0 1 2
    s.dev.ephAt i = some e ∧ e.state = 1 ∧ (s.at_ dt).ephLead e = some ns ∧ (s.at_ dt).ephHeld = false ∧
    e.before (ns + 10) (s.at_ dt).clk.mer = true) := by decide +kernel

theorem wit_ephWake :
   (let s : State := (en (e0 1 1 0 2)); let dt : Nat := 5; let i : Nat := 9; let e : EphEnt := (e0 1 1 0 2)
    s.fires dt i 1 e ∧ e.state = 2) ∧
   (let s : State := (en (e0 1 1 2 2)); let dt : Nat := 5; let i : Nat := 9; let e : EphEnt := (e0 1 1 2 2)
    s.fires dt i 1 e ∧ e.state = 2 ∧ bit e.flags 1 = true) := by decide +kernel

theorem wit_ephSleep :
   (let s : State := (en (e0 2 1)); let dt : Nat := 5; let i : Nat := 9; let e : EphEnt := (e0 2 1)
    s.fires dt i 2 e ∧ s.a P.pwrState ≠ 0 ∧ (e.arg < s.dev.pwr.base ∨ s.a P.pwrActiveMask ≠ 0)) ∧
   (let s : State := (mod (en (e0 2 1) 9 [(P.pwrActiveMask,0),(P.pwrState,1)]) (fun d => { d with pwr := {d.pwr with base := 1}}))
    let dt : Nat := 5; let i : Nat := 9; let e : EphEnt := (e0 2 1)
    s.fires dt i 2 e ∧ s.a P.pwrState ≠ 0 ∧ s.dev.pwr.base ≤ e.arg ∧ s.a P.pwrActiveMask = 0) := by decide +kernel

theorem wit_ephHandover :
   (let s : State := en (e0 3 1); let dt : Nat := 5; let i : Nat := 9; let e : EphEnt := e0 3 1
    s.fires dt i 3 e ∧ s.dev.shaped = true ∧ s.a P.pwrState ≠ 0) ∧
   (let s : State := en (e0 3 1) 9 deep; let dt : Nat := 5; let i : Nat := 9; let e : EphEnt := e0 3 1
    s.fires dt i 3 e ∧ s.dev.shaped = true ∧ s.a P.pwrState = 0) := by decide +kernel

theorem wit_ephChart :
   (let s : State := en (e0 4 1); let dt : Nat := 5; let i : Nat := 9; let e : EphEnt := e0 4 1
    s.fires dt i 4 e ∧ s.a P.pwrState ≠ 0 ∧ s.dev.cha.load = none ∧ s.dev.cha.store = none) ∧
   (let s : State := mod (en (e0 4 1)) (fun d => { d with cha := { d.cha with load := some ⟨2, 4, 5⟩ } }); let dt : Nat := 5
    let i : Nat := 9; let e : EphEnt := e0 4 1
    s.fires dt i 4 e ∧ s.a P.pwrState ≠ 0 ∧ s.dev.cha.load.isSome = true) ∧
   (let s : State := en (e0 4 1) 9 deep; let dt : Nat := 5; let i : Nat := 9; let e : EphEnt := e0 4 1
    s.fires dt i 4 e ∧ s.a P.pwrState = 0) := by decide +kernel

theorem wit_ephCollimate :
   (let s : State := en (e0 5 1); let dt : Nat := 5; let i : Nat := 9; let e : EphEnt := e0 5 1
    s.fires dt i 5 e ∧ s.dev.shaped = true ∧ s.dev.col.win = none) ∧
   (let s : State := mod (en (e0 5 1)) (fun d => { d with col := { d.col with win := some (3, 4) } }); let dt : Nat := 5
    let i : Nat := 9; let e : EphEnt := e0 5 1
    s.fires dt i 5 e ∧ s.dev.shaped = true ∧ s.dev.col.win = some (3, 4)) := by decide +kernel

theorem wit_ephSyncReset :
   (let s : State := (en (e0 6 0)); let dt : Nat := 5; let i : Nat := 9; let e : EphEnt := (e0 6 0)
    s.fires dt i 6 e ∧ s.a P.pwrState ≠ 0) ∧
   (let s : State := (en (e0 6 0) 9 deep); let dt : Nat := 5; let i : Nat := 9; let e : EphEnt := (e0 6 0)
    s.fires dt i 6 e ∧ s.a P.pwrState = 0) := by decide +kernel

theorem wit_ephTransitArm :
    let s : State := (put (en (e0 7 0)) [(P.transitEnable,1),(P.transitSource,0)]); let dt : Nat := 5
    let i : Nat := 9; let e : EphEnt := (e0 7 0)
    s.fires dt i 7 e ∧ e.arg = 0 ∧ s.a P.pwrState ≠ 0 ∧ (s.at_ dt).traMayArm = true := by decide +kernel

theorem wit_ephTransitCondition :
   (let s : State := cond 1 2; let dt : Nat := 5; let i : Nat := 9; let e : EphEnt := e0 7 1
    let q := s.a P.transitSeqState
    let meets : Prop := s.dev.condMet q 5 0 = true ∧ s.dev.tra.lastEdge ≠ some ((s.at_ dt).now / 10000)
    let full : Prop := max 1 (s.a (P.transitStateCount + q)) ≤ s.dev.tra.cnt + 1
    s.fires dt i 7 e ∧ e.arg = 1 ∧ s.a P.pwrState ≠ 0 ∧ s.dev.traSt = 1 ∧ meets ∧ (¬ full)) ∧
   (let s : State := cond 1 1; let dt : Nat := 5; let i : Nat := 9; let e : EphEnt := e0 7 1
    let q := s.a P.transitSeqState
    let c := s.dev.seqEntry q
    let meets : Prop := s.dev.condMet q 5 0 = true ∧ s.dev.tra.lastEdge ≠ some ((s.at_ dt).now / 10000)
    let full : Prop := max 1 (s.a (P.transitStateCount + q)) ≤ s.dev.tra.cnt + 1
    s.fires dt i 7 e ∧ e.arg = 1 ∧ s.a P.pwrState ≠ 0 ∧ s.dev.traSt = 1 ∧ meets ∧ full ∧ bit c 21 = false) ∧
   (let s : State := cond 1 1 (2 ^ 21); let dt : Nat := 5; let i : Nat := 9; let e : EphEnt := e0 7 1
    let q := s.a P.transitSeqState
    let c := s.dev.seqEntry q
    let meets : Prop := s.dev.condMet q 5 0 = true ∧ s.dev.tra.lastEdge ≠ some ((s.at_ dt).now / 10000)
    let full : Prop := max 1 (s.a (P.transitStateCount + q)) ≤ s.dev.tra.cnt + 1
    s.fires dt i 7 e ∧ e.arg = 1 ∧ s.a P.pwrState ≠ 0 ∧ s.dev.traSt = 1 ∧ meets ∧ full ∧ bit c 21 = true) ∧
   (let s : State := cond 3 1; let dt : Nat := 5; let i : Nat := 9; let e : EphEnt := e0 7 1
    s.fires dt i 7 e ∧ e.arg = 1 ∧ s.a P.pwrState ≠ 0 ∧ s.dev.traSt = 3 ∧ s.dev.condMet 0 5 0 = true) ∧
   (let s : State := cond 0 1; let dt : Nat := 5; let i : Nat := 9; let e : EphEnt := e0 7 1
    let q := s.a P.transitSeqState
    let meets : Prop := s.dev.condMet q 5 0 = true ∧ s.dev.tra.lastEdge ≠ some ((s.at_ dt).now / 10000)
    s.fires dt i 7 e ∧ e.arg = 1 ∧ s.a P.pwrState ≠ 0 ∧ (¬ (s.dev.traSt = 1 ∧ meets)) ∧
    (¬ (s.dev.traSt = 3 ∧ s.dev.condMet 0 5 0 = true))) := by decide +kernel

theorem wit_ephWakeBegins :
   (let s : State := put (mod (en (e0 1 1) 9 deep) (fun d => { d with pwr := { d.pwr with base := 0 } })) [(P.wakeSourceMask, 255)]
    let dt : Nat := 5; let i : Nat := 9; let e : EphEnt := e0 1 1
    s.fires dt i 1 e ∧ e.state ≠ 2 ∧ s.dev.mayWake = true ∧ bit (s.a P.wakeSourceMask) 0 = true ∧ s.a P.pwrActiveMask = 0 ∧
    s.dev.pwr.jobs = [] ∧ s.dev.pwr.base < e.arg ∧ e.arg ≤ 2) ∧
   (let s : State := put (mod (en (e0 1 2) 9 deep) (fun d => { d with pwr := { d.pwr with base := 0 } })) [(P.wakeSourceMask, 1)]
    let dt : Nat := 5; let i : Nat := 9; let e : EphEnt := e0 1 2
    s.fires dt i 1 e ∧ e.state ≠ 2 ∧ s.dev.mayWake = true ∧ bit (s.a P.wakeSourceMask) 0 = true ∧ s.a P.pwrActiveMask = 0 ∧
    s.dev.pwr.jobs = [] ∧ s.dev.pwr.base < e.arg ∧ e.arg ≤ 2) := by decide +kernel

theorem wit_ephTransitClose :
   (let s : State := (en (e0 7 2)); let dt : Nat := 5; let i : Nat := 9; let e : EphEnt := (e0 7 2)
    s.fires dt i 7 e ∧ e.arg = 2 ∧ s.a P.pwrState ≠ 0) ∧
   (let s : State := (put (en (e0 7 2)) [(P.transitState,2)]); let dt : Nat := 5; let i : Nat := 9
    let e : EphEnt := (e0 7 2)
    s.fires dt i 7 e ∧ e.arg = 2 ∧ s.a P.pwrState ≠ 0 ∧ (s.dev.traSt = 1 ∨ s.dev.traSt = 2 ∨ s.dev.traSt = 3)) ∧
   (let s : State := (put (en (e0 7 2)) [(P.transitState,1)]); let dt : Nat := 5; let i : Nat := 9
    let e : EphEnt := (e0 7 2)
    s.fires dt i 7 e ∧ e.arg = 2 ∧ s.a P.pwrState ≠ 0) := by decide +kernel

theorem wit_ephHkInject :
    let s : State := (mod (en (e0 8 2) 9 [(P.hkInjectState+2,1)]) (fun d => { d with hk := { d.hk with running := true } }))
    let dt : Nat := 5; let i : Nat := 9; let e : EphEnt := (e0 8 2)
    s.fires dt i 8 e ∧ s.a (P.hkInjectState + e.arg % 4) = 1 ∧ s.dev.hk.running = true ∧ s.a P.hkCalState ≠ 2 ∧
    (∀ k, k < 4 → s.a (P.hkInjectState + k) ≠ 2) := by decide +kernel

theorem wit_ephTxEnable :
    let s : State := (en (e0 9 5) 9 [(P.ephTxDisabledMask,15)]); let dt : Nat := 5; let i : Nat := 9
    let e : EphEnt := (e0 9 5)
    s.fires dt i 9 e := by decide +kernel

theorem wit_ephTxDisable :
    let s : State := (mod (en (e0 10 15)) (fun d => d.setBurst 0 (fun b => { b with st := 2, slot := 5000})))
    let dt : Nat := 5; let i : Nat := 9; let e : EphEnt := (e0 10 15)
    s.fires dt i 10 e ∧ s.dev.shaped = true := by decide +kernel

theorem wit_ephFirmwareActivate :
   (let s : State := en (e0 11 8) 9 [(P.updStage, 3), (P.updPackageId, 8)]; let dt : Nat := 5; let i : Nat := 9
    let e : EphEnt := e0 11 8
    s.fires dt i 11 e ∧ s.a P.updStage = 3 ∧ s.a P.updPackageId = e.arg ∧ s.a P.pwrActiveMask ≠ 0) ∧
   (let s : State := en (e0 11 9) 9 [(P.updStage, 3), (P.updPackageId, 8)]; let dt : Nat := 5; let i : Nat := 9
    let e : EphEnt := e0 11 9
    s.fires dt i 11 e ∧ (¬ (s.a P.updStage = 3 ∧ s.a P.updPackageId = e.arg))) := by decide +kernel

theorem wit_sleepTakeEffect :
   (let s : State := sl; let dt : Nat := 5; let x : Nat := 5
    s.dev.pwr.sleepTo = some x ∧ x % 4 ≤ 1 ∧ 4 ≤ x ∧ s.a P.pwrActiveMask = 0 ∧ s.dev.bringing = 0 ∧ s.dev.pwr.jobs = [] ∧
    s.dev.pwr.base = 2 ∧ s.dev.col.win = none ∧ s.dev.sen.win = none ∧ (s.at_ dt).ephHeld = false ∧ x % 4 = 1) ∧
   (let s : State := mod sl (fun d => { d with pwr := { d.pwr with sleepTo := some 4 } }); let dt : Nat := 5; let x : Nat := 4
    s.dev.pwr.sleepTo = some x ∧ x % 4 ≤ 1 ∧ 4 ≤ x ∧ s.a P.pwrActiveMask = 0 ∧ s.dev.bringing = 0 ∧ s.dev.pwr.jobs = [] ∧
    s.dev.pwr.base = 2 ∧ s.dev.col.win = none ∧ s.dev.sen.win = none ∧ (s.at_ dt).ephHeld = false) := by decide +kernel

theorem wit_collimWindowEnd :
   (let s : State := mod tv (fun d => { d with col := { d.col with win := some (3, 4), run := some 7 } }); let dt : Nat := 5
    let a : Nat := 3; let b : Nat := 4
    s.dev.col.win = some (a, b) ∧ b ≤ (s.at_ dt).merNs) ∧
   (let s : State := mod tv (fun d => { d with col := { d.col with win := some (3, 4), before := 2 } }); let dt : Nat := 5
    let a : Nat := 3; let b : Nat := 4
    s.dev.col.win = some (a, b) ∧ b ≤ (s.at_ dt).merNs ∧ 2 ≤ max s.dev.col.before s.dev.pwr.named) := by decide +kernel

end Ephemeris

/-! ### Lanes -/

namespace Lanes

def ln (l v : Nat) (f : Lane → Lane := id) : State := mod (put units [(P.laneState+l,v)]) (fun d => d.setLaneRec l f)
def caps : List Byte := let b := zeros 28; b ++ leBytes 4 (crc32c b)
def capsS : List Byte := let b := zeros 9 ++ leBytes 1 4 ++ zeros 18; b ++ leBytes 4 (crc32c b)
def lb (l v : Nat) (f : Lane → Lane := id) : State := mod (put ready [(P.laneState+l,v)]) (fun d => d.setLaneRec l f)

def msb (w v : Nat) : List Bool := ((List.range w).map (fun i => bit v i)).reverse
/-- A frame with FCOUNT 1, its header checked, before any descrambling and without an inserted bit. -/
def head : List Bool := msb 40 (2 ^ 16) ++ msb 8 (crc8 (msb 40 (2 ^ 16)))
def alt : Nat → Bool → List Bool
  | 0, _ => []
  | n + 1, b => b :: alt n (!b)
def frame : List Bool := head ++ alt 4048 (!head.getLastD true)

theorem alt_length (n : Nat) (b : Bool) : (alt n b).length = n := by
  induction n generalizing b with
  | zero => rfl
  | succ n ih => simp [alt, ih]

/-- Alternating bits pass the run-length limiter untouched. -/
theorem destuff_alt (n r : Nat) (b : Bool) : destuff n (!b) r (alt n b) = (alt n b, 0, false) := by
  induction n generalizing b r with
  | zero => rfl
  | succ n ih => have h := ih 1 (!b); cases b <;> simp_all [alt, destuff]

theorem frame_length : frame.length = 4096 := by
  simp only [frame, List.length_append, alt_length]; decide

set_option maxRecDepth 20000 in
theorem destuff_frame : destuff 4096 true 1 frame = (frame, 0, false) := by
  have h (x : List Bool) : destuff 4096 true 1 (head ++ x) =
      (head ++ (destuff 4048 (head.getLastD true) 2 x).1, (destuff 4048 (head.getLastD true) 2 x).2) := rfl
  have k := destuff_alt 4048 2 (!head.getLastD true)
  rw [Bool.not_not] at k
  rw [frame, h, k]

theorem wit_laneTerminationFound :
   (let s : State := (ln 0 (1+16)); let lane : Nat := 0
    lane < 24 ∧ s.dev.shaped = true ∧ s.dev.laneSt lane = 1) ∧
   (let s : State := (ln 23 1); let lane : Nat := 23
    lane < 24 ∧ s.dev.shaped = true ∧ s.dev.laneSt lane = 1) := by decide +kernel

theorem wit_laneTrainDone :
    let s : State := (ln 23 2); let lane : Nat := 23
    lane < 24 ∧ s.dev.shaped = true ∧ s.dev.laneSt lane = 2 := by decide +kernel

theorem wit_laneLockDone :
    let s : State := (ln 23 3); let lane : Nat := 23
    lane < 24 ∧ s.dev.shaped = true ∧ s.dev.laneSt lane = 3 := by decide +kernel

theorem wit_laneCapsDone :
   (let s : State := ln 7 4; let lane : Nat := 7; let record : List Byte := caps
    lane < 24 ∧ s.dev.shaped = true ∧ s.dev.laneSt lane = 4 ∧ capsOk lane record = true ∧ lane < 8) ∧
   (let s : State := ln 0 4; let lane : Nat := 0; let record : List Byte := caps
    lane < 24 ∧ s.dev.shaped = true ∧ s.dev.laneSt lane = 4 ∧ capsOk lane record = true ∧ (s.dev.laneRec 0).low = false) ∧
   (let s : State := ln 0 4 (fun x => { x with low := true }); let lane : Nat := 0; let record : List Byte := caps
    lane < 24 ∧ s.dev.shaped = true ∧ s.dev.laneSt lane = 4 ∧ capsOk lane record = true ∧ (s.dev.laneRec 0).low = true) ∧
   (let s : State := lb 23 4; let lane : Nat := 23; let record : List Byte := capsS
    lane < 24 ∧ s.dev.shaped = true ∧ s.dev.laneSt lane = 4 ∧ capsOk lane record = true ∧ lane ≠ 0) := by decide +kernel

theorem wit_laneStageTimeout :
   (let s : State := (ln 7 (2+8)); let dt : Nat := 5; let lane : Nat := 7
    lane < 24 ∧ s.dev.shaped = true ∧ 2 ≤ s.dev.laneSt lane ∧ s.dev.laneSt lane ≤ 4 ∧
    (s.dev.laneRec lane).since + stageLimit (s.dev.laneSt lane) ≤ (s.at_ dt).now ∧ (s.dev.laneRec lane).told = false ∧
    (s.dev.laneRec lane).toRate = 0) ∧
   (let s : State := (ln 7 (4+8) (fun x => { x with toRate := 1, told := true })); let dt : Nat := 5
    let lane : Nat := 7
    lane < 24 ∧ s.dev.shaped = true ∧ 2 ≤ s.dev.laneSt lane ∧ s.dev.laneSt lane ≤ 4 ∧
    (s.dev.laneRec lane).since + stageLimit (s.dev.laneSt lane) ≤ (s.at_ dt).now ∧ 1 ≤ (s.dev.laneRec lane).toRate ∧
    1 ≤ s.dev.laneRate lane) ∧
   (let s : State := (ln 7 (3) (fun x => { x with toRate := 1, told := true })); let dt : Nat := 5
    let lane : Nat := 7
    lane < 24 ∧ s.dev.shaped = true ∧ 2 ≤ s.dev.laneSt lane ∧ s.dev.laneSt lane ≤ 4 ∧
    (s.dev.laneRec lane).since + stageLimit (s.dev.laneSt lane) ≤ (s.at_ dt).now ∧ 1 ≤ (s.dev.laneRec lane).toRate ∧
    s.dev.laneRate lane = 0) := by decide +kernel

theorem wit_laneWaitEnd :
    let s : State := (ln 7 6); let dt : Nat := 5; let lane : Nat := 7
    lane < 24 ∧ s.dev.shaped = true ∧ s.dev.laneSt lane = 6 ∧ (s.dev.laneRec lane).since + 10 ^ 12 ≤ (s.at_ dt).now := by decide +kernel

theorem wit_laneLossOfSignal :
   (let s : State := (ln 7 5); let lane : Nat := 7
    lane < 24 ∧ s.dev.shaped = true ∧ s.dev.laneSt lane = 5 ∧ lane < 8) ∧
   (let s : State := (ln 7 45); let lane : Nat := 7
    lane < 24 ∧ s.dev.shaped = true) ∧
   (let s : State := (ln 23 4); let lane : Nat := 23
    lane < 24 ∧ s.dev.shaped = true) := by decide +kernel

theorem wit_laneMarkerLoss :
   (let s : State := ln 0 45; let lane : Nat := 0
    lane < 24 ∧ s.dev.shaped = true ∧ s.dev.laneSt lane = 5) ∧
   (let s : State := ln 23 45; let lane : Nat := 23
    lane < 24 ∧ s.dev.shaped = true ∧ s.dev.laneSt lane = 5) := by decide +kernel

theorem wit_laneFrame :
   (let s : State := (ln 0 45); let lane : Nat := 0; let bs : List Bool := (List.replicate 45 true)
    lane < 24 ∧ 2 ≤ s.dev.laneSt lane ∧ s.dev.laneSt lane ≤ 5 ∧ (destuff 4096 true 1 bs).2.2 = true ∧ lane < 8 ∧
    s.dev.laneIn lane = true) ∧
   (let s : State := (ln 23 45); let lane : Nat := 23; let bs : List Bool := (List.replicate 45 true)
    lane < 24 ∧ 2 ≤ s.dev.laneSt lane ∧ s.dev.laneSt lane ≤ 5 ∧ (destuff 4096 true 1 bs).2.2 = true ∧ (¬ (lane < 8 ∧
    s.dev.laneIn lane = true))) := by decide +kernel

theorem wit_laneFrameGood :
   (let s : State := ln 0 45; let dt : Nat := 5; let lane : Nat := 0; let bs : List Bool := frame
    let pay := (destuff 4096 true 1 bs).1
    let hdr := bitsMsb (pay.take 48)
    let n := bits hdr 47 24
    let late := (portLanes (portOf lane)).any (fun k => k != lane && s.dev.laneIn k && (s.dev.laneRec k).fcount == n && (s.dev.laneRec k).frameAt + skewLimit (s.dev.laneRate lane) < (s.at_ dt).now)
    lane < 24 ∧ s.dev.shaped = true ∧ 2 ≤ s.dev.laneSt lane ∧ s.dev.laneSt lane ≤ 5 ∧ (destuff 4096 true 1 bs).2.2 = false ∧
    pay.length = 4096 ∧ crc8 (pay.take 40) = hdr % 256 ∧ (s.dev.laneSt lane ≠ 5 ∨ s.dev.ab (P.laneState + lane) 6 = late) ∧
    s.dev.laneIn lane = true ∧ bits hdr 16 15 = 0) ∧
   (let s : State := ln 23 4; let dt : Nat := 5; let lane : Nat := 23; let bs : List Bool := frame
    let pay := (destuff 4096 true 1 bs).1
    let hdr := bitsMsb (pay.take 48)
    let n := bits hdr 47 24
    let late := (portLanes (portOf lane)).any (fun k => k != lane && s.dev.laneIn k && (s.dev.laneRec k).fcount == n && (s.dev.laneRec k).frameAt + skewLimit (s.dev.laneRate lane) < (s.at_ dt).now)
    lane < 24 ∧ s.dev.shaped = true ∧ 2 ≤ s.dev.laneSt lane ∧ s.dev.laneSt lane ≤ 5 ∧ (destuff 4096 true 1 bs).2.2 = false ∧
    pay.length = 4096 ∧ crc8 (pay.take 40) = hdr % 256 ∧ (s.dev.laneSt lane ≠ 5 ∨ s.dev.ab (P.laneState + lane) 6 = late) ∧
    s.dev.laneIn lane = false) ∧
   (let s : State := mod (put units [(P.laneState, 45), (P.laneState + 1, 109)]) (fun d => d.setLaneRec 0 (fun x => { x with fcount := 1 }))
    let dt : Nat := 5; let lane : Nat := 1; let bs : List Bool := frame
    let pay := (destuff 4096 true 1 bs).1
    let hdr := bitsMsb (pay.take 48)
    let n := bits hdr 47 24
    let late := (portLanes (portOf lane)).any (fun k => k != lane && s.dev.laneIn k && (s.dev.laneRec k).fcount == n && (s.dev.laneRec k).frameAt + skewLimit (s.dev.laneRate lane) < (s.at_ dt).now)
    lane < 24 ∧ s.dev.shaped = true ∧ 2 ≤ s.dev.laneSt lane ∧ s.dev.laneSt lane ≤ 5 ∧ (destuff 4096 true 1 bs).2.2 = false ∧
    pay.length = 4096 ∧ crc8 (pay.take 40) = hdr % 256 ∧ (s.dev.laneSt lane ≠ 5 ∨ s.dev.ab (P.laneState + lane) 6 = late) ∧
    late = true) := by
  simp only [destuff_frame, frame_length]
  decide +kernel

theorem wit_laneErrorSecond :
    let s : State := (ln 3 45 (fun x => { x with hdrErr := 2^30, stuff := 2^30 }))
    s.dev.shaped = true := by decide +kernel

theorem wit_laneMaxRateWrite :
   (let s : State := units; let dt : Nat := 5; let port : Nat := 0; let value : Nat := 3; let w : Who := wI
    port < 5 ∧ value < 256 ∧
    s.takes dt w (writeItem (if port = 0 then P.mlMaxRate else P.stMaxRate) (port - 1) [value]) {} ∧
    (∀ l, l < 24 → s.dev.laneRate l ≤ value)) ∧
   (let s : State := units; let dt : Nat := 5; let port : Nat := 4; let value : Nat := 3; let w : Who := wI
    port < 5 ∧ value < 256 ∧
    s.takes dt w (writeItem (if port = 0 then P.mlMaxRate else P.stMaxRate) (port - 1) [value]) {}) := by decide +kernel

theorem wit_laneMarginScan :
    let s : State := (ln 0 5); let dt : Nat := 5; let value : Nat := 255; let w : Who := wO
    value < 2 ^ 24 ∧ s.takes dt w (writeItem P.laneMarginScan 0 [value]) {} := by decide +kernel

theorem wit_laneMarginScanDone :
    let s : State := (put units [(P.laneMarginScan,2)]); let lane : Nat := 1
    lane < 24 ∧ bit (s.a P.laneMarginScan) lane = true := by decide +kernel

end Lanes

/-! ### Mainland -/

namespace Mainland

def cu (vc v : Nat) : List Byte := let b := leBytes 1 0xC5 ++ leBytes 1 vc ++ leBytes 3 v ++ zeros 1; b ++ leBytes 2 (crc16 b)
def pe (n : Nat) : State := { mainl with places := { mainl.places with ml := List.replicate n { n := 3, arg := 4, secs := 1, frac := 5, seq := 7 } } }
def tr : State := put (mod mainl (fun d => { d with tra := { d.tra with rcd := 9, sendOff := 0 } })) [(P.transitSendState,1)]

theorem wit_creditReceive :
   (let s : State := units; let dt : Nat := 5; let port : Nat := 0; let u : List Byte := (cu 2 300)
    port < 5 ∧ s.dev.shaped = true ∧ (s.at_ dt).up = true ∧ s.dev.portWidth port ≠ 0 ∧
    (s.dev.port.getD port {}).wait = [] ∧ s.dev.arch.gather = [] ∧ (u.length = 8 ∧ field u 0 1 = 0xC5 ∧
    field u 6 2 = crc16 (u.take 6)) ∧ port = 0 ∧ ((u.length = 8 ∧ field u 0 1 = 0xC5 ∧
    field u 6 2 = crc16 (u.take 6)) ∨ port ≠ 0)) ∧
   (let s : State := netted; let dt : Nat := 5; let port : Nat := 1
    port < 5 ∧ s.dev.shaped = true ∧ (s.at_ dt).up = true ∧ s.dev.portWidth port ≠ 0 ∧
    (s.dev.port.getD port {}).wait = [] ∧ s.dev.arch.gather = []) ∧
   (let s : State := units; let dt : Nat := 5; let port : Nat := 0; let u : List Byte := (zeros 8)
    port < 5 ∧ s.dev.shaped = true ∧ (s.at_ dt).up = true ∧ s.dev.portWidth port ≠ 0 ∧
    (s.dev.port.getD port {}).wait = [] ∧ s.dev.arch.gather = [] ∧ (¬ (u.length = 8 ∧ field u 0 1 = 0xC5 ∧
    field u 6 2 = crc16 (u.take 6))) ∧ port = 0) := by decide +kernel

theorem wit_creditSend :
    let s : State := units; let dt : Nat := 5; let port : Nat := 0; let vc : Nat := 3
    port < 5 ∧ vc < 4 ∧ s.dev.shaped = true ∧ (s.at_ dt).up = true ∧ s.dev.portWidth port ≠ 0 := by decide +kernel

theorem wit_heartbeatReceive :
   (let s : State := netted; let dt : Nat := 5; let h : Hdr := (mh 1 2)
    let body : List Byte := (zeros 16 ++ leBytes 16 (9*2^64))
    s.hears dt h tHeartbeat body.length ∧ body.length = 32 ∧ s.dev.shaped = true) ∧
   (let s : State := mainl; let dt : Nat := 5; let h : Hdr := (mh 0 2)
    let body : List Byte := (zeros 16 ++ leBytes 16 (9*2^64))
    s.hears dt h tHeartbeat body.length ∧ body.length = 32 ∧ s.dev.shaped = true) := by decide +kernel

theorem wit_heartbeatSend :
   (let s : State := mainl; let dt : Nat := 5; let port : Nat := 0
    let d := s.at_ dt
    let m := d.mkMsg port (if port = 0 then d.island else 0xFE) 2 tHeartbeat false
      (leBytes 16 d.timeNow ++ [0, 1, 2, 3].flatMap (fun vc => leBytes 4 (d.chan port vc).consumed))
    port < 5 ∧ d.up = true ∧ d.portWidth port ≠ 0 ∧ d.joinCarries port 2 tHeartbeat = true ∧ d.quiet = true ∧
    d.canSend port m = true) ∧
   (let s : State := netted; let dt : Nat := 5; let port : Nat := 1
    let d := s.at_ dt
    let m := d.mkMsg port (if port = 0 then d.island else 0xFE) 2 tHeartbeat false
      (leBytes 16 d.timeNow ++ [0, 1, 2, 3].flatMap (fun vc => leBytes 4 (d.chan port vc).consumed))
    port < 5 ∧ d.up = true ∧ d.portWidth port ≠ 0 ∧ d.joinCarries port 2 tHeartbeat = true ∧ d.quiet = true ∧
    d.canSend port m = true) := by decide +kernel

theorem wit_partnerSilent :
    let s : State := units; let dt : Nat := 5
    s.dev.portWidth 0 ≠ 0 ∧ (s.dev.port.getD 0 {}).lastMsg + 8 * s.a P.mlHeartbeatPeriod * 10 ^ 6 ≤ (s.at_ dt).now := by decide +kernel

theorem wit_eventSend :
   (let s : State := (pe 3); let dt : Nat := 5; let count : Nat := 2
    let d := s.at_ dt
    let q := (s.arrive dt).places.ml
    let n := min (min count 512) q.length
    n ≠ 0 ∧ d.up = true ∧ d.quiet = true ∧ s.dev.flush = 0 ∧
    d.canSend d.egress (d.homeMsg 2 0x08 false (eventBody (q.take n))) = true) ∧
   (let s : State := (pe 3); let dt : Nat := 5; let count : Nat := 99
    let d := s.at_ dt
    let q := (s.arrive dt).places.ml
    let n := min (min count 512) q.length
    n ≠ 0 ∧ d.up = true ∧ d.quiet = true ∧ s.dev.flush = 0 ∧
    d.canSend d.egress (d.homeMsg 2 0x08 false (eventBody (q.take n))) = true) := by decide +kernel

theorem wit_telemetrySend :
    let s : State := mainl; let dt : Nat := 5
    let d := s.at_ dt
    let m := d.homeMsg 2 0x09 false (leBytes 16 (timeField d.secs 0 d.quality) ++ d.telemetry.1)
    d.up = true ∧ d.portWidth d.egress ≠ 0 ∧ d.quiet = true ∧ d.canSend d.egress m = true := by decide +kernel

theorem wit_captureDataSend :
    let s : State := tr; let dt : Nat := 5
    let d := (s.at_ dt).holdOutputs
    let h := d.octets P.transitRecordHeader 64
    let total := 64 + (field h 29 5 + field h 34 5) * 5 * field h 20 4
    let off := s.dev.tra.sendOff
    let n := min 9192 (total - off)
    let body := leBytes 4 s.dev.tra.rcd ++ zeros 4 ++ leBytes 8 off ++ leBytes 4 n ++ leBytes 4 (b2n (off + n == total)) ++ (List.range n).map (fun i => d.traByte s.mem (off + i))
    let m := d.homeMsg 3 0x0D false body
    s.a P.transitSendState = 1 ∧ d.sen.replay = 0 ∧ d.liveWaits = false ∧ d.histShed = false ∧ off < total ∧
    d.quiet = true ∧ d.canSend d.egress m = true := by decide +kernel

theorem wit_mainlandTrustClear :
   (let s : State := mainl; let dt : Nat := 5; let w : Who := wI
    s.takes dt w (writeItem P.mainlandTrust 0 [0]) {} ∧ s.a P.mainlandTrust = 1) ∧
   (let s : State := ready; let dt : Nat := 5; let w : Who := wI
    s.takes dt w (writeItem P.mainlandTrust 0 [0]) {}) := by decide +kernel

end Mainland

/-! ### Archipelago -/

namespace Archipelago

def rt (l : List (Nat × Nat) := []) : State := mod (put netted ([(P.archIslandNumber,2),(P.archRouteTable+0,8),(P.archRouteTable+5,9),(P.archRouteTable+7,10)] ++ l)) (fun d => { d with fus := { d.fus with chipId := 77 } })
def rp : List Byte := leBytes 8 99 ++ leBytes 1 2 ++ leBytes 1 5 ++ leBytes 1 3 ++ zeros 37
def mr (p vc : Nat) : Hdr := { mh p vc with resp := true, island := 2 }
def asgn (id : Nat) : List Byte := leBytes 8 id ++ leBytes 1 9 ++ leBytes 1 1 ++ leBytes 1 12 ++ leBytes 1 1 ++ leBytes 1 4 ++ leBytes 1 2 ++ zeros 2 ++ leBytes 4 8 ++ leBytes 8 6 ++ zeros 64
def wa : Assign := assignIn (asgn 77)
def pln (g : Nat := 0) : Plan := {slot := 5010, group := g, compact := false, items := [], places := [], fwd := true}
def member (dl : Bool) : State := mod (put rt [(P.redState,1),(P.apGroupEnable,3),(P.dlGroupEnable,3),(P.dlPathEnable,1)]) (fun d => { d with tim := { d.tim with valid := true }, arch := { d.arch with fwd := [⟨5010,0,dl,pln,false⟩] } })
def vb (fl lead : Nat) : List Byte := leBytes 8 5010 ++ leBytes 1 fl ++ leBytes 1 0 ++ leBytes 2 lead ++ zeros 4
def red : Red := { slot := 5000, group := 0, total := 20, block := 5, kept := 5, own := [⟨1, 1, 0, 0⟩], kids := [⟨0,[],3,false⟩], endAt := some 7 }
def col : State := mod (put rt [(P.redState,2),(P.redGroupSize,2),(P.redHeight,1)]) (fun d => { d with arch := { d.arch with red := [red] } })
def rb (fl off n : Nat) : List Byte := leBytes 8 5000 ++ leBytes 1 fl ++ zeros 3 ++ leBytes 4 off ++ leBytes 2 n ++ zeros 14 ++ zeros (5*n)
def ss : State := mod (put rt [(P.archSyncUpstream,1),(P.archNeighbours,1)]) (fun d => { d with arch := { d.arch with myStamp := some 900 } })

theorem wit_discoverRequest :
    let s : State := rt; let dt : Nat := 5; let h : Hdr := (mh 1 1)
    let d := s.heard dt h tDiscover 0
    let m := d.mkMsg h.port 0 1 tDiscover true d.report
    s.hears dt h tDiscover 0 ∧ h.port ≠ 0 ∧ d.canSend h.port m = true := by decide +kernel

theorem wit_discoverReport :
   (let s : State := rt; let dt : Nat := 5; let h : Hdr := (mr 1 1); let body : List Byte := rp
    s.hears dt h tDiscover body.length true ∧ h.port ≠ 0 ∧ body.length = 48 ∧ field body 0 8 ≠ 0 ∧
    field body 0 8 ≠ s.dev.fus.chipId ∧ s.dev.isRoot = false) ∧
   (let s : State := (put rt [(P.archIslandNumber,0),(P.archRoot,1)]); let dt : Nat := 5
    let h : Hdr := {mr 1 1 with island := 0}; let body : List Byte := rp
    s.hears dt h tDiscover body.length true ∧ h.port ≠ 0 ∧ body.length = 48 ∧ field body 0 8 ≠ 0 ∧
    field body 0 8 ≠ s.dev.fus.chipId ∧ s.dev.isRoot = true) := by decide +kernel

theorem wit_assign :
   (let s : State := rt; let dt : Nat := 5; let h : Hdr := (mh 1 1); let body : List Byte := (asgn 77)
    s.hears dt h tAssign body.length ∧ h.port ≠ 0 ∧ body.length = 92 ∧ field body 0 8 = s.dev.fus.chipId ∧
    s.dev.tim.valid = false) ∧
   (let s : State := rt; let dt : Nat := 5; let h : Hdr := (mh 1 1); let body : List Byte := (asgn 78)
    s.hears dt h tAssign body.length ∧ h.port ≠ 0 ∧ body.length = 92 ∧ field body 0 8 ≠ s.dev.fus.chipId) ∧
   (let s : State := (mod rt (fun d => { d with tim := { d.tim with valid := true } })); let dt : Nat := 5
    let h : Hdr := (mh 1 1); let body : List Byte := (asgn 77)
    s.hears dt h tAssign body.length ∧ h.port ≠ 0 ∧ body.length = 92 ∧ field body 0 8 = s.dev.fus.chipId ∧
    s.dev.tim.valid = true) := by decide +kernel

theorem wit_assignApply :
    let s : State := (mod rt (fun d => { d with arch := { d.arch with wait := some wa } })); let dt : Nat := 5
    let a : Assign := wa
    s.dev.arch.wait = some a ∧ (s.dev.tim.valid = false ∨ a.switch ≤ (s.at_ dt).secs) ∧ a.routes.length = 64 ∧
    a.epoch ≠ s.a P.archTopologyEpoch := by decide +kernel

theorem wit_routedForward :
   (let s : State := rt; let dt : Nat := 5; let ty : Nat := tAttach; let hops : Nat := 3; let p : Nat := 2
    let h : Hdr := {mh 1 1 with island := 5}; let body : List Byte := (zeros 24)
    let r := ((s.at_ dt).ripPass false h.port h.vc).rxBase h ty body.length (typeOk h.port ty h.vc h.resp)
    let d := r.1.freeUnits h.port h.vc (msgUnits body.length)
    let m : Msg := { vc := h.vc, type := ty, island := h.island, src := s.a P.archIslandNumber, hops := hops - 1, resp := h.resp, body := body }
    (s.at_ dt).quiet = true ∧ r.2 = true ∧ s.dev.inArch = true ∧ (s.at_ dt).joinCarries h.port h.vc ty = true ∧
    h.port ≠ 0 ∧ outward h.port ty h.resp = false ∧ h.island < 64 ∧ h.island ≠ s.dev.island ∧ ty ≠ tSlotPlan ∧
    s.dev.routePort h.island = some p ∧ (s.at_ dt).joinCarries p h.vc ty = true ∧ 2 ≤ hops ∧ d.canSend p m = true) ∧
   (let s : State := rt; let dt : Nat := 5; let ty : Nat := tAttach; let hops : Nat := 1; let p : Nat := 2
    let h : Hdr := {mh 1 1 with island := 5}; let body : List Byte := (zeros 24)
    let r := ((s.at_ dt).ripPass false h.port h.vc).rxBase h ty body.length (typeOk h.port ty h.vc h.resp)
    (s.at_ dt).quiet = true ∧ r.2 = true ∧ s.dev.inArch = true ∧ (s.at_ dt).joinCarries h.port h.vc ty = true ∧
    h.port ≠ 0 ∧ outward h.port ty h.resp = false ∧ h.island < 64 ∧ h.island ≠ s.dev.island ∧ ty ≠ tSlotPlan ∧
    s.dev.routePort h.island = some p ∧ (s.at_ dt).joinCarries p h.vc ty = true ∧ hops ≤ 1) ∧
   (let s : State := rt; let dt : Nat := 5; let ty : Nat := tAttach; let p : Nat := 3
    let h : Hdr := {mh 1 1 with island := 7}; let body : List Byte := (zeros 24)
    let r := ((s.at_ dt).ripPass false h.port h.vc).rxBase h ty body.length (typeOk h.port ty h.vc h.resp)
    (s.at_ dt).quiet = true ∧ r.2 = true ∧ s.dev.inArch = true ∧ (s.at_ dt).joinCarries h.port h.vc ty = true ∧
    h.port ≠ 0 ∧ outward h.port ty h.resp = false ∧ h.island < 64 ∧ h.island ≠ s.dev.island ∧ ty ≠ tSlotPlan ∧
    s.dev.routePort h.island = some p ∧ (s.at_ dt).joinCarries p h.vc ty = true) := by decide +kernel

theorem wit_planVerdict :
   (let s : State := (member false); let dt : Nat := 5; let h : Hdr := (mh 1 1)
    let body : List Byte := (vb 0 60000); let f : Fwd := ⟨5010,0,false,pln,false⟩
    let slot := field body 0 8
    let g := field body 8 1 % 2
    let dl := bit (field body 8 1) 1
    let mine (f : Fwd) : Bool := f.slot == slot && f.group == g && f.dl == dl
    s.hears dt h tVerdict body.length ∧ h.port ≠ 0 ∧ body.length = 16 ∧ s.a P.redState = 1 ∧ s.a P.redChildPorts = 0 ∧
    s.dev.arch.fwd.find? mine = some f ∧ bit (field body 8 1) 2 = false) ∧
   (let s : State := (member false); let dt : Nat := 5; let h : Hdr := (mh 1 1)
    let body : List Byte := (vb 4 60000); let f : Fwd := ⟨5010,0,false,pln,false⟩
    let slot := field body 0 8
    let g := field body 8 1 % 2
    let dl := bit (field body 8 1) 1
    let mine (f : Fwd) : Bool := f.slot == slot && f.group == g && f.dl == dl
    let d := s.heard dt h tVerdict body.length
    let late := field body 10 2 * 1000 < d.planLeadNs f.dl f.group
    s.hears dt h tVerdict body.length ∧ h.port ≠ 0 ∧ body.length = 16 ∧ s.a P.redState = 1 ∧ s.a P.redChildPorts = 0 ∧
    s.dev.arch.fwd.find? mine = some f ∧ bit (field body 8 1) 2 = true ∧ (¬ late) ∧
    d.unavailable f.dl f.plan = false ∧ d.overLink f.dl f.plan = false) ∧
   (let s : State := (member true); let dt : Nat := 5; let h : Hdr := (mh 1 1)
    let body : List Byte := (vb 6 60000); let f : Fwd := ⟨5010,0,true,pln,false⟩
    let slot := field body 0 8
    let g := field body 8 1 % 2
    let dl := bit (field body 8 1) 1
    let mine (f : Fwd) : Bool := f.slot == slot && f.group == g && f.dl == dl
    s.hears dt h tVerdict body.length ∧ h.port ≠ 0 ∧ body.length = 16 ∧ s.a P.redState = 1 ∧ s.a P.redChildPorts = 0 ∧
    s.dev.arch.fwd.find? mine = some f) ∧
   (let s : State := (member true); let dt : Nat := 5; let h : Hdr := (mh 1 1)
    let body : List Byte := (vb 6 1); let f : Fwd := ⟨5010,0,true,pln,false⟩
    let slot := field body 0 8
    let g := field body 8 1 % 2
    let dl := bit (field body 8 1) 1
    let mine (f : Fwd) : Bool := f.slot == slot && f.group == g && f.dl == dl
    let d := s.heard dt h tVerdict body.length
    let late := field body 10 2 * 1000 < d.planLeadNs f.dl f.group
    s.hears dt h tVerdict body.length ∧ h.port ≠ 0 ∧ body.length = 16 ∧ s.a P.redState = 1 ∧ s.a P.redChildPorts = 0 ∧
    s.dev.arch.fwd.find? mine = some f ∧ bit (field body 8 1) 2 = true ∧ late) := by decide +kernel

theorem wit_verdictDeadline :
   (let s : State := (mod (member true) (fun d => { d with arch := { d.arch with fwd := [⟨5000,0,true,pln,false⟩] } }))
    let dt : Nat := 5; let g : Nat := 0; let slot : Nat := 5000; let dl : Bool := true
    let mine (f : Fwd) : Bool := f.slot == slot && f.group == g && f.dl == dl
    s.dev.tim.valid = true ∧ slot * s.dev.slotNs ≤ (s.at_ dt).merNs + 100000 ∧
    (s.dev.arch.fwd.any mine = true ∨ (s.dev.parts dl).any (fun x => x.is slot g true) = true)) ∧
   (let s : State := (mod (member true) (fun d => { d with ul := { d.ul with part := [{slot := 5000, group := 1, fwd := true}] } }))
    let dt : Nat := 5; let g : Nat := 1; let slot : Nat := 5000; let dl : Bool := false
    let mine (f : Fwd) : Bool := f.slot == slot && f.group == g && f.dl == dl
    s.dev.tim.valid = true ∧ slot * s.dev.slotNs ≤ (s.at_ dt).merNs + 100000 ∧
    (s.dev.arch.fwd.any mine = true ∨ (s.dev.parts dl).any (fun x => x.is slot g true) = true)) := by decide +kernel

theorem wit_reduce :
   (let s : State := col; let dt : Nat := 5; let h : Hdr := (mh 1 3); let body : List Byte := (rb 4 0 0)
    let n := field body 16 2
    s.hears dt h tReduce body.length ∧ h.port ≠ 0 ∧ n ≤ 1836 ∧ 32 + 5 * n ≤ body.length) ∧
   (let s : State := col; let dt : Nat := 5; let h : Hdr := (mh 1 3); let body : List Byte := (rb 0 0 2)
    let n := field body 16 2
    s.hears dt h tReduce body.length ∧ h.port ≠ 0 ∧ n ≤ 1836 ∧ 32 + 5 * n ≤ body.length) ∧
   (let s : State := col; let dt : Nat := 5; let h : Hdr := (mh 1 3); let body : List Byte := (rb 0 3 2)
    let n := field body 16 2
    s.hears dt h tReduce body.length ∧ h.port ≠ 0 ∧ n ≤ 1836 ∧ 32 + 5 * n ≤ body.length) ∧
   (let s : State := rt; let dt : Nat := 5; let h : Hdr := (mh 1 3); let body : List Byte := (rb 0 0 2)
    let slot := field body 0 8
    let g := field body 8 1 % 2
    let n := field body 16 2
    s.hears dt h tReduce body.length ∧ h.port ≠ 0 ∧ n ≤ 1836 ∧ 32 + 5 * n ≤ body.length ∧
    (s.heard dt h tReduce body.length).redOf slot g = none) := by decide +kernel

theorem wit_reductionWindowClose :
    let s : State := col; let dt : Nat := 5; let g : Nat := 0; let slot : Nat := 5000; let e : Nat := 7
    let r : Red := red
    let mine (r : Red) : Bool := r.slot == slot && r.group == g
    s.dev.arch.red.find? mine = some r ∧ r.endAt = some e ∧ r.closed = false ∧ r.own.length ≤ r.total ∧
    e + s.a P.redWindow * 10 ^ 6 * s.a P.redHeight ≤ (s.at_ dt).now := by decide +kernel

theorem wit_syncStamp :
    let s : State := ss; let dt : Nat := 5; let mine : Nat := 900; let h : Hdr := (mh 1 0)
    let body : List Byte := (zeros 16)
    s.hears dt h tSyncStamp body.length ∧ h.port ≠ 0 ∧ body.length = 16 ∧ s.a P.archSyncUpstream ≠ 0xFF ∧
    s.a (P.archNeighbours + (h.port - 1)) = s.a P.archSyncUpstream ∧ s.dev.arch.myStamp = some mine := by decide +kernel

end Archipelago

/-! ### Dma -/

namespace Dma

def lo := 0x0200200000
def db (src dst op count flags const : Nat) : List Byte := leBytes 5 src ++ leBytes 5 dst ++ leBytes 5 0 ++ leBytes 1 op ++ leBytes 4 count ++ leBytes 1 flags ++ zeros 3 ++ leBytes 5 const ++ zeros 3
def withM (s : State) (a : Nat) (b : List Byte) : State := { s with mem := s.mem.write a b }
def de (l : List (Nat × Nat) := []) : State := put units ([(P.dmaEnable,65535)] ++ l)
def m1 (b : List Byte) : State := withM (de []) (lo + 64) b
def d0 (op : Nat) (src dst cnt : Nat) : Desc := descOf (db src dst op cnt 1 0x0102030405)
def rn (c st : Nat) (x : Desc) (mv : Nat := 0) (s : State := de []) : State := mod (put s [(P.dmaState+c,st)]) (fun d => { d with dma := { d.dma with ch := modAt d.dma.ch c (fun y => { y with desc := some x, moved := mv }) } })

theorem wit_dmaStart :
   (let s : State := (put de [(P.dmaEnable,0)]); let dt : Nat := 5; let c : Nat := 3; let addr : Nat := 7
    let w : Who := wO
    c < 16 ∧ addr < 2 ^ 40 ∧ s.dev.shaped = true ∧ s.takes dt w (writeItem P.dmaStartAddr c [addr]) {} ∧
    s.dev.ab P.dmaEnable c = false) ∧
   (let s : State := de; let dt : Nat := 5; let c : Nat := 15; let addr : Nat := (lo+64); let w : Who := wO
    c < 16 ∧ addr < 2 ^ 40 ∧ s.dev.shaped = true ∧ s.takes dt w (writeItem P.dmaStartAddr c [addr]) {} ∧
    s.dev.ab P.dmaEnable c = true ∧ bulk c = true) ∧
   (let s : State := de; let dt : Nat := 5; let c : Nat := 0; let addr : Nat := (lo+65); let w : Who := wO
    c < 16 ∧ addr < 2 ^ 40 ∧ s.dev.shaped = true ∧ s.takes dt w (writeItem P.dmaStartAddr c [addr]) {} ∧
    s.dev.ab P.dmaEnable c = true ∧ bulk c = false ∧ descAddrOk addr = false) ∧
   (let s : State := (m1 (db 0 (lo+32) 1 10 1 0x0102030405)); let dt : Nat := 5; let c : Nat := 0
    let addr : Nat := (lo+64); let w : Who := wO
    c < 16 ∧ addr < 2 ^ 40 ∧ s.dev.shaped = true ∧ s.takes dt w (writeItem P.dmaStartAddr c [addr]) {} ∧
    s.dev.ab P.dmaEnable c = true ∧ bulk c = false ∧ descAddrOk addr = true ∧ sramGenLo ≤ addr) ∧
   (let s : State := (m1 (db 0 (lo+32) 3 10 1 0x0102030405)); let dt : Nat := 5; let c : Nat := 7
    let addr : Nat := (lo+64); let w : Who := wO
    c < 16 ∧ addr < 2 ^ 40 ∧ s.dev.shaped = true ∧ s.takes dt w (writeItem P.dmaStartAddr c [addr]) {}) := by decide +kernel

theorem wit_dmaAbort :
   (let s : State := (rn 0 2 (d0 1 0 lo 10)); let dt : Nat := 5; let mask : Nat := 1; let w : Who := wO
    mask < 2 ^ 16 ∧ s.dev.shaped = true ∧ s.takes dt w (writeItem P.dmaAbort 0 [mask]) {} ∧ s.mem.wf = true) ∧
   (let s : State := (rn 15 1 (d0 1 0 lo 10)); let dt : Nat := 5; let mask : Nat := 65535; let w : Who := wO
    mask < 2 ^ 16 ∧ s.dev.shaped = true ∧ s.takes dt w (writeItem P.dmaAbort 0 [mask]) {}) := by decide +kernel

theorem wit_dmaContinue :
   (let s : State := (rn 0 2 (d0 1 0 lo 10)); let dt : Nat := 5; let c : Nat := 0; let w : Who := wO
    c < 16 ∧ s.dev.shaped = true ∧ s.takes dt w (writeItem P.dmaContinue 0 [2 ^ c]) {} ∧ s.dev.dmaSt c = 2) ∧
   (let s : State := (put (rn 0 3 (d0 1 0 lo 10)) [(P.dmaEnable,0)]); let dt : Nat := 5; let c : Nat := 0
    let w : Who := wO
    c < 16 ∧ s.dev.shaped = true ∧ s.takes dt w (writeItem P.dmaContinue 0 [2 ^ c]) {} ∧ s.dev.dmaSt c = 3 ∧
    s.dev.ab P.dmaEnable c = false) ∧
   (let s : State := (put (m1 (db 0 (lo+32) 1 10 1 0x0102030405)) [(P.dmaState+15,3),(P.dmaCurrentDesc+15,lo+64)])
    let dt : Nat := 5; let c : Nat := 15; let w : Who := wO
    c < 16 ∧ s.dev.shaped = true ∧ s.takes dt w (writeItem P.dmaContinue 0 [2 ^ c]) {} ∧ s.dev.dmaSt c = 3 ∧
    s.dev.ab P.dmaEnable c = true ∧ sramGenLo ≤ s.a (P.dmaCurrentDesc + c) ∧
    (descOf (s.mem.read (s.a (P.dmaCurrentDesc + c)) 32)).eoc = true) ∧
   (let s : State := de; let dt : Nat := 5; let c : Nat := 0; let w : Who := wO
    c < 16 ∧ s.dev.shaped = true ∧ s.takes dt w (writeItem P.dmaContinue 0 [2 ^ c]) {} ∧ s.dev.dmaSt c ≠ 2 ∧
    s.dev.dmaSt c ≠ 3) := by decide +kernel

theorem wit_dmaDisable :
   (let s : State := (rn 0 2 (d0 1 0 lo 10)); let dt : Nat := 5; let mask : Nat := 0; let w : Who := wO
    let beats : List Nat := []
    mask < 2 ^ 16 ∧ s.dev.shaped = true ∧ s.takes dt w (writeItem P.dmaEnable 0 [mask]) { beats := some beats } ∧
    maskSub 16 mask (s.a P.dmaEnable) = 0 ∧ s.mem.wf = true) ∧
   (let s : State := (rn 9 2 (d0 1 0 lo 10)); let dt : Nat := 5; let mask : Nat := 255; let w : Who := wO
    let beats : List Nat := (List.replicate 16 1)
    mask < 2 ^ 16 ∧ s.dev.shaped = true ∧ s.takes dt w (writeItem P.dmaEnable 0 [mask]) { beats := some beats } ∧
    maskSub 16 mask (s.a P.dmaEnable) = 0) ∧
   (let s : State := (mod (put de [(P.dmaState+9,1)]) (fun d => { d with dma := { d.dma with queue := [9] } }))
    let dt : Nat := 5; let mask : Nat := 255; let w : Who := wO; let beats : List Nat := []
    mask < 2 ^ 16 ∧ s.dev.shaped = true ∧ s.takes dt w (writeItem P.dmaEnable 0 [mask]) { beats := some beats } ∧
    maskSub 16 mask (s.a P.dmaEnable) = 0) := by decide +kernel

theorem wit_dmaEnable :
   (let s : State := (put (rn 9 4 (d0 1 0 lo 10)) [(P.dmaEnable,255)]); let dt : Nat := 5; let c : Nat := 9
    let w : Who := wO
    c < 16 ∧ s.dev.shaped = true ∧ s.takes dt w (writeItem P.dmaEnable 0 [s.a P.dmaEnable + 2 ^ c]) {} ∧
    s.dev.ab P.dmaEnable c = false ∧ s.a P.dmaEnable < 2 ^ 16 ∧ s.dev.dmaSt c = 4 ∧ (s.dev.dmaCh c).fetch = none ∧
    bulk c = true) ∧
   (let s : State := (put (rn 0 4 (d0 1 0 lo 10)) [(P.dmaEnable,65534)]); let dt : Nat := 5; let c : Nat := 0
    let w : Who := wO
    c < 16 ∧ s.dev.shaped = true ∧ s.takes dt w (writeItem P.dmaEnable 0 [s.a P.dmaEnable + 2 ^ c]) {} ∧
    s.dev.ab P.dmaEnable c = false ∧ s.a P.dmaEnable < 2 ^ 16 ∧ s.dev.dmaSt c = 4 ∧ (s.dev.dmaCh c).fetch = none ∧
    bulk c = false) := by decide +kernel

theorem wit_dmaQueueTurn :
    let s : State := (mod (rn 15 1 (d0 1 0 lo 10)) (fun d => { d with dma := { d.dma with queue := [15,9] } }))
    let c : Nat := 15; let rest : List Nat := [9]; let x : Desc := (d0 1 0 lo 10)
    c < 16 ∧ s.dev.shaped = true ∧ s.dev.dma.queue = c :: rest ∧ (∀ k, 8 ≤ k → k < 16 → s.dev.dmaSt k ≠ 2) ∧
    (s.dev.dmaCh c).fetch = none ∧ (s.dev.dmaCh c).desc = some x := by decide +kernel

theorem wit_dmaDescriptorDone :
   (let s : State := (rn 15 2 (d0 1 0 lo 10)); let c : Nat := 15; let x : Desc := (d0 1 0 lo 10)
    c < 16 ∧ s.dev.shaped = true ∧ (s.dev.dmaCh c).desc = some x ∧ s.dev.dmaSt c = 2 ∧ x.op = 1 ∧
    (s.dev.dmaCh c).moved ≤ x.count ∧ x.eoc = true ∧ bit (s.a (P.dmaState + c)) 5 = false ∧ s.mem.wf = true) ∧
   (let s : State := (rn 0 2 (d0 1 0 lo 10) 7); let c : Nat := 0; let x : Desc := (d0 1 0 lo 10)
    c < 16 ∧ s.dev.shaped = true ∧ (s.dev.dmaCh c).desc = some x ∧ s.dev.dmaSt c = 2 ∧ x.op = 1 ∧
    (s.dev.dmaCh c).moved ≤ x.count ∧ x.eoc = true ∧ bit (s.a (P.dmaState + c)) 5 = false) := by decide +kernel

theorem wit_dmaDescriptorDoneCopy :
    let s : State := (rn 0 2 (d0 0 (lo+64) lo 10) 0 (m1 (leBytes 10 123456789))); let c : Nat := 0
    let x : Desc := (d0 0 (lo+64) lo 10)
    c < 16 ∧ s.dev.shaped = true ∧ (s.dev.dmaCh c).desc = some x ∧ s.dev.dmaSt c = 2 ∧ x.op = 0 ∧
    (s.dev.dmaCh c).moved = 0 ∧ sramGenLo ≤ x.src ∧ x.eoc = true ∧ bit (s.a (P.dmaState + c)) 5 = false ∧
    s.mem.wf = true := by decide +kernel

theorem wit_dmaDescriptorDoneCompare :
    let s : State := (rn 0 2 (d0 2 (lo+64) lo 10) 0 (m1 (leBytes 10 65536))); let c : Nat := 0
    let i : Nat := 2; let x : Desc := (d0 2 (lo+64) lo 10)
    c < 16 ∧ s.dev.shaped = true ∧ (s.dev.dmaCh c).desc = some x ∧ s.dev.dmaSt c = 2 ∧ x.op = 2 ∧
    (s.dev.dmaCh c).moved = 0 ∧ sramGenLo ≤ x.src ∧ sramGenLo ≤ x.dst ∧ i < x.count ∧
    s.mem.get (x.src + i) ≠ s.mem.get (x.dst + i) ∧ (∀ j, j < i → s.mem.get (x.src + j) = s.mem.get (x.dst + j)) := by decide +kernel

end Dma

/-! ### Transit -/

namespace Transit

def tr (st : Nat) (l : List (Nat × Nat) := []) (f : Tra → Tra := id) : State := mod (put units ([(P.transitEnable,1),(P.transitSource,0),(P.transitState,st),(P.transitPathMask,3)] ++ l)) (fun d => { d with tra := f d.tra })
def sqe (c t tn j n : Nat) : Nat := c + 2^20 * t + 2^21*tn + 2^22*j + 2^25*n
def res : Tra → Tra := fun t => { t with armed := [0,0,0,3,0,0,2,4,4], trig := some (5,6), rcd := 9 }

theorem wit_transitArm :
   (let s : State := (tr 0); let dt : Nat := 5; let w : Who := wO
    s.takes dt w (writeItem P.transitArm 0 [1]) {}) ∧
   (let s : State := (tr 4); let dt : Nat := 5; let w : Who := wO
    s.takes dt w (writeItem P.transitArm 0 [1]) {}) := by decide +kernel

theorem wit_transitForce :
   (let s : State := (tr 1); let dt : Nat := 5; let instants : Nat := 9; let w : Who := wO
    s.takes dt w (writeItem P.transitForce 0 [1]) { instants := some instants } ∧ s.dev.traSt = 1) ∧
   (let s : State := (tr 3); let dt : Nat := 5; let instants : Nat := 9; let w : Who := wO
    s.takes dt w (writeItem P.transitForce 0 [1]) { instants := some instants } ∧ s.dev.traSt = 3) := by decide +kernel

theorem wit_transitSendRecord :
    let s : State := (tr 4 [] (fun t => {t with rcd := 9})); let dt : Nat := 5; let value : Nat := 9
    let w : Who := wO
    s.takes dt w (writeItem P.transitSendRecord 0 [value]) {} := by decide +kernel

theorem wit_transitEnableClear :
   (let s : State := (tr 1); let dt : Nat := 5; let instants : Nat := 9; let w : Who := wO
    s.takes dt w (writeItem P.transitEnable 0 [0]) { instants := some instants } ∧ s.a P.transitEnable = 1 ∧
    (s.dev.traSt = 1 ∨ s.dev.traSt = 2)) ∧
   (let s : State := (tr 2); let dt : Nat := 5; let instants : Nat := 9; let w : Who := wO
    s.takes dt w (writeItem P.transitEnable 0 [0]) { instants := some instants } ∧ s.a P.transitEnable = 1 ∧
    s.dev.traSt = 2) ∧
   (let s : State := (tr 3); let dt : Nat := 5; let instants : Nat := 9; let w : Who := wO
    s.takes dt w (writeItem P.transitEnable 0 [0]) { instants := some instants } ∧ s.a P.transitEnable = 1 ∧
    s.dev.traSt = 3) ∧
   (let s : State := (tr 0); let dt : Nat := 5; let instants : Nat := 9; let w : Who := wO
    s.takes dt w (writeItem P.transitEnable 0 [0]) { instants := some instants } ∧ s.a P.transitEnable = 1 ∧
    (s.dev.traSt = 0 ∨ s.dev.traSt = 4)) := by decide +kernel

theorem wit_transitCondOccurrence :
   (let s : State := (tr 1 [(P.transitStateCond,sqe 7 0 0 0 2)]); let cond : Nat := 1; let arg : Nat := 7
    let q := s.a P.transitSeqState
    s.dev.traSt = 1 ∧ s.dev.condMet q cond arg = false) ∧
   (let s : State := (tr 1 [(P.transitStateCond,sqe 1 0 0 0 2),(P.transitStateCount,2)]); let dt : Nat := 5
    let cond : Nat := 1; let arg : Nat := 7; let back : Nat := 0
    let q := s.a P.transitSeqState
    let edge := ((s.at_ dt).now - back) / 10000
    s.dev.traSt = 1 ∧ s.dev.condMet q cond arg = true ∧ s.dev.tra.lastEdge ≠ some edge ∧
    (¬ (max 1 (s.a (P.transitStateCount + q)) ≤ s.dev.tra.cnt + 1))) ∧
   (let s : State := (tr 1 [(P.transitStateCond,sqe 1 0 0 0 2),(P.transitStateCount,1)]); let dt : Nat := 5
    let cond : Nat := 1; let arg : Nat := 7; let back : Nat := 0
    let q := s.a P.transitSeqState
    let e := s.dev.seqEntry q
    let edge := ((s.at_ dt).now - back) / 10000
    s.dev.traSt = 1 ∧ s.dev.condMet q cond arg = true ∧ s.dev.tra.lastEdge ≠ some edge ∧
    max 1 (s.a (P.transitStateCount + q)) ≤ s.dev.tra.cnt + 1 ∧ bit e 21 = false) ∧
   (let s : State := (tr 1 [(P.transitStateCond,sqe 1 0 1 0 2),(P.transitStateCount,0)]); let dt : Nat := 5
    let cond : Nat := 1; let arg : Nat := 7; let back : Nat := 0
    let q := s.a P.transitSeqState
    let e := s.dev.seqEntry q
    let edge := ((s.at_ dt).now - back) / 10000
    s.dev.traSt = 1 ∧ s.dev.condMet q cond arg = true ∧ s.dev.tra.lastEdge ≠ some edge ∧
    max 1 (s.a (P.transitStateCount + q)) ≤ s.dev.tra.cnt + 1 ∧ bit e 21 = true) := by decide +kernel

theorem wit_transitStateTimeout :
    let s : State := (tr 1 [(P.transitStateCond,sqe 1 1 1 3 2),(P.transitStateTimer,1000)]); let dt : Nat := 5
    let q := s.a P.transitSeqState
    let e := s.dev.seqEntry q
    s.dev.traSt = 1 ∧ bit e 20 = true ∧ s.dev.tra.timerAt + 10000 * s.a (P.transitStateTimer + q) ≤ (s.at_ dt).now := by decide +kernel

theorem wit_transitRecordComplete :
   (let s : State := (tr 2 [] res)
    s.dev.traSt = 2 ∧ s.mem.wf = true ∧ s.dev.traSel 6 ≠ 0 ∧ 5 * s.dev.traSel 6 ≤ 402653184) ∧
   (let s : State := (tr 2 [(P.transitAutoRearm,1)] res)
    s.dev.traSt = 2) := by decide +kernel

theorem wit_transitRearmEnd :
   (let s : State := (tr 3 [] (fun t => { t with ignored := 200000 }))
    s.dev.traSt = 3 ∧ s.dev.tra.ignored ≠ 0) ∧
   (let s : State := (tr 3)
    s.dev.traSt = 3) := by decide +kernel

theorem wit_trigOutPulseEnd :
    let s : State := (tr 3 [] (fun t => { t with trigOutTill := 2 })); let dt : Nat := 5
    s.dev.tra.trigOutTill ≠ 0 ∧ s.dev.tra.trigOutTill ≤ (s.at_ dt).now := by decide +kernel

end Transit

/-! ### Almanac -/

namespace Almanac

def rd (k first span : Nat) : Item := { writeItem k first [] with span := span, value := [] }
def q0 : Req := ⟨0,0,42⟩
def qa (ses : Nat) : Req := ⟨0,ses,42⟩
def lb := mainl
def y0 (s : State := mainl) (h : Nat := 0) : Ses := ((s.at_ 5).sesOn 0 h).getD {}
def pr (keys : List (List Byte)) (f : Nat) : State := mod mainl (fun d => { d with ses := { d.ses with h := d.ses.h.set 3 {st:=1,role:=1,slot:=2,port:=0,at_:=999000000000000,challenge := [7]}, fails := [f,0] }, fus := { d.fus with keys := keys } })
def cs : ChartStore := ⟨1,[(P.biasPark,7)],0,42,5⟩
def st1 : State := mod mainl (fun d => { d with cha := { d.cha with store := some cs }, mgmt := [⟨42,none⟩] })
def ld : ChartLoad := ⟨2,3,5⟩
def ls : State := mod mainl (fun d => { d with cha := { d.cha with load := some ld, recs := [none,none,some ⟨5,true,[(P.biasPark,7)]⟩,none] } })
def fs (l : List (Nat × Nat) := []) : State := mod (put (credit units) ([(P.archIslandNumber,3),(P.fieldEnable,1),(P.fieldState,1)] ++ l)) (fun d => { d with fus := { d.fus with chipId := 99 } })
def sg (total n : Nat) : List Byte := leBytes 2 total ++ zeros 2 ++ zeros n
def ev : Ev := { n := 3, arg := 4, seq := 7 }

theorem wit_almanacRead :
    let s : State := mainl; let dt : Nat := 5; let q : Req := q0; let x : Item := (rd P.pwrState 0 0)
    let y : Ses := (y0); let r : PRow := ((rowOf (keyId P.pwrState)).get (by decide))
    let o := reqOp q 1 [x]
    let d := s.desk dt o
    let v := d.viewBytes s.mem r (itemId x) x.first (itemCount x r)
    (s.at_ dt).serves o ∧ (s.at_ dt).sesOn q.port q.ses = some y ∧ itemStatus y.role false x = 0 ∧
    rowOf (itemId x) = some r ∧ 16 + v.length ≤ (if q.port = 0 then 9212 else 9216) := by decide +kernel

theorem wit_almanacReadBlock :
    let s : State := mainl; let dt : Nat := 5; let q : Req := q0
    let l : List Item := [rd P.pwrState 0 0, rd P.railStatus 0 0]; let y : Ses := (y0)
    let o := reqOp q 3 l
    let d := s.desk dt o
    let data := l.flatMap (fun x => match rowOf (itemId x) with
      | some r => itemBytes { x with value := d.viewBytes s.mem r (itemId x) x.first (itemCount x r) }
      | none => [])
    (s.at_ dt).serves o ∧ 1 ≤ l.length ∧ l.length ≤ 64 ∧ (s.at_ dt).sesOn q.port q.ses = some y ∧
    (∀ x ∈ l, itemStatus y.role false x = 0) ∧ 4 + data.length ≤ (if q.port = 0 then 9212 else 9216) := by decide +kernel

theorem wit_survey :
   (let s : State := mainl; let dt : Nat := 5; let q : Req := q0
    let o := reqOp q 5 []
    let open_ := ((s.at_ dt).sesOn q.port q.ses).isSome
    (s.at_ dt).serves o ∧ (open_ = true ∨ q.ses = 0xFF)) ∧
   (let s : State := mainl; let dt : Nat := 5; let q : Req := (qa 255)
    let o := reqOp q 5 []
    let open_ := ((s.at_ dt).sesOn q.port q.ses).isSome
    (s.at_ dt).serves o ∧ (open_ = true ∨ q.ses = 0xFF)) := by decide +kernel

theorem wit_sessionOpen :
    let s : State := mainl; let dt : Nat := 5; let q : Req := (qa 255); let x : Item := ⟨0,0,0,0,[1,2,0,0]⟩
    let h : Nat := 3
    let o := reqOp q 6 [x]
    let d := s.at_ dt
    d.serves o ∧ s.dev.shaped = true ∧ q.ses = 0xFF ∧ sessionItem o 4 = true ∧ field x.value 0 1 ≤ 2 ∧
    field x.value 1 1 ≤ 3 ∧ s.dev.ses.lockTill.getD q.port 0 ≤ d.now ∧
    ((List.range 4).find? (fun h => (s.dev.sesAt h).st == 0) = some h) := by decide +kernel

theorem wit_sessionProve :
   (let s : State := (pr (List.replicate 12 [5]) 3); let dt : Nat := 5; let q : Req := (qa 3)
    let x : Item := ⟨0,0,0,0,zeros 193⟩; let hash : List Byte := [5]; let ok : Bool := true
    let o := reqOp q 7 [x] { proof := some (hash, ok) }
    let d := s.at_ dt
    let y := s.dev.sesAt q.ses
    d.serves o ∧ s.dev.shaped = true ∧ q.ses < 4 ∧ q.port < 2 ∧ sessionItem o 193 = true ∧ y.st = 1 ∧
    d.now ≤ y.at_ + 10 ^ 13 ∧ d.auditFull = false ∧ ((s.dev.fus.lifecycle = 1 ∨ s.dev.fus.lifecycle = 2) ∧
    s.dev.slotUsable (4 * y.role + y.slot) = true ∧ s.dev.fus.keys.getD (4 * y.role + y.slot) [] = hash ∧ ok = true ∧
    y.port = q.port)) ∧
   (let s : State := (pr (List.replicate 12 [5]) 3); let dt : Nat := 5; let q : Req := (qa 3)
    let x : Item := ⟨0,0,0,0,zeros 193⟩; let hash : List Byte := [5]; let ok : Bool := false
    let o := reqOp q 7 [x] { proof := some (hash, ok) }
    let d := s.at_ dt
    let y := s.dev.sesAt q.ses
    d.serves o ∧ s.dev.shaped = true ∧ q.ses < 4 ∧ q.port < 2 ∧ sessionItem o 193 = true ∧ y.st = 1 ∧
    d.now ≤ y.at_ + 10 ^ 13 ∧ d.auditFull = false ∧ (¬ ((s.dev.fus.lifecycle = 1 ∨ s.dev.fus.lifecycle = 2) ∧
    s.dev.slotUsable (4 * y.role + y.slot) = true ∧ s.dev.fus.keys.getD (4 * y.role + y.slot) [] = hash ∧ ok = true ∧
    y.port = q.port))) ∧
   (let s : State := (pr (List.replicate 12 [5]) 7); let dt : Nat := 5; let q : Req := (qa 3)
    let x : Item := ⟨0,0,0,0,zeros 193⟩; let hash : List Byte := [6]; let ok : Bool := true
    let o := reqOp q 7 [x] { proof := some (hash, ok) }
    let d := s.at_ dt
    let y := s.dev.sesAt q.ses
    d.serves o ∧ s.dev.shaped = true ∧ q.ses < 4 ∧ q.port < 2 ∧ sessionItem o 193 = true ∧ y.st = 1 ∧
    d.now ≤ y.at_ + 10 ^ 13 ∧ d.auditFull = false) := by decide +kernel

theorem wit_sessionClose :
    let s : State := mainl; let dt : Nat := 5; let q : Req := (qa 2); let y : Ses := (y0 mainl 2)
    (s.at_ dt).serves (reqOp q 8 []) ∧ s.dev.shaped = true ∧ (s.at_ dt).sesOn q.port q.ses = some y := by decide +kernel

theorem wit_storeChart :
   (let s : State := mainl; let dt : Nat := 5; let q : Req := (qa 1); let y : Ses := (y0 mainl 1)
    let o := reqOp q 9 []
    (s.at_ dt).serves o ∧ (s.at_ dt).sesOn q.port q.ses = some y ∧ y.role = 1 ∧ s.dev.pwr.phase ≠ .restricted ∧
    (s.at_ dt).nvm.deferring = false ∧ q.port = 0) ∧
   (let s : State := st1; let dt : Nat := 5; let q : Req := (qa 1); let y : Ses := (y0 mainl 1)
    let o := reqOp q 9 []
    (s.at_ dt).serves o ∧ (s.at_ dt).sesOn q.port q.ses = some y ∧ y.role = 1 ∧ s.dev.pwr.phase ≠ .restricted ∧
    (s.at_ dt).nvm.deferring = false) := by decide +kernel

theorem wit_storeChartDone :
    let s : State := st1; let dt : Nat := 5; let x : ChartStore := cs
    s.dev.cha.store = some x ∧ s.dev.pwr.phase = .running ∧ (s.at_ dt).nvm.deferring = false ∧ s.dev.cha.wait = [] ∧
    x.chart < 4 ∧ s.dev.shaped = true := by decide +kernel

theorem wit_chartSelect :
   (let s : State := mainl; let dt : Nat := 5; let value : Nat := 3; let w : Who := wO
    value < 4 ∧ s.takes dt w (writeItem P.chartSelect 0 [value]) {} ∧ s.dev.cha.load = none ∧ s.dev.cha.store = none) ∧
   (let s : State := st1; let dt : Nat := 5; let value : Nat := 3; let w : Who := wO
    value < 4 ∧ s.takes dt w (writeItem P.chartSelect 0 [value]) {} ∧
    (s.dev.cha.load.isSome = true ∨ s.dev.cha.store.isSome = true)) := by decide +kernel

theorem wit_chartLoadDone :
    let s : State := ls; let dt : Nat := 5; let x : ChartLoad := ld
    s.dev.cha.load = some x ∧ s.dev.pwr.phase = .running ∧ x.chart < 4 ∧ x.how < 8 ∧ s.dev.cha.wait = [] ∧
    Dev.chartBad { s.at_ dt with cha := { s.dev.cha with load := none } } x.chart = none := by decide +kernel

theorem wit_chartDeferredApply :
   (let s : State := mainl; let dt : Nat := 5
    let d := s.at_ dt
    let free := d.waitClosed d.waitingIds.length d.waitFree
    s.dev.pwr.phase = .running ∧ free = []) ∧
   (let s : State := (mod mainl (fun d => { d with cha := { d.cha with waiting := [(P.biasPark,7)] } }))
    let dt : Nat := 5
    let d := s.at_ dt
    let free := d.waitClosed d.waitingIds.length d.waitFree
    let pick := d.waitDrop free.length free []
    let d1 := Dev.each { d with cha := { d.cha with waiting := d.cha.waiting.filter (fun e => !free.contains (keyId e.1)) } } pick.2
      (fun i d => (d.w P.chartInvalidIndex i).raise 13 (d.a P.chartActive % 4 + 12 + 16))
    let e := d1.applyChanges s.mem (s.arrive dt).places whoDevice 1 0 {} ((d.waitVals pick.1).map (fun e => chgOf e.1 e.2))
    s.dev.pwr.phase = .running ∧ free ≠ [] ∧ e.rst = none) := by decide +kernel

theorem wit_fieldRequestSegment :
   (let s : State := (fs); let dt : Nat := 5; let island : Nat := 3; let transfer : Nat := 9; let k : Nat := 0
    let b : List Byte := (sg 61 60)
    let d := s.at_ dt
    d.fieldServes island = true ∧ d.quiet = true ∧ transfer < 256 ∧ k < 1024 ∧ s.dev.fld.answering = false ∧ k = 0 ∧
    s.dev.fld.transfer ≠ some transfer ∧ bit (field b 2 1) 0 = false ∧ 60 < field b 0 2 ∧ field b 0 2 ≤ transferMax) ∧
   (let s : State := (mod fs (fun d => { d with fld := { d.fld with transfer := some 9, total := 90, next := 1 } }))
    let dt : Nat := 5; let island : Nat := 3; let transfer : Nat := 9; let k : Nat := 2
    let d := s.at_ dt
    d.fieldServes island = true ∧ d.quiet = true ∧ transfer < 256 ∧ k < 1024 ∧ s.dev.fld.answering = false ∧
    s.dev.fld.transfer = some transfer ∧ k ≠ s.dev.fld.next) ∧
   (let s : State := (fs); let dt : Nat := 5; let island : Nat := 3; let transfer : Nat := 9; let k : Nat := 0
    let b : List Byte := (sg 65535 60)
    let d := s.at_ dt
    d.fieldServes island = true ∧ d.quiet = true ∧ transfer < 256 ∧ k < 1024 ∧ s.dev.fld.answering = false ∧ k = 0 ∧
    s.dev.fld.transfer ≠ some transfer ∧ transferMax < field b 0 2) := by decide +kernel

theorem wit_fieldAbort :
   (let s : State := (mod fs (fun d => { d with fld := { d.fld with transfer := some 9, total := 90, next := 1 } }))
    let dt : Nat := 5; let island : Nat := 3; let transfer : Nat := 9
    (s.at_ dt).fieldServes island = true ∧ (s.at_ dt).quiet = true ∧ transfer < 256) ∧
   (let s : State := (mod fs (fun d => { d with fld := { d.fld with transfer := some 9, total := 90, next := 1 } }))
    let dt : Nat := 5; let island : Nat := 3; let transfer : Nat := 0
    (s.at_ dt).fieldServes island = true ∧ (s.at_ dt).quiet = true ∧ transfer < 256) := by decide +kernel

theorem wit_fieldSegmentTimeout :
    let s : State := (mod fs (fun d => { d with fld := { d.fld with transfer := some 9, total := 90, next := 1 } }))
    let dt : Nat := 5; let transfer : Nat := 9
    s.dev.fld.transfer = some transfer ∧ s.dev.fld.answering = false ∧ s.dev.fld.lastAt + 10 ^ 11 < (s.at_ dt).now ∧
    (s.at_ dt).quiet = true ∧ (s.at_ dt).fieldOn = true ∧ transfer < 256 := by decide +kernel

theorem wit_fieldHeartbeatReceive :
    let s : State := fs; let dt : Nat := 5; let island : Nat := 3
    (s.at_ dt).fieldServes island = true ∧ (s.at_ dt).quiet = true := by decide +kernel

theorem wit_fieldHeartbeatSend :
    let s : State := fs; let dt : Nat := 5
    let d := s.at_ dt
    d.up = true ∧ d.fieldOn = true ∧ d.quiet = true := by decide +kernel

theorem wit_fieldEventSend :
    let s : State := { fs with places := { fs.places with fieldQ := [ev,ev] } }; let dt : Nat := 5
    let e : Ev := ev; let rest : List Ev := [ev]
    (s.arrive dt).places.fieldQ = e :: rest ∧ (s.at_ dt).up = true ∧ (s.at_ dt).fieldOn = true ∧
    (s.at_ dt).quiet = true ∧ s.dev.flush = 0 := by decide +kernel

theorem wit_fieldBusOff :
    let s : State := fs; let dt : Nat := 5
    (s.at_ dt).fieldRuns = true ∧ s.a P.fieldState ≠ 3 := by decide +kernel

theorem wit_fieldErrorPassive :
    let s : State := fs; let dt : Nat := 5
    (s.at_ dt).fieldRuns = true ∧ s.a P.fieldState = 1 := by decide +kernel

end Almanac

/-! ### Fuses -/

namespace Fuses

def ss (y : Ses) : State := mod mainl (fun d => { d with ses := { d.ses with h := d.ses.h.set 3 y, fails := [3,2], lockTill := [5,10^17] } })
def fz (f : Fus → Fus) : State := mod mainl (fun d => { d with fus := f d.fus })
def kb (b : Byte) : List Byte := List.replicate 48 b
def rv : State := mod mainl (fun d => { d with ses := { d.ses with h := [{st:=2,role:=0,slot:=0},{st:=2,role:=1,slot:=0},{st:=2,role:=2},{st:=2,role:=1,slot:=3}] } })
def tk : List Byte := leBytes 8 77 ++ leBytes 4 3 ++ zeros 197
def au (n : Nat) : Aud := { seq := n, secs := 1, frac := 2, kind := 3, who := 4, index := 5, sub := 6, result := 7, old := 9, new := 10 }
def dl_ : State := put (fz (fun f => { f with chipId := 77, signHash := [4] })) [(P.resetCount,3)]

theorem wit_sessionChallengeTimeout :
    let s : State := (ss {st:=1,role:=2,slot:=1,port:=1,at_:=7}); let dt : Nat := 5; let h : Nat := 3
    h < 4 ∧ s.dev.shaped = true ∧ (s.dev.sesAt h).st = 1 ∧ (s.dev.sesAt h).at_ + 10 ^ 13 ≤ (s.at_ dt).now := by decide +kernel

theorem wit_sessionIdleTimeout :
   (let s : State := (ss {st:=2,role:=2,slot:=1,port:=1,at_:=7}); let dt : Nat := 5; let h : Nat := 3
    h < 4 ∧ s.dev.shaped = true ∧ (s.dev.sesAt h).st = 2 ∧ (s.dev.sesAt h).at_ + 900 * 10 ^ 12 ≤ (s.at_ dt).now) ∧
   (let s : State := (mod (ss {st:=2,role:=2,slot:=1,port:=1,at_:=7}) (fun d => { d with clk := { d.clk with ps := 10^15+900*10^12 } }))
    let dt : Nat := 5; let h : Nat := 0
    h < 4 ∧ s.dev.shaped = true ∧ (s.dev.sesAt h).st = 2 ∧ (s.dev.sesAt h).at_ + 900 * 10 ^ 12 ≤ (s.at_ dt).now) := by decide +kernel

theorem wit_sessionLockoutEnd :
    let s : State := (put (ss {}) [(P.sessionLockout,3)]); let dt : Nat := 5; let p : Nat := 0
    p < 2 ∧ s.dev.shaped = true ∧ s.dev.ses.lockTill.getD p 0 ≤ (s.at_ dt).now := by decide +kernel

theorem wit_fuseKeyProgram :
   (let s : State := (fz id); let dt : Nat := 5; let w : Who := wI; let v : List Byte := (5#8 :: kb 7)
    let back : List Byte := (kb 7)
    v.length = 49 ∧ back.length = 48 ∧ s.dev.shaped = true ∧
    s.takes dt w (writeItem P.fuseKeyProgram 0 (v.map (·.toNat))) { readback := some back } ∧ back = v.drop 1) ∧
   (let s : State := (fz id); let dt : Nat := 5; let w : Who := wI; let v : List Byte := (7#8 :: kb 7)
    let back : List Byte := (kb 0xFF)
    v.length = 49 ∧ back.length = 48 ∧ s.dev.shaped = true ∧
    s.takes dt w (writeItem P.fuseKeyProgram 0 (v.map (·.toNat))) { readback := some back } ∧ back ≠ v.drop 1) := by decide +kernel

theorem wit_fuseKeyRevoke :
   (let s : State := rv; let dt : Nat := 5; let value : Nat := 7; let w : Who := wI
    value < 12 ∧ s.dev.shaped = true ∧ s.takes dt w (writeItem P.fuseKeyRevoke 0 [value]) {}) ∧
   (let s : State := rv; let dt : Nat := 5; let value : Nat := 0; let w : Who := wI
    value < 12 ∧ s.dev.shaped = true ∧ s.takes dt w (writeItem P.fuseKeyRevoke 0 [value]) {}) ∧
   (let s : State := rv; let dt : Nat := 5; let value : Nat := 11; let w : Who := wM
    value < 12 ∧ s.dev.shaped = true ∧ s.takes dt w (writeItem P.fuseKeyRevoke 0 [value]) {}) := by decide +kernel

theorem wit_lifecycleAdvance :
   (let s : State := (fz (fun f => { f with lifecycle := 1 })); let dt : Nat := 5; let value : Nat := 0xA502
    let w : Who := wM
    s.dev.shaped = true ∧ s.takes dt w (writeItem P.lifecycleAdvance 0 [value]) {} ∧ value < 2 ^ 16 ∧ value % 256 = 2) ∧
   (let s : State := (fz (fun f => { f with lifecycle := 2 })); let dt : Nat := 5; let value : Nat := 0xA503
    let w : Who := wM
    s.dev.shaped = true ∧ s.takes dt w (writeItem P.lifecycleAdvance 0 [value]) {} ∧ value < 2 ^ 16 ∧ value % 256 = 3) := by decide +kernel

theorem wit_debugUnlockToken :
    let s : State := (put (fz (fun f => { f with chipId := 77, signHash := [4] })) [(P.resetCount,3)])
    let dt : Nat := 5; let w : Who := wM; let token : List Byte := tk; let hash : List Byte := [4]
    let ok : Bool := true
    s.takes dt w (writeItem P.debugUnlockToken 0 (token.map (·.toNat))) { proof := some (hash, ok) } ∧ w.ses < 4 := by decide +kernel

theorem wit_auditReadFrom :
   (let s : State := (mod mainl (fun d => { d with aud := [au 7, au 8] })); let dt : Nat := 5
    let value : Nat := 0; let w : Who := wI
    value < 2 ^ 32 ∧ s.takes dt w (writeItem P.auditReadFrom 0 [value]) {}) ∧
   (let s : State := (mod mainl (fun d => { d with aud := [au 7, au 8] })); let dt : Nat := 5
    let value : Nat := 8; let w : Who := wI
    value < 2 ^ 32 ∧ s.takes dt w (writeItem P.auditReadFrom 0 [value]) {}) := by decide +kernel

end Fuses

/-! ### Update -/

namespace Update

def hd (n : Nat) : List Byte := let b := leBytes 4 0x4B505358 ++ leBytes 1 1 ++ leBytes 1 1 ++ zeros 2 ++ leBytes 4 9 ++ leBytes 4 (64 + n) ++ leBytes 4 64 ++ leBytes 4 n ++ zeros 36; b ++ leBytes 4 (crc32c b)
def sO (s : State) (k : Nat) (b : List Byte) : State := put s ((List.range b.length).map (fun i => (k+i, (b.getD i 0).toNat)))
def bg := sO mainl P.updPackageHeader (hd 256)
def dn (l : List (Nat × Nat) := []) (f : Upd → Upd := id) : State := mod (put mainl ([(P.updStage,1),(P.updPackageId,9),(P.updOrder,0xFFFF)] ++ l)) (fun d => { d with upd := f { d.upd with hdr := hd 256 } })
def img (c v : Nat) : List Byte := leBytes 4 0x4D495358 ++ leBytes 1 c ++ leBytes 1 1 ++ zeros 2 ++ leBytes 4 v ++ zeros 12 ++ zeros 16 ++ (List.range 4).flatMap (fun _ => leBytes 4 0 ++ leBytes 4 9) ++ zeros 184
def vm (s : State) (v : Nat) : State := { s with mem := s.mem.write (slotAddr 0 1) (img 0 v) }
def dv : Upd → Upd := fun u => { u with run := u.run.map (fun i => { i with compat := [(0,4),(0,4),(0,4),(0,4)] }) }
def tri (l : List (Nat × Nat) := []) : State := dn ([(P.updStage,5),(P.updOrder,0xFF30),(P.updTrialBoots,1)] ++ l) dv
def bs : State := ready
def ac (i : Nat) : State := mod (put ready [(P.updStage,4),(P.updOrder,0xFF30),(P.updTrialBoots,1)]) (fun d => { d with upd := { d.upd with step := i } })

theorem wit_updBegin :
    let s : State := bg; let dt : Nat := 5; let w : Who := wO
    s.takes dt w (writeItem P.updCommand 0 [1]) {} ∧ s.mem.wf = true := by decide +kernel

theorem wit_updChunk :
   (let s : State := (dn); let dt : Nat := 5; let chunk : Nat := 0; let w : Who := wO
    let data : List Byte := (hd 256 ++ zeros (8192-64))
    data.length = 8192 ∧ chunk < 1024 ∧
    s.takes dt w (writeItem P.updChunk 0 ((leBytes 4 chunk ++ zeros 4 ++ data).map (·.toNat))) {} ∧
    (∀ i, i < 128 → s.a (P.updChunkBitmap + i) < 256) ∧ s.mem.wf = true) ∧
   (let s : State := (dn [(P.updChunkBitmap,1)]); let dt : Nat := 5; let chunk : Nat := 0; let w : Who := wO
    let data : List Byte := (hd 256 ++ zeros (8192-64))
    data.length = 8192 ∧ chunk < 1024 ∧
    s.takes dt w (writeItem P.updChunk 0 ((leBytes 4 chunk ++ zeros 4 ++ data).map (·.toNat))) {} ∧
    (∀ i, i < 128 → s.a (P.updChunkBitmap + i) < 256) ∧ bit (s.a (P.updChunkBitmap + chunk / 8)) (chunk % 8) = true) := by decide +kernel

theorem wit_updVerify :
    let s : State := (dn [(P.updChunkBitmap,1)]); let dt : Nat := 5; let w : Who := wO
    s.takes dt w (writeItem P.updCommand 0 [2]) {} := by decide +kernel

theorem wit_updAbandon :
    let s : State := (dn [(P.updChunkBitmap,1)]); let dt : Nat := 5; let w : Who := wO
    s.takes dt w (writeItem P.updCommand 0 [3]) {} := by decide +kernel

theorem wit_updVerifyDone :
   (let s : State := (dn [(P.updStage,2)])
    s.a P.updStage = 2) ∧
   (let s : State := (vm (dn [(P.updStage,2)] dv) 3)
    s.a P.updStage = 2) ∧
   (let s : State := (vm (dn [(P.updStage,2)] dv) 5); let crypto : List Nat := []; let keyOk : Bool := true
    let comps := pkgComps s.dev.upd.hdr
    let head (c : Nat) : List Byte := s.mem.imageHeader c (1 - s.dev.confirmed c)
    let reason (c : Nat) : Nat := s.dev.imageReason (head c) c (pkgImage s.dev.upd.hdr c).2 (crypto.getD c 0) keyOk
    let order := s.dev.updateOrder comps (fun c => imageOf (head c))
    s.a P.updStage = 2 ∧ (∀ c ∈ comps, reason c = 0) ∧ order = none) ∧
   (let s : State := (vm (dn [(P.updStage,2)] dv) 3)
    s.a P.updStage = 2) := by decide +kernel

theorem wit_updConfirm :
    let s : State := tri; let dt : Nat := 5; let w : Who := wO
    s.takes dt w (writeItem P.updCommand 0 [4]) {} := by decide +kernel

theorem wit_updRevert :
    let s : State := tri; let dt : Nat := 5; let w : Who := wO
    s.takes dt w (writeItem P.updCommand 0 [5]) {} := by decide +kernel

theorem wit_activationStart :
    let s : State := (mod (put ready [(P.updStage,3)]) (fun d => { d with upd := { d.upd with waiting := true } }))
    let dt : Nat := 5
    s.dev.upd.waiting = true ∧ (s.at_ dt).standsReady = true ∧ s.a P.updStage = 3 := by decide +kernel

theorem wit_activationStepDone :
   (let s : State := (ac 0); let ok : Bool := true
    let i := s.dev.upd.step
    let c := s.dev.orderAt i
    let img := if c = 0 then s.dev.newImage s.mem 0 else s.dev.upd.run.getD 0 {}
    s.a P.updStage = 4 ∧ s.dev.pwr.phase = .running ∧ c < 4 ∧ s.dev.shaped = true ∧ s.dev.eph.ent = [] ∧
    img.schemaMin ≤ s.dev.upd.schema ∧ s.dev.upd.schema ≤ img.schemaMax ∧ ok = true ∧ i + 1 < s.dev.orderSteps.length) ∧
   (let s : State := (ac 1); let ok : Bool := true
    let i := s.dev.upd.step
    let c := s.dev.orderAt i
    let img := if c = 0 then s.dev.newImage s.mem 0 else s.dev.upd.run.getD 0 {}
    s.a P.updStage = 4 ∧ s.dev.pwr.phase = .running ∧ c < 4 ∧ s.dev.shaped = true ∧ s.dev.eph.ent = [] ∧
    img.schemaMin ≤ s.dev.upd.schema ∧ s.dev.upd.schema ≤ img.schemaMax ∧ ok = true ∧ s.dev.orderSteps.length ≤ i + 1) ∧
   (let s : State := (ac 1); let ok : Bool := false
    let i := s.dev.upd.step
    let c := s.dev.orderAt i
    let img := if c = 0 then s.dev.newImage s.mem 0 else s.dev.upd.run.getD 0 {}
    s.a P.updStage = 4 ∧ s.dev.pwr.phase = .running ∧ c < 4 ∧ s.dev.shaped = true ∧ s.dev.eph.ent = [] ∧
    img.schemaMin ≤ s.dev.upd.schema ∧ s.dev.upd.schema ≤ img.schemaMax ∧ ok = false) := by decide +kernel

theorem wit_updAutoConfirm :
    let s : State := (put tri [(P.updAutoConfirm,1),(P.updHealthWindow,0)]); let dt : Nat := 5
    s.a P.updStage = 5 ∧ s.a P.updAutoConfirm = 1 ∧ s.a P.updHealthWindow ≤ (s.at_ dt).trialElapsed ∧
    s.dev.anyMismatch = false ∧ s.dev.fuseTempOk = true ∧ (s.at_ dt).nvm.deferring = false := by decide +kernel

end Update

/-! ### Background -/

namespace Background

def ev (n : Nat) : Ev := { n := 3, arg := 4, seq := n }
def ro (l : List (Nat × Nat) := []) : State := put mainl ([(P.riptideDuration,60)] ++ l)
def rh (left : Nat) : RipHold := { sent := true, vc := 2, instr := none, left := left, since := 10^15, msg := some { vc := 2, type := 7, island := 0, resp := true, body := [1,2] }, port := 0 }

theorem wit_eventPendingClear :
    let s : State := (put mainl [(P.eventPending,7),(P.eventPending+15,255)]); let dt : Nat := 5
    let w : Who := wO; let v : List Byte := (leBytes 16 (3 + 2^127))
    v.length = 16 ∧ s.takes dt w (writeItem P.eventPendingClear 0 (v.map (·.toNat))) {} := by decide +kernel

theorem wit_eventLogReadFrom :
   (let s : State := { mainl with places := { mainl.places with log := [ev 6, ev 7], logged := 7 } }
    let dt : Nat := 5; let value : Nat := 0; let w : Who := wO
    value < 2 ^ 32 ∧ s.takes dt w (writeItem P.eventLogReadFrom 0 [value]) {}) ∧
   (let s : State := { mainl with places := { mainl.places with log := [ev 6, ev 7], logged := 7 } }
    let dt : Nat := 5; let value : Nat := 7; let w : Who := wO
    value < 2 ^ 32 ∧ s.takes dt w (writeItem P.eventLogReadFrom 0 [value]) {}) := by decide +kernel

theorem wit_bgStarved :
    let s : State := units; let n : Nat := 7
    n < 8 ∧ s.dev.shaped = true ∧ s.dev.pwr.phase = .running ∧ s.dev.bg.getD n none = none ∧ s.a P.pwrState ≠ 0 := by decide +kernel

theorem wit_bgRecovered :
    let s : State := (mod (put units [(P.bgStarvedMask,255)]) (fun d => { d with bg := List.replicate 8 (some 7) }))
    let n : Nat := 7; let since : Nat := 7
    n < 8 ∧ s.dev.shaped = true ∧ s.dev.bg.getD n none = some since := by decide +kernel

theorem wit_riptideStart :
    let s : State := ro; let dt : Nat := 5; let w : Who := wI
    s.a P.riptideEnable = 0 ∧ s.takes dt w (writeItem P.riptideEnable 0 [1]) {} := by decide +kernel

theorem wit_riptideStop :
    let s : State := (ro [(P.riptideEnable,1)]); let dt : Nat := 5; let w : Who := wI
    s.a P.riptideEnable = 1 ∧ s.takes dt w (writeItem P.riptideEnable 0 [0]) {} := by decide +kernel

theorem wit_riptideExpire :
    let s : State := (mod (ro [(P.riptideEnable,1)]) (fun d => { d with rip := { d.rip with dur := 60 } })); let dt : Nat := 5
    s.dev.ripOn = true ∧ s.dev.rip.held = [] ∧ s.dev.rip.startAt + s.dev.rip.dur * 10 ^ 12 ≤ (s.at_ dt).now := by decide +kernel

theorem wit_riptideLaneDown :
   (let s : State := (ro [(P.riptideEnable,1)]); let dt : Nat := 5; let value : Nat := (2^24-1)
    let w : Who := wI
    value < 2 ^ 24 ∧ s.takes dt w (writeItem P.riptideLaneDown 0 [value]) {}) ∧
   (let s : State := (ro [(P.laneState,45)]); let dt : Nat := 5; let value : Nat := (2^24-1)
    let w : Who := wI
    value < 2 ^ 24 ∧ s.takes dt w (writeItem P.riptideLaneDown 0 [value]) {}) := by decide +kernel

theorem wit_riptideReorderRelease :
   (let s : State := (mod (ro [(P.riptideEnable,1)]) (fun d => { d with rip := { d.rip with held := [rh 0] } }))
    let dt : Nat := 5; let h : RipHold := (rh 0)
    let m : Msg := { vc := 2, type := 7, island := 0, resp := true, body := [1,2] }
    let d := s.at_ dt
    s.dev.rip.held = [h] ∧ h.op = none ∧ h.instr = none ∧ h.msg = some m ∧ h.port < 5 ∧ d.mayGo h = true) ∧
   (let s : State := (mod (ro [(P.riptideEnable,1)]) (fun d => { d with rip := { d.rip with held := [rh 2] } }))
    let dt : Nat := 5; let h : RipHold := (rh 2)
    let m : Msg := { vc := 2, type := 7, island := 0, resp := true, body := [1,2] }
    let d := s.at_ dt
    s.dev.rip.held = [h] ∧ h.op = none ∧ h.instr = none ∧ h.msg = some m ∧ h.port < 5 ∧ d.mayGo h = false) := by decide +kernel

end Background

/-! ### Whole-machine statements and those over several commands -/

namespace Whole

/-- A state with two commands waiting. -/
def queued : State := { units with pending := [.steppedClear 5, .trimStore 5] }

theorem wit_stepTakesTheFront_front :
    queued.pending = .steppedClear 5 :: [.trimStore 5] := by decide +kernel

theorem wit_stepTakesTheFront_empty :
    units.pending = [] ∧ units.dev.clk.onLpo = false := by decide +kernel

theorem wit_everyStepKeepsInv :
    (queued.mem.wf = true ∧ queued.places.ok = true ∧ queued.dev.flush = 0) ∧
    (match step queued with | .next t => t.pending.length == 1 | _ => false) = true := by decide +kernel

theorem wit_everyCommandKeepsShape :
    units.dev.shaped = true ∧ (match exec (.steppedClear 5) units with | .next _ => true | _ => false) = true := by decide +kernel

theorem wit_eventsAreNumbered :
    (let d : Dev := {}; let n : Nat := 127; n < 128 ∧ d.a (P.eventCount + n) + 1 < 2 ^ 32) ∧
    (let d : Dev := {}; let n : Nat := 0; n < 128 ∧ d.a (P.eventCount + n) + 1 < 2 ^ 32) := by decide +kernel

/-- In thermal shutdown, without and with the restricted service. -/
def shut (p : Phase) : State := mod units (fun d => { d with pwr := { d.pwr with phase := p } })

theorem wit_wakesInShutdown :
    (let s : State := shut .shutdown; s.dev.pwr.phase = .shutdown ∨ s.dev.pwr.phase = .restricted) ∧
    (let s : State := shut .restricted; s.dev.pwr.phase = .shutdown ∨ s.dev.pwr.phase = .restricted) ∧
    (let dt : Nat := 5; let c : Instr := .wakeMl0Signal dt; c = .wakeMl0Signal dt) := by decide +kernel

theorem wit_fuseTemperature :
    (let s : State := mod mainl (fun d => { d with thm := { d.thm with junction := some (-1) } }); let dt : Nat := 5; let j : Int := -1
     s.dev.thm.junction = some j ∧ (j < 0 ∨ 850 < j) ∧ (s.at_ dt).quiet = true ∧ s.dev.rip.held = []) ∧
    (let s : State := mod mainl (fun d => { d with thm := { d.thm with junction := some 851 } }); let dt : Nat := 5; let j : Int := 851
     s.dev.thm.junction = some j ∧ (j < 0 ∨ 850 < j) ∧ (s.at_ dt).quiet = true ∧ s.dev.rip.held = []) := by decide +kernel

/-- A block of which one item carries a value that is refused. -/
def twoItems : List Item := [writeItem P.hkCheckTolerance 0 [5], writeItem P.resetCommand 0 [3]]

theorem wit_refusedWrite :
    let s : State := mainl; let dt : Nat := 5; let q : Req := ⟨0, 1, 42⟩; let l : List Item := twoItems
    let y : Ses := { st := 2, role := 1 }
    let o := reqOp q 4 l
    let d := s.at_ dt
    1 ≤ l.length ∧ l.length ≤ 64 ∧ d.serves o = true ∧ d.sesOn q.port q.ses = some y ∧
    (l.any (fun x => itemId x == keyId P.debugUnlockToken)) = false ∧
    ((d.desk o).writeRefused s.mem o y.role (4 * y.role + y.slot) ([], false)).isSome = true := by decide +kernel

/-- A COLLIMATE entry with a window open. -/
def windowed : State :=
  mod units (fun d => { d with
    tim := { d.tim with valid := true }, eph := { d.eph with ent := [(9, ⟨5, 0, 5, 0, 1, 1, 7⟩)] }
    col := { d.col with win := some (3, 4), run := some 7 } })

theorem wit_collimateOnce :
    let s : State := windowed; let dt : Nat := 5; let i : Nat := 9; let a : Nat := 3; let b : Nat := 4
    let e : EphEnt := ⟨5, 0, 5, 0, 1, 1, 7⟩
    s.fires dt i 5 e ∧ s.dev.col.win = some (a, b) := by decide +kernel

/-- The state `almanacWrite` and `almanacWriteBlock` leave without a reset. -/
def written (s : State) (dt : Nat) (o : AlmOp) (y : Ses) : Bool :=
  ((s.desk dt o).applyChanges s.mem (s.arrive dt).places (whoOf y.role o.port o.ses) o.port o.ses {} (o.items.map itemChg)).rst == none

theorem wit_almanacWrite :
    let s : State := mainl; let dt : Nat := 5; let q : Req := ⟨0, 1, 42⟩; let x : Item := writeItem P.hkCheckTolerance 0 [5]
    let o := reqOp q 2 [x]; let y : Ses := { st := 2, role := 1 }
    (s.at_ dt).sesOn o.port o.ses = some y ∧ (s.at_ dt).accepts s.mem o ∧ written s dt o y = true := by decide +kernel

theorem wit_almanacWriteBlock :
    let s : State := mainl; let dt : Nat := 5; let q : Req := ⟨0, 1, 42⟩
    let l : List Item := [writeItem P.hkCheckTolerance 0 [5], writeItem P.coexLeadTime 0 [40000]]
    let o := reqOp q 4 l; let y : Ses := { st := 2, role := 1 }
    1 ≤ l.length ∧ l.length ≤ 64 ∧
    (s.at_ dt).sesOn o.port o.ses = some y ∧ (s.at_ dt).accepts s.mem o ∧ written s dt o y = true := by decide +kernel

/-- In holdover for longer than the bound of the last report holds. -/
def holding : State :=
  put (mod units (fun d => { d with tim := { d.tim with valid := true, holdover := true, lastQual := 0, lastQualAt := 0 } }))
    [(P.timeState, 3)]

theorem wit_holdoverBoundGrowth :
    let s : State := holding; let dt : Nat := 5
    let d := s.at_ dt
    s.a P.timeState = 3 ∧ s.dev.tim.lastQual % 256 + 2 ≤ d.quality / 256 % 256 ∧ s.dev.tim.lastQualAt + 10 ^ 12 ≤ d.now := by
  decide +kernel

/-- FIELD on, in a state of its error handling. -/
def fieldIn (k : Nat) : State := put (credit units) [(P.archIslandNumber, 3), (P.fieldEnable, 1), (P.fieldState, k)]

theorem wit_fieldBusOffRecovery :
    let s : State := fieldIn 3; let dt : Nat := 5
    (s.at_ dt).fieldRuns = true ∧ s.a P.fieldState = 3 := by decide +kernel

theorem wit_fieldErrorActive :
    let s : State := fieldIn 2; let dt : Nat := 5
    (s.at_ dt).fieldRuns = true ∧ s.a P.fieldState = 2 := by decide +kernel

end Whole

end Sys2Proof.Tests
end

section
/-!
The state after reset (00_scope.md): no parameter and no byte of memory is listed there, so each reads what an unlisted one
reads. General facts first: how a key splits, what a row's constant default gives each of its entries, and what a device with no
listed parameter reads.
-/

namespace Sys2Proof.Machine

/-! ### Keys and defaults -/

theorem keyId_add (id : Nat) {e : Nat} (he : e < 65536) : keyId (65536 * id + e) = id := by
  unfold keyId
  omega

theorem keyEntry_add (id : Nat) {e : Nat} (he : e < 65536) : keyEntry (65536 * id + e) = e := by
  unfold keyEntry
  omega

/-- The default of an entry is the Default column of the parameter's row. -/
theorem dfltOf_of_row {id : Nat} {r : PRow} (hr : rowOf id = some r) {e : Nat} (he : e < 65536) :
    dfltOf (65536 * id + e) = dfltVal r e := by
  simp only [dfltOf, keyId_add id he, keyEntry_add id he, hr]

/-- A Default column of one value gives it to every entry. -/
theorem dfltVal_const {r : PRow} {v : Nat} (hr : r.dflt = .k v) (e : Nat) : dfltVal r e = v := by
  simp only [dfltVal, hr]

/-- The row of BiasOutputState: 80 entries, 0 each (the table of 12_bias_outputs.md). -/
theorem rowOf_biasOutputState : rowOf (keyId P.biasOutputState) = some ⟨0x601301, 1, 1, .table 80, 7, 8, .V, .k 0, .any⟩ := by
  decide

/-- By default every bias output is CLAMPED (R359). -/
theorem dfltOf_biasOutputState {i : Nat} (hi : i < 80) : dfltOf (P.biasOutputState + i) = 0 := by
  calc dfltOf (P.biasOutputState + i)
      _ = dfltVal ⟨0x601301, 1, 1, .table 80, 7, 8, .V, .k 0, .any⟩ i := dfltOf_of_row rowOf_biasOutputState (by omega)
      _ = 0 := dfltVal_const rfl i

/-! ### The state after reset -/

/-- Where nothing is listed every parameter reads its default. -/
theorem Dev.a_of_alm_nil {d : Dev} (h : d.alm = []) (k : Nat) : d.a k = dfltOf k := by
  simp only [Dev.a, h, NMap.get?_nil, Option.getD_none]

theorem State.a_reset (k : Nat) : State.reset.a k = dfltOf k := Dev.a_of_alm_nil rfl k

theorem Memory.get_reset (a : Nat) : State.reset.mem.get a = unlisted a := rfl

theorem State.inv_reset : State.reset.Inv := ⟨rfl, by decide, rfl⟩

theorem State.shaped_reset : State.reset.dev.shaped = true := by
  simp [State.reset, Dev.shaped]

/-- Settles O3: the invariant and the tables' sizes are computed on the one state, every parameter reads its default because none
is listed, and BiasOutputState, whose default is 0, reads CLAMPED with it. That PWR_OK is low and no event
stands in any place is what log entries 6 and 11 say of a first power-up. -/
theorem resetIsGood : Obligations.ResetIsGood := by
  have hclamped (i : Nat) (hi : i < 80) : State.reset.a (P.biasOutputState + i) = 0 := by
    rw [State.a_reset, dfltOf_biasOutputState hi]
  exact ⟨State.inv_reset, State.shaped_reset, rfl, rfl, rfl, hclamped, rfl, rfl, rfl, State.a_reset, Memory.get_reset⟩

end Sys2Proof.Machine
end

section
/-!
What a command of one of the three frames answers (`onDev`, `onMem`, `onAll`): a statement about its outcome is a statement about
one state.
-/

namespace Sys2Proof.Machine

/-- What is said of a command's outcome is said of the state it answers. -/
theorem does_iff_of_next {c : Instr} {s t : State} {post : State → Prop} (h : exec c s = .next t) :
    Does c s post ↔ t.pending = s.pending ∧ post t := by
  unfold Does
  constructor
  · rintro ⟨t', h', hp⟩
    cases h.symm.trans h'
    exact hp
  · exact fun hp => ⟨t, h, hp⟩

variable {c : Instr} {s : State} {dt : Nat} {post : State → Prop}

theorem does_onMem {f : Dev → Memory → Dev × List MemOp} (h : exec c s = onMem dt f s) :
    Does c s post ↔ post ((s.arrive dt).leave (f (s.at_ dt) s.mem).1 (s.mem.applyAll (f (s.at_ dt) s.mem).2)) := by
  rw [does_iff_of_next (h.trans (onMem_next dt f s))]
  simp [State.at_]

theorem does_onAll {f : Dev → Memory → Places → Dev × List MemOp} (h : exec c s = onAll dt f s) :
    Does c s post ↔ post ((s.arrive dt).leave (f (s.at_ dt) s.mem (s.arrive dt).places).1
      (s.mem.applyAll (f (s.at_ dt) s.mem (s.arrive dt).places).2)) := by
  rw [does_iff_of_next (h.trans (onAll_next dt f s))]
  simp [State.at_]

/-- A command on the device alone also leaves memory as it was. -/
theorem doesDev_onDev {f : Dev → Dev} (h : exec c s = onDev dt f s) :
    DoesDev c s post ↔ post ((s.arrive dt).leave (f (s.at_ dt)) s.mem) := by
  rw [DoesDev, does_iff_of_next (h.trans (onDev_next dt f s))]
  simp [State.at_]

end Sys2Proof.Machine
end

section
/-!
Statements that fail, each on one state: the boot's steps and its end, SYNC, the wake by ML0, a revert, an Ephemeris injection.
Every state is written out; the refuting outcome is computed on it.
-/

namespace Sys2Proof.Machine

/-- In boot with the sentinel's count of runs at 1. -/
def sentinelBoot : State := { dev := { pwr := { phase := .booting }, sen := { runs := 1 } } }

/-- Refutes O14: the end of the initialisation of package memory (`packageMemoryInitDone`) also takes the sentinel's ring as never
run (`sen.runs` goes to 0), and that field is not in the frame the clause gives. -/
theorem not_bootStepsAct : ¬ Obligations.BootStepsAct := by
  unfold Obligations.BootStepsAct
  intro h
  obtain ⟨-, -, -, hinit, -⟩ := h
  have hacts := hinit sentinelBoot 0 true rfl rfl rfl
  rw [Acts, doesDev_onDev (f := (·.memInit true)) rfl] at hacts
  obtain ⟨-, hrest, -⟩ := hacts
  have hruns : (0 : Nat) = 1 := congrArg (fun d : Dev => d.sen.runs) hrest
  exact absurd hruns (by decide)

/-- A device in MAKER at the end of its boot, the confirmed slot of its firmware recorded as 2, which is neither slot. -/
def strangeSlot : State :=
  { dev := { pwr := { phase := .booting, kind := 3 }, fus := { lifecycle := 1 }, upd := { slots := [2, 0, 0, 0], run := [] } } }

/-- A boot that finds no image, no open wire and nothing bad. -/
def plainBoot : BootIn := { images := [], openWires := 0, fuseBad := [], schema := 0, keyBad := 0 }

/-- Refutes O15: a confirmed slot recorded as 2 reads as "neither slot passes", so the boot ends with no running image though the
images of every component that has a slot pass. -/
theorem not_bootCompletes : ¬ Obligations.BootCompletes := by
  unfold Obligations.BootCompletes
  intro h
  have hdoes := h strangeSlot 0 plainBoot rfl (Or.inl rfl) (by decide +kernel) (by decide)
  rw [does_onAll (f := fun d m p => d.bootDone m p plainBoot) rfl] at hdoes
  obtain ⟨hrun, -⟩ := hdoes
  exact absurd hrun (by decide +kernel)

/-- ACTIVE, SYNC asked to reset, in the REFCLK period of a synchronising reset an Ephemeris entry has made. -/
def syncStill : State :=
  { dev := { pwr := { phase := .running, base := 2, ephSync := some 0 }, alm := [(P.pwrState, 2), (P.syncAction, 1)] } }

/-- Refutes O17: a SYNC edge in the REFCLK period of an Ephemeris SYNC_RESET asks for no second reset, where the clause has one
pending after every edge that SyncAction makes a reset. -/
theorem not_clocksRecoverAndSync : ¬ Obligations.ClocksRecoverAndSync := by
  unfold Obligations.ClocksRecoverAndSync
  intro h
  obtain ⟨-, -, -, -, hedge, -⟩ := h
  have hdoes := hedge syncStill 0 rfl rfl
  rw [doesDev_onDev (f := (·.syncEdge)) rfl] at hdoes
  obtain ⟨-, -, -, hpend⟩ := hdoes
  have hsome := hpend (by decide +kernel) (by decide +kernel)
  exact absurd hsome (by decide +kernel)

/-- In DEEP with ML0 among the wake causes and the synthesisers OFF. -/
def coldDeep : State := { dev := { pwr := { phase := .running }, alm := [(P.wakeSourceMask, 8)] } }

/-- Refutes O18: on the way up from DEEP a wake by ML0 calibrates the synthesisers that are OFF, so SynthState moves, which the
frame of `wakeMl0Signal` does not list. -/
theorem not_powerStatesChange : ¬ Obligations.PowerStatesChange := by
  unfold Obligations.PowerStatesChange
  intro h
  obtain ⟨-, hwake, -⟩ := h
  have hacts := hwake coldDeep 0 rfl (by decide +kernel) (by decide +kernel) rfl rfl
  rw [Acts, doesDev_onDev (f := fun d => (d.wake 3 2).noteIdle) rfl] at hacts
  obtain ⟨hkeys, -⟩ := hacts
  have hstate := hkeys P.synthState (by decide +kernel) (by decide +kernel)
  exact absurd hstate (by decide +kernel)

/-- An update on trial, with writes to MRAM deferred and a buffer that has no room for the writes of the revert. -/
def fullBuffer : State :=
  { dev := { pwr := { phase := .running, base := 2 }, nvm := { deferring := true, used := 65504 },
             alm := [(P.pwrState, 2), (P.mlLinkWidth, 1), (P.updStage, 5), (P.updPackageId, 9)] ++
               (List.range 28).map (fun i => (P.updChunkBitmap + i, 255)) ++ [(P.updTrialBoots, 1)],
             ses := { h := [{ st := 2, role := 0 }, {}, {}, {}] } } }

/-- Refutes O19: with the deferral buffer almost full the revert's write of UpdStage is discarded, and the reset that follows
brings back the stage MRAM holds, 5, where the clause has 0. -/
theorem not_requestsForStatesAndResets : ¬ Obligations.RequestsForStatesAndResets := by
  unfold Obligations.RequestsForStatesAndResets
  intro h
  obtain ⟨-, -, -, hrevert⟩ := h
  have hdoes := hrevert fullBuffer 0 ⟨0, 0⟩ (by decide +kernel)
  rw [does_onAll (dt := 0) (f := fun d m p => d.rowWrite m p ⟨0, 0⟩ (writeItem P.updCommand 0 [5]) {}) rfl] at hdoes
  obtain ⟨hstage, -⟩ := hdoes
  exact absurd hstage (by decide +kernel)

/-- Slots 0 and 1 of housekeeping injection armed, slot 1 to inject at EV70; MRAM defers and an event for the log stands on the
edge, so EV70 is raised as the edge closes (R403). -/
def injectBusy : State :=
  { dev := { pwr := { phase := .running, base := 2 }, hk := { running := true }, nvm := { deferring := true },
             edge := [{ n := 9, arg := 0, log := true }],
             alm := [(P.pwrState, 2), (P.hkInjectConfig + 1, 16384 + 70 * 128), (P.hkInjectState, 1), (P.hkInjectState + 1, 1)],
             eph := { ent := [(0, { action := 8, state := 1 })] } } }

/-- Refutes O39: one picosecond passes before the entry acts; the edge closes, EV70 is raised, and slot 1, armed for that event,
injects. The HK_INJECT entry that fires then finds an injection running, so its slot stays armed where the clause has it inject. -/
theorem not_ephemerisActsOnUnits : ¬ Obligations.EphemerisActsOnUnits := by
  unfold Obligations.EphemerisActsOnUnits
  intro h
  obtain ⟨-, -, -, -, -, -, -, hinject, -⟩ := h
  have hdoes := hinject injectBusy 1 0 { action := 8, state := 1 } (by decide +kernel) (by decide +kernel) rfl
    (by decide +kernel) (by decide +kernel)
  rw [doesDev_onDev (f := (·.ephGo 0 8 0)) rfl] at hdoes
  obtain ⟨-, hslot⟩ := hdoes
  exact absurd hslot (by decide +kernel)

end Sys2Proof.Machine
end

section
/-! In thermal shutdown no wake cause acts (R62): every one of them asks for the device to be running. -/

namespace Sys2Proof.Machine

/-- What `noteIdle` may move: since when the device idles. -/
def Dev.RestsBut (d d' : Dev) : Prop := d' = d ∨ d' = d.noteIdle

section
variable {d : Dev} (hphase : d.pwr.phase ≠ .running)
include hphase

theorem Dev.wake_of_not_running (cause target : Nat) : d.wake cause target = d := by
  have hmay : d.mayWake = false := by simp [Dev.mayWake, hphase]
  simp [Dev.wake, hmay, Dev.iff]

theorem Dev.up_of_not_running : d.up = false := by
  simp [Dev.up, hphase]

theorem Dev.ephHeld_of_not_running : d.ephHeld = true := by
  simp [Dev.ephHeld, hphase]

theorem Dev.trigIn_of_not_running (rising : Bool) (finePs : Nat) : d.trigIn rising finePs = d := by
  simp [Dev.trigIn, hphase]

theorem Dev.sentinelDetection_of_not_running (ms : List (Nat × Nat)) (back : Nat) : d.sentinelDetection ms back = d := by
  simp [Dev.sentinelDetection, Dev.up_of_not_running hphase]

theorem Dev.ephGo_of_not_running (i action j : Nat) : d.ephGo i action j = d := by
  unfold Dev.ephGo
  split
  · rfl
  · simp [Dev.ephHeld_of_not_running hphase]

end

/-- Of all the device holds a rest moves only `idleSince`. -/
theorem Dev.RestsBut.pwr_a {d d' : Dev} (h : d.RestsBut d') :
    d'.pwr = { d.pwr with idleSince := d'.pwr.idleSince } ∧ ∀ k, d'.a k = d.a k := by
  obtain rfl | rfl := h
  · exact ⟨rfl, fun _ => rfl⟩
  · exact ⟨rfl, fun _ => rfl⟩

/-- A command that rests shows the power state, the units and the wake cause as they were. -/
theorem shows_power_of_rests {c : Instr} {s : State} {dt : Nat} {f : Dev → Dev} (hc : exec c s = onDev dt f s)
    (hf : (s.at_ dt).RestsBut (f (s.at_ dt))) :
    DoesDev c s (fun t => t.dev.pwr = { s.dev.pwr with idleSince := t.dev.pwr.idleSince } ∧ t.a P.pwrState = s.a P.pwrState ∧
      t.a P.pwrActiveMask = s.a P.pwrActiveMask ∧ t.a P.wakeLastSource = s.a P.wakeLastSource) := by
  obtain ⟨hpwr, hkeys⟩ := hf.pwr_a
  have hsame (k : Nat) (hk : evKey k = false) : ((s.arrive dt).leave (f (s.at_ dt)) s.mem).a k = s.a k :=
    (State.leave_a _ _ _ hk).trans ((hkeys k).trans (s.arrive_a dt hk))
  rw [doesDev_onDev hc]
  refine ⟨?_, hsame _ (by decide), hsame _ (by decide), hsame _ (by decide)⟩
  rw [State.leave_pwr, hpwr]
  simp [State.at_]

/-- Settles O9, cause by cause: a wake asks for the phase running, TRIG_IN and a detection for a device that is up, and an
Ephemeris entry is held outside of it. -/
theorem wakeCausesRestInShutdown : Obligations.WakeCausesRestInShutdown := by
  unfold Obligations.WakeCausesRestInShutdown
  intro s dt c hshut hc
  have hphase : (s.at_ dt).pwr.phase ≠ .running := by
    rw [State.at_, State.arrive_pwr]
    obtain h | h := hshut <;> simp [h]
  obtain rfl | ⟨island, rfl⟩ | ⟨rising, finePs, rfl⟩ | ⟨seqs, num, den, back, rfl⟩ | ⟨i, rfl⟩ := hc
  case inl =>
    exact shows_power_of_rests (f := fun d => (d.wake 3 2).noteIdle) rfl
      (Or.inr (congrArg Dev.noteIdle (Dev.wake_of_not_running hphase 3 2)))
  case inr.inl =>
    refine shows_power_of_rests (f := fun d => d.iff (d.numbered && d.a P.fieldEnable == 1 && island == d.island)
      (fun d => (d.wake 2 2).noteIdle)) rfl ?_
    dsimp only [Dev.iff]
    split
    · exact Or.inr (congrArg Dev.noteIdle (Dev.wake_of_not_running hphase 2 2))
    · exact Or.inl rfl
  case inr.inr.inl =>
    exact shows_power_of_rests (f := (·.trigIn rising finePs)) rfl (Or.inl (Dev.trigIn_of_not_running hphase rising finePs))
  case inr.inr.inr.inl =>
    exact shows_power_of_rests (f := (·.sentinelDetection (metricsOf seqs num den) back)) rfl
      (Or.inl (Dev.sentinelDetection_of_not_running hphase _ back))
  case inr.inr.inr.inr =>
    exact shows_power_of_rests (f := (·.ephGo i 1 0)) rfl (Or.inl (Dev.ephGo_of_not_running hphase i 1 0))

end Sys2Proof.Machine
end

section
/-!
What is steady while the device stops its work, sleeps, parks its outputs or commits an Ephemeris entry: the relation `Steady`, its
rules for each way of changing the device, then one lemma for each function of the model these actions are made of.
-/

namespace Sys2Proof.Machine

theorem lt_of_mem_bitList {n v i : Nat} (h : i ∈ bitList n v) : i < n :=
  List.mem_range.mp (List.mem_of_mem_filter h)

theorem lt_four_of_mem {q : Nat} (h : q ∈ [0, 1, 2, 3]) : q < 4 := by
  simp only [List.mem_cons, List.not_mem_nil, or_false] at h
  omega

theorem lt_two_of_mem {q : Nat} (h : q ∈ [0, 1]) : q < 2 := by
  simp only [List.mem_cons, List.not_mem_nil, or_false] at h
  omega

theorem zero_maskSub (n w : Nat) : maskSub n 0 w = 0 := by
  have hnone (l : List Nat) : l.foldl (fun acc i => if (bit 0 i && !bit w i) then acc + 2 ^ i else acc) 0 = 0 := by
    induction l with
    | nil => rfl
    | cons i l ih => simp [bit]
  exact hnone _

theorem maskSub_all (v : Nat) : maskSub 6 v 63 = 0 := by
  have hbit : ∀ i ∈ List.range 6, bit 63 i = true := by decide
  have hnone (l : List Nat) (hl : ∀ i ∈ l, bit 63 i = true) :
      l.foldl (fun acc i => if (bit v i && !bit 63 i) then acc + 2 ^ i else acc) 0 = 0 := by
    induction l with
    | nil => rfl
    | cons i l ih =>
      rw [List.foldl_cons, hl i (List.mem_cons_self ..)]
      simpa using ih fun j hj => hl j (List.mem_cons_of_mem i hj)
  exact hnone _ hbit

/-- No key in `[lo, lo + n)` is one of those `Steady` speaks of. -/
def awayFrom (lo n : Nat) : Bool :=
  [P.pwrActiveMask, P.railStatus, P.refclkState, P.syncResetCount, P.ephFiredCount].all (fun k => k.blt lo || (lo + n).ble k) &&
    ((P.biasOutputState + 80).ble lo || (lo + n).ble P.biasOutputState)

/-- Which of the parts a statement of steadiness takes in: the states of the bias outputs, and that no unit comes into ACTIVE. -/
structure Scope where
  outputs : Bool := true
  units : Bool := true

/-- The keys `Steady` speaks of, the states of the bias outputs among them where the scope says so. -/
def steadyKey (b : Scope) (k : Nat) : Bool :=
  k == P.railStatus || k == P.refclkState || k == P.syncResetCount || k == P.ephFiredCount ||
    (b.outputs && P.biasOutputState ≤ k && k < P.biasOutputState + 80)

/-- The parts of the device `Steady` speaks of. -/
def Dev.steadyPart (d : Dev) : NMap × List Ev × Nat × Bool × List (Nat × EphEnt) × Bool :=
  (d.alm, d.edge, d.pwr.railBad, d.clk.onLpo, d.eph.ent, d.tim.valid)

/-- The device `d` holds of `g` the few counts and states of `steadyKey`, the rails, the clock that runs, the Ephemeris table and
whether time is valid; no event of the edge is lost and, with no unit ACTIVE, none becomes so. What stops work, puts the device to
sleep, parks outputs or commits an Ephemeris entry is steady, which is shown function by function. -/
def Steady (b : Scope) (g d : Dev) : Prop :=
  (∀ k, steadyKey b k = true → d.a k = g.a k) ∧ (b.units = true → g.a P.pwrActiveMask = 0 → d.a P.pwrActiveMask = 0) ∧
    (∀ e ∈ g.edge, e ∈ d.edge) ∧ d.pwr.railBad = g.pwr.railBad ∧ d.clk.onLpo = g.clk.onLpo ∧ d.eph.ent = g.eph.ent ∧ d.tim.valid = g.tim.valid

theorem steadyKey_evKey {b : Scope} {k : Nat} (h : steadyKey b k = true) : evKey k = false := by
  simp only [steadyKey, Bool.or_eq_true, beq_iff_eq, Bool.and_eq_true, decide_eq_true_eq] at h
  obtain (((rfl | rfl) | rfl) | rfl) | ⟨⟨-, h1⟩, h2⟩ := h
  · decide
  · decide
  · decide
  · decide
  · simp only [evKey, P.biasOutputState, P.eventSeq, P.eventCount, P.eventPending, P.eventDropCount, P.eventLogWrapCount,
      P.nvmDeferredDiscardCount, P.hkInjectDropCount, P.hkInjectState, Bool.or_eq_false_iff, beq_eq_false_iff_ne, ne_eq,
      Bool.and_eq_false_iff, decide_eq_false_iff_not] at *
    omega

theorem ne_of_awayFrom {lo n k j : Nat} {b : Scope} (ha : awayFrom lo n = true) (h1 : lo ≤ k) (h2 : k < lo + n)
    (hj : steadyKey b j = true) : k ≠ j := by
  rintro rfl
  simp only [awayFrom, List.all_cons, List.all_nil, Bool.or_eq_true, Bool.and_eq_true, decide_eq_true_eq, steadyKey, beq_iff_eq, Nat.blt_eq, Nat.ble_eq] at ha hj
  omega

theorem ne_mask_of_awayFrom {lo n k : Nat} (ha : awayFrom lo n = true) (h1 : lo ≤ k) (h2 : k < lo + n) : k ≠ P.pwrActiveMask := by
  rintro rfl
  simp only [awayFrom, List.all_cons, List.all_nil, Bool.or_eq_true, Bool.and_eq_true, Nat.blt_eq, Nat.ble_eq] at ha
  omega

namespace Steady
variable {b : Scope} {g d : Dev}

/-- Nothing that `Steady` speaks of stands in what has changed. -/
theorem same {d' : Dev} (h : Steady b g d) (hsame : d'.steadyPart = d.steadyPart) : Steady b g d' := by
  unfold Dev.steadyPart at hsame
  obtain ⟨halm, hedge, hrail, hlpo, hent, hvalid⟩ := by simpa only [Prod.mk.injEq] using hsame
  unfold Steady Dev.a at *
  rw [halm, hedge, hrail, hlpo, hent, hvalid]
  exact h

theorem mask (h : Steady b g d) (hb : b.units = true) (hg : g.a P.pwrActiveMask = 0) : d.a P.pwrActiveMask = 0 := h.2.1 hb hg

theorem refl (b : Scope) (d : Dev) : Steady b d d := ⟨fun _ _ => rfl, fun _ h => h, fun _ h => h, rfl, rfl, rfl, rfl⟩

theorem trans {d' : Dev} (h : Steady b g d) (h' : Steady {} d d') : Steady b g d' := by
  obtain ⟨hkey, hmask, hedge, hrail, hlpo, hent, hvalid⟩ := h
  obtain ⟨hkey', hmask', hedge', hrail', hlpo', hent', hvalid'⟩ := h'
  have hwider {k : Nat} (hk : steadyKey b k = true) : steadyKey {} k = true := by
    simp only [steadyKey, Bool.or_eq_true, Bool.and_eq_true] at hk ⊢
    tauto
  exact ⟨fun k hk => (hkey' k (hwider hk)).trans (hkey k hk), fun hb hg => hmask' rfl (hmask hb hg), fun e he => hedge' e (hedge e he),
    hrail'.trans hrail, hlpo'.trans hlpo, hent'.trans hent, hvalid'.trans hvalid⟩

theorem wIn (h : Steady b g d) (lo n : Nat) {k v : Nat} (h1 : lo ≤ k) (h2 : k < lo + n) (ha : awayFrom lo n = true) :
    Steady b g (d.w k v) := by
  obtain ⟨hkey, hmask, hrest⟩ := h
  refine ⟨fun j hj => ?_, fun hb hg => ?_, hrest⟩
  · rw [d.a_w_ne v (ne_of_awayFrom ha h1 h2 hj)]
    exact hkey j hj
  · rw [d.a_w_ne v (ne_mask_of_awayFrom ha h1 h2)]
    exact hmask hb hg

theorem w (h : Steady b g d) {k v : Nat} (ha : awayFrom k 1 = true) : Steady b g (d.w k v) :=
  h.wIn k 1 (by omega) (by omega) ha

theorem wAt (h : Steady b g d) {k i n v : Nat} (hi : i < n) (ha : awayFrom k n = true) : Steady b g (d.w (k + i) v) :=
  h.wIn k n (by omega) (by omega) ha

theorem wGk (h : Steady b g d) {k p i v : Nat} (n : Nat) (hp : p < 2) (hi : i < n) (ha : awayFrom k (65536 + n) = true) :
    Steady b g (d.w (gk k p + i) v) := by
  refine h.wIn k (65536 + n) ?_ ?_ ha <;> unfold gk <;> omega

/-- Every key from the lanes' chapter on. -/
theorem wHigh (h : Steady b g d) (lo : Nat) {k v : Nat} (h1 : lo ≤ k) (ha : Nat.blt P.ephFiredCount lo = true) : Steady b g (d.w k v) := by
  refine h.wIn lo (k + 1) h1 (by omega) ?_
  have hlo : P.ephFiredCount < lo := Nat.blt_eq.mp ha
  have hall : ∀ j ∈ [P.pwrActiveMask, P.railStatus, P.refclkState, P.syncResetCount, P.ephFiredCount], j ≤ P.ephFiredCount := by decide
  have hbias : P.biasOutputState + 80 ≤ P.ephFiredCount := by decide
  simp only [awayFrom, Bool.and_eq_true, List.all_eq_true, Bool.or_eq_true, Nat.blt_eq, Nat.ble_eq]
  exact ⟨fun j hj => Or.inl (lt_of_le_of_lt (hall j hj) hlo), Or.inl (hbias.trans hlo.le)⟩

theorem addIn (h : Steady b g d) (lo n : Nat) {k m : Nat} (h1 : lo ≤ k) (h2 : k < lo + n) (ha : awayFrom lo n = true) :
    Steady b g (d.add k m) := by
  unfold Dev.add
  dsimp only
  split
  · exact h.wIn lo n h1 h2 ha
  · split
    · exact h.wIn lo n h1 h2 ha
    · exact h.wIn lo n h1 h2 ha

theorem add (h : Steady b g d) {k m : Nat} (ha : awayFrom k 1 = true) : Steady b g (d.add k m) :=
  h.addIn k 1 (by omega) (by omega) ha

theorem inc (h : Steady b g d) {k : Nat} (ha : awayFrom k 1 = true) : Steady b g (d.inc k) := h.add ha

theorem incIn (h : Steady b g d) (lo n : Nat) {k : Nat} (h1 : lo ≤ k) (h2 : k < lo + n) (ha : awayFrom lo n = true) :
    Steady b g (d.inc k) := h.addIn lo n h1 h2 ha

theorem incAt (h : Steady b g d) {k i n : Nat} (hi : i < n) (ha : awayFrom k n = true) : Steady b g (d.inc (k + i)) :=
  h.incIn k n (by omega) (by omega) ha

theorem incHigh (h : Steady b g d) (lo : Nat) {k : Nat} (h1 : lo ≤ k) (ha : Nat.blt P.ephFiredCount lo = true) : Steady b g (d.inc k) := by
  unfold Dev.inc Dev.add
  dsimp only
  split
  · exact h.wHigh lo h1 ha
  · split
    · exact h.wHigh lo h1 ha
    · exact h.wHigh lo h1 ha

theorem wListHigh (h : Steady b g d) {k : Nat} {vs : List Nat} (ha : Nat.blt P.ephFiredCount k = true) : Steady b g (d.wList k vs) := by
  unfold Dev.wList
  generalize vs.zip (List.range vs.length) = l
  induction l generalizing d with
  | nil => exact h
  | cons x l ih => exact ih (h.wHigh k (Nat.le_add_right _ _) ha)

theorem raise (h : Steady b g d) {n arg : Nat} (hn : n.blt 128 = true) : Steady b g (d.raise n arg) := by
  replace hn : n < 128 := Nat.blt_eq.mp hn
  obtain ⟨hkey, hmask, hedge, hrest⟩ := h
  refine ⟨fun k hk => ?_, fun hb hg => ?_, fun e he => d.edge_raise n arg (hedge e he), ?_⟩
  · rw [d.a_raise arg hn (steadyKey_evKey hk)]
    exact hkey k hk
  · rw [d.a_raise arg hn (by decide)]
    exact hmask hb hg
  · obtain ⟨m, x, hs⟩ := d.raise_shape n arg
    rw [hs]
    exact hrest

theorem each {α : Type} {l : List α} {f : α → Dev → Dev} (h : Steady b g d)
    (hf : ∀ x ∈ l, ∀ d, Steady b g d → Steady b g (f x d)) : Steady b g (d.each l f) := by
  unfold Dev.each
  induction l generalizing d with
  | nil => exact h
  | cons x l ih =>
    exact ih (hf x (List.mem_cons_self ..) d h) (fun y hy => hf y (List.mem_cons_of_mem x hy))

theorem iff {c : Bool} {f : Dev → Dev} (h : Steady b g d) (hf : c = true → ∀ d, Steady b g d → Steady b g (f d)) : Steady b g (d.iff c f) := by
  cases c
  · exact h
  · exact hf rfl d h

theorem ite {c : Prop} [Decidable c] {d' : Dev} (h : Steady b g d) (h' : Steady b g d') : Steady b g (if c then d else d') := by
  split
  · exact h
  · exact h'

theorem noteIdle (h : Steady b g d) : Steady b g d.noteIdle := h.same rfl

theorem setPwr {p : Pwr} (h : Steady b g d) (hp : p.railBad = d.pwr.railBad) : Steady b g { d with pwr := p } :=
  h.same (by rw [Dev.steadyPart, Dev.steadyPart, hp])

theorem setRx {x : Rx} (h : Steady b g d) : Steady b g { d with rx := x } := h.same rfl

/-! ### MRAM -/

theorem tellDefer (h : Steady b g d) : Steady b g d.tellDefer := h.iff fun _ _ h => raise (h.same (by rfl)) (by rfl)

theorem mramKeep (h : Steady b g d) : Steady b g d.mramKeep := by
  unfold Dev.mramKeep
  split
  · exact h
  · exact h.same (by rfl)

theorem mramWrite (h : Steady b g d) {n : Nat} {f : Dev → Dev} (hf : ∀ d, Steady b g d → Steady b g (f d)) :
    Steady b g (d.mramWrite n f) := by
  unfold Dev.mramWrite
  split
  · split
    · exact h.inc (by rfl)
    · exact hf _ (h.tellDefer.mramKeep.same (by rfl))
  · split
    · exact hf _ h.mramKeep
    · exact hf _ h

theorem wN (h : Steady b g d) {k v : Nat} (ha : awayFrom k 1 = true) : Steady b g (d.wN k v) := by
  have keep (o s : Nat) (d : Dev) (h : Steady b g d) : Steady b g
      (if (d.nvm.alm.get? (2 * k)).isSome ∨ (d.nvm.alm.get? (2 * k + 1)).isSome then d
        else { d with nvm := { d.nvm with alm := d.nvm.alm.set s o } }) := by
    split
    · exact h
    · exact h.same (by rfl)
  unfold Dev.wN
  dsimp only
  split
  · exact h
  · split
    · split
      · exact w (inc (keep _ _ _ h) (by rfl)) ha
      · exact w (h.mramWrite fun d h => keep _ _ d h) ha
    · split
      · exact w (keep _ _ _ h) ha
      · exact h.w ha

theorem incN (h : Steady b g d) {k : Nat} (ha : awayFrom k 1 = true) : Steady b g (d.incN k) := h.wN ha

theorem trimStore (h : Steady b g d) : Steady b g d.trimStore := h.mramWrite fun _ h => h.same (by rfl)

theorem copyGeneration (h : Steady b g d) : Steady b g d.copyGeneration := h.iff fun _ _ h => h.mramWrite fun _ h => h.same (by rfl)

/-! ### Receive -/

theorem endFade (h : Steady b g d) {p : Nat} (hp : p < 2) : Steady b g (d.endFade p) := by
  unfold Dev.endFade
  split
  · exact h
  · exact raise (setRx (wGk (wGk h 4 hp (Nat.mod_lt _ (by omega)) (by rfl)) 4 hp (Nat.mod_lt _ (by omega)) (by rfl))) (by rfl)

theorem gridEnds (h : Steady b g d) {p till : Nat} : Steady b g (d.gridEnds p till) := by
  unfold Dev.gridEnds
  split
  · exact h.same (by rfl)
  · exact h

theorem setCore (h : Steady b g d) {u k c : Nat} (hu : u < 16) : Steady b g (d.setCore u k c) :=
  h.wAt hu (by rfl)

theorem setQuadState (h : Steady b g d) {u st more : Nat} (hu : u < 16) : Steady b g (d.setQuadState u st more) :=
  h.wAt hu (by rfl)

theorem updateQuad (h : Steady b g d) {u : Nat} (hu : u < 16) : Steady b g (d.updateQuad u) := by
  unfold Dev.updateQuad
  dsimp only
  split
  · exact h
  · split
    · split
      · exact h
      · exact setQuadState (h.same (by rfl)) hu
    · split
      · exact setQuadState (same (h.iff fun _ _ h => h.setCore hu) (by rfl)) hu
      · split
        · exact h
        · exact h.same (by rfl)

theorem spareCycle (h : Steady b g d) : Steady b g d.spareCycle := by
  unfold Dev.spareCycle
  dsimp only
  split
  · exact raise (h.same (by rfl)) (by rfl)
  · exact h

theorem updateQuads (h : Steady b g d) : Steady b g d.updateQuads :=
  spareCycle (h.each fun _ hu _ h => h.updateQuad (List.mem_range.mp hu))

theorem servedAt (h : Steady b g d) {c sec n : Nat} : Steady b g (d.servedAt c sec n) := by
  unfold Dev.servedAt
  dsimp only
  split
  · exact h.same (by rfl)
  · split
    · exact h.same (by rfl)
    · split
      · exact h.same (by rfl)
      · exact h.same (by rfl)

theorem ringEnds (h : Steady b g d) : Steady b g d.ringEnds := by
  unfold Dev.ringEnds
  split
  · exact h
  · exact same h.servedAt.servedAt (by rfl)

theorem sentinelStop (h : Steady b g d) : Steady b g d.sentinelStop := by
  unfold Dev.sentinelStop
  split
  · exact updateQuads (w (h.ringEnds.same (by rfl)) (by rfl))
  · exact h

/-! ### Bursts -/

theorem setTxPaths (h : Steady b g d) {q v : Nat} (hq : q < 4) : Steady b g (d.setTxPaths q v) :=
  h.each fun i hi _ h => h.wIn P.txPathState 64 (by omega) (by have := List.mem_range.mp hi; omega) (by rfl)

theorem refreshTx (h : Steady b g d) {q : Nat} (hq : q < 4) : Steady b g (d.refreshTx q) := by
  unfold Dev.refreshTx
  split
  · exact h.setTxPaths hq
  · exact h.setTxPaths hq
  · exact h.setTxPaths hq
  · exact h.setTxPaths hq

theorem dpdAbandon (h : Steady b g d) {q : Nat} : Steady b g (d.dpdAbandon q) := by
  unfold Dev.dpdAbandon
  split
  · exact h
  · exact incIn (h.same (by rfl)) P.dpdSkipCount 64 (by omega) (by omega) (by rfl)

theorem leaveOn (h : Steady b g d) {q : Nat} : Steady b g (d.leaveOn q) := by
  unfold Dev.leaveOn
  dsimp only
  split
  · exact h.same (by rfl)
  · exact h

theorem reportDrop (h : Steady b g d) {q cause : Nat} (hq : q < 4) : Steady b g (d.reportDrop q cause) :=
  raise (h.incAt hq (by rfl)) (by rfl)

theorem stopBurst (h : Steady b g d) {q cause : Nat} (hq : q < 4) : Steady b g (d.stopBurst q cause) := by
  unfold Dev.stopBurst
  dsimp only
  split
  · exact refreshTx (reportDrop (same h.dpdAbandon.leaveOn (by rfl)) hq) hq
  · exact h

theorem killBurst (h : Steady b g d) {q cause : Nat} (hq : q < 4) : Steady b g (d.killBurst q cause) :=
  iff (h.stopBurst hq) fun _ _ h => h.same (by rfl)

theorem cutSlot (h : Steady b g d) : Steady b g d.cutSlot := by
  unfold Dev.cutSlot
  exact add (h.same (by rfl)) (by rfl)

/-! ### Units -/

/-- PwrActiveMask only loses units. -/
theorem wMask (h : Steady b g d) {v : Nat} (hv : b.units = true → g.a P.pwrActiveMask = 0 → v = 0) :
    Steady b g (d.w P.pwrActiveMask v) := by
  obtain ⟨hkey, hmask, hrest⟩ := h
  refine ⟨fun k hk => ?_, fun hb hg => ?_, hrest⟩
  · have hne : P.pwrActiveMask ≠ k := by
      rintro rfl
      have hnot : steadyKey {} P.pwrActiveMask = false := rfl
      simp only [steadyKey, Bool.or_eq_true, beq_iff_eq, Bool.and_eq_true, decide_eq_true_eq, Bool.true_and, Bool.or_eq_false_iff] at hk hnot
      grind
    rw [d.a_w_ne v hne]
    exact hkey k hk
  · rw [d.a_w_self]
    exact hv hb hg

/-- What `dropUnits` does before and after it writes PwrActiveMask is steady. -/
theorem dropUnits_split (d : Dev) (mask : Nat) : ∃ d0, (∀ b g, Steady b g d → Steady b g d0) ∧
    Steady {} (d0.w P.pwrActiveMask (maskSub 6 (d.a P.pwrActiveMask) mask)) (d.dropUnits mask) := by
  have fade {p : Nat} (hp : p < 2) {b : Scope} {g d : Dev} (h : Steady b g d) {c : Bool} :
      Steady b g (if c then d.endFade p else d) := ite (h.endFade hp) h
  unfold Dev.dropUnits
  dsimp only
  refine ⟨_, fun b g h => each (fade (by omega) (fade (by omega) h)) fun _ _ _ h => h.iff fun _ _ h => h.gridEnds,
    noteIdle (sentinelStop (updateQuads (each (each (setPwr (iff (refl _ _) ?_) (by dsimp only)) ?_) ?_)))⟩
  · exact fun _ _ h => h.w (by rfl)
  · exact fun _ _ _ h => h.iff fun _ _ h => h.same (by rfl)
  · exact fun q hq _ h => h.iff fun _ _ h => h.refreshTx (lt_four_of_mem hq)

theorem dropUnits (h : Steady b g d) {mask : Nat} : Steady b g (d.dropUnits mask) := by
  obtain ⟨d0, hbefore, hafter⟩ := dropUnits_split d mask
  refine ((hbefore b g h).wMask fun hb hg => ?_).trans hafter
  rw [h.mask hb hg, zero_maskSub]

end Steady

/-- Every unit has left ACTIVE once all six are dropped. -/
theorem Dev.mask_dropUnits_all (d : Dev) : (d.dropUnits 63).a P.pwrActiveMask = 0 := by
  obtain ⟨d0, -, hafter⟩ := Steady.dropUnits_split d 63
  refine hafter.mask rfl ?_
  rw [Dev.a_w_self, maskSub_all]

end Sys2Proof.Machine
end

section
/-!
`Steady`, function by function: outputs parked, units halted, the way into DEEP.
-/

namespace Sys2Proof.Machine

namespace Steady
variable {b : Scope} {g d : Dev}

/-! ### RF control, Collimation, bias outputs -/

theorem rfctl (h : Steady b g d) {i : Nat} {on : Bool} : Steady b g (d.rfctl i on) := by
  unfold Dev.rfctl
  dsimp only
  split
  · exact h
  · exact (h.w (by rfl)).same rfl

theorem rfIdle (h : Steady b g d) : Steady b g d.rfIdle := h.each fun _ _ _ h => h.rfctl

theorem rfStop (h : Steady b g d) : Steady b g d.rfStop := rfIdle (h.each fun _ _ _ h => h.same rfl)

theorem showCol (h : Steady b g d) : Steady b g d.showCol := h.w (by rfl)

theorem setCol {x : Col} (h : Steady b g d) : Steady b g { d with col := x } := h.same rfl

theorem colAbandon (h : Steady b g d) {status : Nat} : Steady b g (d.colAbandon status) := by
  unfold Dev.colAbandon
  split
  · exact h
  · exact raise (incN (w (showCol (setCol h)) (by rfl)) (by rfl)) (by rfl)

theorem colHold (h : Steady b g d) {quads : Nat} : Steady b g (d.colHold quads) := by
  unfold Dev.colHold
  split
  · exact h
  · exact iff (setCol h) fun _ _ h => h.colAbandon

/-- The keys of the bias outputs' codes are none of those `Steady` speaks of. -/
theorem driveBias (h : Steady b g d) {i : Nat} (hi : i < 80) : Steady b g (d.driveBias i) := h.wAt hi (by rfl)

/-- Where the scope leaves the bias outputs out, their states may move. -/
theorem biasTo (h : Steady b g d) (hb : b.outputs = false) {i st : Nat} (hi : i < 80) : Steady b g (d.biasTo i st) := by
  refine driveBias ?_ hi
  obtain ⟨hkey, hmask, hrest⟩ := h
  have hout {k : Nat} (hk : steadyKey b k = true) : P.biasOutputState + i ≠ k := by
    rintro rfl
    simp only [steadyKey, hb, P.biasOutputState, P.railStatus, P.refclkState, P.syncResetCount, P.ephFiredCount, Bool.or_eq_true,
      beq_iff_eq, Bool.false_and, Bool.false_eq_true, or_false] at hk
    omega
  refine ⟨fun k hk => ?_, fun hu hg => ?_, hrest⟩
  · rw [d.a_w_ne st (hout hk)]
    exact hkey k hk
  · have hne : P.biasOutputState + i ≠ P.pwrActiveMask := by
      simp only [P.biasOutputState, P.pwrActiveMask]
      omega
    rw [d.a_w_ne st hne]
    exact hmask hu hg

theorem setBias {x : Bias} (h : Steady b g d) : Steady b g { d with bias := x } := h.same rfl

theorem parkGroups (h : Steady b g d) (hb : b.outputs = false) {groups cause : Nat} : Steady b g (d.parkGroups groups cause) := by
  refine h.each fun k hk d h => ?_
  have hgroup : k < 5 := lt_of_mem_bitList hk
  have hcause : Steady b g (d.iff (cause != 0)
      (fun d => d.w (P.biasParkCause + k) (putBit (d.a (P.biasParkCause + k)) (cause - 1) true))) :=
    h.iff fun _ _ h => h.wAt hgroup (by rfl)
  have houts : Steady b g ((d.iff (cause != 0)
      (fun d => d.w (P.biasParkCause + k) (putBit (d.a (P.biasParkCause + k)) (cause - 1) true))).each (List.range 16) (fun j d =>
        let i := 16 * k + j
        if d.a (P.biasOutputState + i) = 0 then d
        else
          let d := d.biasTo i 1
          d.iff (cause != 0) (fun d => { d with bias := { d.bias with byCause := putBit d.bias.byCause i true } }))) := by
    refine hcause.each fun j hj d h => ?_
    have hj16 : j < 16 := List.mem_range.mp hj
    dsimp only
    split
    · exact h
    · exact iff (h.biasTo hb (by omega)) fun _ _ h => h.setBias
  dsimp only
  split
  next hquad =>
    simp only [Bool.and_eq_true, decide_eq_true_eq] at hquad
    split
    · exact (houts.stopBurst hquad.2).colHold
    · exact ((houts.stopBurst hquad.2).colHold).dropUnits
  next => exact houts

theorem park (h : Steady b g d) (hb : b.outputs = false) {groups cause : Nat} : Steady b g (d.park groups cause) :=
  raise (h.parkGroups hb) (by rfl)

/-! ### Units halted -/

theorem haltUnits (h : Steady b g d) : Steady b g d.haltUnits := by
  have hdrop : Steady b g ((d.each [0, 1, 2, 3] (fun q d => d.killBurst q 6)).cutSlot.dropUnits 63) :=
    dropUnits (cutSlot (h.each fun _ hq _ h => h.killBurst (lt_four_of_mem hq)))
  unfold Dev.haltUnits
  dsimp only
  exact hdrop.setPwr (by dsimp only)

theorem dropUp (h : Steady b g d) : Steady b g d.dropUp := by
  unfold Dev.dropUp
  dsimp only
  exact each (setPwr h (by rfl)) fun _ _ _ h => h.raise (by rfl)

theorem begin (h : Steady b g d) {kind arg : Nat} : Steady b g (d.begin kind arg) := h.same rfl

end Steady
end Sys2Proof.Machine
end

section
/-!
`Steady`, function by function: what leaves on the ports, the lanes and what follows them, and with these the way into DEEP.
-/

namespace Sys2Proof.Machine

namespace Steady
variable {b : Scope} {g d : Dev}

/-! ### Direct memory access and Transit -/

theorem setDma (h : Steady b g d) {c : Nat} {f : DmaCh → DmaCh} : Steady b g (d.setDma c f) := h.same rfl

theorem setDmaTable {x : Dma} (h : Steady b g d) : Steady b g { d with dma := x } := h.same rfl

theorem free (h : Steady b g d) {tag n : Nat} : Steady b g (d.free tag n).2 := h.same rfl

theorem dmaEach {m : Memory} {l : List Nat} {f : Dev → Memory → Nat → Dev × List MemOp} (h : Steady b g d)
    (hf : ∀ c ∈ l, ∀ d m, Steady b g d → Steady b g (f d m c).1) : Steady b g (d.dmaEach m l f).1 := by
  have hfold (ops : List MemOp) : Steady b g (l.foldl (fun (acc : Dev × List MemOp) c =>
      let (d, ops) := f acc.1 (m.applyAll acc.2) c
      (d, acc.2 ++ ops)) (d, ops)).1 := by
    induction l generalizing d ops with
    | nil => exact h
    | cons c l ih => exact ih (hf c (List.mem_cons_self ..) d _ h) (fun x hx => hf x (List.mem_cons_of_mem c hx)) _
  exact hfold []

theorem dmaTo (h : Steady b g d) {c st : Nat} (hc : c < 16) : Steady b g (d.dmaTo c st) := h.wAt hc (by rfl)

theorem dmaBit (h : Steady b g d) {c n : Nat} {on : Bool} (hc : c < 16) : Steady b g (d.dmaBit c n on) := h.wAt hc (by rfl)

theorem dmaStatus (h : Steady b g d) {c st : Nat} (hc : c < 16) : Steady b g (d.dmaStatus c st) := h.wAt hc (by rfl)

theorem dmaEvent (h : Steady b g d) {c st : Nat} (hc : c < 16) : Steady b g (d.dmaEvent c st) :=
  h.iff fun _ _ h => h.raise (Nat.blt_eq.mpr (by omega))

theorem served (h : Steady b g d) {c n : Nat} : Steady b g (d.served c n) := h.servedAt

theorem dmaStopAt (h : Steady b g d) {m : Memory} {p : Places} {c moved : Nat} (hc : c < 16) :
    Steady b g (d.dmaStopAt m p c moved).1 := by
  unfold Dev.dmaStopAt
  dsimp only
  split
  · exact h
  · have hserved {x : Desc} {n : Nat} : Steady b g (d.dmaServed c x n) := h.served
    exact setDma (wAt hserved hc (by rfl))

theorem dmaDisableOne (h : Steady b g d) {m : Memory} {p : Places} {c moved : Nat} (hc : c < 16) :
    Steady b g (d.dmaDisableOne m p c moved).1 := by
  unfold Dev.dmaDisableOne
  dsimp only
  split
  · exact dmaEvent (iff (dmaTo (dmaStopAt (h.w (by rfl)) hc) hc) fun _ _ h => h.dmaStatus hc) hc
  · split
    · exact dmaTo (setDmaTable (h.w (by rfl))) hc
    · exact h.w (by rfl)

theorem dmaDeep (h : Steady b g d) {m : Memory} {p : Places} : Steady b g (d.dmaDeep m p).1 := by
  refine h.dmaEach fun c hc d m h => ?_
  have hc16 : c < 16 := List.mem_range.mp hc
  exact setDma (dmaBit (dmaTo (setDmaTable (dmaDisableOne h.free hc16)) hc16) hc16)

theorem setTra {x : Tra} (h : Steady b g d) : Steady b g { d with tra := x } := h.same rfl

theorem traEnd (h : Steady b g d) {trunc : Bool} {t pre post phase next : Nat} : Steady b g (d.traEnd trunc t pre post phase next) := by
  unfold Dev.traEnd
  dsimp only
  exact raise (w (iff (inc (setTra (wListHigh h (by rfl))) (by rfl)) fun _ _ h => h.inc (by rfl)) (by rfl)) (by rfl)

theorem traClose (h : Steady b g d) {j : Nat} : Steady b g (d.traClose j) := by
  unfold Dev.traClose
  split
  · exact h.traEnd
  · split
    · exact h.traEnd
    · split
      · exact h.w (by rfl)
      · exact h

theorem traDeep (h : Steady b g d) : Steady b g d.traDeep := (h.free (tag := 640) (n := 40)).traClose

/-! ### Plans, requests, calibrations -/

theorem showQueued (h : Steady b g d) : Steady b g d.showQueued :=
  h.each fun _ hp _ h => h.wGk (i := 0) 1 (lt_two_of_mem hp) (by omega) (by rfl)

theorem setUl {x : Ul} (h : Steady b g d) : Steady b g { d with ul := x } := h.same rfl

theorem setDl {x : Dl} (h : Steady b g d) : Steady b g { d with dl := x } := h.same rfl

theorem discardPlans (h : Steady b g d) {p : Plan → Bool} : Steady b g (d.discardPlans p) :=
  noteIdle (showQueued (add (setUl h) (by rfl)))

theorem discardDl (h : Steady b g d) {p : Plan → Bool} : Steady b g (d.discardDl p) := noteIdle (add (setDl h) (by rfl))

theorem discardAllPlans (h : Steady b g d) : Steady b g d.discardAllPlans := h.discardPlans.discardDl

theorem coexDrive (h : Steady b g d) {req pri : Bool} : Steady b g (d.coexDrive req pri) := by
  have hpins : Steady b g ((d.iff (d.coex.pri != pri) (·.pin .coexPri (pri != bit (d.a P.coexPolarity) 2))).iff
      ((d.iff (d.coex.pri != pri) (·.pin .coexPri (pri != bit (d.a P.coexPolarity) 2))).coex.req != req)
      (·.pin .coexReq (req != bit (d.a P.coexPolarity) 0))) :=
    iff (h.iff fun _ _ h => h.same rfl) fun _ _ h => h.same rfl
  exact hpins.same rfl

theorem coexUpdate (h : Steady b g d) : Steady b g d.coexUpdate := h.coexDrive

theorem withdrawEdges (h : Steady b g d) {q : Nat} : Steady b g (d.withdrawEdges q) :=
  coexUpdate (h.each fun _ _ _ h => h.iff fun _ _ h => h.rfctl)

theorem setBurst (h : Steady b g d) {q : Nat} {f : Burst → Burst} : Steady b g (d.setBurst q f) := h.same rfl

theorem unrequest (h : Steady b g d) {q : Nat} : Steady b g (d.unrequest q) := h.iff fun _ _ h => h.setBurst.withdrawEdges

theorem setDpd {x : Dpd} (h : Steady b g d) : Steady b g { d with dpd := x } := h.same rfl

theorem warmStore (h : Steady b g d) {p : Nat} : Steady b g (d.warmStore p) := by
  unfold Dev.warmStore
  dsimp only
  exact same (h.mramWrite fun _ h => h.setDpd.inc (by rfl)) rfl

theorem warmDeep (h : Steady b g d) : Steady b g d.warmDeep :=
  setDpd (h.each fun _ _ _ h => h.iff fun _ _ h => h.warmStore)

theorem setSen {x : Sen} (h : Steady b g d) : Steady b g { d with sen := x } := h.same rfl

theorem replayDiscard (h : Steady b g d) : Steady b g d.replayDiscard := by
  unfold Dev.replayDiscard
  dsimp only
  split
  · exact h
  · exact raise (add (setSen h) (by rfl)) (by rfl)

theorem setHk {x : Hk} (h : Steady b g d) : Steady b g { d with hk := x } := h.same rfl

theorem hkStop (h : Steady b g d) : Steady b g d.hkStop := h.setHk.w (by rfl)

theorem thermCountsRestart (h : Steady b g d) : Steady b g d.thermCountsRestart := h.same rfl

theorem synthsOff (h : Steady b g d) {mask : Nat} : Steady b g (d.synthsOff mask) :=
  h.each fun _ hk _ h => w (h.wAt (lt_of_mem_bitList hk) (by rfl)) (by rfl)

theorem bgPause (h : Steady b g d) : Steady b g d.bgPause := by
  unfold Dev.bgPause
  dsimp only
  exact w (h.same rfl) (by rfl)

theorem buffersLost (h : Steady b g d) : Steady b g d.buffersLost := h.same rfl

/-! ### Messages that leave -/

theorem setChan (h : Steady b g d) {p vc : Nat} {f : Chan → Chan} : Steady b g (d.setChan p vc f) := h.same rfl

theorem setPort (h : Steady b g d) {p : Nat} {f : Port → Port} : Steady b g (d.setPort p f) := h.same rfl

theorem setRip {x : Rip} (h : Steady b g d) : Steady b g { d with rip := x } := h.same rfl

theorem showCredit (h : Steady b g d) {p vc : Nat} : Steady b g (d.showCredit p vc) :=
  h.iff fun _ _ h => h.wHigh P.mlTxCreditAvailable (Nat.le_add_right _ _) (by rfl)

theorem put (h : Steady b g d) {p : Nat} {crcOk : Bool} {m : Msg} : Steady b g (d.put p crcOk m) := by
  unfold Dev.put
  dsimp only
  have hcount := h.setChan (p := p) (vc := m.vc)
    (f := fun c => { c with consumed := (c.consumed + msgUnits m.body.length) % 2 ^ 24, seqOut := (c.seqOut + 1) % 65536 })
  exact same (showCredit (hcount.iff fun _ _ h => h.incHigh P.mlTxMessageCount (Nat.le_add_right _ _) (by rfl))) rfl

theorem fieldPut (h : Steady b g d) {fn low : Nat} {data : List Byte} : Steady b g (d.fieldPut fn low data) :=
  h.iff fun _ _ h => h.same rfl

theorem fieldOut (h : Steady b g d) {m : Msg} {crc : Nat} : Steady b g (d.fieldOut m crc) := by
  unfold Dev.fieldOut
  dsimp only
  split
  · exact h.each fun _ _ _ h => h.fieldPut
  · exact h.fieldPut

theorem ripLeave (h : Steady b g d) {x : RipHold} : Steady b g (d.ripLeave x) := by
  unfold Dev.ripLeave
  split
  · exact h
  · split
    · exact h.fieldOut
    · exact h.put

theorem ripRule (h : Steady b g d) {port dir type i : Nat} : Steady b g (d.ripRule port dir type i).2 := by
  unfold Dev.ripRule
  dsimp only
  split
  · split
    · exact h.same rfl
    · exact h.same rfl
  · exact h

theorem ripPick (h : Steady b g d) {port dir type : Nat} : Steady b g (d.ripPick port dir type).2 := by
  have hfold (l : List Nat) (who : Option Nat) : Steady b g (l.foldl (fun (acc : Option Nat × Dev) i =>
      let (acts, d) := acc.2.ripRule port dir type i
      (match acc.1 with | none => if acts then some i else none | some j => some j, d)) (who, d)).2 := by
    induction l generalizing d who with
    | nil => exact h
    | cons i l ih => exact ih h.ripRule _
  unfold Dev.ripPick
  split
  · dsimp only
    split
    · exact hfold _ _
    · exact (hfold _ _).incHigh P.riptideActionCount (Nat.le_add_right _ _) (by rfl)
  · exact h

theorem ripFlip (h : Steady b g d) {bs : List Byte} : Steady b g (d.ripFlip bs).2 := h.same rfl

theorem ripCorrupt (h : Steady b g d) {bs : List Byte} {n : Nat} : Steady b g (d.ripCorrupt bs n).2 := by
  have hfold (l : List Nat) (bs : List Byte) :
      Steady b g (l.foldl (fun (acc : List Byte × Dev) _ => acc.2.ripFlip acc.1) (bs, d)).2 := by
    induction l generalizing d bs with
    | nil => exact h
    | cons i l ih => exact ih (h.ripFlip (bs := bs)) _
  unfold Dev.ripCorrupt
  split
  · exact h
  · exact hfold _ _

theorem ripPass (h : Steady b g d) {sent : Bool} {port vc : Nat} : Steady b g (d.ripPass sent port vc) := h.same rfl

theorem start (h : Steady b g d) {p : Nat} {m : Msg} : Steady b g (d.start p m) := by
  unfold Dev.start
  dsimp only
  split
  · exact h.ripPick.ripPass.put
  · split
    · exact h.ripPick
    · exact h.ripPick.ripCorrupt.ripPass.put
    · exact h.ripPick.ripCorrupt.ripPass.put
    · exact h.ripPick.setRip

theorem sendMsg (h : Steady b g d) {p : Nat} {m : Msg} : Steady b g (d.sendMsg p m) := by
  unfold Dev.sendMsg
  split
  · exact h
  · split
    · exact h.start
    · exact h.setPort

theorem send (h : Steady b g d) {p vc type : Nat} {resp : Bool} {body : List Byte} : Steady b g (d.send p vc type resp body) :=
  h.sendMsg

theorem sendHome (h : Steady b g d) {vc type : Nat} {resp : Bool} {body : List Byte} : Steady b g (d.sendHome vc type resp body) :=
  h.sendMsg

end Steady
end Sys2Proof.Machine
end

section
/-!
`Steady`, function by function: time, the Archipelago, the lanes, and with all these the way into DEEP.
-/

namespace Sys2Proof.Machine

namespace Steady
variable {b : Scope} {g d : Dev}

/-! ### Time -/

theorem setTim {x : Tim} (h : Steady b g d) (hx : x.valid = d.tim.valid) : Steady b g { d with tim := x } :=
  h.same (by rw [Dev.steadyPart, Dev.steadyPart, hx])

theorem timeRestart (h : Steady b g d) : Steady b g d.timeRestart := h.same rfl

theorem timeFollow (h : Steady b g d) : Steady b g d.timeFollow := by
  unfold Dev.timeFollow
  split
  · exact h
  · dsimp only
    split
    · exact h
    · exact setTim (h.iff fun _ _ h => h.timeRestart) (by dsimp only)

theorem qualCheck (h : Steady b g d) : Steady b g d.qualCheck := by
  unfold Dev.qualCheck
  dsimp only
  split
  · exact raise (h.setTim (by dsimp only)) (by rfl)
  · exact h

theorem enterHoldover (h : Steady b g d) {cause : Nat} : Steady b g (d.enterHoldover cause) := by
  unfold Dev.enterHoldover
  dsimp only
  split
  · exact h
  · split
    · exact qualCheck (h.raise (by rfl))
    · exact qualCheck (raise (inc (w (h.setTim (by dsimp only)) (by rfl)) (by rfl)) (by rfl))

theorem sourceLost (h : Steady b g d) {cause : Nat} : Steady b g (d.sourceLost cause) := by
  unfold Dev.sourceLost
  dsimp only
  split
  · exact enterHoldover (iff (h.setTim (by dsimp only)) fun _ _ h => h.setTim (by dsimp only))
  · exact h

theorem timeRoute (h : Steady b g d) : Steady b g d.timeRoute := by
  have hshown {parent port : Nat} : Steady b g ((d.w P.timeParentIsland parent).w P.timeParentPort port) := w (h.w (by rfl)) (by rfl)
  have hlane {parent port : Nat} : Steady b g { (d.w P.timeParentIsland parent).w P.timeParentPort port with
      tim := { ((d.w P.timeParentIsland parent).w P.timeParentPort port).tim with lane := none } } :=
    hshown.setTim (by dsimp only)
  unfold Dev.timeRoute
  split
  · exact hshown
  · exact ite h (ite hlane.timeFollow (ite hlane.timeRestart.enterHoldover
      (timeFollow (timeRestart (raise hlane.enterHoldover (by rfl))))))

/-! ### The Archipelago -/

theorem setArch (h : Steady b g d) {x : Arch} : Steady b g { d with arch := x } := h.same rfl

theorem freeUnits (h : Steady b g d) {p vc u : Nat} : Steady b g (d.freeUnits p vc u) := h.setChan

theorem setRed (h : Steady b g d) {r : Red} : Steady b g (d.setRed r) := h.setArch

theorem wx (h : Steady b g d) {k v : Nat} : Steady b g (d.wx k v) := h.same rfl

theorem sentWords (h : Steady b g d) {slot gr kind n : Nat} : Steady b g (d.sentWords slot gr kind n) := h.same rfl

theorem redUp (h : Steady b g d) {r : Red} {l : List (Nat × Nat × Nat)} : Steady b g (d.redUp r l) :=
  h.each fun _ _ _ h => h.send.sentWords.wx

theorem redOut (h : Steady b g d) {o : OutKind} {l : List (Nat × Nat)} : Steady b g (d.redOut o l) := h.wx.sendHome.sentWords

theorem redFlush (n : Nat) (r : Red) (h : Steady b g d) : Steady b g (Dev.redFlush n r d).2 := by
  induction n generalizing r d with
  | zero => exact h
  | succ n ih =>
    unfold Dev.redFlush
    split
    · exact h
    · have hsome (o : OutKind) (k : Nat) : Steady b g (if k = 0 then (r, d)
          else Dev.redFlush n { r with queue := r.queue.drop k } (d.redOut o (r.queue.take k))).2 := by
        split
        · exact h
        · exact ih _ h.redOut
      exact hsome _ _

theorem redAdvance (h : Steady b g d) {r : Red} : Steady b g (d.redAdvance r) := by
  unfold Dev.redAdvance
  dsimp only
  split
  · exact setRed (redUp (h.each fun _ _ _ h => h.freeUnits))
  · exact setRed (redFlush _ _ (h.each fun _ _ _ h => h.freeUnits))

theorem redPortLost (h : Steady b g d) {port : Nat} : Steady b g (d.redPortLost port) :=
  h.each fun _ _ _ h => h.iff fun _ _ h => h.redAdvance

theorem discover (h : Steady b g d) {port : Nat} : Steady b g (d.discover port) := h.send

theorem wAllHigh (h : Steady b g d) {l : List (Nat × Nat)} (hl : ∀ x ∈ l, P.ephFiredCount.blt x.1 = true) : Steady b g (d.wAll l) := by
  unfold Dev.wAll
  induction l generalizing d with
  | nil => exact h
  | cons x l ih => exact ih (h.wHigh x.1 le_rfl (hl x (List.mem_cons_self ..))) fun y hy => hl y (List.mem_cons_of_mem x hy)

theorem applyAssign (h : Steady b g d) {a : Assign} : Steady b g (d.applyAssign a) := by
  have hkeys : [(P.archIslandNumber, a.island), (P.redParentPort, a.parent), (P.redChildPorts, a.children),
      (P.redState, a.state), (P.redGroupSize, a.size), (P.redHeight, a.height), (P.archTopologyEpoch, a.epoch)].all
      (fun x => P.ephFiredCount.blt x.1) = true := rfl
  have hall := (h.setArch (x := { d.arch with wait := none })).wAllHigh (List.all_eq_true.mp hkeys)
  unfold Dev.applyAssign
  dsimp only
  exact iff (timeRoute (iff (wListHigh (wListHigh hall (by rfl)) (by rfl)) fun _ _ h => h.raise (by rfl)))
    fun _ _ h => h.each fun _ _ _ h => h.discover

theorem takeAssign (h : Steady b g d) {a : Assign} : Steady b g (d.takeAssign a) := by
  unfold Dev.takeAssign
  split
  · exact h.setArch
  · exact h.applyAssign

theorem sendAssigns (h : Steady b g d) {t : Topo} : Steady b g (d.sendAssigns t) := by
  unfold Dev.sendAssigns
  dsimp only
  split
  · exact h
  · refine each h.setArch fun c _ d h => ?_
    split
    · exact h.takeAssign
    · split
      · exact h
      · exact h.sendMsg

theorem rebuild (h : Steady b g d) : Steady b g d.rebuild := by
  unfold Dev.rebuild
  dsimp only
  exact sendAssigns (each (each (each (w h.setArch (by rfl)) fun _ _ _ h => h.raise (by rfl)) fun _ _ _ h => h.raise (by rfl))
    fun _ _ _ h => h.raise (by rfl))

theorem archPortChanged (h : Steady b g d) {port : Nat} {rose : Bool} : Steady b g (d.archPortChanged port rose) := by
  have hfound := h.iff (c := rose) (f := (·.discover port)) fun _ _ h => h.discover
  unfold Dev.archPortChanged
  dsimp only
  split
  · exact h
  · split
    · exact hfound.rebuild
    · split
      · exact hfound
      · exact hfound.sendMsg

/-! ### Lanes and ports -/

theorem restartPort (h : Steady b g d) {p : Nat} : Steady b g (d.restartPort p) := each h.setPort fun _ _ _ h => h.showCredit

theorem linkToggled (h : Steady b g d) {p : Nat} {up : Bool} : Steady b g (d.linkToggled p up) := by
  have hport : Steady b g ((d.restartPort p).iff (!up && d.timePort == some p) (·.sourceLost 1)) :=
    h.restartPort.iff fun _ _ h => h.sourceLost
  unfold Dev.linkToggled
  dsimp only
  split
  · exact iff (w hport (by rfl)) fun _ _ h => h.w (by rfl)
  · have hlost {d : Dev} (h : Steady b g d) : Steady b g ((d.iff (!up) (fun d => (d.redPortLost p).w (P.archNeighbours + (p - 1)) 0xFF)).archPortChanged p up) :=
      archPortChanged (h.iff fun _ _ h => h.redPortLost.wHigh P.archNeighbours (Nat.le_add_right _ _) (by rfl))
    split
    · exact hlost (raise hport (by rfl))
    · exact hlost (raise hport (by rfl))

theorem setLink (h : Steady b g d) {p width r : Nat} : Steady b g (d.setLink p width r) := by
  have hwidth : Steady b g (if p = 0 then (d.w P.mlLinkWidth width).w P.mlPayload (width * laneMb r) else d.w (P.stLinkWidth + (p - 1)) width) := by
    split
    · exact w (h.w (by rfl)) (by rfl)
    · exact h.wHigh P.stLinkWidth (Nat.le_add_right _ _) (by rfl)
  unfold Dev.setLink
  dsimp only
  split
  · exact hwidth
  · split
    next hp => exact w (by simpa only [if_pos hp] using hwidth) (by rfl)
    next hp => exact wHigh (by simpa only [if_neg hp] using hwidth) P.stLinkRate (Nat.le_add_right _ _) (by rfl)

theorem laneUse (h : Steady b g d) {l v : Nat} : Steady b g (d.w (P.laneState + l) v) :=
  h.wHigh P.laneState (Nat.le_add_right _ _) (by rfl)

theorem portFollow (h : Steady b g d) {p : Nat} : Steady b g (d.portFollow p) := by
  unfold Dev.portFollow
  dsimp only
  exact timeFollow (iff (iff (setLink (h.each fun _ _ _ h => h.laneUse)) fun _ _ h => h.raise (by rfl)) fun _ _ h => h.linkToggled)

theorem setLaneRec (h : Steady b g d) {l : Nat} {f : Lane → Lane} : Steady b g (d.setLaneRec l f) := h.same rfl

theorem laneTo (h : Steady b g d) {l stage rate : Nat} : Steady b g (d.laneTo l stage rate) := h.laneUse.setLaneRec

theorem laneLeave (h : Steady b g d) {l cause : Nat} : Steady b g (d.laneLeave l cause) :=
  iff (h.incHigh P.laneDownCount (Nat.le_add_right _ _) (by rfl)) fun _ _ h => h.raise (by rfl)

theorem laneCycle (h : Steady b g d) {l : Nat} : Steady b g (d.laneCycle l) := h.laneTo.setLaneRec

theorem laneRestart (h : Steady b g d) {l cause : Nat} : Steady b g (d.laneRestart l cause) :=
  iff (laneCycle (h.iff fun _ _ h => h.laneLeave)) fun _ _ h => h.portFollow

theorem lane0Retrain (h : Steady b g d) : Steady b g d.lane0Retrain := h.iff fun _ _ h => h.laneRestart

theorem portUpdate (h : Steady b g d) {p : Nat} : Steady b g (d.portUpdate p) := h.portFollow.iff fun _ _ h => h.lane0Retrain

theorem laneOff (h : Steady b g d) {l cause : Nat} : Steady b g (d.laneOff l cause) := by
  unfold Dev.laneOff
  dsimp only
  split
  · exact h
  · exact iff (laneTo (h.iff fun _ _ h => h.laneLeave)) fun _ _ h => h.portUpdate

theorem laneFollow (h : Steady b g d) {l cause : Nat} : Steady b g (d.laneFollow l cause) := by
  unfold Dev.laneFollow
  split
  · exact h.laneOff
  · split
    · exact h.laneCycle
    · split
      · exact h.laneRestart
      · exact h

theorem lanesFollow (h : Steady b g d) {cause : Nat} : Steady b g (d.lanesFollow cause) :=
  lane0Retrain (h.each fun _ _ _ h => h.laneFollow)

theorem ripOff (h : Steady b g d) {cause : Nat} : Steady b g (d.ripOff cause) := by
  unfold Dev.ripOff
  dsimp only
  split
  · exact h
  · exact lanesFollow (raise (w (w (each h.setRip fun _ _ _ h => h.ripLeave) (by rfl)) (by rfl)) (by rfl))

/-! ### The way into DEEP -/

theorem deepActions (h : Steady b g d) {m : Memory} {p : Places} : Steady b g (d.deepActions m p).1 := by
  have hstop : Steady b g (((d.dropUp.begin 3 0).dmaDeep m p).1.traDeep.colAbandon 3).discardAllPlans :=
    h.dropUp.begin.dmaDeep.traDeep.colAbandon.discardAllPlans
  unfold Dev.deepActions
  dsimp only
  exact noteIdle (bgPause (buffersLost (lanesFollow (ripOff (synthsOff (setSen (thermCountsRestart (hkStop (replayDiscard
    (trimStore (copyGeneration (warmDeep (showCol (setCol (each hstop fun _ _ _ h => h.unrequest)))))))))))))))

theorem goDeep (h : Steady b g d) {m : Memory} {p : Places} : Steady b g (d.goDeep m p).1 := by
  unfold Dev.goDeep
  dsimp only
  split
  · exact h
  · exact deepActions (h.setPwr (by dsimp only))

theorem forceDeep (h : Steady b g d) {m : Memory} {p : Places} : Steady b g (d.forceDeep m p).1 := h.haltUnits.dropUp.goDeep

end Steady
end Sys2Proof.Machine
end

section
/-!
The bias outputs, exactly: parking every group leaves a clamped output clamped and any other one parked (R362, R363).
-/

namespace Sys2Proof.Machine

/-- What holds before a loop over `0 … n - 1`, and goes on to the next index with each round, holds after it. -/
theorem Dev.each_range {f : Nat → Dev → Dev} {C : Nat → Dev → Prop} {n : Nat} {d : Dev} (h0 : C 0 d)
    (hstep : ∀ k d, k < n → C k d → C (k + 1) (f k d)) : C n (d.each (List.range n) f) := by
  unfold Dev.each
  induction n with
  | zero => exact h0
  | succ n ih =>
    rw [List.range_succ, List.foldl_append]
    exact hstep n _ (Nat.lt_succ_self n) (ih fun k d hk hC => hstep k d (Nat.lt_succ_of_lt hk) hC)

/-- The state of bias output `i` once it is parked: a clamped one stays clamped. -/
def Dev.parked (g : Dev) (i : Nat) : Nat := if g.a (P.biasOutputState + i) = 0 then 0 else 1

/-- Of the outputs of `g` those below `n` are parked in `d`, and the others stand. -/
def Dev.ParkedTo (g d : Dev) (n : Nat) : Prop :=
  ∀ i, i < 80 → d.a (P.biasOutputState + i) = if i < n then g.parked i else g.a (P.biasOutputState + i)

theorem steadyKey_biasOutputState {b : Scope} (hb : b.outputs = true) {i : Nat} (hi : i < 80) :
    steadyKey b (P.biasOutputState + i) = true := by
  simp [steadyKey, hb, hi]

/-- Driving an output writes its code, no state. -/
theorem Dev.a_biasTo (d : Dev) (i st : Nat) {j : Nat} (hj : j < 80) (hi : i < 80) :
    (d.biasTo i st).a (P.biasOutputState + j) = if j = i then st else d.a (P.biasOutputState + j) := by
  have hcode : P.biasOutputCode + i ≠ P.biasOutputState + j := by
    simp only [P.biasOutputCode, P.biasOutputState]
    omega
  unfold Dev.biasTo Dev.driveBias
  rw [Dev.a_w_ne _ _ hcode]
  split
  next hij => rw [hij, Dev.a_w_self]
  next hij => rw [Dev.a_w_ne _ _ (by omega)]

namespace Dev.ParkedTo
variable {g d d' : Dev} {n : Nat}

theorem refl (d : Dev) : d.ParkedTo d 0 := fun _ _ => rfl

theorem steady (h : g.ParkedTo d n) (hd : Steady {} d d') : g.ParkedTo d' n := fun i hi => by
  rw [hd.1 _ (steadyKey_biasOutputState rfl hi), h i hi]

/-- One more output parked. -/
theorem next (h : g.ParkedTo d n) (hn : n < 80) {f : Dev → Dev} (hf : ∀ d, Steady {} d (f d)) :
    g.ParkedTo (if d.a (P.biasOutputState + n) = 0 then d else f (d.biasTo n 1)) (n + 1) := by
  have hself : d.a (P.biasOutputState + n) = g.a (P.biasOutputState + n) := by simpa using h n hn
  split
  next hzero =>
    intro i hi
    rw [h i hi]
    by_cases hin : i = n
    · simp [hin, Dev.parked, ← hself, hzero]
    · simp [show i < n + 1 ↔ i < n by omega]
  next hlive =>
    refine steady (fun i hi => ?_) (hf _)
    rw [Dev.a_biasTo d n 1 hi hn, h i hi]
    by_cases hin : i = n
    · simp [hin, Dev.parked, ← hself, hlive]
    · simp [hin, show i < n + 1 ↔ i < n by omega]

end Dev.ParkedTo

/-- Parking every group parks every output. -/
theorem Dev.parkedTo_parkGroups (d : Dev) (cause : Nat) : d.ParkedTo (d.parkGroups 31 cause) 80 := by
  have hall : bitList 5 31 = List.range 5 := by decide
  unfold Dev.parkGroups
  rw [hall]
  refine Dev.each_range (C := fun k d' => d.ParkedTo d' (16 * k)) (Dev.ParkedTo.refl d) fun k d' hk h => ?_
  have hcause := h.steady ((Steady.refl {} d').iff (c := cause != 0)
    (f := fun d => d.w (P.biasParkCause + k) (putBit (d.a (P.biasParkCause + k)) (cause - 1) true)) fun _ _ h => h.wAt hk (by rfl))
  have houts := Dev.each_range (n := 16) (C := fun j d' => d.ParkedTo d' (16 * k + j)) hcause fun j d' hj h =>
    h.next (by omega) (f := fun d => d.iff (cause != 0) (fun d => { d with bias := { d.bias with byCause := putBit d.bias.byCause (16 * k + j) true } }))
      fun d => (Steady.refl {} d).iff fun _ _ h => h.setBias
  dsimp only
  split
  next hquad =>
    have hgroup : k < 4 := by
      simp only [Bool.and_eq_true, decide_eq_true_eq] at hquad
      exact hquad.2
    have hstop (d : Dev) : Steady {} d ((d.stopBurst k 6).colHold (2 ^ k)) := ((Steady.refl {} d).stopBurst hgroup).colHold
    split
    · exact houts.steady (hstop _)
    · exact houts.steady (hstop _).dropUnits
  next => exact houts

theorem Dev.a_park (d : Dev) (cause : Nat) {i : Nat} (hi : i < 80) :
    (d.park 31 cause).a (P.biasOutputState + i) = d.parked i := by
  have hpark := (d.parkedTo_parkGroups cause).steady ((Steady.refl {} _).raise (n := 60) (arg := cause + 8 * 31) (by rfl)) i hi
  rwa [if_pos hi] at hpark

end Sys2Proof.Machine
end

section
/-!
A rail fault and the loss of REFCLK (R30, R35, R44, R46): what is written before the device halts its units, parks its outputs and
goes to DEEP stands through all of it.
-/

namespace Sys2Proof.Machine

/-! ### Bits of a mask -/

theorem bit_putBit_true (v n : Nat) : bit (putBit v n true) n = true := by
  unfold putBit
  split
  next h => simpa using h
  next h =>
    simp only [bit, if_true, beq_iff_eq] at h ⊢
    rw [Nat.add_div_right _ (by positivity)]
    omega

theorem bit_putBit_false (v n : Nat) : bit (putBit v n false) n = false := by
  unfold putBit
  split
  next h =>
    simp only [bit, beq_iff_eq, Bool.false_eq_true, if_false, beq_eq_false_iff_ne] at h ⊢
    have hpos : 0 < 2 ^ n := by positivity
    have hle : 2 ^ n ≤ v := by
      by_contra hlt
      rw [Nat.div_eq_of_lt (by omega)] at h
      omega
    have hdiv : v / 2 ^ n = (v - 2 ^ n) / 2 ^ n + 1 := by
      rw [← Nat.add_div_right _ hpos, Nat.sub_add_cancel hle]
    omega
  next h => simpa using h

/-! ### What refoFollow and colSet keep -/

theorem Dev.tellDefer_shape (d : Dev) : ∃ n m e, d.tellDefer = { d with nvm := n, alm := m, edge := e } := by
  unfold Dev.tellDefer Dev.iff
  split
  · obtain ⟨m, e, h⟩ := ({ d with nvm := { d.nvm with told := true } } : Dev).raise_shape 70 (ux 12 (d.thm.junction.getD 0))
    exact ⟨_, m, e, h⟩
  · exact ⟨d.nvm, d.alm, d.edge, rfl⟩

theorem Dev.mramKeep_shape (d : Dev) : ∃ n, d.mramKeep = { d with nvm := n } := by
  unfold Dev.mramKeep
  split
  · exact ⟨d.nvm, rfl⟩
  · exact ⟨_, rfl⟩

/-- A write to MRAM of a change of the deferral buffer alone moves that buffer, parameters and events. -/
theorem Dev.mramWrite_shape (d : Dev) (bytes : Nat) {f : Dev → Dev} (hf : ∀ d, ∃ n, f d = { d with nvm := n }) :
    ∃ n m e, d.mramWrite bytes f = { d with nvm := n, alm := m, edge := e } := by
  unfold Dev.mramWrite
  split
  · split
    · obtain ⟨m, h⟩ := d.inc_shape P.nvmDeferredDiscardCount
      exact ⟨d.nvm, m, d.edge, h⟩
    · obtain ⟨n, m, e, h⟩ := d.tellDefer_shape
      obtain ⟨n', h'⟩ := d.tellDefer.mramKeep_shape
      obtain ⟨n'', h''⟩ := hf { d.tellDefer.mramKeep with nvm :=
        { d.tellDefer.mramKeep.nvm with used := d.tellDefer.nvm.used + bytes, count := d.tellDefer.nvm.count + 1 } }
      exact ⟨n'', m, e, h''.trans (by rw [h', h])⟩
  · split
    · obtain ⟨n, h⟩ := d.mramKeep_shape
      obtain ⟨n', h'⟩ := hf d.mramKeep
      exact ⟨n', d.alm, d.edge, by rw [h', h]⟩
    · obtain ⟨n, h⟩ := hf d
      exact ⟨n, d.alm, d.edge, h⟩

theorem Dev.wN_shape (d : Dev) (k v : Nat) : ∃ n m e, d.wN k v = { d with nvm := n, alm := m, edge := e } := by
  have hkeep (slot old : Nat) (d : Dev) : ∃ n, (if (d.nvm.alm.get? (2 * k)).isSome ∨ (d.nvm.alm.get? (2 * k + 1)).isSome then d
      else { d with nvm := { d.nvm with alm := d.nvm.alm.set slot old } }) = { d with nvm := n } := by
    split
    · exact ⟨d.nvm, rfl⟩
    · exact ⟨_, rfl⟩
  unfold Dev.wN
  dsimp only
  split
  · exact ⟨d.nvm, d.alm, d.edge, rfl⟩
  · split
    · split
      · obtain ⟨n, h⟩ := hkeep (2 * k + 1) (d.a k) d
        obtain ⟨m, h'⟩ := ({ d with nvm := n } : Dev).inc_shape P.nvmDeferredDiscardCount
        rw [h, h']
        exact ⟨n, _, d.edge, rfl⟩
      · obtain ⟨n, m, e, h⟩ := d.mramWrite_shape (keyBits k / 8) (hkeep (2 * k) (d.a k))
        rw [h]
        exact ⟨n, _, e, rfl⟩
    · split
      · obtain ⟨n, h⟩ := hkeep (2 * k) (d.a k) d
        rw [h]
        exact ⟨n, _, d.edge, rfl⟩
      · exact ⟨d.nvm, _, d.edge, rfl⟩

theorem Dev.qualCheck_shape (d : Dev) : ∃ m e x, d.qualCheck = { d with alm := m, edge := e, tim := x } := by
  unfold Dev.qualCheck
  dsimp only
  split
  · obtain ⟨m, e, h⟩ := ({ d with tim := { d.tim with lastQual := d.quality / 256, lastQualAt := d.now } } : Dev).raise_shape 94
      (d.quality / 256)
    exact ⟨m, e, _, h⟩
  · exact ⟨d.alm, d.edge, d.tim, rfl⟩

theorem Dev.refoFollow_shape (d : Dev) : ∃ o, d.refoFollow = { d with pwr := { d.pwr with refo := d.refoRuns }, out := o } := by
  unfold Dev.refoFollow
  split
  next h => exact ⟨d.out, by rw [h]⟩
  next => exact ⟨_, rfl⟩

theorem Steady.refoFollow {b : Scope} {g d : Dev} (h : Steady b g d) : Steady b g d.refoFollow := by
  obtain ⟨o, ho⟩ := d.refoFollow_shape
  rw [ho]
  exact h.same rfl

theorem Steady.colReport {b : Scope} {g d : Dev} (h : Steady b g d) : Steady b g d.colReport := h.iff fun _ _ h => h.raise (by rfl)

theorem Steady.colSet {b : Scope} {g d : Dev} (h : Steady b g d) {causes : Nat} : Steady b g (d.colSet causes) :=
  iff (h.w (by rfl)) fun _ _ h => h.colReport

/-- What was raised stands where the device is steady. -/
theorem Steady.raised {b : Scope} {g d : Dev} (h : Steady b g d) {n arg : Nat} (hr : Raised g n arg) : Raised d n arg := by
  obtain ⟨e, he, hn⟩ := hr
  exact ⟨e, h.2.2.1 e he, hn⟩

/-! ### PwrActiveMask -/

theorem Dev.a_setPwr (d : Dev) (p : Pwr) (k : Nat) : ({ d with pwr := p } : Dev).a k = d.a k := rfl

theorem Dev.a_noteIdle (d : Dev) (k : Nat) : d.noteIdle.a k = d.a k := rfl

theorem Raised.noteIdle {d : Dev} {n arg : Nat} (h : Raised d n arg) : Raised d.noteIdle n arg := h

/-- No unit stays ACTIVE where the units are halted. -/
theorem Dev.mask_haltUnits (d : Dev) : d.haltUnits.a P.pwrActiveMask = 0 := by
  unfold Dev.haltUnits
  dsimp only
  rw [Dev.a_setPwr, Dev.mask_dropUnits_all]

theorem Dev.mask_forceDeep (d : Dev) (m : Memory) (p : Places) : (d.forceDeep m p).1.a P.pwrActiveMask = 0 := by
  have hafter : Steady {} d.haltUnits (d.haltUnits.dropUp.goDeep m p).1 := (Steady.refl {} d.haltUnits).dropUp.goDeep
  unfold Dev.forceDeep
  exact hafter.mask rfl d.mask_haltUnits

/-! ### Rail fault -/

section
variable (d : Dev) (m : Memory) (p : Places) (rail : Nat)

/-- What follows the first two actions of a fault of a rail is steady. -/
theorem Dev.railActs_after : Steady {} ((d.haltUnits.rfStop.park 31 2).raise 9 rail) (d.railActs m p rail).1 := by
  unfold Dev.railActs
  dsimp only
  split
  · exact (Steady.refl {} _).forceDeep
  · exact Steady.refl {} _

theorem Dev.steady_railActs : Steady { outputs := false } d (d.railActs m p rail).1 :=
  Steady.trans (((Steady.refl _ d).haltUnits.rfStop.park rfl).raise (by rfl)) (d.railActs_after m p rail)

theorem Dev.mask_railActs : (d.railActs m p rail).1.a P.pwrActiveMask = 0 :=
  Steady.mask (b := { outputs := false })
    ((((Steady.refl _ d.haltUnits).rfStop.park rfl).raise (by rfl)).trans (d.railActs_after m p rail)) rfl d.mask_haltUnits

theorem Dev.raised_railActs : Raised (d.railActs m p rail).1 60 (2 + 8 * 31) ∧ Raised (d.railActs m p rail).1 9 rail := by
  have hpark : Raised (d.haltUnits.rfStop.park 31 2) 60 (2 + 8 * 31) := Dev.raised_raise _ _ _
  have hafter := d.railActs_after m p rail
  exact ⟨hafter.raised (hpark.raise 9 rail), hafter.raised (Dev.raised_raise _ _ _)⟩

theorem Dev.bias_railActs {i : Nat} (hi : i < 80) : (d.railActs m p rail).1.a (P.biasOutputState + i) = d.parked i := by
  have hkey := steadyKey_biasOutputState (b := {}) rfl hi
  have hbefore : Steady {} d d.haltUnits.rfStop := (Steady.refl {} d).haltUnits.rfStop
  have hraise : Steady {} (d.haltUnits.rfStop.park 31 2) ((d.haltUnits.rfStop.park 31 2).raise 9 rail) :=
    (Steady.refl {} _).raise (by rfl)
  rw [(d.railActs_after m p rail).1 _ hkey, hraise.1 _ hkey, Dev.a_park _ _ hi, Dev.parked, Dev.parked, hbefore.1 _ hkey]

end

/-- The device with the fault of a rail noted, before it acts. -/
def Dev.railNoted (d : Dev) (rail : Nat) : Dev :=
  let d := { d with pwr := { d.pwr with railBad := putBit d.pwr.railBad rail true } }
  (d.w P.railStatus (putBit (d.a P.railStatus) rail false)).refoFollow

section
variable (d : Dev) (rail : Nat)

theorem Dev.railNoted_shape : ∃ o r, d.railNoted rail =
    { d.w P.railStatus (putBit (d.a P.railStatus) rail false) with
      pwr := { d.pwr with railBad := putBit d.pwr.railBad rail true, refo := r }, out := o } := by
  obtain ⟨o, ho⟩ := ({ d with pwr := { d.pwr with railBad := putBit d.pwr.railBad rail true } }.w P.railStatus
    (putBit (d.a P.railStatus) rail false)).refoFollow_shape
  exact ⟨o, _, ho⟩

theorem Dev.a_railNoted {k : Nat} (hk : k ≠ P.railStatus) : (d.railNoted rail).a k = d.a k := by
  obtain ⟨o, r, h⟩ := d.railNoted_shape rail
  rw [h]
  exact d.a_w_ne _ hk.symm

theorem Dev.a_railNoted_railStatus : (d.railNoted rail).a P.railStatus = putBit (d.a P.railStatus) rail false := by
  obtain ⟨o, r, h⟩ := d.railNoted_shape rail
  rw [h]
  exact d.a_w_self _ _

theorem Dev.railBad_railNoted : (d.railNoted rail).pwr.railBad = putBit d.pwr.railBad rail true := by
  obtain ⟨o, r, h⟩ := d.railNoted_shape rail
  rw [h]

theorem Dev.phase_railNoted : (d.railNoted rail).pwr.phase = d.pwr.phase := by
  obtain ⟨o, r, h⟩ := d.railNoted_shape rail
  rw [h]

end

/-- Before the device runs a fault is only noted (log entry 67); after, it acts. -/
theorem Dev.railFault_eq (d : Dev) (m : Memory) (p : Places) {rail : Nat} (hrail : isRail rail = true) (hok : d.pwr.pwrOk = true)
    (hgood : bit d.pwr.railBad rail = false) :
    d.railFault m p rail =
      match d.pwr.phase with
      | .inReset => (d.railNoted rail, [])
      | .waitRefclk => (d.railNoted rail, [])
      | .booting => (d.railNoted rail, [])
      | _ => (((d.railNoted rail).railActs m p rail).1.noteIdle, ((d.railNoted rail).railActs m p rail).2) := by
  have hcond : (decide (rail < 2) || decide (24 < rail) || !d.pwr.pwrOk || bit d.pwr.railBad rail) = false := by
    simp only [isRail, Bool.and_eq_true, decide_eq_true_eq] at hrail
    simp [hok, hgood, show ¬ rail < 2 by omega, show ¬ 24 < rail by omega]
  rw [← d.phase_railNoted rail]
  unfold Dev.railFault
  rw [hcond]
  rfl

/-- Where the device runs or rests in thermal shutdown a rail fault acts. -/
theorem Dev.railFault_acts (d : Dev) (m : Memory) (p : Places) {rail : Nat} (hrail : isRail rail = true) (hok : d.pwr.pwrOk = true)
    (hgood : bit d.pwr.railBad rail = false) (hphase : d.pwr.phase = .running ∨ d.pwr.phase = .shutdown) :
    (d.railFault m p rail).1 = ((d.railNoted rail).railActs m p rail).1.noteIdle := by
  rw [d.railFault_eq m p hrail hok hgood]
  obtain h | h := hphase <;> rw [h]

/-- In every phase the rail stays noted. -/
theorem Dev.steady_railFault (d : Dev) (m : Memory) (p : Places) {rail : Nat} (hrail : isRail rail = true) (hok : d.pwr.pwrOk = true)
    (hgood : bit d.pwr.railBad rail = false) : Steady { outputs := false } (d.railNoted rail) (d.railFault m p rail).1 := by
  rw [d.railFault_eq m p hrail hok hgood]
  split
  · exact Steady.refl _ _
  · exact Steady.refl _ _
  · exact Steady.refl _ _
  · exact ((d.railNoted rail).steady_railActs m p rail).noteIdle

theorem claim_railFault : Claims.railFault := by
  intro s dt rail hrail hok hgood
  rw [does_onAll (f := fun d m p => d.railFault m p rail) rfl]
  have hpwr : (s.at_ dt).pwr = s.dev.pwr := s.arrive_pwr dt
  rw [← hpwr] at hok hgood
  have hsteady := (s.at_ dt).steady_railFault s.mem (s.arrive dt).places hrail hok hgood
  refine ⟨?_, ?_, fun hboot => ?_, fun hruns => ?_⟩
  · rw [State.leave_pwr, hsteady.2.2.2.1, Dev.railBad_railNoted]
    exact bit_putBit_true _ _
  · rw [State.a, State.leave_a _ _ _ (by decide), hsteady.1 _ rfl, Dev.a_railNoted_railStatus]
    exact bit_putBit_false _ _
  · have hnoted : (s.at_ dt).railFault s.mem (s.arrive dt).places rail = ((s.at_ dt).railNoted rail, []) := by
      rw [Dev.railFault_eq _ _ _ hrail hok hgood, hpwr, hboot]
    rw [hnoted]
    refine ⟨State.leave_mem _ _ _, ?_⟩
    rw [State.leave_pwr, Dev.phase_railNoted, hpwr, hboot]
  · rw [Dev.railFault_acts _ _ _ hrail hok hgood (by rwa [hpwr])]
    obtain ⟨h60, h9⟩ := ((s.at_ dt).railNoted rail).raised_railActs s.mem (s.arrive dt).places rail
    refine ⟨(State.leave_raised ..).mpr h60.noteIdle, (State.leave_raised ..).mpr h9.noteIdle, ?_, fun i hi => ?_⟩
    · rw [State.a, State.leave_a _ _ _ (by decide), Dev.a_noteIdle, Dev.mask_railActs]
    · have hkey := steadyKey_evKey (steadyKey_biasOutputState (b := {}) rfl hi)
      have hne : P.biasOutputState + i ≠ P.railStatus := by
        simp only [P.biasOutputState, P.railStatus]
        omega
      rw [State.a, State.leave_a _ _ _ hkey, Dev.a_noteIdle, Dev.bias_railActs _ _ _ _ hi, Dev.parked, Dev.a_railNoted _ _ hne,
        State.at_, State.arrive_a _ _ hkey, State.a]

/-! ### The loss of REFCLK -/

theorem State.arrive_onLpo (s : State) (dt : Nat) : (s.arrive dt).dev.clk.onLpo = s.dev.clk.onLpo := by
  unfold State.arrive
  dsimp only
  split
  · rfl
  · obtain ⟨⟨m, n, hd⟩, -⟩ := closeEdge_drops { s.dev with out := [] } s.places
    dsimp only
    rw [hd]
    unfold Dev.advance
    dsimp only
    split
    · rfl
    · rfl

/-- The LPO runs the always-on domain. -/
def Dev.onLpo (d : Dev) : Dev := { d with clk := { d.clk with onLpo := true }, pwr := { d.pwr with lpoSince := d.now } }

/-- The device with the loss of REFCLK noted, before it acts. -/
def Dev.lossNoted (d : Dev) : Dev := ((d.onLpo.w P.refclkState 1).incN P.refclkLossCount).refoFollow.qualCheck

theorem Dev.phase_refoFollow (d : Dev) : d.refoFollow.pwr.phase = d.pwr.phase := by
  obtain ⟨o, h⟩ := d.refoFollow_shape
  rw [h]

theorem Dev.phase_qualCheck (d : Dev) : d.qualCheck.pwr.phase = d.pwr.phase := by
  obtain ⟨m, e, x, h⟩ := d.qualCheck_shape
  rw [h]

theorem Dev.phase_incN (d : Dev) (k : Nat) : (d.incN k).pwr.phase = d.pwr.phase := by
  obtain ⟨n, m, e, h⟩ := d.wN_shape k ((d.inc k).a k)
  rw [Dev.incN, h]

theorem Dev.phase_w (d : Dev) (k v : Nat) : (d.w k v).pwr.phase = d.pwr.phase := rfl

theorem Dev.phase_lossNoted (d : Dev) : d.lossNoted.pwr.phase = d.pwr.phase := by
  rw [Dev.lossNoted, Dev.phase_qualCheck, Dev.phase_refoFollow, Dev.phase_incN, Dev.phase_w]
  rfl

/-- What is written at the loss is steady from there on. -/
theorem Dev.steady_lossNoted (d : Dev) : Steady {} (d.onLpo.w P.refclkState 1) d.lossNoted :=
  ((Steady.refl {} _).incN (by rfl)).refoFollow.qualCheck

/-- The events of the loss: EV3, and the cause of Collimation (R334). -/
def Dev.lossTold (d : Dev) : Dev := (d.raise 3 0).colSet 4

theorem Dev.raised_lossTold (d : Dev) : Raised d.lossTold 3 0 :=
  ((Steady.refl {} (d.raise 3 0)).colSet).raised (Dev.raised_raise _ _ _)

theorem Dev.steady_lossTold (d : Dev) : Steady {} d d.lossTold := ((Steady.refl {} d).raise (by rfl)).colSet

/-- What the loss of REFCLK does once it is noted, by the phase the device is in. -/
def Dev.lossActs (d : Dev) (m : Memory) (p : Places) : Dev × List MemOp :=
  match d.pwr.phase with
  | .running => ((d.lossTold.forceDeep m p).1.noteIdle, (d.lossTold.forceDeep m p).2)
  | .shutdown => (d.lossTold, [])
  | .restricted => (d.lossTold, [])
  | .booting => ({ d with pwr := { d.pwr with phase := .waitRefclk } }, [])
  | _ => (d, [])

theorem Dev.refclkLost_eq (d : Dev) (m : Memory) (p : Places) (hlpo : d.clk.onLpo = false) :
    d.refclkLost m p = d.lossNoted.lossActs m p := by
  change d.refclkLost m p = ((d.onLpo.w P.refclkState 1).incN P.refclkLossCount).refoFollow.qualCheck.lossActs m p
  unfold Dev.refclkLost
  rw [hlpo, if_neg Bool.false_ne_true]
  -- the kernel would compute what either of the two makes of the device: the equation holds whatever they do
  generalize Dev.qualCheck = qualCheck
  rw [Dev.lossActs]
  generalize Dev.forceDeep = forceDeep
  as_aux_lemma => rfl

theorem Dev.steady_lossActs (d : Dev) (m : Memory) (p : Places) : Steady {} d (d.lossActs m p).1 := by
  unfold Dev.lossActs
  split
  · exact d.steady_lossTold.forceDeep.noteIdle
  · exact d.steady_lossTold
  · exact d.steady_lossTold
  · exact (Steady.refl {} d).setPwr rfl
  · exact Steady.refl {} d

theorem claim_refclkLost : Claims.refclkLost := by
  intro s dt hlpo
  rw [does_onAll (f := fun d m p => d.refclkLost m p) rfl]
  have hclk : (s.at_ dt).clk.onLpo = false := by rw [State.at_, State.arrive_onLpo, hlpo]
  have hphase : (s.at_ dt).pwr.phase = s.dev.pwr.phase := congrArg Pwr.phase (s.arrive_pwr dt)
  have hsteady := (s.at_ dt).steady_lossNoted.trans ((s.at_ dt).lossNoted.steady_lossActs s.mem (s.arrive dt).places)
  rw [(s.at_ dt).refclkLost_eq s.mem (s.arrive dt).places hclk, ← hphase, ← Dev.phase_lossNoted]
  generalize (s.at_ dt).lossNoted = d at hsteady ⊢
  refine ⟨?_, ?_, fun hboot => ?_, fun hrun => ?_, fun hshut => ?_⟩
  · rw [State.leave_clk, hsteady.2.2.2.2.1]
    rfl
  · rw [State.a, State.leave_a _ _ _ (by decide), hsteady.1 _ rfl, Dev.a_w_self]
  · rw [Dev.lossActs, hboot]
    exact ⟨State.leave_mem _ _ _, by rw [State.leave_pwr]⟩
  · rw [Dev.lossActs, hrun]
    have hraised := ((Steady.refl {} d.lossTold).forceDeep (m := s.mem) (p := (s.arrive dt).places)).raised d.raised_lossTold
    refine ⟨(State.leave_raised ..).mpr hraised.noteIdle, ?_⟩
    rw [State.a, State.leave_a _ _ _ (by decide), Dev.a_noteIdle, Dev.mask_forceDeep]
  · rw [Dev.lossActs, hshut]
    exact ⟨State.leave_mem _ _ _, (State.leave_raised ..).mpr d.raised_lossTold⟩

/-- Settles O16: what the fault or the loss writes first is steady through halting, parking and the way into DEEP, and halting
leaves no unit ACTIVE. -/
theorem railFaultAndClockLossPark : Obligations.RailFaultAndClockLossPark := ⟨claim_railFault, claim_refclkLost⟩

end Sys2Proof.Machine
end

section
/-!
A reset (R26, R36): which part of the device it clears and which it keeps, in two stages. What stands before the outputs are set
(`Dev.reset_eq`) has the power state, time and the Ephemeris table as the kind of reset leaves them; the rest of the reset drives
pins and writes a few parameters (`Dev.resetTail`).
-/

namespace Sys2Proof.Machine

/-! ### What driving pins and writing parameters keeps -/

/-- The power state, time, the Ephemeris table and the clocks. -/
def Dev.core (d : Dev) : Pwr × Tim × Eph × Clk := (d.pwr, d.tim, d.eph, d.clk)

theorem Dev.core_iff_pin (d : Dev) (c : Bool) (x : Pin) (level : Bool) : (d.iff c (·.pin x level)).core = d.core := by
  cases c
  · rfl
  · rfl

theorem Dev.core_iff_w (d : Dev) (c : Bool) (k v : Nat) : (d.iff c (·.w k v)).core = d.core := by
  cases c
  · rfl
  · rfl

theorem Dev.core_rfctl (d : Dev) (i : Nat) (on : Bool) : (d.rfctl i on).core = d.core := by
  unfold Dev.rfctl
  dsimp only
  split
  · rfl
  · rfl

theorem Dev.core_rfIdle (d : Dev) : d.rfIdle.core = d.core := Dev.each_keeps Dev.core _ _ (fun i d => d.core_rfctl i false) d

theorem Dev.core_quadsReset (d old : Dev) : (d.quadsReset old).core = d.core := by
  have hkeep (d : Dev) : (d.each (bitList 16 (old.a P.rxRetiredMask)) (fun u d =>
      (d.w (P.rxCoreMap + u) (old.a (P.rxCoreMap + u))).w (P.rxQuadCalState + u) 2)).core = d.core := by
    refine Dev.each_keeps Dev.core _ _ ?_ d
    exact fun _ _ => rfl
  exact hkeep _

theorem Dev.core_coexDrive (d : Dev) (req pri : Bool) : (d.coexDrive req pri).core = d.core :=
  (Dev.core_iff_pin _ _ .coexReq _).trans (Dev.core_iff_pin _ _ .coexPri _)

theorem Dev.core_pinsIdle (d : Dev) : d.pinsIdle.core = d.core := by
  unfold Dev.pinsIdle
  dsimp only
  rw [Dev.core_iff_pin, Dev.core_iff_pin, Dev.core_iff_pin, Dev.core_coexDrive]

theorem Dev.core_wAll (d : Dev) (l : List (Nat × Nat)) : (d.wAll l).core = d.core := by
  unfold Dev.wAll
  induction l generalizing d with
  | nil => rfl
  | cons x l ih => exact ih (d.w x.1 x.2)

theorem Dev.core_nvmReset (d : Dev) (gone : Bool) : (d.nvmReset gone).core = d.core := by
  have hall := d.core_wAll ((d.nvm.alm.filter (fun e => gone || e.1 % 2 == 1)).map (fun e => (e.1 / 2, e.2)) |>.filter (fun e => isN e.1))
  unfold Dev.nvmReset
  dsimp only
  rw [Dev.core_iff_w]
  split
  · exact hall
  · exact hall

/-! ### The two stages -/

/-- The outputs at a reset: the pins driven to their levels at rest, retired quads kept, bias outputs clamped or parked. -/
def Dev.resetOutputs (d old : Dev) (kind : Nat) : Dev :=
  ((d.w P.rfctlLevels (old.a P.rfctlLevels)).rfIdle.quadsReset old).each (List.range 80) (fun i d =>
    if kind = 0 ∨ old.a (P.biasOutputState + i) = 0 then d.biasTo i 0 else d.biasTo i 1)

/-- The parameters a reset writes of its own. -/
def Dev.resetWrites (d old : Dev) (kind : Nat) : Dev :=
  let shut := old.pinsIdle.pwr.phase == .shutdown || old.pinsIdle.pwr.phase == .restricted
  let lost := kind == 0 || kind == 1 || kind == 4
  let d := (d.w P.railStatus (old.a P.railStatus)).w P.refclkState (old.a P.refclkState)
  let d := d.w P.resetCount ((old.inc P.resetCount).a P.resetCount)
  d.w P.memState (if lost || shut then 1 else if old.a P.memState = 2 then 2 else 0)

/-- What a reset does once the device is cleared. -/
def Dev.resetTail (d old : Dev) (kind : Nat) : Dev :=
  let d := if kind == 0 || kind == 1 then { d with clk := { d.clk with mer := 0 } } else d
  ((d.resetOutputs old kind).resetWrites old kind).refoFollow

/-- The parameters a reset leaves before it writes its own: those that are kept, and those MRAM gives back (R26, R403). -/
def Dev.resetKept (d : Dev) (kind : Nat) : Dev :=
  { d.pinsIdle with alm := d.pinsIdle.alm.filter (fun e => keptKey kind e.1) }.nvmReset (kind == 0 || kind == 1)

/-- The device cleared by a reset: what `Dev.reset` makes of it before it drives pins and writes parameters. -/
def Dev.cleared (old : Dev) (kind : Nat) : Dev :=
  let gone := kind == 0 || kind == 1
  let ripEv := if old.pinsIdle.ripOn then [(126, 8 + 16 * (old.pinsIdle.rip.dur % 2 ^ 13))] else []
  let shut := old.pinsIdle.pwr.phase == .shutdown || old.pinsIdle.pwr.phase == .restricted
  let d := old.resetKept kind
  let phase : Phase := if gone then .inReset else if old.clk.onLpo then .waitRefclk else .booting
  let pwr : Pwr := { phase := phase, pwrOk := old.pwr.pwrOk, resetN := old.pwr.resetN, kind := kind, bootEvs := ripEv,
                     biasDone := kind != 0 && old.pwr.biasDone, releasedAt := d.now,
                     railBad := if kind = 0 then 0 else old.pwr.railBad, lpoSince := old.pwr.lpoSince, refo := old.pwr.refo }
  { d with
    aux := [], pwr := pwr, rx := { trimSeq := d.rx.trimSeq, trimRec := d.rx.trimRec, trimAt := d.now },
    cat := { ctlGen := d.cat.ctlGen, ctlOk := d.cat.ctlOk, genMram := d.cat.genMram },
    ul := {}, sen := { runs := old.ringEnds.sen.runs, zeroed := old.ringEnds.sen.zeroed }, dl := {}, syn := {}, coex := { gnt := old.coex.gnt, gntAt := old.coex.gntAt },
    dpd := { warm := d.dpd.warm }, col := { store := d.col.store }, bias := {}, hk := {},
    thm := { shut := shut && d.thm.tsaCool < 8, tsaCool := d.thm.tsaCool,
             sens := (d.thm.sens.zip (List.range 16)).map (fun (x : DieSens × Nat) =>
               if gone || !old.ab P.thermSensorFailedMask x.2 then {} else { x.1 with offs := [] }) },
    shutRec := if kind = 0 then [] else d.shutRec,
    tim := if gone then {} else { d.tim with syncSeq := none, pair := none, dreq := none, pps := none, ppsOut := false },
    eph := if gone then {} else { ent := d.eph.ent },
    lane := List.replicate 24 {}, port := List.replicate 5 {}, arch := {}, dma := {},
    tra := { wrote := old.tra.wrote && !shut && (kind == 2 || kind == 3) }, ses := {}, fld := {},
    cha := { recs := d.cha.recs, last := if kind = 0 then none else d.cha.last },
    fus := { d.fus with tokenOpen := false }, rip := {}, bg := List.replicate 8 none, mgmt := [], telem := [], flush := 3,
    upd := { d.upd with waiting := false, readyAt := none } }

theorem Dev.core_resetKept (d : Dev) (kind : Nat) : (d.resetKept kind).core = d.core :=
  (Dev.core_nvmReset _ _).trans d.core_pinsIdle

theorem Dev.reset_eq (d : Dev) (kind : Nat) :
    d.reset kind = ((d.cleared kind).resetTail d kind,
      (if kind == 0 || kind == 1 || kind == 4 then [.wipe 0 ipmEnd] else []) ++ [.wipe sramRetLo sramEnd]) := by
  rfl

/-! ### What a reset leaves -/

theorem Dev.core_resetOutputs (d old : Dev) (kind : Nat) : (d.resetOutputs old kind).core = d.core := by
  have hloop (d : Dev) : (d.each (List.range 80) (fun i d =>
      if kind = 0 ∨ old.a (P.biasOutputState + i) = 0 then d.biasTo i 0 else d.biasTo i 1)).core = d.core := by
    refine Dev.each_keeps Dev.core _ _ (fun i d => ?_) d
    split
    · rfl
    · rfl
  exact (hloop _).trans ((Dev.core_quadsReset _ _).trans (Dev.core_rfIdle _))

section
variable (d old : Dev) (kind : Nat)

theorem Dev.resetTail_core : (∃ r, (d.resetTail old kind).pwr = { d.pwr with refo := r }) ∧ (d.resetTail old kind).tim = d.tim ∧
    (d.resetTail old kind).eph = d.eph ∧ (d.resetTail old kind).clk.onLpo = d.clk.onLpo := by
  unfold Dev.resetTail
  dsimp only
  have hcore (d : Dev) : ((d.resetOutputs old kind).resetWrites old kind).core = d.core := d.core_resetOutputs old kind
  split
  · have h := hcore { d with clk := { d.clk with mer := 0 } }
    obtain ⟨o, hr⟩ := Dev.refoFollow_shape (({ d with clk := { d.clk with mer := 0 } }.resetOutputs old kind).resetWrites old kind)
    simp only [Dev.core, Prod.mk.injEq] at h
    obtain ⟨hpwr, htim, heph, hclk⟩ := h
    rw [hr, hpwr, htim, heph, hclk]
    exact ⟨⟨_, rfl⟩, rfl, rfl, rfl⟩
  · have h := hcore d
    obtain ⟨o, hr⟩ := Dev.refoFollow_shape ((d.resetOutputs old kind).resetWrites old kind)
    simp only [Dev.core, Prod.mk.injEq] at h
    obtain ⟨hpwr, htim, heph, hclk⟩ := h
    rw [hr, hpwr, htim, heph, hclk]
    exact ⟨⟨_, rfl⟩, rfl, rfl, rfl⟩

end

/-- The state of a bias output after a reset of kind `kind`. -/
theorem Dev.a_resetOutputs (d old : Dev) (kind : Nat) {i : Nat} (hi : i < 80) :
    (d.resetOutputs old kind).a (P.biasOutputState + i) = if kind = 0 then 0 else old.parked i := by
  have hloop (d : Dev) := Dev.each_range (d := d) (n := 80) (C := fun n d' => ∀ i, i < 80 → i < n →
      d'.a (P.biasOutputState + i) = if kind = 0 then 0 else old.parked i)
    (f := fun i d => if kind = 0 ∨ old.a (P.biasOutputState + i) = 0 then d.biasTo i 0 else d.biasTo i 1)
    (fun _ _ h => absurd h (by omega)) (fun k d hk ih i hi hik => by
      by_cases heq : i = k
      · subst heq
        by_cases hkind : kind = 0 <;> by_cases hold : old.a (P.biasOutputState + i) = 0 <;>
          simp [hkind, hold, Dev.a_biasTo, hk, Dev.parked]
      · have hstep := ih i hi (by omega)
        split
        · rw [Dev.a_biasTo _ _ _ hi hk, if_neg heq, hstep]
        · rw [Dev.a_biasTo _ _ _ hi hk, if_neg heq, hstep])
  exact hloop _ i hi hi

/-- The parameters of `resetWrites` are the last a reset writes. -/
theorem Dev.a_resetTail (d old : Dev) (kind : Nat) {k : Nat}
    (hk : k ∉ [P.railStatus, P.refclkState, P.resetCount, P.memState]) :
    ∃ x : Dev, x.alm = d.alm ∧ (d.resetTail old kind).a k = (x.resetOutputs old kind).a k := by
  simp only [List.mem_cons, List.not_mem_nil, or_false, not_or] at hk
  obtain ⟨h1, h2, h3, h4⟩ := hk
  have hwrites (x : Dev) : ((x.resetOutputs old kind).resetWrites old kind).refoFollow.a k = (x.resetOutputs old kind).a k := by
    obtain ⟨o, ho⟩ := ((x.resetOutputs old kind).resetWrites old kind).refoFollow_shape
    have hfollow : ((x.resetOutputs old kind).resetWrites old kind).refoFollow.a k =
        ((x.resetOutputs old kind).resetWrites old kind).a k := by
      rw [ho]
      rfl
    rw [hfollow, Dev.resetWrites]
    rw [Dev.a_w_ne _ _ (Ne.symm h4), Dev.a_w_ne _ _ (Ne.symm h3), Dev.a_w_ne _ _ (Ne.symm h2), Dev.a_w_ne _ _ (Ne.symm h1)]
  unfold Dev.resetTail
  dsimp only
  split
  · refine ⟨_, ?_, hwrites _⟩
    rfl
  · exact ⟨d, rfl, hwrites d⟩

theorem Dev.bias_reset (d : Dev) (kind : Nat) {i : Nat} (hi : i < 80) :
    (d.reset kind).1.a (P.biasOutputState + i) = if kind = 0 then 0 else d.parked i := by
  have hlast : P.biasOutputState + i ∉ [P.railStatus, P.refclkState, P.resetCount, P.memState] := by
    simp only [P.biasOutputState, P.railStatus, P.refclkState, P.resetCount, P.memState, List.mem_cons, List.not_mem_nil, or_false]
    omega
  obtain ⟨x, -, hx⟩ := (d.cleared kind).a_resetTail d kind hlast
  rw [d.reset_eq kind, hx, Dev.a_resetOutputs _ _ _ hi]

/-! ### PwrActiveMask after a reset -/

theorem NMap.get?_filter_none {m : NMap} {p : Nat × Nat → Bool} {k : Nat} (hk : ∀ v, p (k, v) = false) : NMap.get? (m.filter p) k = none := by
  induction m with
  | nil => rfl
  | cons e m ih =>
    obtain ⟨a, v⟩ := e
    by_cases hp : p (a, v) = true
    · have hne : a ≠ k := by
        rintro rfl
        exact absurd hp (by simp [hk])
      rw [List.filter_cons_of_pos hp, NMap.get?, if_neg hne, ih]
    · rw [List.filter_cons_of_neg hp, ih]

theorem Dev.a_wAll_ne (d : Dev) {l : List (Nat × Nat)} {k : Nat} (hl : ∀ x ∈ l, x.1 ≠ k) : (d.wAll l).a k = d.a k := by
  unfold Dev.wAll
  induction l generalizing d with
  | nil => rfl
  | cons x l ih =>
    rw [List.foldl_cons, ih _ fun y hy => hl y (List.mem_cons_of_mem x hy), Dev.a_w_ne _ _ (hl x (List.mem_cons_self ..))]

theorem rowOf_pwrActiveMask : rowOf (keyId P.pwrActiveMask) = some ⟨0x200002, 1, 1, .uint 1, 7, 8, .V, .k 0, .any⟩ := by
  decide

/-- No reset keeps PwrActiveMask. -/
theorem keptKey_pwrActiveMask (kind : Nat) : keptKey kind P.pwrActiveMask = false := by
  have hname : keyId P.pwrActiveMask ≠ keyId P.eventPending ∧ keyId P.pwrActiveMask ≠ keyId P.catStateCounts := by decide
  simp [keptKey, rowOf_pwrActiveMask, keptV, hname.1, hname.2, P.pwrActiveMask, P.archIslandNumber, P.chartPinsSampled, P.archRoot,
    P.thermSensorFailedMask, P.thermSubstituteMask]

theorem isN_pwrActiveMask : isN P.pwrActiveMask = false := by
  simp only [isN, rowOf_pwrActiveMask]

theorem Dev.mask_resetKept (d : Dev) (kind : Nat) : (d.resetKept kind).a P.pwrActiveMask = 0 := by
  have hfilter (e : Dev) : ({ e with alm := e.alm.filter (fun x => keptKey kind x.1) } : Dev).a P.pwrActiveMask = 0 := by
    have hnone : NMap.get? (e.alm.filter (fun x => keptKey kind x.1)) P.pwrActiveMask = none :=
      NMap.get?_filter_none fun _ => keptKey_pwrActiveMask kind
    have hdflt : dfltOf P.pwrActiveMask = 0 := by decide
    simp only [Dev.a, hnone, hdflt, Option.getD_none]
  have hback (e : Dev) (gone : Bool) (he : e.a P.pwrActiveMask = 0) : (e.nvmReset gone).a P.pwrActiveMask = 0 := by
    have hall := e.a_wAll_ne (k := P.pwrActiveMask)
      (l := ((e.nvm.alm.filter (fun e => gone || e.1 % 2 == 1)).map (fun e => (e.1 / 2, e.2))).filter (fun e => isN e.1))
      fun x hx hk => by
        have hn := (List.mem_filter.mp hx).2
        rw [hk, isN_pwrActiveMask] at hn
        exact Bool.false_ne_true hn
    rw [he] at hall
    have hseq (x : Dev) (v : Nat) (hx : x.a P.pwrActiveMask = 0) : (x.iff gone (·.w P.auditSeq v)).a P.pwrActiveMask = 0 := by
      cases gone
      · exact hx
      · exact (x.a_w_ne v (by decide)).trans hx
    unfold Dev.nvmReset
    dsimp only
    refine hseq _ _ ?_
    split
    · exact hall
    · exact hall
  exact hback _ _ (hfilter _)

theorem Steady.quadsReset {b : Scope} {g d : Dev} (h : Steady b g d) {old : Dev} : Steady b g (d.quadsReset old) := by
  unfold Dev.quadsReset
  dsimp only
  exact each (setRx h) fun _ hu _ h => (h.wAt (lt_of_mem_bitList hu) (by rfl)).wAt (lt_of_mem_bitList hu) (by rfl)

theorem Dev.mask_resetOutputs (d old : Dev) (kind : Nat) (hd : d.a P.pwrActiveMask = 0) : (d.resetOutputs old kind).a P.pwrActiveMask = 0 := by
  have hsteady : Steady { outputs := false } d (d.resetOutputs old kind) :=
    Steady.each (((Steady.refl _ d).w (by rfl)).rfIdle.quadsReset) fun i hi _ h =>
      Steady.ite (h.biasTo rfl (List.mem_range.mp hi)) (h.biasTo rfl (List.mem_range.mp hi))
  exact hsteady.mask rfl hd

/-- No unit is ACTIVE after a reset. -/
theorem Dev.mask_reset (d : Dev) (kind : Nat) : (d.reset kind).1.a P.pwrActiveMask = 0 := by
  obtain ⟨x, halm, hx⟩ := (d.cleared kind).a_resetTail d kind (k := P.pwrActiveMask) (by decide)
  have hkept : x.a P.pwrActiveMask = 0 := by
    have hsame : x.a P.pwrActiveMask = (d.resetKept kind).a P.pwrActiveMask := by
      rw [Dev.a, halm]
      rfl
    rw [hsame, Dev.mask_resetKept]
  rw [d.reset_eq kind, hx, Dev.mask_resetOutputs _ _ _ hkept]

/-! ### The kinds of reset -/

/-- What a reset of the power-on or RESET_N class (kinds 0 and 1) leaves. -/
theorem Dev.reset_gone (d : Dev) {kind : Nat} (hgone : (kind == 0 || kind == 1) = true) :
    (d.reset kind).1.pwr.kind = kind ∧ (d.reset kind).1.pwr.phase = .inReset ∧ (d.reset kind).1.pwr.pwrOk = d.pwr.pwrOk ∧
      (d.reset kind).1.pwr.resetN = d.pwr.resetN ∧ (d.reset kind).1.tim = {} ∧ (d.reset kind).1.eph = {} ∧
      (d.reset kind).1.clk.onLpo = d.clk.onLpo := by
  obtain ⟨⟨r, hpwr⟩, htim, heph, hclk⟩ := (d.cleared kind).resetTail_core d kind
  rw [d.reset_eq kind]
  dsimp only
  rw [hpwr, htim, heph, hclk]
  have hcore := d.core_resetKept kind
  simp only [Dev.core, Prod.mk.injEq] at hcore
  obtain ⟨-, -, -, hkept⟩ := hcore
  refine ⟨rfl, if_pos hgone, rfl, rfl, if_pos hgone, if_pos hgone, ?_⟩
  exact congrArg Clk.onLpo hkept

/-- What the resets that keep time and the Ephemeris table leave. -/
theorem Dev.reset_kept (d : Dev) {kind : Nat} (hkept : (kind == 0 || kind == 1) = false) :
    (d.reset kind).1.pwr.kind = kind ∧
      (d.reset kind).1.pwr.phase = (if d.clk.onLpo then .waitRefclk else .booting) ∧
      (d.reset kind).1.eph.ent = d.eph.ent ∧ (d.reset kind).1.tim.valid = d.tim.valid := by
  obtain ⟨⟨r, hpwr⟩, htim, heph, -⟩ := (d.cleared kind).resetTail_core d kind
  rw [d.reset_eq kind]
  dsimp only
  rw [hpwr, htim, heph]
  have hcore := d.core_resetKept kind
  simp only [Dev.core, Prod.mk.injEq] at hcore
  obtain ⟨-, hktim, hkeph, -⟩ := hcore
  have hphase : (d.cleared kind).pwr.phase =
      if kind == 0 || kind == 1 then .inReset else if d.clk.onLpo then .waitRefclk else .booting := rfl
  have heph' : (d.cleared kind).eph = if kind == 0 || kind == 1 then {} else { ent := (d.resetKept kind).eph.ent } := rfl
  have htim' : (d.cleared kind).tim = if kind == 0 || kind == 1 then {} else
      { (d.resetKept kind).tim with syncSeq := none, pair := none, dreq := none, pps := none, ppsOut := false } := rfl
  rw [hphase, heph', htim', hkept, hktim, hkeph]
  exact ⟨rfl, rfl, rfl, rfl⟩

/-- What a reset does to memory: package memory is lost where its kind loses it, SRAM always (R36, R137). -/
theorem Dev.get_reset (d : Dev) (kind : Nat) (m : Memory) (a : Nat) :
    (m.applyAll (d.reset kind).2).get a =
      if sramRetLo ≤ a ∧ a < sramEnd then unlisted a
      else if (kind == 0 || kind == 1 || kind == 4) = true ∧ a < ipmEnd then unlisted a else m.get a := by
  rw [d.reset_eq kind]
  by_cases hlost : (kind == 0 || kind == 1 || kind == 4) = true
  · simp only [hlost, if_true, Memory.applyAll, List.cons_append, List.nil_append, List.foldl_cons, List.foldl_nil, Memory.apply,
      Memory.get_wipe, Nat.zero_le, true_and]
  · simp only [hlost, if_false, Memory.applyAll, List.nil_append, List.foldl_cons, List.foldl_nil, Memory.apply, Memory.get_wipe,
      false_and, Bool.false_eq_true]

/-- Package memory ends below SRAM. -/
theorem not_sram_of_lt_ipmEnd {a : Nat} (ha : a < ipmEnd) : ¬ (sramRetLo ≤ a ∧ a < sramEnd) := by
  have hle : ipmEnd ≤ sramRetLo := by decide
  omega

theorem Dev.get_reset_package (d : Dev) {kind : Nat} (hgone : (kind == 0 || kind == 1) = true) (m : Memory) {a : Nat} (ha : a < ipmEnd) :
    (m.applyAll (d.reset kind).2).get a = unlisted a := by
  rw [d.get_reset, if_neg (not_sram_of_lt_ipmEnd ha), if_pos ⟨by rw [hgone]; rfl, ha⟩]

/-! ### The commands -/

/-- A release moves the phase and when it came alone. -/
theorem Dev.release_shape (d : Dev) : ∃ p t, d.release = { d with pwr := { d.pwr with phase := p, releasedAt := t } } := by
  unfold Dev.release
  split
  · exact ⟨_, _, rfl⟩
  · exact ⟨d.pwr.phase, d.pwr.releasedAt, rfl⟩

theorem Dev.powerOn_ops (d : Dev) (br rt : Bool) : (d.powerOn br rt).2 = (d.reset 0).2 := by
  cases br
  · rfl
  · rfl

/-- With the rails still low the device stays in reset, and RailStatus shows VDD_AON alone (log entry 6). -/
theorem Dev.powerOn_low (d : Dev) (rt : Bool) : ∃ o r, (d.powerOn false rt).1 =
    { (d.reset 0).1.w P.railStatus 1 with pwr := { (d.reset 0).1.pwr with pwrOk := false, refo := r }, out := o } := by
  obtain ⟨o, ho⟩ := ({ (d.reset 0).1 with pwr := { (d.reset 0).1.pwr with pwrOk := false } }.w P.railStatus 1).refoFollow_shape
  exact ⟨o, _, ho⟩

/-- After a brownout of VDD_AON the reset may already be released. -/
theorem Dev.powerOn_high (d : Dev) (rt : Bool) : ∃ p t, (d.powerOn true rt).1 =
    { (d.reset 0).1 with pwr := { (d.reset 0).1.pwr with brownout := rt, phase := p, releasedAt := t } } := by
  obtain ⟨p, t, h⟩ := ({ (d.reset 0).1 with pwr := { (d.reset 0).1.pwr with brownout := rt } } : Dev).release_shape
  exact ⟨p, t, h⟩

theorem biasOutputState_evKey {i : Nat} (hi : i < 80) : evKey (P.biasOutputState + i) = false :=
  steadyKey_evKey (steadyKey_biasOutputState (b := {}) rfl hi)

theorem railStatus_ne_biasOutputState {i : Nat} (hi : i < 80) : P.railStatus ≠ P.biasOutputState + i := by
  simp only [P.biasOutputState, P.railStatus]
  omega

theorem claim_powerOnReset : Claims.powerOnReset := by
  intro s dt br rt
  rw [does_onMem (f := fun d _ => d.powerOn br rt) rfl]
  obtain ⟨hkind, hphase, -, -, htim, heph, -⟩ := (s.at_ dt).reset_gone (kind := 0) rfl
  have hbias (i : Nat) (hi : i < 80) : ((s.at_ dt).reset 0).1.a (P.biasOutputState + i) = 0 := (s.at_ dt).bias_reset 0 hi
  have hpost : ((s.at_ dt).powerOn br rt).1.pwr.kind = 0 ∧ ((s.at_ dt).powerOn br rt).1.tim = {} ∧ ((s.at_ dt).powerOn br rt).1.eph = {} ∧
      (∀ i, i < 80 → ((s.at_ dt).powerOn br rt).1.a (P.biasOutputState + i) = 0) ∧
      (br = false → ((s.at_ dt).powerOn br rt).1.pwr.phase = .inReset ∧ ((s.at_ dt).powerOn br rt).1.pwr.pwrOk = false ∧
        ((s.at_ dt).powerOn br rt).1.a P.railStatus = 1) := by
    cases br with
    | true =>
      obtain ⟨p, t, h⟩ := (s.at_ dt).powerOn_high rt
      rw [h]
      exact ⟨hkind, htim, heph, hbias, fun h => absurd h (by decide)⟩
    | false =>
      obtain ⟨o, r, h⟩ := (s.at_ dt).powerOn_low rt
      rw [h]
      refine ⟨hkind, htim, heph, fun i hi => ?_, fun _ => ⟨hphase, rfl, Dev.a_w_self ((s.at_ dt).reset 0).1 P.railStatus 1⟩⟩
      exact (Dev.a_w_ne _ 1 (railStatus_ne_biasOutputState hi)).trans (hbias i hi)
  obtain ⟨h1, h2, h3, h4, h5⟩ := hpost
  rw [Dev.powerOn_ops]
  refine ⟨by rw [State.leave_pwr, h1], by rw [State.leave_tim, h2], by rw [State.leave_eph, h3], fun i hi => ?_, fun hbr => ?_, fun a ha => ?_,
    fun a ha hsram => ?_⟩
  · rw [State.a, State.leave_a _ _ _ (biasOutputState_evKey hi), h4 i hi]
  · obtain ⟨hp, hok, hrail⟩ := h5 hbr
    rw [State.leave_pwr, State.a, State.leave_a _ _ _ (by decide)]
    exact ⟨hp, hok, hrail⟩
  · exact (s.at_ dt).get_reset_package rfl s.mem ha
  · rw [State.leave_mem, Dev.get_reset, if_neg hsram, if_neg fun h => absurd h.2 (by omega)]

theorem claim_pwrOkFall : Claims.pwrOkFall := by
  intro s dt hok hphase
  rw [does_onMem (f := fun d _ => d.pwrOkFall) rfl]
  have hpwr : (s.at_ dt).pwr = s.dev.pwr := s.arrive_pwr dt
  have heq : (s.at_ dt).pwrOkFall = ({ ((s.at_ dt).reset 1).1 with
      pwr := { ((s.at_ dt).reset 1).1.pwr with pwrOk := false, biasDone := false } }, ((s.at_ dt).reset 1).2) := by
    rw [Dev.pwrOkFall, Dev.hold, hpwr, hok, if_neg hphase]
    rfl
  obtain ⟨hkind, hin, -, -, -, -, -⟩ := (s.at_ dt).reset_gone (kind := 1) rfl
  rw [heq]
  refine ⟨by rw [State.leave_pwr], by rw [State.leave_pwr, hin], by rw [State.leave_pwr, hkind], fun i hi => ?_, ?_, fun a ha => ?_⟩
  · have hbias := (s.at_ dt).bias_reset 1 hi
    rw [State.a, State.leave_a _ _ _ (biasOutputState_evKey hi), Dev.a_setPwr, hbias, Dev.parked, State.at_,
      State.arrive_a _ _ (biasOutputState_evKey hi), State.a]
    rfl
  · rw [State.a, State.leave_a _ _ _ (by decide), Dev.a_setPwr, Dev.mask_reset]
  · exact (s.at_ dt).get_reset_package rfl s.mem ha

theorem claim_resetNAssert : Claims.resetNAssert := by
  intro s dt
  rw [does_onMem (f := fun d _ => d.resetNLow) rfl]
  have hpwr : (s.at_ dt).pwr = s.dev.pwr := s.arrive_pwr dt
  by_cases hphase : s.dev.pwr.phase = .inReset
  · have heq : (s.at_ dt).resetNLow = ({ s.at_ dt with pwr := { s.dev.pwr with resetN := false } }, []) := by
      rw [Dev.resetNLow, Dev.hold, hpwr, if_pos hphase, ← hpwr]
    rw [heq]
    refine ⟨by rw [State.leave_pwr], by rw [State.leave_pwr, hphase], fun h => absurd hphase h, fun _ => ⟨by rw [State.leave_pwr], ?_⟩⟩
    rw [State.leave_mem, Memory.applyAll_nil]
  · have heq : (s.at_ dt).resetNLow = ({ ((s.at_ dt).reset 1).1 with
        pwr := { ((s.at_ dt).reset 1).1.pwr with resetN := false } }, ((s.at_ dt).reset 1).2) := by
      rw [Dev.resetNLow, Dev.hold, hpwr, if_neg hphase]
    obtain ⟨hkind, hin, -, -, htim, heph, -⟩ := (s.at_ dt).reset_gone (kind := 1) rfl
    rw [heq]
    refine ⟨by rw [State.leave_pwr], by rw [State.leave_pwr, hin], fun _ => ⟨by rw [State.leave_pwr, hkind], by rw [State.leave_tim, htim],
      by rw [State.leave_eph, heph], fun a ha => (s.at_ dt).get_reset_package rfl s.mem ha⟩, fun h => absurd h hphase⟩

theorem claim_coreBrownout : Claims.coreBrownout := by
  intro s dt hok hphase
  rw [does_onMem (f := fun d _ => d.coreBrownout) rfl]
  have hpwr : (s.at_ dt).pwr = s.dev.pwr := s.arrive_pwr dt
  have heq : (s.at_ dt).coreBrownout = (({ ((s.at_ dt).reset 1).1 with
      pwr := { ((s.at_ dt).reset 1).1.pwr with brownout := true } } : Dev).release, ((s.at_ dt).reset 1).2) := by
    have hcond : (!(s.at_ dt).pwr.pwrOk || (s.at_ dt).pwr.phase == .inReset) = false := by simp [hpwr, hok, hphase]
    rw [Dev.coreBrownout, hcond, if_neg Bool.false_ne_true]
  obtain ⟨hkind, hin, hok', hresetN, htim, heph, hclk⟩ := (s.at_ dt).reset_gone (kind := 1) rfl
  rw [heq]
  generalize ((s.at_ dt).reset 1).1 = d at *
  have hrelease : ({ d with pwr := { d.pwr with brownout := true } } : Dev).release.pwr.phase =
      if s.dev.pwr.resetN then (if s.dev.clk.onLpo then .waitRefclk else .booting) else .inReset := by
    have hreset : d.pwr.resetN = s.dev.pwr.resetN := by rw [hresetN, hpwr]
    have hlpo : d.clk.onLpo = s.dev.clk.onLpo := by rw [hclk, State.at_, State.arrive_onLpo]
    unfold Dev.release
    cases hr : s.dev.pwr.resetN
    · simp [hreset, hr, hin]
    · simp [hreset, hr, hin, hok', hpwr, hok, hlpo]
  obtain ⟨p, t, h⟩ := ({ d with pwr := { d.pwr with brownout := true } } : Dev).release_shape
  rw [h] at hrelease ⊢
  refine ⟨by rw [State.leave_pwr, hkind], by rw [State.leave_pwr], by rw [State.leave_tim, htim], by rw [State.leave_eph, heph],
    by rw [State.leave_pwr]; exact hrelease, fun a ha => (s.at_ dt).get_reset_package rfl s.mem ha⟩

theorem claim_watchdogExpiry : Claims.watchdogExpiry := by
  intro s dt hup
  rw [does_onMem (f := fun d _ => d.watchdog) rfl]
  have heq : (s.at_ dt).watchdog = ((s.at_ dt).park 31 4).reset 2 := by
    rw [Dev.watchdog, hup, Bool.true_or, if_pos rfl]
  have hpark : Steady { outputs := false } (s.at_ dt) ((s.at_ dt).park 31 4) := (Steady.refl _ _).park rfl
  obtain ⟨-, -, -, -, hlpo, hent, hvalid⟩ := hpark
  obtain ⟨hkind, hphase, hkent, hkvalid⟩ := ((s.at_ dt).park 31 4).reset_kept (kind := 2) rfl
  rw [heq]
  refine ⟨by rw [State.leave_pwr, hkind], ?_, ?_, ?_, fun i hi => ?_, fun a ha => ?_⟩
  · rw [State.leave_pwr, hphase, hlpo, State.at_, State.arrive_onLpo]
  · rw [State.leave_eph, hkent, hent, State.at_, State.arrive_eph]
  · rw [State.leave_tim, hkvalid, hvalid, State.at_, State.arrive_tim]
  · rw [State.a, State.leave_a _ _ _ (biasOutputState_evKey hi), Dev.bias_reset _ _ hi, if_neg (by decide), Dev.parked, Dev.a_park _ _ hi]
    unfold Dev.parked
    rw [State.at_, State.arrive_a _ _ (biasOutputState_evKey hi), State.a]
    split
    · rfl
    · rfl
  · rw [State.leave_mem, Dev.get_reset, if_neg (not_sram_of_lt_ipmEnd ha), if_neg fun h => absurd h.1 (by decide)]

/-- Settles O13: every one of these resets clears the device and then only drives pins and writes a few parameters, so what it
leaves of the power state, time, the Ephemeris table, the outputs and memory is read off its kind. -/
theorem resetsTakeHold : Obligations.ResetsTakeHold :=
  ⟨claim_powerOnReset, claim_pwrOkFall, claim_resetNAssert, claim_coreBrownout, claim_watchdogExpiry⟩

end Sys2Proof.Machine
end

section
/-!
A write to ResetCommand (R38): what its checks answer for each value, what the operation around it moves, and the reset that
follows the acknowledgement.
-/

namespace Sys2Proof.Machine

/-! ### The checks of the write -/

/-- The item of a write to ResetCommand. -/
def resetItem (value : Nat) : Item := { index := 0x2007, sub := 1, first := 0, span := 0, value := leBytes 1 value }

/-- The change it asks for. -/
def resetChg (value : Nat) : Chg := ⟨0x200701, 0, [value]⟩

/-- The row of ResetCommand. -/
def resetRow : PRow := ⟨0x200701, 1, 1, .uint 1, 0, 3, .V, .k 0, .oneOf [165]⟩

theorem rowOf_resetCommand : rowOf 0x200701 = some resetRow := by decide

theorem rowOf_resetKey : rowOf (keyId P.resetCommand) = some resetRow := rowOf_resetCommand

theorem rowOf_resetItem (value : Nat) : rowOf (itemId (resetItem value)) = some resetRow := rowOf_resetCommand

theorem writeItem_resetCommand (value : Nat) : writeItem P.resetCommand 0 [value] = resetItem value := by
  rw [writeItem, rowOf_resetKey]
  rfl

theorem itemChg_resetItem {value : Nat} (h : value < 256) : itemChg (resetItem value) = resetChg value := by
  have hbyte : leNat ((leBytes 1 value).take 1) = value := by
    simp only [leBytes, List.take, leNat, BitVec.toNat_ofNat]
    omega
  rw [itemChg, rowOf_resetItem]
  exact congrArg (fun v => (⟨0x200701, 0, [v]⟩ : Chg)) hbyte

theorem pairs_resetChg (value : Nat) : (resetChg value).pairs = [(P.resetCommand, value)] := by
  have hnorm : normVal P.resetCommand value = value := by
    rw [normVal, if_neg (by decide), if_neg (by decide), if_neg (by decide), if_neg (by decide), if_neg (by decide),
      if_neg (by decide), rowOf_resetKey]
    rfl
  have hkey : 0x200701 * 65536 + 0 + 0 = P.resetCommand := rfl
  rw [Chg.pairs]
  show [(0x200701 * 65536 + 0 + 0, normVal (0x200701 * 65536 + 0 + 0) value)] = _
  rw [hkey, hnorm]

theorem valueOk_resetCommand {value : Nat} (h : value < 256) : valueOk P.resetCommand value = (value == 165) := by
  have hspecial : specialOk P.resetCommand value = true := rfl
  rw [valueOk, hspecial, rowOf_resetKey]
  simp [resetRow, PTy.width, h, Bool.beq_eq_decide_eq]

variable {d : Dev} {m : Memory} {role own : Nat} {pf : List Byte × Bool}

theorem Dev.chgStatus_resetCommand (new : Dev) {value : Nat} (h : value < 256) (hphase : d.pwr.phase ≠ .restricted) :
    d.chgStatus new m role own pf (resetChg value) = if value = 165 then 0 else 5 := by
  have hheld : d.stateHeld P.resetCommand value = false := rfl
  have hcmd : d.commandStatus new m role own pf (resetChg value) = 0 := rfl
  have hchunk : ((resetChg value).id != keyId P.updChunk) = true := rfl
  have hgate : (d.pwr.phase == .restricted && (resetChg value).id != keyId P.thermRestart) = false := by simp [hphase]
  rw [Dev.chgStatus, hgate, pairs_resetChg, hcmd]
  simp [hchunk, hheld, valueOk_resetCommand h]

/-- A write of another value is refused with STATUS 5, and nothing else refuses it. -/
theorem Dev.writeRefused_resetCommand {o : AlmOp} {value : Nat} (h : value < 256) (hitems : o.items = [resetItem value])
    (hstatus : itemStatus role true (resetItem value) = 0) (hphase : d.pwr.phase ≠ .restricted) :
    d.writeRefused m o role own pf = if value = 165 then none else some { status := 5, failed := 0, dev := d } := by
  have hwrite (new : Dev) : d.writeStatus new m role own pf (resetItem value) = if value = 165 then 0 else 5 := by
    rw [Dev.writeStatus, hstatus, itemChg_resetItem h, Dev.chgStatus_resetCommand new h hphase]
    rfl
  have hcross (new : Dev) : new.crossBroken [0x200701] = none := rfl
  have hledger (new : Dev) : new.ledgerBroken [0x200701] = false := rfl
  have hbytes : nBytes [resetChg value] = 0 := by simp [nBytes, resetChg, rowOf_resetCommand, resetRow]
  have hids : [resetChg value].map (·.id) = [0x200701] := rfl
  have heph : (itemId (resetItem value) == keyId P.ephWrite) = false := rfl
  rw [Dev.writeRefused, hitems]
  have hchgs : [resetItem value].map itemChg = [resetChg value] := congrArg (fun c => [c]) (itemChg_resetItem h)
  rw [hchgs]
  dsimp only
  rw [firstBad, hwrite]
  by_cases hv : value = 165
  · simp [if_pos hv, firstBad, hcross, hledger, hbytes, hids]
  · simp [hv, heph, Dev.iff]

theorem Dev.lockersOf_resetCommand (value : Nat) : d.lockersOf (resetChg value) = [] := by
  have hnone : shadowUnit P.resetCommand = none := by decide
  simp [Dev.lockersOf, pairs_resetChg, Dev.lockers, hnone]

/-- ResetCommand stores no value; its write takes it off the values a Chart waits to write. -/
theorem Dev.storeChange_resetCommand (value : Nat) : d.storeChange (resetChg value) =
    { d with cha := { d.cha with waiting := d.cha.waiting.drop (fun k => [P.resetCommand].contains k) } } := by
  have hstores : stores (resetChg value).id = false := by
    rw [stores, resetChg, rowOf_resetCommand]
    exact Bool.and_false _
  rw [Dev.storeChange, pairs_resetChg, hstores]
  rfl

theorem Dev.written_resetCommand (old : Dev) (p : Places) (who port ses : Nat) (x : OpAux) (c : Chg) (hc : c.id = 0x200701) (keys : List Nat) :
    Dev.written old d m p who port ses x c keys = ⟨d, [], some 3⟩ := by
  rw [Dev.written, hc]
  dsimp only
  rw [if_neg (by decide), if_pos (by decide)]

/-- An accepted write asks for a reset of kind 3. -/
theorem Dev.applyChanges_resetCommand (p : Places) (who port ses : Nat) (x : OpAux) (value : Nat) :
    d.applyChanges m p who port ses x [resetChg value] = ⟨d.storeChange (resetChg value), [], some 3⟩ := by
  have hids : [resetChg value].map (·.id) = [0x200701] := rfl
  have hid : (resetChg value).id = 0x200701 := rfl
  have hdups : [0x200701].eraseDups = [0x200701] := by decide
  simp [Dev.applyChanges, Dev.lockersOf_resetCommand, hids, hid, hdups, Dev.each, Dev.written_resetCommand]

/-! ### The operation -/

/-- ResetCommand is not protected: no audit entry is made of its write. -/
theorem itemProtected_resetItem (value : Nat) : itemProtected (resetItem value) = false := by
  rw [itemProtected, rowOf_resetItem]
  rfl

theorem Dev.auditAll_resetItem (old : Dev) (who status value : Nat) : Dev.auditAll old d m who status [resetItem value] = d := by
  rw [Dev.auditAll, List.foldl_cons, List.foldl_nil, Dev.auditItem, rowOf_resetItem]
  rfl

theorem Dev.opWrite_resetCommand (p : Places) {o : AlmOp} {value : Nat} (h : value < 256) (hitems : o.items = [resetItem value])
    (hstatus : itemStatus role true (resetItem value) = 0) (hphase : d.pwr.phase ≠ .restricted) :
    d.opWrite m p o role own = if value = 165 then { status := 0, dev := d.storeChange (resetChg value), rst := some 3 }
      else { status := 5, failed := 0, dev := d } := by
  have htoken : ([resetItem value].any fun x => itemId x == keyId P.debugUnlockToken) = false := rfl
  have hroom : d.auditRoom 0 = true := by simp [Dev.auditRoom]
  have hneed : auditNeed [resetItem value] = 0 := by
    simp [auditNeed, itemProtected_resetItem, show (itemId (resetItem value) == keyId P.chartSelect) = false from rfl,
      show (itemId (resetItem value) == keyId P.updCommand) = false from rfl]
  have hchgs : [resetItem value].map itemChg = [resetChg value] := congrArg (fun c => [c]) (itemChg_resetItem h)
  have hfilter : ([resetItem value].filter itemProtected).length = 0 := by simp [itemProtected_resetItem]
  rw [Dev.opWrite, hitems, htoken]
  simp only [Bool.false_eq_true, if_false, hfilter, hneed, hroom, hchgs, Bool.not_true, Dev.writeRefused_resetCommand h hitems hstatus hphase,
    Dev.applyChanges_resetCommand, Dev.auditAll_resetItem]
  by_cases hv : value = 165
  · simp only [if_pos hv]
  · simp only [if_neg hv]

/-- In an open session the operation runs the write. -/
theorem Dev.opRun_write (p : Places) {o : AlmOp} {x : Item} {y : Ses} (hop : o.op = 2) (hn : o.n = 1) (hitems : o.items = [x])
    (hses : d.sesOn o.port o.ses = some y) : d.opRun m p o = (d.sesUsed o.ses).opWrite m p o y.role (4 * y.role + y.slot) := by
  have hshape : o.shapeOk = true := by simp [AlmOp.shapeOk, hop, hn, hitems]
  rw [Dev.opRun, hshape, hses]
  simp [hop]

/-! ### What coming, counting and answering keep -/

/-- Between two devices only what the coming and answering of an operation moves has changed: parameters of `replyKey`, none of the
power state, none of the clock's source, and no message is newly held by Riptide. -/
def Dev.Replies (g d : Dev) : Prop :=
  (∀ k, evKey k = false → replyKey k = false → d.a k = g.a k) ∧ d.pwr = g.pwr ∧ d.clk.onLpo = g.clk.onLpo ∧
    d.rip.held.isEmpty = g.rip.held.isEmpty

namespace Dev.Replies

variable {g d : Dev}

theorem refl (d : Dev) : Dev.Replies d d := ⟨fun _ _ _ => rfl, rfl, rfl, rfl⟩

theorem same {d' : Dev} (h : g.Replies d) (halm : d'.alm = d.alm) (hpwr : d'.pwr = d.pwr) (hclk : d'.clk.onLpo = d.clk.onLpo)
    (hrip : d'.rip.held.isEmpty = d.rip.held.isEmpty) : g.Replies d' := by
  obtain ⟨ha, hp, hc, hr⟩ := h
  refine ⟨fun k hk hr => ?_, hpwr.trans hp, hclk.trans hc, hrip.trans hr⟩
  rw [← ha k hk hr, Dev.a, Dev.a, halm]

theorem w (h : g.Replies d) {k v : Nat} (hk : replyKey k = true) : g.Replies (d.w k v) := by
  obtain ⟨ha, hp, hc, hr⟩ := h
  refine ⟨fun j hj hr => ?_, hp, hc, hr⟩
  rw [Dev.a_w_ne, ha j hj hr]
  rintro rfl
  exact absurd hk (by simp [hr])

theorem inc (h : g.Replies d) {k : Nat} (hk : replyKey k = true) : g.Replies (d.inc k) := by
  obtain ⟨ha, hp, hc, hr⟩ := h
  obtain ⟨m, hm⟩ := d.inc_shape k
  refine ⟨fun j hj hr => ?_, by rw [hm, ← hp], by rw [hm, ← hc], by rw [hm, ← hr]⟩
  rw [Dev.a_inc_ne, ha j hj hr]
  rintro rfl
  exact absurd hk (by simp [hr])

theorem iff {c : Bool} {f : Dev → Dev} (h : g.Replies d) (hf : ∀ d, g.Replies d → g.Replies (f d)) : g.Replies (d.iff c f) := by
  cases c
  · exact h
  · exact hf d h

/-- No Riptide rule acts on the answer if none acted on the operation. -/
theorem quiet (h : g.Replies d) : d.quiet = g.quiet := by
  obtain ⟨ha, -⟩ := h
  have hon : d.a P.riptideEnable = g.a P.riptideEnable := ha _ (by decide) (by decide)
  have hrule (i : Nat) (hi : i ∈ List.range 4) : d.a (P.riptideRules + i) = g.a (P.riptideRules + i) := by
    have hi : i < 4 := List.mem_range.1 hi
    have hev : evKey (P.riptideRules + i) = false := by
      interval_cases i <;> decide
    refine ha _ hev ?_
    interval_cases i <;> decide
  rw [Dev.quiet, Dev.quiet, Dev.ripOn, Dev.ripOn, hon]
  congr 1
  rw [Bool.eq_iff_iff, List.all_eq_true, List.all_eq_true]
  exact forall₂_congr fun i hi => by rw [hrule i hi]

theorem each {α : Type} {l : List α} {f : α → Dev → Dev} (h : g.Replies d) (hf : ∀ x d, g.Replies d → g.Replies (f x d)) :
    g.Replies (d.each l f) := by
  unfold Dev.each
  induction l generalizing d with
  | nil => exact h
  | cons x l ih => exact ih (hf x d h)

theorem ripPass (h : g.Replies d) (sent : Bool) (port vc : Nat) : g.Replies (d.ripPass sent port vc) :=
  h.same rfl rfl rfl (by simp [Dev.ripPass])

theorem mgmtIn (h : g.Replies d) (o : AlmOp) (taken : Bool) : g.Replies (d.mgmtIn o taken) := by
  unfold Dev.mgmtIn
  split
  · have hport : g.Replies (d.setPort 0 (fun x => { x with lastMsg := d.now })) := h.same rfl rfl rfl rfl
    have hpartner := hport.w (k := P.mlPartnerState) (v := 2) (by decide)
    refine iff ?_ fun _ h => h.inc (by decide)
    exact hpartner.same rfl rfl rfl rfl
  · exact h

theorem countOp (h : g.Replies d) (status : Nat) : g.Replies (d.countOp status) := by
  unfold Dev.countOp
  split
  · exact h.inc (by decide)
  · exact h.inc (by decide)

theorem put (h : g.Replies d) {p : Nat} {crcOk : Bool} {m : Msg} (hvc : m.vc < 4) : g.Replies (d.put p crcOk m) := by
  have hsent : replyKey (P.mlTxMessageCount + m.vc) = true := by
    simp [replyKey, hvc]
  have hcredit : replyKey (P.mlTxCreditAvailable + m.vc) = true := by
    simp [replyKey, hvc]
  have hset : g.Replies (d.setChan p m.vc (fun c =>
      { c with consumed := (c.consumed + msgUnits m.body.length) % 2 ^ 24, seqOut := (c.seqOut + 1) % 65536 })) := h.same rfl rfl rfl rfl
  exact ((hset.iff fun _ h => h.inc hsent).iff fun _ h => h.w hcredit).same rfl rfl rfl rfl

theorem fieldOut (h : g.Replies d) (m : Msg) (crc : Nat) : g.Replies (d.fieldOut m crc) := by
  have hput (d : Dev) (fn low : Nat) (data : List Byte) (h : g.Replies d) : g.Replies (d.fieldPut fn low data) :=
    h.iff fun _ h => h.same rfl rfl rfl rfl
  unfold Dev.fieldOut
  split
  · exact h.each fun k d h => hput d _ _ _ h
  · exact hput d _ _ _ h

end Dev.Replies

/-! ### The answer while no Riptide rule acts -/

theorem Dev.ripRule_quiet {i : Nat} (hi : bits (d.a (P.riptideRules + i)) 35 32 = 0) (port dir type : Nat) :
    d.ripRule port dir type i = (false, d) := by
  simp [Dev.ripRule, hi]

theorem Dev.ripPick_quiet (h : d.quiet = true) (port dir type : Nat) : d.ripPick port dir type = (none, d) := by
  unfold Dev.ripPick
  split
  · next hon =>
    have hrules : ∀ i < 4, bits (d.a (P.riptideRules + i)) 35 32 = 0 := by
      simpa [Dev.quiet, hon] using h
    simp [List.range_succ, Dev.ripRule_quiet (hrules 0 (by decide)), Dev.ripRule_quiet (hrules 1 (by decide)),
      Dev.ripRule_quiet (hrules 2 (by decide)), Dev.ripRule_quiet (hrules 3 (by decide))]
  · rfl

theorem Dev.start_quiet (h : d.quiet = true) (p : Nat) (m : Msg) : d.start p m = (d.ripPass true p m.vc).put p true m := by
  rw [Dev.start, Dev.ripPick_quiet h]

theorem Dev.fieldSend_quiet (h : d.quiet = true) (fn low : Nat) (body : List Byte) : d.fieldSend fn low body =
    (d.ripPass true 5 0).fieldOut { vc := 0, type := fn, island := d.island, src := low, body := body } (crc32c body) := by
  rw [Dev.fieldSend, Dev.ripPick_quiet h]

namespace Dev.Replies

variable {g : Dev}

theorem sendMsg (h : g.Replies d) (hq : g.quiet = true) (p : Nat) {m : Msg} (hvc : m.vc < 4) : g.Replies (d.sendMsg p m) := by
  unfold Dev.sendMsg
  split
  · exact h
  · split
    · rw [Dev.start_quiet (h.quiet.trans hq)]
      exact (h.ripPass _ _ _).put hvc
    · exact h.same rfl rfl rfl rfl

theorem flushReplies (h : g.Replies d) (hq : g.quiet = true) (l : List Reply) : g.Replies (Dev.flushReplies l d) := by
  induction l generalizing d with
  | nil => exact h.same rfl rfl rfl rfl
  | cons r l ih =>
    obtain ⟨id, result⟩ := r
    cases result with
    | none => exact h.same rfl rfl rfl rfl
    | some b => exact ih (h.sendMsg hq _ (by unfold Dev.homeMsg Dev.mkMsg; split <;> exact (by decide : 2 < 4)))

theorem answer (h : g.Replies d) (hq : g.quiet = true) (port id : Nat) (b : List Byte) : g.Replies (d.answer port id b) := by
  unfold Dev.answer
  split
  · exact h.flushReplies hq _
  · split
    · have hfld : g.Replies { d with fld := {} } := h.same rfl rfl rfl rfl
      rw [Dev.fieldSend_quiet (hfld.quiet.trans hq)]
      exact (hfld.ripPass _ _ _).fieldOut _ _
    · exact h

end Dev.Replies

/-! ### The values a Chart waits to write have no part in counting and answering -/

/-- A device with other values waiting. -/
def Dev.withCha (d : Dev) (c : Cha) : Dev := { d with cha := c }

variable {c : Cha}

theorem Dev.quiet_withCha : (d.withCha c).quiet = d.quiet := rfl

theorem Dev.iff_withCha {f : Dev → Dev} (hf : ∀ d : Dev, f (d.withCha c) = (f d).withCha c) (b : Bool) :
    (d.withCha c).iff b f = (d.iff b f).withCha c := by
  cases b
  · rfl
  · exact hf d

theorem Dev.each_withCha {α : Type} {l : List α} {f : α → Dev → Dev} (hf : ∀ x (d : Dev), f x (d.withCha c) = (f x d).withCha c) :
    (d.withCha c).each l f = (d.each l f).withCha c := by
  unfold Dev.each
  induction l generalizing d with
  | nil => rfl
  | cons x l ih => rw [List.foldl_cons, List.foldl_cons, hf, ih]

theorem Dev.inc_withCha (k : Nat) : (d.withCha c).inc k = (d.inc k).withCha c := by
  have ha : (d.withCha c).a k = d.a k := rfl
  unfold Dev.inc Dev.add
  rw [ha]
  dsimp only
  split
  · rfl
  · split
    · rfl
    · rfl

theorem Dev.countOp_withCha (status : Nat) : (d.withCha c).countOp status = (d.countOp status).withCha c := Dev.inc_withCha _

theorem Dev.w_withCha (k v : Nat) : (d.withCha c).w k v = (d.w k v).withCha c := rfl

theorem Dev.chan_withCha (p vc : Nat) : (d.withCha c).chan p vc = d.chan p vc := rfl

theorem Dev.showCredit_withCha (p vc : Nat) : (d.withCha c).showCredit p vc = (d.showCredit p vc).withCha c := by
  unfold Dev.showCredit
  refine Dev.iff_withCha (fun d => ?_) _
  rw [Dev.chan_withCha, Dev.w_withCha]

theorem Dev.put_withCha (p : Nat) (crcOk : Bool) (m : Msg) : (d.withCha c).put p crcOk m = (d.put p crcOk m).withCha c := by
  have hset (d : Dev) (f : Chan → Chan) : (d.withCha c).setChan p m.vc f = (d.setChan p m.vc f).withCha c := rfl
  have hcount (d : Dev) : (d.withCha c).iff (p == 0) (·.inc (P.mlTxMessageCount + m.vc)) =
      (d.iff (p == 0) (·.inc (P.mlTxMessageCount + m.vc))).withCha c := Dev.iff_withCha (fun _ => Dev.inc_withCha _) _
  have hemit (d : Dev) (o : Out) : (d.withCha c).emit o = (d.emit o).withCha c := rfl
  unfold Dev.put
  dsimp only
  rw [Dev.chan_withCha, hset, hcount, Dev.showCredit_withCha, hemit]

theorem Dev.fieldOut_withCha (m : Msg) (crc : Nat) : (d.withCha c).fieldOut m crc = (d.fieldOut m crc).withCha c := by
  have hput (d : Dev) (fn low : Nat) (data : List Byte) : (d.withCha c).fieldPut fn low data = (d.fieldPut fn low data).withCha c :=
    Dev.iff_withCha (fun _ => rfl) _
  unfold Dev.fieldOut
  split
  · exact Dev.each_withCha fun k d => hput d _ _ _
  · exact hput d _ _ _

theorem Dev.sendMsg_withCha (hq : d.quiet = true) (p : Nat) (m : Msg) : (d.withCha c).sendMsg p m = (d.sendMsg p m).withCha c := by
  have hjoin : (d.withCha c).joinCarries p m.vc m.type = d.joinCarries p m.vc m.type := rfl
  have hcan : (d.withCha c).canSend p m = d.canSend p m := rfl
  unfold Dev.sendMsg
  rw [hjoin, hcan, Dev.start_quiet hq, Dev.start_quiet (Dev.quiet_withCha.trans hq)]
  split
  · rfl
  · split
    · exact Dev.put_withCha (d := d.ripPass true p m.vc) p true m
    · rfl

theorem Dev.flushReplies_withCha (hq : d.quiet = true) (l : List Reply) :
    Dev.flushReplies l (d.withCha c) = (Dev.flushReplies l d).withCha c := by
  induction l generalizing d with
  | nil => rfl
  | cons r l ih =>
    obtain ⟨id, result⟩ := r
    cases result with
    | none => rfl
    | some b =>
      have hvc : (d.homeMsg 2 0x07 true (leBytes 4 id ++ b)).vc < 4 := by
        unfold Dev.homeMsg Dev.mkMsg; split <;> exact (by decide : 2 < 4)
      have hsent := (((Dev.Replies.refl d).sendMsg hq d.egress hvc).quiet).trans hq
      have hsend : (d.withCha c).sendHome 2 0x07 true (leBytes 4 id ++ b) = (d.sendHome 2 0x07 true (leBytes 4 id ++ b)).withCha c :=
        Dev.sendMsg_withCha hq _ _
      calc Dev.flushReplies l ((d.withCha c).sendHome 2 0x07 true (leBytes 4 id ++ b))
          = Dev.flushReplies l ((d.sendHome 2 0x07 true (leBytes 4 id ++ b)).withCha c) := by rw [hsend]
        _ = (Dev.flushReplies l (d.sendHome 2 0x07 true (leBytes 4 id ++ b))).withCha c := ih hsent

theorem Dev.answer_withCha (hq : d.quiet = true) (port id : Nat) (b : List Byte) :
    (d.withCha c).answer port id b = (d.answer port id b).withCha c := by
  unfold Dev.answer
  split
  · exact Dev.flushReplies_withCha hq _
  · have hfld : ({ d with fld := {} } : Dev).quiet = true := hq
    rw [show (d.withCha c).fld = d.fld from rfl, show ({ d.withCha c with fld := {} } : Dev) = ({ d with fld := {} } : Dev).withCha c from rfl,
      Dev.fieldSend_quiet hfld, Dev.fieldSend_quiet (Dev.quiet_withCha.trans hfld)]
    split
    · exact Dev.fieldOut_withCha (d := ({ d with fld := {} } : Dev).ripPass true 5 0) _ _
    · rfl

/-! ### What a reset puts out -/

/-- Between two devices nothing left but levels of pins, and Riptide took nothing to hold. -/
def Dev.Pins (g d : Dev) : Prop := (∃ l : List Out, (∀ x ∈ l, ∃ p b, x = .pin p b) ∧ d.out = g.out ++ l) ∧ (g.rip.held = [] → d.rip.held = [])

namespace Dev.Pins

variable {g d : Dev}

theorem refl (d : Dev) : Dev.Pins d d := ⟨⟨[], by simp, by simp⟩, id⟩

theorem same {d' : Dev} (h : g.Pins d) (hout : d'.out = d.out) (hrip : d'.rip.held = d.rip.held) : g.Pins d' := by
  obtain ⟨⟨l, hl, h⟩, hr⟩ := h
  exact ⟨⟨l, hl, hout.trans h⟩, fun hg => hrip.trans (hr hg)⟩

theorem pin (h : g.Pins d) (x : Pin) (level : Bool) : g.Pins (d.pin x level) := by
  obtain ⟨⟨l, hl, h⟩, hr⟩ := h
  refine ⟨⟨l ++ [Out.pin x level], fun y hy => ?_, ?_⟩, hr⟩
  · rcases List.mem_append.1 hy with hy | hy
    · exact hl y hy
    · exact ⟨x, level, List.mem_singleton.1 hy⟩
  · rw [Dev.pin, Dev.emit, h, List.append_assoc]

theorem iff {c : Bool} {f : Dev → Dev} (h : g.Pins d) (hf : ∀ d, g.Pins d → g.Pins (f d)) : g.Pins (d.iff c f) := by
  cases c
  · exact h
  · exact hf d h

theorem each {α : Type} {l : List α} {f : α → Dev → Dev} (h : g.Pins d) (hf : ∀ x d, g.Pins d → g.Pins (f x d)) : g.Pins (d.each l f) := by
  unfold Dev.each
  induction l generalizing d with
  | nil => exact h
  | cons x l ih => exact ih (hf x d h)

theorem wAll (h : g.Pins d) (l : List (Nat × Nat)) : g.Pins (d.wAll l) := by
  unfold Dev.wAll
  induction l generalizing d with
  | nil => exact h
  | cons x l ih => exact ih (h.same (d' := d.w x.1 x.2) rfl rfl)

theorem pinsIdle (h : g.Pins d) : g.Pins d.pinsIdle := by
  have hcoex : g.Pins (d.coexDrive false false) := ((h.iff fun _ h => h.pin _ _).iff fun _ h => h.pin _ _).same rfl rfl
  exact ((hcoex.iff fun _ h => h.pin _ _).iff fun _ h => h.pin _ _).iff fun _ h => h.pin _ _

theorem nvmReset (h : g.Pins d) (gone : Bool) : g.Pins (d.nvmReset gone) := by
  have hall := h.wAll ((d.nvm.alm.filter (fun e => gone || e.1 % 2 == 1)).map (fun e => (e.1 / 2, e.2)) |>.filter (fun e => isN e.1))
  unfold Dev.nvmReset
  dsimp only
  refine iff ?_ fun _ h => h.same rfl rfl
  split
  · exact hall.same rfl rfl
  · exact hall.same rfl rfl

theorem rfIdle (h : g.Pins d) : g.Pins d.rfIdle := by
  refine each h fun i d h => ?_
  unfold Dev.rfctl
  dsimp only
  split
  · exact h
  · exact (h.same rfl rfl).pin _ _

theorem quadsReset (h : g.Pins d) (old : Dev) : g.Pins (d.quadsReset old) := by
  have hset : g.Pins { d with rx := { d.rx with quads := (List.range 16).map (fun u =>
    if bit (old.a P.rxRetiredMask) u then { stage := 4 } else {}) } } := h.same rfl rfl
  exact hset.each fun _ _ h => h.same rfl rfl

theorem refoFollow (h : g.Pins d) : g.Pins d.refoFollow := by
  unfold Dev.refoFollow
  split
  · exact h
  · exact (h.same rfl rfl).pin _ _

theorem resetOutputs (h : g.Pins d) (old : Dev) (kind : Nat) : g.Pins (d.resetOutputs old kind) := by
  have hwrite : g.Pins (d.w P.rfctlLevels (old.a P.rfctlLevels)) := h.same rfl rfl
  refine (hwrite.rfIdle.quadsReset old).each fun i d h => ?_
  split
  · exact h.same rfl rfl
  · exact h.same rfl rfl

theorem resetTail (h : g.Pins d) (old : Dev) (kind : Nat) : g.Pins (d.resetTail old kind) := by
  have hclk : g.Pins (if kind == 0 || kind == 1 then { d with clk := { d.clk with mer := 0 } } else d) := by
    split
    · exact h.same rfl rfl
    · exact h
  have hwrites (d : Dev) (h : g.Pins d) : g.Pins (d.resetWrites old kind) := h.same rfl rfl
  exact (hwrites _ (hclk.resetOutputs old kind)).refoFollow

end Dev.Pins

theorem Dev.pins_reset (d : Dev) (kind : Nat) : (∃ l : List Out, (∀ x ∈ l, ∃ p b, x = .pin p b) ∧ (d.reset kind).1.out = d.out ++ l) ∧
    (d.reset kind).1.rip.held = [] := by
  have hkept : d.Pins (d.resetKept kind) := by
    have hidle : d.Pins { d.pinsIdle with alm := d.pinsIdle.alm.filter (fun e => keptKey kind e.1) } :=
      (Dev.Pins.refl d).pinsIdle.same rfl rfl
    exact hidle.nvmReset _
  obtain ⟨hout, -⟩ := hkept
  have hcleared : Dev.Pins { d with rip := {} } (d.cleared kind) := ⟨hout, fun _ => rfl⟩
  rw [Dev.reset_eq]
  obtain ⟨hout, hheld⟩ := hcleared.resetTail d kind
  exact ⟨hout, hheld rfl⟩

/-! ### An operation that is served at once -/

/-- The device an operation runs on, before its handle is used. -/
def Dev.front (d : Dev) (o : AlmOp) : Dev :=
  let d := (d.ripPass false (d.opPort o) o.vc).mgmtIn o true
  if o.port = 0 then d else { d with fld := { transfer := some o.id, answering := true } }

theorem Dev.desk_eq (d : Dev) (o : AlmOp) : d.desk o = (d.front o).sesUsed o.ses := rfl

theorem Dev.Replies.front {g : Dev} (h : g.Replies d) (o : AlmOp) : g.Replies (d.front o) := by
  have hin := (h.ripPass false (d.opPort o) o.vc).mgmtIn o true
  unfold Dev.front
  dsimp only
  split
  · exact hin
  · exact hin.same rfl rfl rfl rfl

theorem Dev.Replies.desk {g : Dev} (h : g.Replies d) (o : AlmOp) : g.Replies (d.desk o) := (h.front o).same rfl rfl rfl rfl

theorem Dev.ses_iff_inc (b : Bool) (k : Nat) : (d.iff b (·.inc k)).ses = d.ses := by
  cases b
  · rfl
  · obtain ⟨m, h⟩ := d.inc_shape k
    rw [Dev.iff_true, h]

theorem Dev.ses_front (d : Dev) (o : AlmOp) : (d.front o).ses = d.ses := by
  have hin (d : Dev) : (d.mgmtIn o true).ses = d.ses := by
    unfold Dev.mgmtIn
    split
    · exact Dev.ses_iff_inc _ _
    · rfl
  unfold Dev.front
  dsimp only
  split
  · exact hin _
  · exact hin (d.ripPass false (d.opPort o) o.vc)

theorem Dev.opIn_of_serves (p : Places) {o : AlmOp} (h : d.serves o = true) :
    d.opIn m p o = ((d.ripPass false (d.opPort o) o.vc).mgmtIn o true).opServe m p o := by
  obtain ⟨⟨hquiet, -⟩, hserved⟩ : (d.quiet = true ∧ d.rip.held.isEmpty = true) ∧ d.opServed o = true := by
    simpa [Dev.serves] using h
  rw [Dev.opIn, hserved]
  simp only [Dev.ripPick_quiet hquiet]
  rfl

/-- How an operation ends: counted and answered, and the reset it asked for made. -/
def OpEnd.close (e : OpEnd) (o : AlmOp) : Dev × List MemOp :=
  let d := if e.late then e.dev else (e.dev.countOp e.status).answer o.port o.id (resultOf e.status e.failed (o.n % 256) e.data)
  match e.rst with
  | none => (d, e.ops)
  | some k => let (d, ops) := d.reset k; (d, e.ops ++ ops)

theorem OpEnd.close_reset (o : AlmOp) (status kind : Nat) : ({ status := status, dev := d, rst := some kind } : OpEnd).close o =
    ((d.countOp status).answer o.port o.id (resultOf status 0xFF (o.n % 256) [])).reset kind := by
  simp only [OpEnd.close, Bool.false_eq_true, if_false, List.nil_append]

theorem Dev.opServe_eq (p : Places) (o : AlmOp) :
    ((d.ripPass false (d.opPort o) o.vc).mgmtIn o true).opServe m p o = ((d.front o).opRun m p o).close o := by
  rw [Dev.front]
  generalize (d.ripPass false (d.opPort o) o.vc).mgmtIn o true = e
  rfl

variable {o : AlmOp} {value : Nat} {y : Ses}

/-- A write to ResetCommand that is served runs at the desk. -/
theorem Dev.opIn_resetCommand (p : Places) (h : value < 256) (hop : o.op = 2) (hn : o.n = 1) (hitems : o.items = [resetItem value])
    (hserves : d.serves o = true) (hses : d.sesOn o.port o.ses = some y) (hstatus : itemStatus y.role true (resetItem value) = 0)
    (hphase : d.pwr.phase ≠ .restricted) :
    d.opIn m p o = OpEnd.close (if value = 165 then { status := 0, dev := (d.desk o).storeChange (resetChg value), rst := some 3 }
      else { status := 5, failed := 0, dev := d.desk o }) o := by
  have hses' : (d.front o).sesOn o.port o.ses = some y := by
    rw [← hses, Dev.sesOn, Dev.sesOn, Dev.sesAt, Dev.sesAt, Dev.ses_front]
  obtain ⟨-, hpwr, -⟩ := (Dev.Replies.refl d).desk o
  have hphase' : (d.desk o).pwr.phase ≠ .restricted := by rw [hpwr]; exact hphase
  rw [Dev.opIn_of_serves p hserves, Dev.opServe_eq, Dev.opRun_write p hop hn hitems hses', ← Dev.desk_eq,
    Dev.opWrite_resetCommand p h hitems hstatus hphase']

/-- The answer to an operation that is served. -/
def Dev.answered (d : Dev) (o : AlmOp) (status failed : Nat) : Dev :=
  ((d.desk o).countOp status).answer o.port o.id (resultOf status failed (o.n % 256) [])

theorem Dev.Replies.answered (hserves : d.serves o = true) (status failed : Nat) : d.Replies (d.answered o status failed) := by
  have hquiet : d.quiet = true := by
    simp only [Dev.serves, Bool.and_eq_true] at hserves
    exact hserves.1.1
  exact (((Dev.Replies.refl d).desk o).countOp status).answer hquiet _ _ _

theorem Dev.held_of_serves (hserves : d.serves o = true) : d.rip.held.isEmpty = true := by
  simp only [Dev.serves, Bool.and_eq_true] at hserves
  exact hserves.1.2

/-- With nothing held no message is released behind the operation. -/
theorem Dev.opArrive_of_held (p : Places) {e : Dev} {ops : List MemOp} (hin : d.opIn m p o = (e, ops)) (hheld : e.rip.held.isEmpty = true) :
    d.opArrive m p o = (e.noteIdle, ops) := by
  rw [Dev.opArrive, hin]
  simp [hheld]

theorem Dev.opArrive_refused (p : Places) (h : value < 256) (hop : o.op = 2) (hn : o.n = 1) (hitems : o.items = [resetItem value])
    (hserves : d.serves o = true) (hses : d.sesOn o.port o.ses = some y) (hstatus : itemStatus y.role true (resetItem value) = 0)
    (hphase : d.pwr.phase ≠ .restricted) (hv : value ≠ 165) : d.opArrive m p o = ((d.answered o 5 0).noteIdle, []) := by
  obtain ⟨-, -, -, hheld⟩ := Dev.Replies.answered hserves 5 0
  refine Dev.opArrive_of_held p ?_ (hheld.trans (Dev.held_of_serves hserves))
  rw [Dev.opIn_resetCommand p h hop hn hitems hserves hses hstatus hphase, if_neg hv]
  rfl

/-- Taking ResetCommand off the waiting values does not show in the answer. -/
theorem Dev.opArrive_accepted (p : Places) (hop : o.op = 2) (hn : o.n = 1) (hitems : o.items = [resetItem 165])
    (hserves : d.serves o = true) (hses : d.sesOn o.port o.ses = some y) (hstatus : itemStatus y.role true (resetItem 165) = 0)
    (hphase : d.pwr.phase ≠ .restricted) :
    ∃ c, d.opArrive m p o = ((((d.answered o 0 0xFF).withCha c).reset 3).1.noteIdle, (((d.answered o 0 0xFF).withCha c).reset 3).2) := by
  obtain ⟨c, hc⟩ : ∃ c, (d.desk o).storeChange (resetChg 165) = (d.desk o).withCha c := ⟨_, Dev.storeChange_resetCommand _⟩
  have hquiet : d.quiet = true := by
    simp only [Dev.serves, Bool.and_eq_true] at hserves
    exact hserves.1.1
  have hcount : ((d.desk o).countOp 0).quiet = true := ((((Dev.Replies.refl d).desk o).countOp 0).quiet).trans hquiet
  have hanswer : (((d.desk o).withCha c).countOp 0).answer o.port o.id (resultOf 0 0xFF (o.n % 256) []) = (d.answered o 0 0xFF).withCha c := by
    rw [Dev.countOp_withCha, Dev.answer_withCha hcount]
    rfl
  obtain ⟨-, hheld⟩ := ((d.answered o 0 0xFF).withCha c).pins_reset 3
  refine ⟨c, Dev.opArrive_of_held p ?_ (by rw [hheld]; rfl)⟩
  rw [Dev.opIn_resetCommand p (by decide) hop hn hitems hserves hses hstatus hphase, if_pos rfl, hc, OpEnd.close_reset, hanswer]

/-! ### The claim -/

theorem claim_resetValue : Claims.resetValue := by
  intro s dt value w y o d hvalue hcomes
  obtain ⟨hserves, hses, hstatus, hrestricted⟩ := hcomes
  rw [writeItem_resetCommand] at hserves hstatus
  have ho : o = s.rowOp dt w (resetItem value) {} := by rw [← writeItem_resetCommand]
  rw [← ho] at hserves
  have hitems : o.items = [resetItem value] := by rw [ho]; rfl
  rw [does_onAll (f := fun d m p => d.rowWrite m p w (writeItem P.resetCommand 0 [value]) {}) rfl]
  have hrow (p : Places) : (s.at_ dt).rowWrite s.mem p w (writeItem P.resetCommand 0 [value]) {} =
      ((s.at_ dt).free 742 32).2.opArrive s.mem p o := rfl
  have hpwr : ((s.at_ dt).free 742 32).2.pwr = s.dev.pwr := s.arrive_pwr dt
  have hlpo : ((s.at_ dt).free 742 32).2.clk.onLpo = s.dev.clk.onLpo := s.arrive_onLpo dt
  have ha (k : Nat) (hk : evKey k = false) : ((s.at_ dt).free 742 32).2.a k = s.a k := s.arrive_a dt hk
  have hphase : ((s.at_ dt).free 742 32).2.pwr.phase ≠ .restricted := by rw [hpwr]; exact hrestricted
  rw [hrow]
  clear hrow
  have hdesk : d = ((s.at_ dt).free 742 32).2.desk o := rfl
  have hport : o.port = w.port := rfl
  have hhandle : o.ses = w.ses := rfl
  have hop : o.op = 2 := rfl
  have hn : o.n = 1 := rfl
  clear_value d o
  have hanswer (status failed : Nat) : (d.countOp status).answer w.port o.id (resultOf status failed 1 []) =
      ((s.at_ dt).free 742 32).2.answered o status failed := by
    rw [Dev.answered, hdesk, hport, hn]
  rw [hanswer, hanswer]
  clear hanswer hdesk
  rw [← hport, ← hhandle] at hses
  generalize ((s.at_ dt).free 742 32).2 = e at *
  by_cases hv : value = 165
  · subst hv
    obtain ⟨c, harrive⟩ := Dev.opArrive_accepted (m := s.mem) (s.arrive dt).places hop hn hitems hserves hses hstatus hphase
    obtain ⟨-, -, honlpo, -⟩ := Dev.Replies.answered hserves 0 0xFF
    obtain ⟨⟨l, hl, hout⟩, -⟩ := ((e.answered o 0 0xFF).withCha c).pins_reset 3
    obtain ⟨hkind, hafter, -⟩ := ((e.answered o 0 0xFF).withCha c).reset_kept (kind := 3) rfl
    rw [harrive]
    refine ⟨fun _ => ⟨by rw [State.leave_pwr]; exact hkind, ?_, l, hl, by rw [State.leave_out]; exact hout⟩, fun h => absurd rfl h⟩
    rw [State.leave_pwr, ← hlpo, ← honlpo]
    exact hafter
  · obtain ⟨hkeys, hkept, -⟩ := Dev.Replies.answered hserves 5 0
    rw [Dev.opArrive_refused _ hvalue hop hn hitems hserves hses hstatus hphase hv]
    refine ⟨fun h => absurd h hv, fun _ => ⟨rfl, ?_, ?_, State.leave_out .., fun k hk hr => ?_⟩⟩
    · rw [State.leave_pwr, ← hpwr, ← hkept]
      rfl
    · rw [State.leave_pwr, ← hpwr, ← hkept]
      rfl
    · rw [State.a, State.leave_a _ _ _ hk, Dev.a_noteIdle, hkeys k hk hr, ha k hk]

/-- Settles O8: of the checks of a write only that of the value can refuse ResetCommand, so 0xA5 is accepted and every other value
answered with STATUS 5; neither the counting nor the answering of the operation moves more than parameters of `replyKey`. -/
theorem resetCommandTakesA5Alone : Obligations.ResetCommandTakesA5Alone := claim_resetValue

end Sys2Proof.Machine
end

section
/-!
`Steady`, function by function: units brought into ACTIVE, and the commit of a hand-over.
-/

namespace Sys2Proof.Machine

namespace Steady
variable {b : Scope} {g d : Dev}

/-! ### Synthesisers and DPD models -/

theorem synthOpen (h : Steady b g d) {k : Nat} : Steady b g (d.synthOpen k) := by
  unfold Dev.synthOpen
  split
  · exact h.same rfl
  · exact h

theorem synthTry (h : Steady b g d) {k : Nat} (hk : k < 12) : Steady b g (d.synthTry k) :=
  same (h.wAt (k := P.synthState) (v := 1) hk rfl) rfl

theorem synthsCal (h : Steady b g d) {mask : Nat} : Steady b g (d.synthsCal mask) := by
  refine h.each fun k hk d h => ?_
  exact same (w (synthTry h.synthOpen (lt_of_mem_bitList hk)) rfl) rfl

theorem wListIn (h : Steady b g d) (lo n : Nat) {k : Nat} {vs : List Nat} (h1 : lo ≤ k) (h2 : k + vs.length ≤ lo + n)
    (ha : awayFrom lo n = true) : Steady b g (d.wList k vs) := by
  have hfold (l : List (Nat × Nat)) (hl : ∀ x ∈ l, x.2 < vs.length) {d : Dev} (h : Steady b g d) :
      Steady b g (l.foldl (fun acc p => acc.w (k + p.2) p.1) d) := by
    induction l generalizing d with
    | nil => exact h
    | cons x l ih =>
      have hx : x.2 < vs.length := hl x (List.mem_cons_self ..)
      exact ih (fun y hy => hl y (List.mem_cons_of_mem x hy)) (h.wIn lo n (by omega) (by omega) ha)
  refine hfold _ (fun x hx => ?_) h
  exact List.mem_range.mp (List.of_mem_zip hx).2

theorem setModel (h : Steady b g d) {p : Nat} {m : List Nat} (hp : p < 64) : Steady b g (d.setModel p m) := by
  refine h.wListIn P.dpdModel0 (64 * 2 ^ 24) (Nat.le_add_right _ _) ?_ (by rfl)
  rw [List.length_map, List.length_range]
  unfold modelKey
  omega

theorem warmLoad (h : Steady b g d) {p : Nat} (hp : p < 64) : Steady b g (d.warmLoad p) := by
  unfold Dev.warmLoad
  dsimp only
  split
  · exact h
  · split
    · exact h.wAt hp rfl
    · exact setDpd (wAt (h.setModel hp) hp rfl)

theorem warmLoadQuad (h : Steady b g d) {q : Nat} (hq : q < 4) : Steady b g (d.warmLoadQuad q) := by
  refine h.each fun i hi d h => h.warmLoad ?_
  have hi16 : i < 16 := List.mem_range.mp hi
  omega

/-! ### The way up -/

theorem beginUp (h : Steady b g d) {target : Nat} : Steady b g (d.beginUp target) := h.begin.synthsCal

theorem goUp (h : Steady b g d) {target cause : Nat} : Steady b g (d.goUp target cause) := by
  unfold Dev.goUp
  split
  · exact h.setPwr rfl
  · split
    · exact h
    · split
      · exact h.setPwr rfl
      · exact h.beginUp

theorem startUnit (h : Steady b g d) {u : Nat} (hu : u < 6) : Steady b g (d.startUnit u) := by
  refine iff (iff h.begin fun hc d h => ?_) fun _ d h => h.synthsCal
  have hquad : u - 2 < 4 := by omega
  exact h.warmLoadQuad hquad

theorem bringUnit (h : Steady b g d) {u : Nat} (hu : u < 6) : Steady b g (d.bringUnit u) := by
  unfold Dev.bringUnit
  split
  · exact h
  · split
    · exact h.startUnit hu
    · refine goUp (setPwr h ?_)
      rfl

theorem bringUnits (h : Steady b g d) {mask : Nat} : Steady b g (d.bringUnits mask) :=
  noteIdle (h.each fun _ hu _ h => h.bringUnit (lt_of_mem_bitList hu))

theorem nameState (h : Steady b g d) {target : Nat} : Steady b g (d.nameState target) := h.setPwr rfl

theorem serveWake (h : Steady b g d) {cause target : Nat} : Steady b g (d.serveWake cause target) := by
  have hsource : Steady b g (d.iff (cause != 255) (·.w P.wakeLastSource cause)) := h.iff fun _ _ h => h.w rfl
  unfold Dev.serveWake
  dsimp only
  split
  · exact hsource.bringUnits
  · exact hsource.goUp

theorem wake (h : Steady b g d) {cause target : Nat} : Steady b g (d.wake cause target) := by
  unfold Dev.wake
  generalize (if d.goingDown then d.downTo else d.pwr.base) = from_
  dsimp only
  generalize (d.mayWake && d.ab P.wakeSourceMask cause && ((causeFrom cause).contains 1 || (causeFrom cause).contains from_)) = named
  have hnamed : Steady b g (d.iff named (·.nameState target)) := h.iff fun _ _ h => h.nameState
  split
  · exact hnamed
  · split
    · exact hnamed.setPwr rfl
    · split
      · exact hnamed
      · exact hnamed.serveWake

theorem ephBegin (h : Steady b g d) {e : EphEnt} {late : Bool} : Steady b g (d.ephBegin e late) := by
  unfold Dev.ephBegin
  split
  · exact h
  · next t _ =>
    dsimp only
    generalize ((d.mayWake && (e.action != 1 || d.ab P.wakeSourceMask 0)) && d.a P.pwrActiveMask == 0 && decide (d.stands < t)) = acts
    have hwakes : Steady b g ((d.iff (e.action == 5) (fun d =>
        { d with col := { d.col with before := d.stands }, pwr := { d.pwr with named := 0 } })).iff acts (fun d =>
        { d with pwr := { d.pwr with wakes := d.pwr.wakes ++ [(t, e.ns, late)] } })) :=
      iff (h.iff fun _ _ h => h.same rfl) fun _ _ h => h.setPwr rfl
    split
    · exact hwakes.wake
    · exact hwakes.iff fun _ _ h => h.goUp

/-! ### Bursts and the Collimation window -/

theorem endBurst (h : Steady b g d) {q slot cause : Nat} (hq : q < 4) : Steady b g (d.endBurst q slot cause) := by
  unfold Dev.endBurst
  dsimp only
  split
  · exact h
  · exact coexUpdate (refreshTx (reportDrop (setBurst h.dpdAbandon.leaveOn) hq) hq)

theorem burstsEnd (h : Steady b g d) : Steady b g d.burstsEnd := by
  refine h.each fun q hq d h => ?_
  split
  · exact h.endBurst (lt_four_of_mem hq)
  · exact h

theorem colOpen (h : Steady b g d) {start length : Nat} {force arch : Bool} : Steady b g (d.colOpen start length force arch) := by
  unfold Dev.colOpen
  split
  · exact h.setCol
  · dsimp only
    have hwin {x : Col} : Steady b g (({ d with col := x } : Dev).each [0, 1, 2, 3] (fun q d => d.dpdAbandon q)) :=
      h.setCol.each fun _ _ _ h => h.dpdAbandon
    split
    · exact hwin.showCol
    · split
      · exact showCol (raise (incN hwin rfl) rfl)
      · exact iff (showCol (bringUnits (w hwin.setCol rfl))) fun _ _ h => h.colAbandon

/-! ### Receive paths and bias outputs at a commit -/

theorem prealignOff (h : Steady b g d) {u : Nat} {roles : List Nat} : Steady b g (d.prealignOff u roles) := by
  unfold Dev.prealignOff
  dsimp only
  split
  · exact inc h.setRx rfl
  · exact h

theorem settleChain (h : Steady b g d) {k p dur : Nat} : Steady b g (d.settleChain k p dur) := by
  have hrun : Steady b g (d.settleRun k p d.actAt (d.actAt + dur)) := h.setRx
  exact hrun.prealignOff

theorem setPhase (h : Steady b g d) {k v : Nat} : Steady b g (d.setPhase k v) := h.setRx

theorem retunePrealign (h : Steady b g d) {q k : Nat} : Steady b g (d.retunePrealign q k) :=
  h.each fun _ _ _ h => h.iff fun _ _ h => h.prealignOff

theorem channelCommit (h : Steady b g d) {k : Nat} (hk : k < 12) : Steady b g (d.channelCommit k) := by
  have hsyn {x : Syn} : Steady b g { d.synthOpen k with syn := x } := h.synthOpen.same rfl
  have hquad : k / 3 < 4 := by omega
  unfold Dev.channelCommit
  dsimp only
  split
  · exact refreshTx (stopBurst (w (hsyn.synthTry hk) rfl) hquad) hquad
  · exact retunePrealign (w (hsyn.synthTry hk) rfl)

theorem commitGain (h : Steady b g d) {p : Nat} {events : Bool} (hp : p < 2) : Steady b g (d.commitGain p events) := by
  refine iff (iff (wGk (i := 0) (h.each fun i hi d h => ?_) 1 hp (by decide) rfl) fun _ _ h => h.raise rfl) fun _ _ h => h.raise rfl
  exact iff (h.wGk 64 hp (List.mem_range.mp hi) rfl) fun _ _ h => h.settleChain

theorem commitLo (h : Steady b g d) {k shadow active : Nat} (hk : k < 12) (hactive : ∀ {d}, Steady b g d → ∀ v, Steady b g (d.w active v)) :
    Steady b g (d.commitLo k shadow active) := by
  unfold Dev.commitLo
  split
  · exact h
  · exact iff (hactive h _) fun _ _ h => h.channelCommit hk

theorem commitNco (h : Steady b g d) {k shadow active : Nat} (hactive : ∀ {d}, Steady b g d → ∀ v, Steady b g (d.w active v)) :
    Steady b g (d.commitNco k shadow active) := by
  unfold Dev.commitNco
  split
  · exact h
  · dsimp only
    split
    · exact (hactive h.setPhase _).setRx
    · exact hactive h.setPhase _

theorem bankAtOnce (h : Steady b g d) {p : Nat} (hp : p < 2) : Steady b g (d.bankAtOnce p) := by
  unfold Dev.bankAtOnce
  dsimp only
  split
  · exact h
  · exact wGk (i := 0) (wGk (wGk h 4 hp (Nat.mod_lt _ (by omega)) rfl) 4 hp (Nat.mod_lt _ (by omega)) rfl) 1 hp (by decide) rfl

theorem fadeTo (h : Steady b g d) {p : Nat} (hp : p < 2) : Steady b g (d.fadeTo p) := by
  have hrefuse (v arg : Nat) : Steady b g ((d.w (gk P.firBankShadowA p) v).raise 25 arg) :=
    raise (h.wGk (i := 0) 1 hp (by decide) rfl) rfl
  unfold Dev.fadeTo
  dsimp only
  split
  · exact h
  · split
    · exact hrefuse _ _
    · split
      · exact hrefuse _ _
      · exact setRx (wGk (i := 0) (wGk (wGk h 4 hp (Nat.mod_lt _ (by omega)) rfl) 4 hp (Nat.mod_lt _ (by omega)) rfl) 1 hp (by decide) rfl)

theorem commitBank (h : Steady b g d) {p : Nat} (hp : p < 2) : Steady b g (d.commitBank p) := by
  unfold Dev.commitBank
  split
  · exact h.fadeTo hp
  · exact h.bankAtOnce hp

theorem commitRx (h : Steady b g d) {p : Nat} {events : Bool} (hp : p < 2) : Steady b g (d.commitRx p events) := by
  unfold Dev.commitRx
  split
  · exact h
  · refine commitBank (each (h.commitGain hp) fun q hq d h => ?_) hp
    have hquad : q < 4 := lt_four_of_mem hq
    exact commitLo (h.commitNco fun h _ => h.wGk 4 hp hquad rfl) (by omega) fun h _ => h.wGk 4 hp hquad rfl

theorem restep (h : Steady b g d) {p : Nat} (hp : p < 64) : Steady b g (d.restep p) := by
  have hdrive : Steady b g ((d.w (P.txStepEffective + p) (d.stepNow p)).driveBias p) := driveBias (h.wAt hp rfl) (by omega)
  unfold Dev.restep
  dsimp only
  split
  · exact hdrive
  · exact hdrive.same rfl

theorem commitSteps (h : Steady b g d) {q : Nat} {events : Bool} (hq : q < 4) : Steady b g (d.commitSteps q events) := by
  have hpaths : Steady b g (d.each ((List.range 16).map (fun i => 16 * q + i)) (fun p d =>
      (d.w (P.txStepActive + p) (d.a (P.txStepShadow + p))).restep p)) := by
    refine h.each fun p hp d h => ?_
    obtain ⟨i, hi, rfl⟩ := List.mem_map.mp hp
    have hi16 : i < 16 := List.mem_range.mp hi
    exact restep (h.wAt (n := 64) (by omega) rfl) (by omega)
  unfold Dev.commitSteps
  dsimp only
  split
  · exact hpaths.iff fun _ _ h => h.raise rfl
  · exact hpaths

theorem commitTx (h : Steady b g d) {q : Nat} {events : Bool} (hq : q < 4) : Steady b g (d.commitTx q events) := by
  refine commitSteps (commitLo (h.each fun p hp d h => ?_) (by omega) fun h _ => h.wAt hq rfl) hq
  exact h.commitNco fun h _ => h.wGk 4 (lt_two_of_mem hp) hq rfl

theorem biasDrive (h : Steady b g d) (hb : b.outputs = false) {i code : Nat} (hi : i < 80) : Steady b g (d.biasDrive i code) :=
  setBias (biasTo (h.wAt hi rfl) hb hi)

theorem commitBias (h : Steady b g d) (hb : b.outputs = false) {k : Nat} (hk : k < 5) : Steady b g (d.commitBias k) := by
  refine h.each fun i hi d h => ?_
  have hout : i < 80 := by
    obtain ⟨j, hj, rfl⟩ := List.mem_map.mp hi
    have hj16 : j < 16 := List.mem_range.mp hj
    omega
  dsimp only
  split
  · split
    · exact h
    · exact h.biasDrive hb hout
  · split
    · exact h.biasDrive hb hout
    · exact h

theorem colCentres (h : Steady b g d) : Steady b g d.colCentres := by
  unfold Dev.colCentres
  split
  · exact h
  · exact h.iff fun _ _ h => h.colSet

/-- The commit of one unit of a hand-over (R443). -/
theorem commitUnit (h : Steady b g d) (hb : b.outputs = false) {u : Nat} (hu : u < 11) {events : Bool} : Steady b g (d.commitUnit u events) := by
  have hcol : Steady b g (d.iff (d.changesLo u) (·.colAbandon 3)) := h.iff fun _ _ h => h.colAbandon
  unfold Dev.commitUnit
  dsimp only
  split
  · exact colCentres (hcol.commitRx (by omega))
  · split
    · exact colCentres (hcol.commitTx (by omega))
    · exact hcol.commitBias hb (by omega)

end Steady
end Sys2Proof.Machine
end

section
/-!
An Ephemeris entry that fires: what every action leaves of the table and the count (R441), hand-overs (R443), Charts (R582) and the
synchronising reset (R50).
-/

namespace Sys2Proof.Machine

/-! ### Firing -/

/-- What an entry does once it has acted: it is counted, EV87 is raised if it asks for it, and idling is noted. -/
def Dev.ephDone (d : Dev) (flag : Bool) (arg : Nat) : Dev := ((d.inc P.ephFiredCount).iff flag (·.raise 87 arg)).noteIdle

/-- An entry that fires is freed, acts at its instant, and what waits for a hand-over that is not put off lands. -/
def Dev.ephActed (d : Dev) (i : Nat) (e : EphEnt) : Dev :=
  let r := (d.ephAct i e 0).2
  (d.acting (d.ephInstant e) (fun d => (d.ephAct i e 0).1)).iff (e.action == 3 && r != 2) (·.ephLand i)

theorem State.fires_iff {s : State} {dt i n : Nat} {e : EphEnt} : s.fires dt i n e = true ↔
    (s.at_ dt).ephAt i = some e ∧ e.action = n ∧ (s.at_ dt).ephDue e = true ∧ (s.at_ dt).ephFirst i e = true ∧
      (s.at_ dt).ephHeld = false := by
  simp only [State.fires, Bool.and_eq_true, beq_iff_eq, Bool.not_eq_true']
  tauto

theorem State.ephGo_of_fires {s : State} {dt i n : Nat} {e : EphEnt} (h : s.fires dt i n e = true) :
    ∃ flag arg, (s.at_ dt).ephGo i n 0 = (((s.at_ dt).ephFree i).ephActed i e).ephDone flag arg := by
  obtain ⟨hat, haction, hdue, hfirst, hheld⟩ := State.fires_iff.mp h
  refine ⟨bit e.flags 1, i + 1024 * e.action + 16384 * (((s.at_ dt).ephFree i).ephAct i e 0).2, ?_⟩
  rw [Dev.ephGo, hat]
  dsimp only
  rw [if_pos ⟨haction, hdue, hfirst, by rw [hheld]; rfl⟩]
  rfl

variable {d : Dev} {i : Nat} {e : EphEnt} {flag : Bool} {arg : Nat}

theorem Dev.ephDone_shape (d : Dev) (flag : Bool) (arg : Nat) :
    ∃ m ev x, d.ephDone flag arg = { d with alm := m, edge := ev, pwr := { d.pwr with idleSince := x } } := by
  obtain ⟨m, hm⟩ := d.inc_shape P.ephFiredCount
  unfold Dev.ephDone
  cases flag
  · rw [Dev.iff_false, hm]
    exact ⟨_, _, _, rfl⟩
  · obtain ⟨m', ev, hr⟩ := (d.inc P.ephFiredCount).raise_shape 87 arg
    rw [Dev.iff_true, hr, hm]
    exact ⟨_, _, _, rfl⟩

theorem Dev.syncPend_ephDone (d : Dev) (flag : Bool) (arg : Nat) : (d.ephDone flag arg).pwr.syncPend = d.pwr.syncPend := by
  obtain ⟨m, ev, x, h⟩ := d.ephDone_shape flag arg
  rw [h]

theorem Dev.a_ephDone_inc {k : Nat} (hk : evKey k = false) : (d.ephDone flag arg).a k = (d.inc P.ephFiredCount).a k := by
  rw [Dev.ephDone, Dev.a_noteIdle]
  cases flag
  · rfl
  · exact Dev.a_raise _ _ (by decide) hk

theorem Dev.a_ephDone {k : Nat} (hk : evKey k = false) (hne : P.ephFiredCount ≠ k) : (d.ephDone flag arg).a k = d.a k := by
  rw [Dev.a_ephDone_inc hk, Dev.a_inc_ne _ hne]

theorem Raised.ephDone {n a : Nat} (h : Raised d n a) : Raised (d.ephDone flag arg) n a := by
  have hinc : Raised (d.inc P.ephFiredCount) n a := by
    obtain ⟨m, hm⟩ := d.inc_shape P.ephFiredCount
    exact h.of_edge (by rw [hm])
  rw [Dev.ephDone]
  cases flag
  · exact hinc.noteIdle
  · exact (hinc.raise 87 arg).noteIdle

/-- An action that keeps the table and the count leaves its entry free and counted. -/
theorem State.fired_of_kept {s : State} {dt : Nat} {mem : Memory} {g : Dev} (hg : (s.at_ dt).ephFree i = g)
    (hcount : d.a P.ephFiredCount = g.a P.ephFiredCount) (hent : d.eph.ent = g.eph.ent) :
    Claims.Fired s ((s.arrive dt).leave (d.ephDone flag arg) mem) i := by
  subst hg
  replace hcount : d.a P.ephFiredCount = s.a P.ephFiredCount := hcount.trans (s.arrive_a dt (by decide))
  obtain ⟨m, ev, x, hdone⟩ := d.ephDone_shape flag arg
  constructor
  · rw [State.leave_eph, hdone]
    dsimp only
    rw [hent, Dev.ephFree, State.at_, State.arrive_eph]
  · intro hlt
    rw [← hcount] at hlt ⊢
    rw [State.a, State.leave_a _ _ _ (by decide), Dev.a_ephDone_inc (by decide), Dev.a_inc_lt _ _ hlt]

theorem State.fired_of_steady {s : State} {dt : Nat} {b : Scope} {mem : Memory} {g : Dev} (hg : (s.at_ dt).ephFree i = g)
    (h : Steady b g d) : Claims.Fired s ((s.arrive dt).leave (d.ephDone flag arg) mem) i := by
  obtain ⟨hkey, -, -, -, -, hent, -⟩ := h
  exact State.fired_of_kept hg (hkey P.ephFiredCount (by simp [steadyKey])) hent

theorem Steady.acting {b : Scope} {g : Dev} {at_ : Nat} {f : Dev → Dev} (h : Steady b g d) (hf : ∀ d, Steady b g d → Steady b g (f d)) :
    Steady b g (d.acting at_ f) := by
  have hact : Steady b g { d with clk := { d.clk with act := some at_ } } := h.same rfl
  exact (hf _ hact).same rfl

theorem Raised.acting {n a at_ : Nat} {f : Dev → Dev} (h : ∀ d, Raised (f d) n a) : Raised (d.acting at_ f) n a := h _

/-- An action that does the same whatever the clock shows. -/
theorem Dev.ephActed_eq {f : Dev → Dev} {r : Nat}
    (hact : ∀ c : Clk, ({ d with clk := c } : Dev).ephAct i e 0 = (f { d with clk := c }, r)) :
    d.ephActed i e = (d.acting (d.ephInstant e) f).iff (e.action == 3 && r != 2) (·.ephLand i) := by
  have hland : (d.ephAct i e 0).2 = r := congrArg Prod.snd (hact d.clk)
  rw [Dev.ephActed, hland, Dev.acting, Dev.acting, hact]

theorem Dev.pw_withClk (c : Clk) : ({ d with clk := c } : Dev).pw = d.pw := rfl

theorem State.pw_at (s : State) (dt i : Nat) : ((s.at_ dt).ephFree i).pw = s.a P.pwrState := s.arrive_a dt (by decide)

/-! ### Hand-overs -/

/-- The shadow keys a hand-over writes are none of those `Steady` speaks of. -/
theorem Steady.wShadow {b : Scope} {g : Dev} (h : Steady b g d) (hb : b.outputs = false) {k v : Nat} (hk : (shadowUnit k).isSome = true) :
    Steady b g (d.w k v) := by
  have hnone : ∀ j ∈ [P.railStatus, P.refclkState, P.syncResetCount, P.ephFiredCount, P.pwrActiveMask], shadowUnit j = none := by decide
  have hne {j : Nat} (hj : shadowUnit j = none) : k ≠ j := by
    rintro rfl
    rw [hj] at hk
    exact absurd hk (by decide)
  obtain ⟨hkey, hmask, hrest⟩ := h
  refine ⟨fun j hj => ?_, fun hu hg => ?_, hrest⟩
  · rw [Dev.a_w_ne _ _ (hne ?_), hkey j hj]
    simp only [steadyKey, hb, Bool.false_and, Bool.or_false, Bool.or_eq_true, beq_iff_eq] at hj
    refine hnone j ?_
    simp only [List.mem_cons]
    tauto
  · rw [Dev.a_w_ne _ _ (hne (hnone _ (by simp))), hmask hu hg]

theorem Steady.ephLand {b : Scope} {g : Dev} (h : Steady b g d) (hb : b.outputs = false) : Steady b g (d.ephLand i) := by
  have hall (l : List (Nat × Nat)) (hl : ∀ x ∈ l, (shadowUnit x.1).isSome = true) {d : Dev} (h : Steady b g d) : Steady b g (d.wAll l) := by
    unfold Dev.wAll
    induction l generalizing d with
    | nil => exact h
    | cons x l ih => exact ih (fun y hy => hl y (List.mem_cons_of_mem x hy)) (h.wShadow hb (hl x (List.mem_cons_self ..)))
  have hpend {x : Eph} (hx : x.ent = d.eph.ent) : Steady b g { d with eph := x } := by
    refine h.same ?_
    simp only [Dev.steadyPart, hx]
  refine Steady.each (hpend (by rfl)) fun x _ d h => hall _ (fun y hy => ?_) h
  exact (List.mem_filter.mp hy).2

theorem Steady.handover {b : Scope} {g : Dev} (h : Steady b g d) (hb : b.outputs = false) {arg : Nat} : Steady b g (d.handover arg) := by
  refine Steady.raise (Steady.each ?_ fun u hu d h => h.commitUnit hb (lt_of_mem_bitList hu)) rfl
  exact h.same rfl

theorem Dev.raised_handover (d : Dev) (arg : Nat) : Raised (d.handover arg) 92 (arg % 2048) := Dev.raised_raise _ _ _

theorem Dev.ephAct_handover (h : e.action = 3) : d.ephAct i e 0 =
    if d.pw == 0 then (d.ephDefer 3 i e.arg, 2) else (d.handover e.arg, 0) := by
  unfold Dev.ephAct
  simp only [h]

/-- What an Ephemeris action may do beside: wake units and drive bias outputs. -/
def ephScope : Scope := { outputs := false, units := false }

theorem claim_ephHandover : Claims.ephHandover := by
  intro s dt i e hfires _
  have haction : e.action = 3 := (State.fires_iff.mp hfires).2.1
  obtain ⟨flag, arg, hgo⟩ := State.ephGo_of_fires hfires
  rw [doesDev_onDev (f := fun d => d.ephGo i 3 0) rfl, hgo]
  have hpw := s.pw_at dt i
  have hpwr : ((s.at_ dt).ephFree i).pwr = s.dev.pwr := s.arrive_pwr dt
  generalize hd : (s.at_ dt).ephFree i = d at *
  by_cases hdeep : s.a P.pwrState = 0
  · have hacted := Dev.ephActed_eq (d := d) (i := i) (e := e) (f := fun d => d.ephDefer 3 i e.arg) (r := 2) fun c => by
      rw [Dev.ephAct_handover haction, Dev.pw_withClk, hpw, if_pos (by rw [hdeep]; rfl)]
    rw [Bool.and_comm, show ((2 : Nat) != 2 && e.action == 3) = false from rfl, Dev.iff_false] at hacted
    have hsteady : Steady ephScope d (d.acting (d.ephInstant e) (fun d => d.ephDefer 3 i e.arg)) :=
      (Steady.refl ephScope d).acting fun _ h => h.setPwr rfl
    rw [hacted]
    refine ⟨State.fired_of_steady hd hsteady, fun h => absurd hdeep h, fun _ => ?_⟩
    obtain ⟨m, ev, x, hdone⟩ := (d.acting (d.ephInstant e) (fun d => d.ephDefer 3 i e.arg)).ephDone_shape flag arg
    rw [State.leave_pwr, hdone, ← hpwr]
    rfl
  · have hacted := Dev.ephActed_eq (d := d) (i := i) (e := e) (f := fun d => d.handover e.arg) (r := 0) fun c => by
      rw [Dev.ephAct_handover haction, Dev.pw_withClk, hpw, if_neg (by simpa using hdeep)]
    rw [haction, show ((3 : Nat) == 3 && (0 : Nat) != 2) = true from rfl, Dev.iff_true] at hacted
    have hsteady : Steady ephScope d (d.acting (d.ephInstant e) (fun d => d.handover e.arg)) :=
      (Steady.refl ephScope d).acting fun _ h => h.handover rfl
    have hraised : Raised (d.acting (d.ephInstant e) (fun d => d.handover e.arg)) 92 (e.arg % 2048) :=
      Raised.acting fun d => d.raised_handover _
    have hlanded := (Steady.refl ephScope (d.acting (d.ephInstant e) (fun d => d.handover e.arg))).ephLand (i := i) rfl
    rw [hacted]
    exact ⟨State.fired_of_steady hd (hsteady.ephLand rfl), fun _ => (State.leave_raised ..).mpr (hlanded.raised hraised).ephDone,
      fun h => absurd h hdeep⟩

/-! ### Charts -/

theorem Dev.a_wN_self (d : Dev) (k v : Nat) : (d.wN k v).a k = v := by
  unfold Dev.wN
  split
  · assumption
  · dsimp only
    split
    · split
      · exact Dev.a_w_self _ _ _
      · exact Dev.a_w_self _ _ _
    · split
      · exact Dev.a_w_self _ _ _
      · exact Dev.a_w_self _ _ _

theorem Steady.setCha {b : Scope} {g : Dev} {x : Cha} (h : Steady b g d) : Steady b g { d with cha := x } := h.same rfl

theorem Steady.chartAsk {b : Scope} {g : Dev} (h : Steady b g d) {chart how who : Nat} : Steady b g (d.chartAsk chart how who) := by
  have hnoted : Steady b g (d.iff (how == 3 || how == 4) (·.wN P.chartLastCommanded chart)) := h.iff fun _ _ h => h.wN rfl
  unfold Dev.chartAsk
  dsimp only
  split
  · exact hnoted.setCha
  · exact hnoted.setCha

/-- A Chart an entry asks for is noted as commanded, and loads at once unless a load or store is in progress. -/
theorem Dev.chartAsk_entry (d : Dev) (chart who : Nat) : (d.chartAsk chart 4 who).a P.chartLastCommanded = chart ∧
    (d.chartAsk chart 4 who).cha = if d.cha.load.isSome ∨ d.cha.store.isSome
      then { d.cha with wait := d.cha.wait ++ [.load ⟨chart, 4, who⟩] } else { d.cha with load := some ⟨chart, 4, who⟩ } := by
  have hcha : (d.wN P.chartLastCommanded chart).cha = d.cha := by
    obtain ⟨n, m, ev, h⟩ := d.wN_shape P.chartLastCommanded chart
    rw [h]
  have hself := d.a_wN_self P.chartLastCommanded chart
  have heq : d.chartAsk chart 4 who = { d.wN P.chartLastCommanded chart with
      cha := if d.cha.load.isSome ∨ d.cha.store.isSome then { d.cha with wait := d.cha.wait ++ [.load ⟨chart, 4, who⟩] }
        else { d.cha with load := some ⟨chart, 4, who⟩ } } := by
    unfold Dev.chartAsk
    dsimp only [Dev.iff]
    rw [show ((4 : Nat) == 3 || (4 : Nat) == 4) = true from rfl, if_pos rfl, hcha]
    split
    · rfl
    · rfl
  rw [heq]
  exact ⟨hself, rfl⟩

theorem Dev.ephAct_chart (h : e.action = 4) : d.ephAct i e 0 =
    if d.pw == 0 then (d.ephDefer 4 i e.arg, 2) else (d.chartAsk (e.arg % 4) 4 whoDevice, 0) := by
  unfold Dev.ephAct
  simp only [h]

theorem claim_ephChart : Claims.ephChart := by
  intro s dt i e hfires
  have haction : e.action = 4 := (State.fires_iff.mp hfires).2.1
  have hhand (r : Nat) : (e.action == 3 && r != 2) = false := by rw [haction]; rfl
  obtain ⟨flag, arg, hgo⟩ := State.ephGo_of_fires hfires
  rw [doesDev_onDev (f := fun d => d.ephGo i 4 0) rfl, hgo]
  have hpw := s.pw_at dt i
  have hpwr : ((s.at_ dt).ephFree i).pwr = s.dev.pwr := s.arrive_pwr dt
  have hcha : ((s.at_ dt).ephFree i).cha = s.dev.cha := s.arrive_cha dt
  generalize hd : (s.at_ dt).ephFree i = d at *
  by_cases hdeep : s.a P.pwrState = 0
  · have hacted := Dev.ephActed_eq (d := d) (i := i) (e := e) (f := fun d => d.ephDefer 4 i e.arg) (r := 2) fun c => by
      rw [Dev.ephAct_chart haction, Dev.pw_withClk, hpw, if_pos (by rw [hdeep]; rfl)]
    rw [hhand, Dev.iff_false] at hacted
    have hsteady : Steady ephScope d (d.acting (d.ephInstant e) (fun d => d.ephDefer 4 i e.arg)) :=
      (Steady.refl ephScope d).acting fun _ h => h.setPwr rfl
    rw [hacted]
    obtain ⟨m, ev, x, hdone⟩ := (d.acting (d.ephInstant e) (fun d => d.ephDefer 4 i e.arg)).ephDone_shape flag arg
    refine ⟨State.fired_of_steady hd hsteady, fun h => absurd hdeep h, fun _ => ⟨?_, ?_⟩⟩
    · rw [State.leave_cha, hdone, ← hcha]
      rfl
    · rw [State.leave_pwr, hdone, ← hpwr]
      rfl
  · have hacted := Dev.ephActed_eq (d := d) (i := i) (e := e) (f := fun d => d.chartAsk (e.arg % 4) 4 whoDevice) (r := 0) fun c => by
      rw [Dev.ephAct_chart haction, Dev.pw_withClk, hpw, if_neg (by simpa using hdeep)]
    rw [hhand, Dev.iff_false] at hacted
    have hsteady : Steady ephScope d (d.acting (d.ephInstant e) (fun d => d.chartAsk (e.arg % 4) 4 whoDevice)) :=
      (Steady.refl ephScope d).acting fun _ h => h.chartAsk
    obtain ⟨hcommanded, hload⟩ :=
      ({ d with clk := { d.clk with act := some (d.ephInstant e) } } : Dev).chartAsk_entry (e.arg % 4) whoDevice
    rw [hacted]
    obtain ⟨m, ev, x, hdone⟩ := (d.acting (d.ephInstant e) (fun d => d.chartAsk (e.arg % 4) 4 whoDevice)).ephDone_shape flag arg
    have hcha' : ((s.arrive dt).leave ((d.acting (d.ephInstant e) (fun d => d.chartAsk (e.arg % 4) 4 whoDevice)).ephDone flag arg) s.mem).dev.cha =
        if s.dev.cha.load.isSome ∨ s.dev.cha.store.isSome then { s.dev.cha with wait := s.dev.cha.wait ++ [.load ⟨e.arg % 4, 4, whoDevice⟩] }
        else { s.dev.cha with load := some ⟨e.arg % 4, 4, whoDevice⟩ } := by
      rw [State.leave_cha, hdone, ← hcha]
      exact hload
    refine ⟨State.fired_of_steady hd hsteady, fun _ => ⟨?_, fun hl hs => ?_, fun hbusy => ?_⟩, fun h => absurd h hdeep⟩
    · rw [State.a, State.leave_a _ _ _ (by decide), Dev.a_ephDone (by decide) (by decide)]
      exact hcommanded
    · rw [hcha', if_neg (by simp [hl, hs])]
    · rw [hcha', if_pos hbusy]
      exact ⟨rfl, rfl⟩

/-! ### The synchronising reset -/

theorem Steady.wakeOutput {b : Scope} {g : Dev} (h : Steady b g d) : Steady b g d.wakeOutput := by
  unfold Dev.wakeOutput
  split
  · exact h
  · dsimp only
    split
    · exact h
    · exact Steady.iff (h.same rfl) fun _ _ h => (h.add rfl).inc rfl

theorem Steady.cleanFollow {b : Scope} {g : Dev} (h : Steady b g d) : Steady b g d.cleanFollow := by
  unfold Dev.cleanFollow
  split
  · exact h
  · exact Steady.wakeOutput h.setSen

/-- A synchronising reset is counted and reported with the groups it found running; the rest of it is steady. -/
theorem Dev.syncReset_split (d : Dev) (b : Scope) : ∃ x, Steady b d x ∧ d.syncReset = (x.inc P.syncResetCount).raise 27 d.groupsRunning := by
  refine ⟨_, Steady.colAbandon (Steady.w (Steady.each (Steady.each (Steady.setSen (Steady.each (Steady.refl b d).ringEnds fun k hk d h => ?_))
    fun _ _ _ h => ?_) fun _ _ _ h => ?_) ?_), rfl⟩
  · exact Steady.setRx (Steady.gridEnds (h.endFade (lt_of_mem_bitList hk)))
  · exact h.setPhase
  · exact h.prealignOff
  · rfl

theorem Dev.groupsRunning_congr {d d' : Dev} (hrx : d'.rx = d.rx) (hsen : d'.sen.startAt = d.sen.startAt)
    (hmask : d'.a P.pwrActiveMask = d.a P.pwrActiveMask) : d'.groupsRunning = d.groupsRunning := by
  have hruns : d'.groupRuns = d.groupRuns := by
    funext k
    simp only [Dev.groupRuns, Dev.groupExists, Dev.wide, Dev.active, Dev.ab, hrx, hsen, hmask]
  rw [Dev.groupsRunning, Dev.groupsRunning, hruns]

theorem Dev.groupsRunning_wakeOutput (d : Dev) : d.wakeOutput.groupsRunning = d.groupsRunning := by
  have hshed (d : Dev) (c : Bool) (words : Nat) :
      (d.iff c (fun d => (d.add P.laneShedCount words).inc P.laneShedSlotCount)).groupsRunning = d.groupsRunning := by
    cases c
    · rfl
    · obtain ⟨m, hm⟩ := d.add_shape P.laneShedCount words
      obtain ⟨m', hm'⟩ := (d.add P.laneShedCount words).inc_shape P.laneShedSlotCount
      refine Dev.groupsRunning_congr ?_ ?_ ?_
      · rw [Dev.iff_true, hm', hm]
      · rw [Dev.iff_true, hm', hm]
      · rw [Dev.iff_true, Dev.a_inc_ne _ (by decide), Dev.a_add_ne _ _ (by decide)]
  unfold Dev.wakeOutput
  split
  · rfl
  · dsimp only
    split
    · rfl
    · exact hshed _ _ _

theorem Dev.groupsRunning_cleanFollow (d : Dev) : d.cleanFollow.groupsRunning = d.groupsRunning := by
  unfold Dev.cleanFollow
  split
  · rfl
  · dsimp only
    exact (Dev.groupsRunning_wakeOutput _).trans (Dev.groupsRunning_congr rfl rfl rfl)

theorem Dev.ephAct_syncReset (h : e.action = 6) : d.ephAct i e 0 = if d.pw == 0 then (d, 1) else (d.ephSyncReset, 0) := by
  unfold Dev.ephAct
  simp only [h]

/-- The device the synchronising reset of an entry is made on, up to its count. -/
theorem Dev.ephSyncReset_split (d : Dev) : ∃ x, Steady ephScope d x ∧ d.ephSyncReset =
    { (x.inc P.syncResetCount).raise 27 d.groupsRunning with pwr := { ((x.inc P.syncResetCount).raise 27 d.groupsRunning).pwr with
      ephSync := some d.now, syncPend := if d.pwr.syncPend = some (d.now + 100000) then none else d.pwr.syncPend } } := by
  obtain ⟨x, hx, heq⟩ := d.cleanFollow.syncReset_split {}
  refine ⟨x, (Steady.refl ephScope d).cleanFollow.trans hx, ?_⟩
  rw [Dev.ephSyncReset]
  dsimp only
  rw [heq, Dev.groupsRunning_cleanFollow]

theorem claim_ephSyncReset : Claims.ephSyncReset := by
  intro s dt i e hfires
  have haction : e.action = 6 := (State.fires_iff.mp hfires).2.1
  have hhand (r : Nat) : (e.action == 3 && r != 2) = false := by rw [haction]; rfl
  obtain ⟨flag, arg, hgo⟩ := State.ephGo_of_fires hfires
  rw [doesDev_onDev (f := fun d => d.ephGo i 6 0) rfl, hgo]
  have hpw := s.pw_at dt i
  have hpwr : ((s.at_ dt).ephFree i).pwr = s.dev.pwr := s.arrive_pwr dt
  have hnow : ((s.at_ dt).ephFree i).now = (s.at_ dt).now := rfl
  have hruns : ((s.at_ dt).ephFree i).groupsRunning = s.dev.groupsRunning :=
    Dev.groupsRunning_congr (s.arrive_rx dt) (congrArg Sen.startAt (s.arrive_sen dt)) (s.arrive_a dt (by decide))
  have hbefore : ((s.at_ dt).ephFree i).a P.syncResetCount = s.a P.syncResetCount := s.arrive_a dt (by decide)
  generalize hd : (s.at_ dt).ephFree i = d at *
  by_cases hdeep : s.a P.pwrState = 0
  · have hacted := Dev.ephActed_eq (d := d) (i := i) (e := e) (f := fun d => d) (r := 1) fun c => by
      rw [Dev.ephAct_syncReset haction, Dev.pw_withClk, hpw, if_pos (by rw [hdeep]; rfl)]
    rw [hhand, Dev.iff_false] at hacted
    have hsteady : Steady ephScope d (d.acting (d.ephInstant e) (fun d => d)) := (Steady.refl ephScope d).acting fun _ h => h
    rw [hacted]
    refine ⟨State.fired_of_steady hd hsteady, fun h => absurd hdeep h, fun _ => ?_⟩
    rw [State.a, State.leave_a _ _ _ (by decide), Dev.a_ephDone (by decide) (by decide), ← hbefore]
    rfl
  · have hacted := Dev.ephActed_eq (d := d) (i := i) (e := e) (f := fun d => d.ephSyncReset) (r := 0) fun c => by
      rw [Dev.ephAct_syncReset haction, Dev.pw_withClk, hpw, if_neg (by simpa using hdeep)]
    rw [hhand, Dev.iff_false] at hacted
    rw [hacted, Dev.acting]
    have hstart : Steady {} d { d with clk := { d.clk with act := some (d.ephInstant e) } } := (Steady.refl {} d).same rfl
    have hruns' : ({ d with clk := { d.clk with act := some (d.ephInstant e) } } : Dev).groupsRunning = s.dev.groupsRunning := hruns
    obtain ⟨x, hx, heq⟩ := ({ d with clk := { d.clk with act := some (d.ephInstant e) } } : Dev).ephSyncReset_split
    rw [hruns'] at heq
    rw [heq]
    obtain ⟨hxkey, -, -, -, -, hxent, -⟩ := hx
    have hfired : x.a P.ephFiredCount = d.a P.ephFiredCount := hxkey _ rfl
    have hcount : x.a P.syncResetCount = s.a P.syncResetCount := (hxkey _ rfl).trans hbefore
    have hafter (k : Nat) (hk : evKey k = false) :
        ((x.inc P.syncResetCount).raise 27 s.dev.groupsRunning).a k = (x.inc P.syncResetCount).a k := Dev.a_raise _ _ (by decide) hk
    have hraised : Raised ((x.inc P.syncResetCount).raise 27 s.dev.groupsRunning) 27 s.dev.groupsRunning := Dev.raised_raise _ _ _
    have hent : ((x.inc P.syncResetCount).raise 27 s.dev.groupsRunning).eph.ent = d.eph.ent := by
      obtain ⟨m, hm⟩ := x.inc_shape P.syncResetCount
      obtain ⟨m', ev, hr⟩ := (x.inc P.syncResetCount).raise_shape 27 s.dev.groupsRunning
      rw [hr, hm]
      exact hxent
    generalize (x.inc P.syncResetCount).raise 27 s.dev.groupsRunning = y at *
    refine ⟨State.fired_of_kept hd ?_ hent, fun _ => ⟨fun hlt => ?_, (State.leave_raised ..).mpr (Raised.ephDone hraised), ?_⟩,
      fun h => absurd h hdeep⟩
    · exact ((hafter _ (by decide)).trans (Dev.a_inc_ne _ (by decide))).trans hfired
    · rw [← hcount] at hlt ⊢
      rw [State.a, State.leave_a _ _ _ (by decide), Dev.a_ephDone (by decide) (by decide)]
      exact (hafter _ (by decide)).trans (Dev.a_inc_lt _ _ hlt)
    · rw [State.leave_pwr, ← hpwr, ← hnow]
      exact Dev.syncPend_ephDone ..

end Sys2Proof.Machine
end

section
/-!
The Ephemeris entry that opens a Collimation window (R339): what waking units and ending bursts leave of a window that is open, and
the window the entry makes.
-/

namespace Sys2Proof.Machine

/-! ### The open window is left as it is -/

/-- The Collimation window that is open. -/
def Dev.win (d : Dev) : Option (Nat × Nat) := d.col.win

variable {d : Dev}

theorem Dev.win_iff {c : Bool} {f : Dev → Dev} (hf : ∀ d : Dev, (f d).win = d.win) : (d.iff c f).win = d.win := by
  cases c
  · rfl
  · exact hf d

theorem Dev.win_each {α : Type} {l : List α} {f : α → Dev → Dev} (hf : ∀ x (d : Dev), (f x d).win = d.win) : (d.each l f).win = d.win :=
  Dev.each_keeps Dev.win l f hf d

theorem Dev.win_inc (k : Nat) : (d.inc k).win = d.win := by
  obtain ⟨m, h⟩ := d.inc_shape k
  rw [h]
  rfl

theorem Dev.win_raise (n arg : Nat) : (d.raise n arg).win = d.win := by
  obtain ⟨m, ev, h⟩ := d.raise_shape n arg
  rw [h]
  rfl

theorem Dev.win_incN (k : Nat) : (d.incN k).win = d.win := by
  obtain ⟨n, m, ev, h⟩ := d.wN_shape k ((d.inc k).a k)
  rw [Dev.incN, h]
  rfl

theorem Dev.win_showCol : d.showCol.win = d.win := rfl

theorem Dev.win_colAbandon (status : Nat) : (d.colAbandon status).win = d.win := by
  unfold Dev.colAbandon
  split
  · rfl
  · rw [Dev.win_raise, Dev.win_incN]
    rfl

theorem Dev.win_synthOpen (k : Nat) : (d.synthOpen k).win = d.win := by
  unfold Dev.synthOpen
  split
  · rfl
  · rfl

theorem Dev.win_synthsCal (mask : Nat) : (d.synthsCal mask).win = d.win :=
  Dev.win_each fun k _ => Dev.win_synthOpen k

theorem Dev.win_goUp (target cause : Nat) : (d.goUp target cause).win = d.win := by
  unfold Dev.goUp
  split
  · rfl
  · split
    · rfl
    · split
      · rfl
      · exact Dev.win_synthsCal _

theorem Dev.win_wList (k : Nat) (vs : List Nat) : (d.wList k vs).win = d.win := by
  unfold Dev.wList
  generalize vs.zip (List.range vs.length) = l
  induction l generalizing d with
  | nil => rfl
  | cons x l ih => exact ih.trans rfl

theorem Dev.win_setModel (p : Nat) (m : List Nat) : (d.setModel p m).win = d.win := Dev.win_wList (modelKey p) _

theorem Dev.win_w (k v : Nat) : (d.w k v).win = d.win := rfl

theorem Dev.win_setDpdP (p : Nat) (f : DpdP → DpdP) : (d.setDpdP p f).win = d.win := rfl

theorem Dev.win_warmLoad (p : Nat) : (d.warmLoad p).win = d.win := by
  unfold Dev.warmLoad
  dsimp only
  split
  · rfl
  · split
    · rfl
    · rw [Dev.win_setDpdP, Dev.win_w, Dev.win_setModel]

theorem Dev.win_warmLoadQuad (q : Nat) : (d.warmLoadQuad q).win = d.win := Dev.win_each fun _ _ => Dev.win_warmLoad _

theorem Dev.win_startUnit (u : Nat) : (d.startUnit u).win = d.win := by
  unfold Dev.startUnit
  refine (Dev.win_iff fun _ => Dev.win_synthsCal _).trans ?_
  exact Dev.win_iff (d := d.begin 1 u) fun _ => Dev.win_warmLoadQuad _

theorem Dev.win_bringUnit (u : Nat) : (d.bringUnit u).win = d.win := by
  unfold Dev.bringUnit
  split
  · rfl
  · split
    · exact Dev.win_startUnit u
    · exact Dev.win_goUp _ _

theorem Dev.win_bringUnits (mask : Nat) : (d.bringUnits mask).win = d.win := Dev.win_each fun u _ => Dev.win_bringUnit u

theorem Dev.win_dpdAbandon (q : Nat) : (d.dpdAbandon q).win = d.win := by
  unfold Dev.dpdAbandon
  split
  · rfl
  · rw [Dev.win_inc]
    rfl

theorem Dev.win_leaveOn (q : Nat) : (d.leaveOn q).win = d.win := by
  unfold Dev.leaveOn
  dsimp only
  split
  · rfl
  · rfl

theorem Dev.win_refreshTx (q : Nat) : (d.refreshTx q).win = d.win := by
  have hpaths (v : Nat) : (d.setTxPaths q v).win = d.win := Dev.win_each fun _ _ => rfl
  unfold Dev.refreshTx
  split
  · exact hpaths _
  · exact hpaths _
  · exact hpaths _
  · exact hpaths _

theorem Dev.win_reportDrop (q cause : Nat) : (d.reportDrop q cause).win = d.win := by
  rw [Dev.reportDrop, Dev.win_raise, Dev.win_inc]

theorem Dev.win_coexUpdate : d.coexUpdate.win = d.win := by
  have hpin (d : Dev) (c : Bool) (x : Pin) (level : Bool) : (d.iff c (·.pin x level)).win = d.win := Dev.win_iff fun _ => rfl
  have hdrive (req pri : Bool) : (d.coexDrive req pri).win = d.win :=
    (hpin _ _ _ _).trans (hpin _ _ _ _)
  exact hdrive _ _

theorem Dev.win_endBurst (q slot cause : Nat) : (d.endBurst q slot cause).win = d.win := by
  unfold Dev.endBurst
  dsimp only
  split
  · rfl
  · rw [Dev.win_coexUpdate, Dev.win_refreshTx, Dev.win_reportDrop]
    exact (Dev.win_leaveOn _).trans (Dev.win_dpdAbandon _)

theorem Dev.win_burstsEnd : d.burstsEnd.win = d.win := by
  refine Dev.win_each fun q d => ?_
  split
  · exact Dev.win_endBurst _ _ _
  · rfl

theorem Dev.win_ephBegin {e : EphEnt} {late : Bool} (h : e.action = 5) : (d.ephBegin e late).win = d.win := by
  have htarget : e.target = some 2 := by
    unfold EphEnt.target
    simp only [h]
  unfold Dev.ephBegin
  rw [htarget]
  dsimp only
  rw [if_neg (by rw [h]; decide)]
  refine (Dev.win_iff fun _ => Dev.win_goUp _ _).trans ((Dev.win_iff fun _ => ?_).trans (Dev.win_iff fun _ => ?_))
  · rfl
  · rfl

/-! ### The window an entry opens -/

/-- An open window grows to the later end; with none open the entry's own opens. -/
def windowOpened (w : Option (Nat × Nat)) (start stop : Nat) : Option (Nat × Nat) :=
  match w with
  | some (a, b) => some (a, max b stop)
  | none => some (start, stop)

theorem Dev.win_colOpen (start length : Nat) (force arch : Bool) :
    (d.colOpen start length force arch).win = windowOpened d.win start (start + 1000 * length) := by
  rcases h : d.col.win with _ | ⟨a, b⟩
  · have hnone : d.win = none := h
    rw [hnone, Dev.colOpen, h]
    have hopened (x : Col) : (({ d with col := x } : Dev).each [0, 1, 2, 3] (fun q d => d.dpdAbandon q)).win = x.win :=
      Dev.win_each fun q _ => Dev.win_dpdAbandon q
    have hrun (d : Dev) (x : Col) (hx : x.win = d.win) : (({ d with col := x } : Dev).w P.collimFiguresStale 1).win = d.win := hx
    dsimp only
    split
    · exact hopened _
    · split
      · exact ((Dev.win_raise _ _).trans (Dev.win_incN _)).trans (hopened _)
      · refine (Dev.win_iff fun _ => Dev.win_colAbandon _).trans ((Dev.win_bringUnits _).trans ?_)
        exact (hrun _ _ rfl).trans (hopened _)
  · have hsome : d.win = some (a, b) := h
    rw [hsome, Dev.colOpen, h]
    rfl

/-- An entry that was not prepared notes the state it finds where it opens a window. -/
def Dev.colNoted (d : Dev) (e : EphEnt) : Dev :=
  d.iff (e.state != 2) (fun d =>
    d.iff (d.col.win.isNone) (fun d => { d with col := { d.col with before := d.stands }, pwr := { d.pwr with named := 0 } }))

/-- The device comes up for the window. -/
def Dev.colRisen (d : Dev) (e : EphEnt) : Dev := (d.colNoted e).iff ((d.colNoted e).stands < 2) (·.ephBegin e true)

/-- What a Collimation entry does: the device comes up for it, bursts end, and the window opens. -/
def Dev.colEntry (d : Dev) (e : EphEnt) : Dev :=
  (d.colRisen e).burstsEnd.colOpen e.ns (e.arg % 2 ^ 24) (bit e.arg 25) (bit e.arg 26)

theorem Dev.ephAct_collimate {e : EphEnt} {i : Nat} (h : e.action = 5) : d.ephAct i e 0 = (d.colEntry e, 0) := by
  unfold Dev.ephAct Dev.colEntry Dev.colRisen Dev.colNoted
  simp only [h]

theorem Steady.colNoted {b : Scope} {g : Dev} (h : Steady b g d) {e : EphEnt} : Steady b g (d.colNoted e) :=
  h.iff fun _ _ h => h.iff fun _ _ h => h.same rfl

theorem Steady.colRisen {b : Scope} {g : Dev} (h : Steady b g d) {e : EphEnt} : Steady b g (d.colRisen e) :=
  h.colNoted.iff fun _ _ h => h.ephBegin

theorem Steady.colEntry {b : Scope} {g : Dev} (h : Steady b g d) {e : EphEnt} : Steady b g (d.colEntry e) :=
  h.colRisen.burstsEnd.colOpen

theorem Dev.win_colNoted (e : EphEnt) : (d.colNoted e).win = d.win := by
  unfold Dev.colNoted
  refine Dev.win_iff fun d => Dev.win_iff fun d => ?_
  rfl

theorem Dev.win_colRisen {e : EphEnt} (h : e.action = 5) : (d.colRisen e).win = d.win :=
  (Dev.win_iff fun _ => Dev.win_ephBegin h).trans (Dev.win_colNoted e)

theorem Dev.win_colEntry {e : EphEnt} (h : e.action = 5) :
    (d.colEntry e).win = windowOpened d.win e.ns (e.ns + 1000 * (e.arg % 2 ^ 24)) := by
  rw [Dev.colEntry, Dev.win_colOpen, Dev.win_burstsEnd, Dev.win_colRisen h]

theorem Dev.win_acting (at_ : Nat) (f : Dev → Dev) : (d.acting at_ f).win = (f { d with clk := { d.clk with act := some at_ } }).win := rfl

theorem Dev.win_ephDone (flag : Bool) (arg : Nat) : (d.ephDone flag arg).win = d.win := by
  obtain ⟨m, ev, x, h⟩ := d.ephDone_shape flag arg
  rw [h]
  rfl

theorem claim_ephCollimate : Claims.ephCollimate := by
  intro s dt i e hfires _
  have haction : e.action = 5 := (State.fires_iff.mp hfires).2.1
  obtain ⟨flag, arg, hgo⟩ := State.ephGo_of_fires hfires
  rw [doesDev_onDev (f := fun d => d.ephGo i 5 0) rfl, hgo]
  have hwin : ((s.at_ dt).ephFree i).win = s.dev.col.win := congrArg Col.win (s.arrive_col dt)
  generalize hd : (s.at_ dt).ephFree i = d at *
  have hacted := Dev.ephActed_eq (d := d) (i := i) (e := e) (f := (·.colEntry e)) (r := 0) fun c => Dev.ephAct_collimate haction
  rw [haction, show ((5 : Nat) == 3 && (0 : Nat) != 2) = false from rfl, Dev.iff_false] at hacted
  have hsteady : Steady ephScope d (d.acting (d.ephInstant e) (·.colEntry e)) :=
    (Steady.refl ephScope d).acting fun _ h => h.colEntry
  have hafter : ((d.acting (d.ephInstant e) (·.colEntry e)).ephDone flag arg).win =
      windowOpened s.dev.col.win e.ns (e.ns + 1000 * (e.arg % 2 ^ 24)) := by
    rw [Dev.win_ephDone, Dev.win_acting, Dev.win_colEntry haction, ← hwin]
    rfl
  rw [hacted]
  rw [Dev.win] at hafter
  refine ⟨State.fired_of_steady hd hsteady, fun hnone => ?_, fun a b hsome => ?_⟩
  · rw [State.leave_col, hafter, hnone]
    rfl
  · rw [State.leave_col, hafter, hsome]
    rfl

/-- Settles O40: what each of these actions does beside its own effect is steady, so the table and the count of fired entries are what
firing makes of them, and an event raised stays on the edge. -/
theorem ephemerisCommits : Obligations.EphemerisCommits :=
  ⟨claim_ephHandover, claim_ephChart, claim_ephCollimate, claim_ephSyncReset⟩

end Sys2Proof.Machine
end

section
/-!
Two more statements that fail, each on one state that is written out: the tables' sizes through the end of a trial, and the event
window of a threshold.
-/

namespace Sys2Proof.Machine

/-! ### The Charts of before a trial -/

/-- In boot after a command reset, in the fourth boot of a trial, where what was kept of the settings of before the trial holds no
Chart record. `Dev.shaped` does not speak of what is kept. -/
def chartlessTrial : State :=
  { dev := { pwr := { phase := .booting, kind := 3 }, alm := [(P.updStage, 5), (P.updTrialBoots, 3)], upd := { old := some ([], []) } } }

/-- A boot in which no image of either slot passes. -/
def noImageBoot : BootIn :=
  { images := [0, 1, 2, 3].flatMap (fun c => [⟨c, 0, false⟩, ⟨c, 1, false⟩]), openWires := 0, fuseBad := [], schema := 0 }

/-- Refutes O5: the fourth boot of a trial reverts it (R631, R634) and the Chart records kept from before the trial come back as they
were kept (`Dev.trialDiscard`). Nothing in the hypothesis says that four were kept, so the table of Charts is left with none. -/
theorem not_everyCommandKeepsShape : ¬ Obligations.EveryCommandKeepsShape := by
  unfold Obligations.EveryCommandKeepsShape
  intro h
  have hshape := h (.bootComplete 0 noImageBoot) chartlessTrial _ (by decide +kernel)
    (onAll_next 0 (fun d m p => d.bootDone m p noImageBoot) chartlessTrial)
  exact absurd hshape (by decide +kernel)

/-! ### The window of a threshold that is none -/

/-- The number a third threshold and beyond would have at which `threshKey` meets the key of EventLogWrapCount. -/
def strayThreshold : Nat := (P.eventLogWrapCount - P.threshStateA0) / 65536

/-- A millisecond after power-up an event waits for the last free place of the log, and bookkeeping has ABOVE reported of the stray
threshold at the start. -/
def wrappingLog : State :=
  { dev := { clk := { ps := 10 ^ 9 }, aux := [(auxKey 2 strayThreshold, 3)], edge := [{ n := 9, arg := 0, log := true }] },
    places := { logged := 32767 } }

/-- The end of the event window of a threshold, as its command runs it (R135). -/
def Dev.threshWindowEnd (d : Dev) (g p thr : Nat) : Dev :=
  let last := d.x (auxKey 2 (128 * g + 2 * p + thr))
  let now := bit (d.a (threshKey g thr)) p
  d.iff (last != 0 && last / 2 - 1 + 10 ^ 9 ≤ d.now && now != (last % 2 == 1)) (·.threshReport g p thr now)

theorem exec_threshEventWindowEnd (dt g p thr : Nat) (s : State) :
    exec (.threshEventWindowEnd dt g p thr) s = onDev dt (·.threshWindowEnd g p thr) s := rfl

/-- Refutes O21: `threshEventWindowEnd` takes any number as the threshold. On one that makes its state EventLogWrapCount, the edge that
closes as the command arrives wraps the log; the count becomes 1, which is what was reported, and no EV22 is raised. -/
theorem not_receivePathReports : ¬ Obligations.ReceivePathReports := by
  unfold Obligations.ReceivePathReports
  intro h
  obtain ⟨-, -, -, -, -, -, -, hwindow, -⟩ := h
  have hacts := hwindow wrappingLog 1 0 0 strayThreshold rfl (by decide +kernel) (by decide +kernel) (by decide +kernel)
  rw [Acts, doesDev_onDev (exec_threshEventWindowEnd ..)] at hacts
  obtain ⟨-, -, hraised⟩ := hacts
  rw [Raised] at hraised
  exact absurd hraised (by decide +kernel)

end Sys2Proof.Machine
end

section
/-!
A command on the device alone with its frame (`Acts`): what its effect keeps at the instant it acts is kept from the state before to the
state after, since arriving and leaving move only what `Dev.bare` erases and parameters of `evKey`.
-/

namespace Sys2Proof.Machine

theorem State.bare_leave (s : State) (d : Dev) (mem : Memory) : (s.leave d mem).dev.bare = d.bare := by
  obtain ⟨⟨_, _, h⟩, -⟩ := s.leave_shape d mem
  rw [h]
  rfl

theorem State.bare_at (s : State) (dt : Nat) : (s.at_ dt).bare = s.dev.bare := by
  obtain ⟨⟨_, _, _, _, h⟩, -⟩ := s.arrive_shape dt
  rw [State.at_, h]
  rfl

theorem State.a_at (s : State) (dt : Nat) {k : Nat} (hk : evKey k = false) : (s.at_ dt).a k = s.a k := s.arrive_a dt hk

theorem State.rx_at (s : State) (dt : Nat) : (s.at_ dt).rx = s.dev.rx := s.arrive_rx dt

theorem acts_onDev {c : Instr} {s : State} {dt : Nat} {post : State → Prop} {keys : List Nat} {part f : Dev → Dev}
    (h : exec c s = onDev dt f s) (hkeys : ∀ k, evKey k = false → k ∉ keys → (f (s.at_ dt)).a k = (s.at_ dt).a k)
    (hpart : part (f (s.at_ dt)).bare = part (s.at_ dt).bare) (hpost : post ((s.arrive dt).leave (f (s.at_ dt)) s.mem)) :
    Acts c s keys part post := by
  rw [Acts, doesDev_onDev h]
  refine ⟨fun k hk hl => ?_, ?_, hpost⟩
  · exact (State.leave_a _ _ _ hk).trans ((hkeys k hk hl).trans (s.a_at dt hk))
  · rw [State.bare_leave, hpart, State.bare_at]

end Sys2Proof.Machine
end

section
/-!
Converter cores (03_receive_paths.md R80 to R91): the fields of a core map, what each step of a quad's rotation moves, and what the
N-class counts beside it keep.
-/

namespace Sys2Proof.Machine

/-! ### One entry of a list changed -/

theorem getD_modAt_self {α : Type} {l : List α} {i : Nat} (f : α → α) (x : α) (h : i < l.length) :
    (modAt l i f).getD i x = f (l.getD i x) := by
  induction l generalizing i with
  | nil => exact absurd h (Nat.not_lt_zero i)
  | cons y l ih =>
    cases i with
    | zero => rfl
    | succ i => exact ih (Nat.lt_of_succ_lt_succ h)

theorem getD_modAt_ne {α : Type} (l : List α) {i j : Nat} (f : α → α) (x : α) (h : j ≠ i) : (modAt l i f).getD j x = l.getD j x := by
  induction l generalizing i j with
  | nil => rfl
  | cons y l ih =>
    cases i with
    | zero =>
      cases j with
      | zero => exact absurd rfl h
      | succ j => rfl
    | succ i =>
      cases j with
      | zero => rfl
      | succ j => exact ih (Nat.succ_ne_succ_iff.mp h)

/-! ### The fields of a core map -/

theorem bits_field (m k : Nat) : bits m (4 * k + 3) (4 * k) = m / 16 ^ k % 16 := by
  have hwidth : 4 * k + 3 + 1 - 4 * k = 4 := by omega
  rw [bits, hwidth, pow_mul, show (2 : Nat) ^ 4 = 16 from rfl]

/-- A value with a field of four bits cut out splits into what lies above and below. -/
theorem field_split (m k : Nat) : m - m / 16 ^ k % 16 * 16 ^ k = m / 16 ^ k / 16 * 16 * 16 ^ k + m % 16 ^ k := by
  have hm := Nat.div_add_mod' m (16 ^ k)
  have hq := Nat.div_add_mod' (m / 16 ^ k) 16
  generalize m / 16 ^ k / 16 = hi at *
  generalize m / 16 ^ k % 16 = mid at *
  rw [← hq, add_mul] at hm
  omega

theorem bits_setField_self (m k : Nat) {c : Nat} (hc : c < 16) :
    bits (m - bits m (4 * k + 3) (4 * k) * 2 ^ (4 * k) + c * 2 ^ (4 * k)) (4 * k + 3) (4 * k) = c := by
  have hpos : 0 < 16 ^ k := by positivity
  rw [bits_field, bits_field, pow_mul, show (2 : Nat) ^ 4 = 16 from rfl, field_split, add_right_comm, ← add_mul,
    Nat.add_comm (_ * _) (_ % _), Nat.add_mul_div_right _ _ hpos, Nat.div_eq_of_lt (Nat.mod_lt _ hpos)]
  omega

theorem bits_setField_ne (m : Nat) {k j c : Nat} (hc : c < 16) (h : j ≠ k) :
    bits (m - bits m (4 * k + 3) (4 * k) * 2 ^ (4 * k) + c * 2 ^ (4 * k)) (4 * j + 3) (4 * j) = bits m (4 * j + 3) (4 * j) := by
  have hpos : 0 < 16 ^ k := by positivity
  rw [bits_field, bits_field, bits_field, pow_mul, show (2 : Nat) ^ 4 = 16 from rfl, field_split, add_right_comm, ← add_mul]
  rcases Nat.lt_or_gt_of_ne h with hlt | hgt
  · -- a field below: both values agree modulo 16 ^ k
    obtain ⟨n, rfl⟩ : ∃ n, k = j + 1 + n := Nat.exists_eq_add_of_le hlt
    have hlow (a : Nat) : (a * 16 ^ (j + 1 + n) + m % 16 ^ (j + 1 + n)) / 16 ^ j % 16 = m % 16 ^ (j + 1 + n) / 16 ^ j % 16 := by
      have hsplit : a * 16 ^ (j + 1 + n) = a * 16 ^ n * 16 * 16 ^ j := by ring
      rw [hsplit, Nat.add_comm, Nat.add_mul_div_right _ _ (by positivity), Nat.add_mul_mod_self_right]
    have hm := hlow (m / 16 ^ (j + 1 + n))
    rw [Nat.div_add_mod'] at hm
    rw [hlow, hm]
  · -- a field above: both values agree from 16 ^ (k + 1) on
    obtain ⟨n, rfl⟩ : ∃ n, j = k + 1 + n := Nat.exists_eq_add_of_le hgt
    have hhigh (a : Nat) (ha : a < 16) : ((m / 16 ^ k / 16 * 16 + a) * 16 ^ k + m % 16 ^ k) / 16 ^ (k + 1 + n) =
        m / 16 ^ k / 16 / 16 ^ n := by
      rw [pow_add, pow_succ, ← Nat.div_div_eq_div_mul, ← Nat.div_div_eq_div_mul, Nat.add_comm (_ * _) (_ % _),
        Nat.add_mul_div_right _ _ hpos, Nat.div_eq_of_lt (Nat.mod_lt _ hpos)]
      congr 1
      omega
    have hm := hhigh (m / 16 ^ k % 16) (Nat.mod_lt _ (by decide))
    rw [Nat.div_add_mod', Nat.div_add_mod'] at hm
    rw [hhigh c hc, hm]

variable {d : Dev}

theorem Dev.coreOf_lt (d : Dev) (u k : Nat) : d.coreOf u k < 16 := by
  rw [Dev.coreOf, bits_field]
  exact Nat.mod_lt _ (by decide)

theorem Dev.coreOf_congr {d' : Dev} {u : Nat} (h : d'.a (P.rxCoreMap + u) = d.a (P.rxCoreMap + u)) (k : Nat) :
    d'.coreOf u k = d.coreOf u k := by
  rw [Dev.coreOf, Dev.coreOf, h]

theorem Dev.coreOf_setCore_self (d : Dev) (u k : Nat) {c : Nat} (hc : c < 16) : (d.setCore u k c).coreOf u k = c := by
  rw [Dev.coreOf, Dev.setCore, Dev.a_w_self]
  exact bits_setField_self _ _ hc

theorem Dev.coreOf_setCore_ne (d : Dev) (u : Nat) {k j c : Nat} (hc : c < 16) (h : j ≠ k) :
    (d.setCore u k c).coreOf u j = d.coreOf u j := by
  rw [Dev.coreOf, Dev.setCore, Dev.a_w_self]
  exact bits_setField_ne _ hc h

/-! ### Parameters of the rotation -/

/-- No event moves a parameter of a chapter before housekeeping. -/
theorem evKey_of_lt {k : Nat} (h : k < P.hkInjectState) : evKey k = false := by
  simp only [evKey, P.eventSeq, P.eventCount, P.eventPending, P.eventDropCount, P.eventLogWrapCount, P.nvmDeferredDiscardCount,
    P.hkInjectDropCount, P.hkInjectState, Bool.or_eq_false_iff, beq_eq_false_iff_ne, ne_eq, Bool.and_eq_false_iff,
    decide_eq_false_iff_not] at *
  omega

theorem evKey_rxCoreMap {u : Nat} (hu : u < 16) : evKey (P.rxCoreMap + u) = false :=
  evKey_of_lt (lt_of_lt_of_le (Nat.add_lt_add_left hu _) (by decide))

theorem quadCalState_ne_coreMap {u v : Nat} (hv : v < 16) : P.rxQuadCalState + u ≠ P.rxCoreMap + v := by
  simp only [P.rxQuadCalState, P.rxCoreMap]
  omega

end Sys2Proof.Machine
end

section
/-!
What a write to MRAM can do (R9, R403), said once for every property it may keep: beside its own effect it moves the deferral buffer,
raises EV70 and counts a discarded write.
-/

namespace Sys2Proof.Machine

section
variable {Q : Dev → Prop} (hnvm : ∀ (d : Dev) (n : Nvm), Q d → Q { d with nvm := n }) (hraise : ∀ (d : Dev) (arg : Nat), Q d → Q (d.raise 70 arg))
  (hinc : ∀ d : Dev, Q d → Q (d.inc P.nvmDeferredDiscardCount))
include hnvm hraise hinc

theorem Dev.mramWrite_keeps {f : Dev → Dev} (hf : ∀ d, Q d → Q (f d)) {d : Dev} (h : Q d) (bytes : Nat) : Q (d.mramWrite bytes f) := by
  have htell : Q d.tellDefer := by
    unfold Dev.tellDefer
    cases !d.nvm.told
    · exact h
    · exact hraise _ _ (hnvm _ _ h)
  have hkeep (d : Dev) (h : Q d) : Q d.mramKeep := by
    obtain ⟨n, hn⟩ := d.mramKeep_shape
    rw [hn]
    exact hnvm _ _ h
  unfold Dev.mramWrite
  split
  · split
    · exact hinc _ h
    · exact hf _ (hnvm _ _ (hkeep _ htell))
  · split
    · exact hf _ (hkeep _ h)
    · exact hf _ h

theorem Dev.wN_keeps {k v : Nat} (hw : ∀ d : Dev, Q d → Q (d.w k v)) {d : Dev} (h : Q d) : Q (d.wN k v) := by
  have hkeep (slot old : Nat) (d : Dev) (h : Q d) : Q (if (d.nvm.alm.get? (2 * k)).isSome ∨ (d.nvm.alm.get? (2 * k + 1)).isSome then d
      else { d with nvm := { d.nvm with alm := d.nvm.alm.set slot old } }) := by
    split
    · exact h
    · exact hnvm _ _ h
  unfold Dev.wN
  dsimp only
  split
  · exact h
  · split
    · split
      · exact hw _ (hinc _ (hkeep _ _ _ h))
      · exact hw _ (Dev.mramWrite_keeps hnvm hraise hinc (fun d h => hkeep _ _ d h) h _)
    · split
      · exact hw _ (hkeep _ _ _ h)
      · exact hw _ h

end

variable {d : Dev}

theorem Dev.a_mramWrite {j : Nat} (hj : evKey j = false) (bytes : Nat) {f : Dev → Dev} (hf : ∀ d : Dev, (f d).a j = d.a j) :
    (d.mramWrite bytes f).a j = d.a j :=
  Dev.mramWrite_keeps (Q := fun e => e.a j = d.a j) (fun _ _ h => h) (fun e _ h => (e.a_raise _ (by decide) hj).trans h)
    (fun e h => (e.a_inc_ne (ne_of_evKey evKey_discard hj)).trans h) (fun e h => (hf e).trans h) rfl bytes

/-- A write of an N-class parameter moves that parameter, and the deferral it may begin those of `evKey`. -/
theorem Dev.a_wN_ne {k j : Nat} (v : Nat) (hk : k ≠ j) (hj : evKey j = false) : (d.wN k v).a j = d.a j :=
  Dev.wN_keeps (Q := fun e => e.a j = d.a j) (fun _ _ h => h) (fun e _ h => (e.a_raise _ (by decide) hj).trans h)
    (fun e h => (e.a_inc_ne (ne_of_evKey evKey_discard hj)).trans h) (fun e h => (e.a_w_ne v hk).trans h) rfl

theorem Dev.a_incN_ne {k j : Nat} (hk : k ≠ j) (hj : evKey j = false) : (d.incN k).a j = d.a j := Dev.a_wN_ne _ hk hj

theorem Dev.rx_wN (k v : Nat) : (d.wN k v).rx = d.rx := by
  obtain ⟨_, _, _, h⟩ := d.wN_shape k v
  rw [h]

theorem Dev.edge_wN (k v : Nat) {e : Ev} (he : e ∈ d.edge) : e ∈ (d.wN k v).edge :=
  Dev.wN_keeps (Q := fun g => e ∈ g.edge) (fun _ _ h => h) (fun g _ h => g.edge_raise _ _ h)
    (fun g h => by obtain ⟨_, hg⟩ := g.inc_shape P.nvmDeferredDiscardCount; rw [hg]; exact h) (fun _ h => h) he

end Sys2Proof.Machine
end

section
/-!
What the steps of a quad's rotation keep and leave (R81 to R89): its record and its core map.
-/

namespace Sys2Proof.Machine

variable {d : Dev} {u : Nat}

/-- The record of a quad. -/
def Dev.quad (d : Dev) (u : Nat) : Quad := d.rx.quads.getD u {}

theorem Dev.quads_length (h : d.shaped = true) : d.rx.quads.length = 16 := by
  simp only [Dev.shaped, Bool.and_eq_true, beq_iff_eq] at h
  simp only [h]

theorem Dev.quad_setQuad_self (f : Quad → Quad) (h : u < d.rx.quads.length) : (d.setQuad u f).quad u = f (d.quad u) :=
  getD_modAt_self f {} h

theorem Dev.quad_setQuad_ne {v : Nat} (f : Quad → Quad) (h : v ≠ u) : (d.setQuad u f).quad v = d.quad v := getD_modAt_ne _ f {} h

theorem Dev.coreOf_setQuad (v : Nat) (f : Quad → Quad) (k : Nat) : (d.setQuad v f).coreOf u k = d.coreOf u k := rfl

theorem Dev.coreOf_onNewTrims (v core k : Nat) : (d.onNewTrims v core).coreOf u k = d.coreOf u k := rfl

theorem Dev.coreOf_setQuadState (hu : u < 16) (v st more k : Nat) : (d.setQuadState v st more).coreOf u k = d.coreOf u k :=
  Dev.coreOf_congr (d.a_w_ne _ (quadCalState_ne_coreMap hu)) k

/-! ### The end of a cycle of the spare cores (R89) -/

theorem Dev.a_spareCycle {j : Nat} (hj : evKey j = false) : d.spareCycle.a j = d.a j := by
  unfold Dev.spareCycle
  dsimp only
  split
  · exact Dev.a_raise (n := 19) _ _ (by decide) hj
  · rfl

theorem Dev.coreOf_spareCycle (hu : u < 16) (k : Nat) : d.spareCycle.coreOf u k = d.coreOf u k :=
  Dev.coreOf_congr (Dev.a_spareCycle (evKey_rxCoreMap hu)) k

/-- Of a quad's record it moves only whether a cycle has ended. -/
theorem Dev.quad_spareCycle (d : Dev) (u : Nat) : ∃ b, d.spareCycle.quad u = { d.quad u with cycled := b } := by
  unfold Dev.spareCycle
  dsimp only
  split
  · obtain ⟨m, e, h⟩ := ({ d with rx := { d.rx with quads := d.rx.quads.map (fun (q : Quad) => { q with cycled := false }) } } : Dev).raise_shape
      19 (d.rx.quads.filter (·.cycled)).length
    refine ⟨false, ?_⟩
    rw [h]
    simp only [Dev.quad, List.getD_eq_getElem?_getD, List.getElem?_map]
    cases d.rx.quads[u]? <;> rfl
  · exact ⟨(d.quad u).cycled, rfl⟩

theorem Dev.edge_spareCycle {e : Ev} (he : e ∈ d.edge) : e ∈ d.spareCycle.edge := by
  unfold Dev.spareCycle
  dsimp only
  split
  · exact Dev.edge_raise _ _ _ he
  · exact he

/-! ### Takeover (R82) -/

/-- What the claims ask of the device at the command holds of it as it asks. -/
theorem Dev.roleRuns_congr {d' : Dev} (hwide : d'.rx.wide = d.rx.wide) (heff : ∀ g, d'.eff g = d.eff g) (hstarts : d'.rx.starts = d.rx.starts)
    (ha : ∀ k ∈ [P.pwrActiveMask, P.sentinelEnable, P.pwrState, P.sentinelPathMask], d'.a k = d.a k) (k : Nat) :
    d'.roleRuns u k = d.roleRuns u k := by
  have hmask := ha P.pwrActiveMask (by simp)
  have hen := ha P.sentinelEnable (by simp)
  have hpw := ha P.pwrState (by simp)
  have hpath := ha P.sentinelPathMask (by simp)
  have hwide : d'.wide = d.wide := hwide
  simp only [Dev.roleRuns, Dev.powered, Dev.active, Dev.ab, Dev.sentinelRuns, Dev.pw, hwide, heff, hstarts, hmask, hen, hpw, hpath]

theorem Dev.rolesRun_congr {d' : Dev} (hwide : d'.rx.wide = d.rx.wide) (heff : ∀ g, d'.eff g = d.eff g) (hstarts : d'.rx.starts = d.rx.starts)
    (ha : ∀ k ∈ [P.pwrActiveMask, P.sentinelEnable, P.pwrState, P.sentinelPathMask], d'.a k = d.a k) :
    d'.rolesRun u = d.rolesRun u := by
  rw [Dev.rolesRun, Dev.rolesRun, show d'.roleRuns u = d.roleRuns u from funext (Dev.roleRuns_congr hwide heff hstarts ha)]

theorem State.rolesRun_at (s : State) (dt u : Nat) : (s.at_ dt).rolesRun u = s.dev.rolesRun u := by
  have hrx := s.rx_at dt
  refine Dev.rolesRun_congr (by rw [hrx]) (fun g => by rw [Dev.eff, Dev.eff, hrx]) (by rw [hrx]) fun k hk => ?_
  exact s.a_at dt (by revert k; decide)

theorem State.coreOf_at (s : State) (dt : Nat) {u : Nat} (hu : u < 16) (k : Nat) : (s.at_ dt).coreOf u k = s.dev.coreOf u k :=
  Dev.coreOf_congr (s.a_at dt (evKey_rxCoreMap hu)) k

theorem State.coreOf_leave (s : State) (d : Dev) (mem : Memory) {u : Nat} (hu : u < 16) (k : Nat) :
    (s.leave d mem).dev.coreOf u k = d.coreOf u k := Dev.coreOf_congr (State.leave_a _ _ _ (evKey_rxCoreMap hu)) k

theorem State.quad_at (s : State) (dt u : Nat) : (s.at_ dt).quad u = s.dev.quad u := by rw [Dev.quad, Dev.quad, s.rx_at dt]

theorem State.quad_leave (s : State) (d : Dev) (mem : Memory) (u : Nat) : (s.leave d mem).dev.quad u = d.quad u := by
  rw [Dev.quad, Dev.quad, State.leave_rx]

/-- What ends a cycle leaves the map. -/
theorem Dev.coreOf_cycleEnds (hu : u < 16) (full : Bool) (e : Dev) (k : Nat) :
    ((e.iff full (fun d => d.setQuadState u 0 1)).iff full (·.spareCycle)).coreOf u k = e.coreOf u k := by
  cases full
  · rfl
  · exact (Dev.coreOf_spareCycle hu k).trans (Dev.coreOf_setQuadState hu u 0 1 k)

section
variable (hgo : (d.up && (d.quad u).stage == 2 && bit (d.rolesRun u) (d.quad u).target && !d.roleSettling u (d.quad u).target) = true)
include hgo

theorem Dev.coreTakeover_steps : ∃ f full, d.coreTakeover u =
    (((((d.setCore u (d.quad u).target (d.coreOf u 8)).setCore u 8 (d.coreOf u (d.quad u).target)).onNewTrims u (d.coreOf u 8)).setQuad u f).iff
      full (fun d => d.setQuadState u 0 1)).iff full (·.spareCycle) := ⟨_, _, if_pos hgo⟩

/-- Both cores of a takeover change their places; what follows in the step leaves the map. -/
theorem Dev.coreOf_coreTakeover (hu : u < 16) (k : Nat) : (d.coreTakeover u).coreOf u k =
    ((d.setCore u (d.quad u).target (d.coreOf u 8)).setCore u 8 (d.coreOf u (d.quad u).target)).coreOf u k := by
  obtain ⟨f, full, h⟩ := Dev.coreTakeover_steps hgo
  rw [h, Dev.coreOf_cycleEnds hu, Dev.coreOf_setQuad, Dev.coreOf_onNewTrims]

end

theorem claim_coreTakeover : Claims.coreTakeover := by
  intro s dt u hu hup hstage htarget hrun hsettle _
  have hquad := s.quad_at dt u
  change (s.dev.quad u).stage = 2 at hstage
  change (s.dev.quad u).target < 8 at htarget
  change bit (s.dev.rolesRun u) (s.dev.quad u).target = true at hrun
  change (s.at_ dt).roleSettling u (s.dev.quad u).target = false at hsettle
  rw [← hquad] at hstage htarget hrun hsettle
  rw [← s.rolesRun_at dt] at hrun
  have hmap := Dev.coreOf_coreTakeover (d := s.at_ dt) (u := u) (by simp [hup, hstage, hrun, hsettle]) hu
  rw [doesDev_onDev (f := (·.coreTakeover u)) rfl]
  change (State.leave _ _ _).dev.coreOf u (s.dev.quad u).target = _ ∧ _ = s.dev.coreOf u (s.dev.quad u).target
  rw [← hquad, State.coreOf_leave _ _ _ hu, State.coreOf_leave _ _ _ hu, hmap, hmap, Dev.coreOf_setCore_self _ _ _ (Dev.coreOf_lt ..),
    Dev.coreOf_setCore_ne _ _ (Dev.coreOf_lt ..) (Nat.ne_of_lt htarget), Dev.coreOf_setCore_self _ _ _ (Dev.coreOf_lt ..),
    s.coreOf_at dt hu, s.coreOf_at dt hu]
  exact ⟨rfl, rfl⟩

/-! ### The end of a calibration (R86 to R88) -/

/-- The spare core of a quad leaves its role and the quad its rotation. -/
def Dev.unspare (d : Dev) (u : Nat) : Dev := (d.setCore u 8 0xF).setQuad u (fun q => { q with stage := 4, fails := 0, done := 0 })

/-- The third failure of a core in a row, counted: the core is retired. -/
def Dev.retire (d : Dev) (u : Nat) : Dev :=
  (((d.unspare u).setQuadState u 2 0).wN P.rxRetiredMask (putBit ((d.unspare u).a P.rxRetiredMask) u true)).raise 20 (u + 16 * d.coreOf u 8)

theorem Dev.coreCalibrationDone_eq (d : Dev) (u : Nat) (res : CoreResult) : d.coreCalibrationDone u res =
    if (d.up && (d.quad u).stage == 1) = true then
      if corePasses res = true then (d.setQuad u (fun q => { q with stage := 2, fails := 0 })).newTrims u (d.coreOf u 8)
      else if (d.quad u).fails < 2 then (d.incN (P.rxCalFailCount + u)).setQuad u (fun q => { q with fails := q.fails + 1 })
      else ((d.incN (P.rxCalFailCount + u)).retire u).spareCycle
    else d := rfl

section
variable {res : CoreResult} (hstage : (d.up && (d.quad u).stage == 1) = true)
include hstage

theorem Dev.coreCalibrationDone_passed (hpass : corePasses res = true) :
    d.coreCalibrationDone u res = (d.setQuad u (fun q => { q with stage := 2, fails := 0 })).newTrims u (d.coreOf u 8) := by
  rw [Dev.coreCalibrationDone_eq, if_pos hstage, if_pos hpass]

theorem Dev.coreCalibrationDone_failed (hpass : corePasses res = false) (hfails : (d.quad u).fails < 2) :
    d.coreCalibrationDone u res = (d.incN (P.rxCalFailCount + u)).setQuad u (fun q => { q with fails := q.fails + 1 }) := by
  rw [Dev.coreCalibrationDone_eq, if_pos hstage, if_neg (by simp [hpass]), if_pos hfails]

theorem Dev.coreCalibrationDone_retired (hpass : corePasses res = false) (hfails : 2 ≤ (d.quad u).fails) :
    d.coreCalibrationDone u res = ((d.incN (P.rxCalFailCount + u)).retire u).spareCycle := by
  rw [Dev.coreCalibrationDone_eq, if_pos hstage, if_neg (by simp [hpass]), if_neg (Nat.not_lt.mpr hfails)]

end

theorem Dev.quad_wN (k v w : Nat) : (d.wN k v).quad w = d.quad w := by rw [Dev.quad, Dev.quad, Dev.rx_wN]

theorem Dev.quad_raise (n arg v : Nat) : (d.raise n arg).quad v = d.quad v := by
  obtain ⟨_, _, h⟩ := d.raise_shape n arg
  rw [h]
  rfl

theorem Dev.quad_w (k v w : Nat) : (d.w k v).quad w = d.quad w := by rw [Dev.quad, Dev.quad, Dev.w_rx]

theorem Dev.quad_unspare (hlen : u < d.rx.quads.length) : (d.unspare u).quad u = { d.quad u with stage := 4, fails := 0, done := 0 } := by
  have hlen' : u < (d.setCore u 8 0xF).rx.quads.length := by rwa [Dev.setCore, Dev.w_rx]
  rw [Dev.unspare, Dev.quad_setQuad_self _ hlen', Dev.setCore, Dev.quad_w]

theorem Dev.stage_retire (hlen : u < d.rx.quads.length) : ((d.retire u).quad u).stage = 4 := by
  rw [Dev.retire, Dev.quad_raise, Dev.quad_wN, Dev.setQuadState, Dev.quad_w, Dev.quad_unspare hlen]

theorem Dev.stage_spareCycle (d : Dev) (u : Nat) : (d.spareCycle.quad u).stage = (d.quad u).stage := by
  obtain ⟨b, h⟩ := d.quad_spareCycle u
  rw [h]

theorem Dev.retired_retire (d : Dev) (u : Nat) : bit ((d.retire u).a P.rxRetiredMask) u = true := by
  rw [Dev.retire, Dev.a_raise _ _ (by decide) (by decide), Dev.a_wN_self]
  exact bit_putBit_true _ _

theorem Dev.raised_retire (d : Dev) (u : Nat) : Raised (d.retire u) 20 (u + 16 * d.coreOf u 8) := Dev.raised_raise _ _ _

theorem Raised.spareCycle {n arg : Nat} (h : Raised d n arg) : Raised d.spareCycle n arg := by
  obtain ⟨e, he, hraised⟩ := h
  exact ⟨e, Dev.edge_spareCycle he, hraised⟩

theorem claim_coreCalibrationDone : Claims.coreCalibrationDone := by
  intro s dt u res pass hu hup hstage hshaped
  have hpass : pass = corePasses res := by
    simp [pass, corePasses, Bool.decide_and, Bool.and_assoc]
  have hquad := s.quad_at dt u
  have hlen : u < (s.at_ dt).rx.quads.length := by
    rw [s.rx_at dt, Dev.quads_length hshaped]
    exact hu
  have hstage' : ((s.at_ dt).up && ((s.at_ dt).quad u).stage == 1) = true := by
    rw [hup, hquad]
    exact congrArg (· == 1) hstage
  have hcount : ((s.at_ dt).incN (P.rxCalFailCount + u)).quad u = s.dev.quad u := (Dev.quad_wN ..).trans hquad
  have hlen' : u < ((s.at_ dt).incN (P.rxCalFailCount + u)).rx.quads.length := by
    rw [Dev.incN, Dev.rx_wN]
    exact hlen
  have hleft (d : Dev) : ((s.arrive dt).leave d s.mem).dev.rx.quads.getD u {} = d.quad u := State.quad_leave ..
  rw [doesDev_onDev (f := (·.coreCalibrationDone u res)) rfl, hpass, hleft]
  refine ⟨fun hp => ?_, fun hp hf => ?_, fun hp hf => ?_⟩
  · rw [Dev.coreCalibrationDone_passed hstage' hp]
    have hdone : ((s.at_ dt).setQuad u (fun q => { q with stage := 2, fails := 0 })).quad u = _ := Dev.quad_setQuad_self _ hlen
    exact ⟨congrArg Quad.stage hdone, congrArg Quad.fails hdone⟩
  · rw [Dev.coreCalibrationDone_failed hstage' hp (hquad ▸ hf), Dev.quad_setQuad_self _ hlen', hcount]
    exact ⟨hstage, rfl⟩
  · rw [Dev.coreCalibrationDone_retired hstage' hp (hquad ▸ hf)]
    have hcore : ((s.at_ dt).incN (P.rxCalFailCount + u)).coreOf u 8 = s.dev.coreOf u 8 := by
      rw [Dev.coreOf_congr (Dev.a_incN_ne (by simp only [P.rxCalFailCount, P.rxCoreMap]; omega) (evKey_rxCoreMap hu)), s.coreOf_at dt hu]
    refine ⟨?_, ?_, (State.leave_raised ..).mpr (Raised.spareCycle ?_)⟩
    · rw [Dev.stage_spareCycle, Dev.stage_retire hlen']
    · rw [State.a, State.leave_a _ _ _ (by decide), Dev.a_spareCycle (by decide)]
      exact Dev.retired_retire _ u
    · rw [← hcore]
      exact Dev.raised_retire _ u

/-! ### Repeated pre-alignment and the store of trims (R85, R90) -/

/-- Of the device only the receive records move. -/
theorem Dev.bare_setRx (d : Dev) (x : Rx) : { ({ d with rx := x } : Dev).bare with rx := {} } = { d.bare with rx := {} } := rfl

theorem Dev.a_setRx (d : Dev) (x : Rx) (k : Nat) : ({ d with rx := x } : Dev).a k = d.a k := rfl

/-- The pre-alignment of a quad that was abandoned is repeated. -/
def Dev.resumePrealign (d : Dev) (u : Nat) : Dev :=
  d.iff (d.up && (d.quad u).stage == 3 && !d.roleSettling u (d.quad u).target) (·.setQuad u (fun q => { q with stage := 2 }))

theorem exec_prealignResume (dt u : Nat) (s : State) : exec (.prealignResume dt u) s = onDev dt (·.resumePrealign u) s := rfl

theorem Dev.resumePrealign_eq (hup : d.up = true) (hstage : (d.quad u).stage = 3) (hsettle : d.roleSettling u (d.quad u).target = false) :
    d.resumePrealign u = d.setQuad u (fun q => { q with stage := 2 }) := by
  have hgo : (d.up && (d.quad u).stage == 3 && !d.roleSettling u (d.quad u).target) = true := by simp [hup, hstage, hsettle]
  rw [Dev.resumePrealign, hgo, Dev.iff_true]

/-- A quad that is in another stage than the first is one of the sixteen. -/
theorem Dev.lt_length_of_stage (h : (d.quad u).stage ≠ 0) : u < d.rx.quads.length := by
  by_contra hlen
  have hnone : d.quad u = {} := List.getD_eq_default _ _ (Nat.not_lt.mp hlen)
  exact h (congrArg Quad.stage hnone)

theorem claim_prealignResume : Claims.prealignResume := by
  intro s dt u hup hstage _ hsettle
  have hquad (v : Nat) : (s.at_ dt).quad v = s.dev.rx.quads.getD v {} := s.quad_at dt v
  rw [← hquad] at hstage hsettle
  have hstep := Dev.resumePrealign_eq hup hstage hsettle
  have hlen : u < (s.at_ dt).rx.quads.length := Dev.lt_length_of_stage (by rw [hstage]; decide)
  have hleft (d : Dev) (v : Nat) : ((s.arrive dt).leave d s.mem).dev.rx.quads.getD v {} = d.quad v := State.quad_leave ..
  refine acts_onDev (exec_prealignResume dt u s) (fun k _ _ => ?_) ?_ ?_
  · rw [hstep]
    exact Dev.a_setRx ..
  · rw [hstep]
    exact Dev.bare_setRx ..
  · rw [hstep, hleft, Dev.quad_setQuad_self _ hlen]
    refine ⟨rfl, fun v hv => ?_⟩
    rw [hleft, Dev.quad_setQuad_ne _ hv, hquad]

/-- The trims are stored where the period has passed. -/
def Dev.storeDueTrims (d : Dev) : Dev := d.iff (d.up && decide (d.rx.trimAt + d.a P.convTrimStorePeriod * 10 ^ 12 ≤ d.now)) (·.trimStore)

theorem exec_trimStore (dt : Nat) (s : State) : exec (.trimStore dt) s = onDev dt (·.storeDueTrims) s := rfl

/-- A device that is up does not rest in DEEP, so a write of MRAM that is not deferred is done at once. -/
theorem Dev.storeDueTrims_eq (hup : d.up = true) (hdefer : d.nvm.deferring = false)
    (hdue : d.rx.trimAt + d.a P.convTrimStorePeriod * 10 ^ 12 ≤ d.now) :
    d.storeDueTrims = { d with rx := { d.rx with trimSeq := d.rx.trimSeq + 1, trimRec := d.rx.trims, trimAt := d.now } } := by
  have hasleep : d.asleep = false := by
    simp only [Dev.up, Bool.and_eq_true, bne_iff_ne, ne_eq] at hup
    simp [Dev.asleep, hup]
  rw [Dev.storeDueTrims, hup, decide_eq_true hdue, Bool.true_and, Dev.iff_true, Dev.trimStore, Dev.mramWrite, hdefer, hasleep]
  rfl

theorem claim_trimStore : Claims.trimStore := by
  intro s dt hup hdefer hdue
  have hperiod : (s.at_ dt).a P.convTrimStorePeriod = s.a P.convTrimStorePeriod := s.a_at dt (by decide)
  rw [← hperiod, ← s.rx_at dt] at hdue
  have hstep := Dev.storeDueTrims_eq hup hdefer hdue
  refine acts_onDev (exec_trimStore dt s) (fun k _ _ => ?_) ?_ ?_
  · rw [hstep]
    exact Dev.a_setRx ..
  · rw [hstep]
    exact Dev.bare_setRx ..
  · rw [hstep, State.leave_rx, ← s.rx_at dt]

/-- Settles O20, command by command: a takeover exchanges two fields of the core map, the verdict of R86 decides on a quad's record, and a
resumed pre-alignment and a store of trims touch the receive records alone. -/
theorem coresCalibrate : Obligations.CoresCalibrate :=
  ⟨claim_coreTakeover, claim_coreCalibrationDone, claim_prealignResume, claim_trimStore⟩

end Sys2Proof.Machine
end

section
/-!
A write of one value that is taken (21_almanac.md R569, R570): the device it finds is the one the operation came to, the value stands,
the parameter's effect is made, and what audit, count and answer move behind it is none of the parameters or records the chapters speak
of.
-/

namespace Sys2Proof.Machine

/-! ### What an operation moves beside its effect -/

/-- The device without what the coming, the audit, the count and the answer of an operation move, and what time and the record of events
do. -/
def Dev.works (d : Dev) : Dev :=
  { d with clk := {}, alm := [], aux := [], edge := [], out := [], flush := 0, nvm := {}, port := [], ses := {}, fld := {}, aud := [], rip := {},
           mgmt := [], cha := { d.cha with waiting := [] }, pwr := { d.pwr with idleSince := none } }

section
variable {d : Dev}

theorem Dev.works_w (k v : Nat) : (d.w k v).works = d.works := by
  unfold Dev.works
  rfl

theorem Dev.works_inc (k : Nat) : (d.inc k).works = d.works := by
  obtain ⟨_, h⟩ := d.inc_shape k
  rw [h]
  rfl

theorem Dev.works_raise (n arg : Nat) : (d.raise n arg).works = d.works := by
  obtain ⟨_, _, h⟩ := d.raise_shape n arg
  rw [h]
  rfl

theorem Dev.works_iff {c : Bool} {f : Dev → Dev} (hf : ∀ d : Dev, (f d).works = d.works) : (d.iff c f).works = d.works := by
  cases c
  · rfl
  · exact hf d

theorem Dev.works_mgmtIn (o : AlmOp) (taken : Bool) : (d.mgmtIn o taken).works = d.works := by
  unfold Dev.mgmtIn
  split
  · exact (Dev.works_iff fun _ => Dev.works_inc _).trans rfl
  · rfl

theorem Dev.works_front (o : AlmOp) : (d.front o).works = d.works := by
  have hin : ((d.ripPass false (d.opPort o) o.vc).mgmtIn o true).works = d.works := Dev.works_mgmtIn o true
  unfold Dev.front
  dsimp only
  split
  · exact hin
  · exact hin

theorem Dev.works_put (p : Nat) (crcOk : Bool) (m : Msg) : (d.put p crcOk m).works = d.works :=
  (Dev.works_iff fun _ => Dev.works_w _ _).trans ((Dev.works_iff fun _ => Dev.works_inc _).trans rfl)

theorem Dev.works_fieldOut (m : Msg) (crc : Nat) : (d.fieldOut m crc).works = d.works := by
  have hput (d : Dev) (fn low : Nat) (data : List Byte) : (d.fieldPut fn low data).works = d.works := Dev.works_iff fun _ => rfl
  unfold Dev.fieldOut
  split
  · exact Dev.each_keeps Dev.works _ _ (fun _ d => hput d _ _ _) d
  · exact hput d _ _ _

end

/-- Between two devices only what the coming, the audit, the count and the answer of an operation moves has changed. -/
def Dev.Serves (g d : Dev) : Prop := g.Replies d ∧ d.works = g.works

namespace Dev.Serves

variable {g d : Dev}

theorem refl (d : Dev) : Dev.Serves d d := ⟨Dev.Replies.refl d, rfl⟩

/-- A parameter of events or of the operation itself. -/
theorem w (h : g.Serves d) {k v : Nat} (hk : evKey k = true ∨ replyKey k = true) : g.Serves (d.w k v) := by
  obtain ⟨⟨ha, hrest⟩, hworks⟩ := h
  refine ⟨⟨fun j hj hr => ?_, hrest⟩, (Dev.works_w k v).trans hworks⟩
  rw [Dev.a_w_ne, ha j hj hr]
  rintro rfl
  obtain hk | hk := hk
  · exact absurd hk (by simp [hj])
  · exact absurd hk (by simp [hr])

theorem inc (h : g.Serves d) {k : Nat} (hk : evKey k = true ∨ replyKey k = true) : g.Serves (d.inc k) := by
  unfold Dev.inc Dev.add
  dsimp only
  split
  · exact h.w hk
  · split
    · exact h.w hk
    · exact h.w hk

theorem raise (h : g.Serves d) {n arg : Nat} (hn : n < 128) : g.Serves (d.raise n arg) := by
  obtain ⟨⟨ha, hp, hc, hr⟩, hworks⟩ := h
  obtain ⟨m, e, hs⟩ := d.raise_shape n arg
  exact ⟨⟨fun k hk hk' => (d.a_raise arg hn hk).trans (ha k hk hk'), by rw [hs, ← hp], by rw [hs, ← hc], by rw [hs, ← hr]⟩,
    (Dev.works_raise n arg).trans hworks⟩

theorem setNvm (h : g.Serves d) (n : Nvm) : g.Serves { d with nvm := n } := h

theorem setAud (h : g.Serves d) (l : List Aud) (n : Nvm) : g.Serves { d with aud := l, nvm := n } := h

theorem mramWrite (h : g.Serves d) (bytes : Nat) {f : Dev → Dev} (hf : ∀ d, g.Serves d → g.Serves (f d)) : g.Serves (d.mramWrite bytes f) :=
  Dev.mramWrite_keeps (Q := g.Serves) (fun _ n h => h.setNvm n) (fun _ _ h => h.raise (by decide)) (fun _ h => h.inc (Or.inl evKey_discard)) hf h bytes

theorem wN (h : g.Serves d) {k v : Nat} (hk : replyKey k = true) : g.Serves (d.wN k v) :=
  Dev.wN_keeps (Q := g.Serves) (fun _ n h => h.setNvm n) (fun _ _ h => h.raise (by decide)) (fun _ h => h.inc (Or.inl evKey_discard))
    (fun _ h => h.w (Or.inr hk)) h

theorem audit (h : g.Serves d) (kind who index sub result old new : Nat) : g.Serves (d.audit kind who index sub result old new) := by
  have hseq : g.Serves (d.w P.auditSeq ((d.a P.auditSeq + 1) % 2 ^ 32)) := h.w (Or.inr (by decide))
  unfold Dev.audit
  extract_lets seq e d₁ d₂
  have hentry : g.Serves d₂ := hseq.mramWrite 32 fun _ h => h.setAud _ _
  split
  · exact (hentry.wN (by decide)).raise (by decide)
  · exact hentry

theorem auditItem (h : g.Serves d) (old : Dev) (m : Memory) (who status : Nat) (x : Item) : g.Serves (Dev.auditItem old d m who status x) := by
  unfold Dev.auditItem
  split
  · exact h
  · split
    · exact h
    · extract_lets spans shown n hash was now v kind
      split
      · exact h.audit ..
      · split
        · exact h.audit ..
        · split
          · exact h.audit ..
          · split
            · exact h.audit ..
            · exact h.audit ..

theorem desk (h : g.Serves d) (o : AlmOp) : g.Serves (d.desk o) := by
  obtain ⟨hreply, hworks⟩ := h
  exact ⟨hreply.desk o, (Dev.works_front o).trans hworks⟩

theorem countOp (h : g.Serves d) (status : Nat) : g.Serves (d.countOp status) := by
  obtain ⟨hreply, hworks⟩ := h
  exact ⟨hreply.countOp status, (Dev.works_inc _).trans hworks⟩

theorem sendMsg (h : g.Serves d) (hq : g.quiet = true) (p : Nat) {m : Msg} (hvc : m.vc < 4) : g.Serves (d.sendMsg p m) := by
  obtain ⟨hreply, hworks⟩ := h
  refine ⟨hreply.sendMsg hq p hvc, Eq.trans ?_ hworks⟩
  unfold Dev.sendMsg
  split
  · rfl
  · split
    · rw [Dev.start_quiet (hreply.quiet.trans hq)]
      exact (Dev.works_put p true m).trans rfl
    · rfl

theorem flushReplies (h : g.Serves d) (hq : g.quiet = true) (l : List Reply) : g.Serves (Dev.flushReplies l d) := by
  induction l generalizing d with
  | nil => exact h
  | cons r l ih =>
    obtain ⟨id, result⟩ := r
    cases result with
    | none => exact h
    | some b => exact ih (h.sendMsg hq _ (by unfold Dev.homeMsg Dev.mkMsg; split <;> exact (by decide : 2 < 4)))

theorem answer (h : g.Serves d) (hq : g.quiet = true) (port id : Nat) (b : List Byte) : g.Serves (d.answer port id b) := by
  unfold Dev.answer
  split
  · exact h.flushReplies hq _
  · split
    · have hfld : g.Serves { d with fld := {} } := h
      obtain ⟨hreply, hworks⟩ := hfld
      have hquiet := hreply.quiet.trans hq
      rw [Dev.fieldSend_quiet hquiet]
      exact ⟨(hreply.ripPass _ _ _).fieldOut _ _, (Dev.works_fieldOut _ _).trans hworks⟩
    · exact h

end Dev.Serves

end Sys2Proof.Machine
end

section
/-!
The change that a write of one value asks for, stored: the parameter has the value, and nothing else of the device has moved but the
record of events, the deferral buffer of MRAM and the values a Chart waits to write.
-/

namespace Sys2Proof.Machine

theorem leNat_leBytes (n v : Nat) : leNat (leBytes n v) = v % 256 ^ n := by
  induction n generalizing v with
  | zero => simp [leBytes, leNat, Nat.mod_one]
  | succ n ih =>
    rw [leBytes, leNat, ih, BitVec.toNat_ofNat, Nat.mod_eq_of_lt (Nat.mod_lt v (by decide)), pow_succ', Nat.mod_mul]

theorem length_leBytes (n v : Nat) : (leBytes n v).length = n := by
  induction n generalizing v with
  | zero => rfl
  | succ n ih => rw [leBytes, List.length_cons, ih]

/-- Parameters that the rotation of converter cores moves by itself. -/
def rotKey (k : Nat) : Bool :=
  (P.rxCoreMap ≤ k && k < P.rxCoreMap + 16) || (P.rxQuadCalState ≤ k && k < P.rxQuadCalState + 16)

/-- A parameter of one value, stored as written, that no hand-over locks, whose write proves nothing and which only writes change. -/
structure Plain (key v : Nat) (r : PRow) : Prop where
  whole : keyId key * 65536 = key
  row : rowOf (keyId key) = some r
  single : r.ty.spanned = false
  fits : v < 256 ^ r.ty.width
  norm : normVal key v = v
  stored : stores (keyId key) = true
  unlocked : shadowUnit key = none
  proofless : (keyId key == keyId P.debugUnlockToken) = false
  low : key < P.riptideEnable
  notEvent : evKey key = false
  notReply : replyKey key = false
  notRot : rotKey key = false

/-- What a parameter is, beside the value, to be written plainly. -/
def plainKey (key width : Nat) : Bool :=
  keyId key * 65536 == key && (rowOf (keyId key)).any (fun r => !r.ty.spanned && r.ty.width == width) && stores (keyId key) &&
    (shadowUnit key).isNone && !(keyId key == keyId P.debugUnlockToken) && decide (key < P.riptideEnable) &&
    !evKey key && !replyKey key && !rotKey key

theorem plain_of_key {key width v : Nat} (h : plainKey key width = true) (hv : v < 256 ^ width) (hnorm : normVal key v = v) :
    ∃ r, Plain key v r := by
  simp only [plainKey, Bool.and_eq_true, Option.any_eq_true, Bool.not_eq_true', beq_iff_eq, Option.isNone_iff_eq_none,
    decide_eq_true_eq] at h
  obtain ⟨⟨⟨⟨⟨⟨⟨⟨hwhole, r, hrow, hsingle, hwidth⟩, hstored⟩, hunlocked⟩, hproofless⟩, hlow⟩, hev⟩, hreply⟩, hrot⟩ := h
  exact ⟨r, hwhole, hrow, hsingle, by rw [hwidth]; exact hv, hnorm, hstored, hunlocked, hproofless, hlow, hev, hreply, hrot⟩

/-- The change a write of one value asks for. -/
def oneChg (key v : Nat) : Chg := ⟨keyId key, 0, [v]⟩

theorem entries_of_single {t : PTy} (h : t.spanned = false) : t.entries = 1 := by
  cases t with
  | bool | uint _ | time => rfl
  | octets _ | text _ | table _ => exact absurd h (by simp [PTy.spanned])

/-- The parameter a key names, from its parts (R564). -/
theorem keyId_parts (key : Nat) : 256 * indexOf key + keyId key % 256 = keyId key := by
  simp only [indexOf, keyId]
  omega

namespace Plain

variable {key v : Nat} {r : PRow} {d : Dev}

theorem writeItem_eq (h : Plain key v r) : writeItem key 0 [v] =
    { index := indexOf key, sub := keyId key % 256, first := 0, span := 0, value := leBytes r.ty.width v } := by
  rw [writeItem, h.row]
  simp [h.single]

theorem itemId_eq (h : Plain key v r) : itemId (writeItem key 0 [v]) = keyId key := by
  rw [h.writeItem_eq]
  exact keyId_parts key

theorem itemChg_eq (h : Plain key v r) : itemChg (writeItem key 0 [v]) = oneChg key v := by
  have hvalue : leNat ((leBytes r.ty.width v).take r.ty.width) = v := by
    rw [List.take_of_length_le (length_leBytes _ _).le, leNat_leBytes, Nat.mod_eq_of_lt h.fits]
  rw [itemChg, h.itemId_eq, h.row, h.writeItem_eq]
  simp [itemCount, entries_of_single h.single, valuesOf, hvalue, oneChg]

theorem pairs_eq (h : Plain key v r) : (oneChg key v).pairs = [(key, v)] := by
  simp [Chg.pairs, oneChg, List.range_succ, h.whole, h.norm]

theorem lockersOf_eq (h : Plain key v r) : d.lockersOf (oneChg key v) = [] := by
  simp [Dev.lockersOf, h.pairs_eq, Dev.lockers, h.unlocked]

theorem keysOf_eq (h : Plain key v r) : keysOf [oneChg key v] (keyId key) = [key] := by
  simp [keysOf, oneChg, List.range_succ, h.whole]

/-- The value is written, to MRAM for an N-class parameter. -/
theorem storeChange_eq (h : Plain key v r) :
    ∃ c, d.storeChange (oneChg key v) = (d.withCha { d.cha with waiting := c }).wN key v ∨
      d.storeChange (oneChg key v) = (d.withCha { d.cha with waiting := c }).w key v := by
  have hid : (oneChg key v).id = keyId key := rfl
  refine ⟨d.cha.waiting.drop (fun k => ((oneChg key v).pairs.map (·.1)).contains k), ?_⟩
  rw [Dev.storeChange, hid, h.stored, h.row, h.pairs_eq]
  dsimp only
  cases r.cls with
  | N => exact Or.inl rfl
  | _ => exact Or.inr rfl

end Plain

/-! ### The value stands -/

/-- Between two devices a value was stored: no other parameter moved but those of events. -/
def Dev.Stores (key v : Nat) (g d : Dev) : Prop :=
  d.a key = v ∧ (∀ k, k ≠ key → evKey k = false → d.a k = g.a k) ∧ d.works = g.works ∧ d.rip = g.rip

theorem Dev.works_wN (d : Dev) (k v : Nat) : (d.wN k v).works = d.works := by
  obtain ⟨_, _, _, h⟩ := d.wN_shape k v
  rw [h]
  rfl

theorem Dev.rip_wN (d : Dev) (k v : Nat) : (d.wN k v).rip = d.rip := by
  obtain ⟨_, _, _, h⟩ := d.wN_shape k v
  rw [h]

theorem Dev.stores_storeChange {key v : Nat} {r : PRow} (h : Plain key v r) (d : Dev) : d.Stores key v (d.storeChange (oneChg key v)) := by
  obtain ⟨c, hc | hc⟩ := h.storeChange_eq (d := d)
  · rw [hc]
    exact ⟨Dev.a_wN_self _ _ _, fun k hk hev => Dev.a_wN_ne v hk.symm hev, Dev.works_wN _ _ _, Dev.rip_wN _ _ _⟩
  · rw [hc]
    exact ⟨Dev.a_w_self _ _ _, fun k hk _ => Dev.a_w_ne _ v hk.symm, Dev.works_w _ _, rfl⟩

/-- A single change is stored, and then has its effect. -/
theorem Dev.applyChanges_plain {key v : Nat} {r : PRow} (h : Plain key v r) {f : Dev → Dev → Dev} {m : Memory} {p : Places}
    {who port ses : Nat} {x : OpAux}
    (hf : ∀ old d, Dev.written old d m p who port ses x (oneChg key v) [key] = ⟨f old d, [], none⟩) (d : Dev) :
    d.applyChanges m p who port ses x [oneChg key v] = ⟨f d (d.storeChange (oneChg key v)), [], none⟩ := by
  have hdups : [keyId key].eraseDups = [keyId key] := rfl
  have hid : (oneChg key v).id = keyId key := rfl
  have hchg : (⟨keyId key, (oneChg key v).first, (oneChg key v).pairs.map (·.2)⟩ : Chg) = oneChg key v := by rw [h.pairs_eq]; rfl
  simp [Dev.applyChanges, hid, hdups, h.lockersOf_eq, Dev.each, h.keysOf_eq, hchg, hf]

end Sys2Proof.Machine
end

section
/-!
An accepted write of one value (R569, R570): the device the operation came to, with the value stored, takes the parameter's effect; what
audit, count and answer move behind it shows in no parameter and no record the chapters speak of.
-/

namespace Sys2Proof.Machine

/-- Between two devices no parameter moved but those of events and of the rotation of cores, and nothing of Riptide. -/
def Dev.KeepsParams (g d : Dev) : Prop := (∀ k, evKey k = false → rotKey k = false → d.a k = g.a k) ∧ d.rip = g.rip

/-- An effect that keeps the parameters. -/
def Local (f : Dev → Dev → Dev) : Prop := ∀ old d, Dev.KeepsParams d (f old d)

/-- Between two devices no parameter moved but those of events and of the operation, and none of the records the chapters speak of. -/
def Dev.Agrees (g d : Dev) : Prop := (∀ k, evKey k = false → replyKey k = false → d.a k = g.a k) ∧ d.works = g.works

theorem Dev.Agrees.trans {a b c : Dev} (h : a.Agrees b) (h' : b.Agrees c) : a.Agrees c := by
  obtain ⟨hk, hw⟩ := h
  obtain ⟨hk', hw'⟩ := h'
  exact ⟨fun k hev hr => (hk' k hev hr).trans (hk k hev hr), hw'.trans hw⟩

theorem Dev.Serves.agrees {g d : Dev} (h : g.Serves d) : g.Agrees d := by
  obtain ⟨⟨hk, -⟩, hw⟩ := h
  exact ⟨hk, hw⟩

theorem Dev.Serves.held {g d : Dev} (h : g.Serves d) : d.rip.held.isEmpty = g.rip.held.isEmpty := by
  obtain ⟨⟨-, -, -, hheld⟩, -⟩ := h
  exact hheld

/-- What holds of the state an accepted write of `v` leaves, `f` being the parameter's effect. -/
def Taken (key v : Nat) (f : Dev → Dev → Dev) (s t : State) : Prop :=
  ∃ old d : Dev, s.dev.Agrees old ∧ old.Stores key v d ∧ (f old d).Agrees t.dev

/-! ### The write -/

variable {key v : Nat} {r : PRow} {f : Dev → Dev → Dev} {m : Memory} {o : AlmOp} {d e : Dev}

/-- What of a state makes a write accepted, beside that it is served. -/
theorem Dev.accepts_iff : d.accepts m o = true ↔ d.serves o = true ∧ ∃ y, d.sesOn o.port o.ses = some y ∧
    (d.desk o).auditRoom (o.items.filter itemProtected).length = true ∧ (d.desk o).auditRoom (auditNeed o.items) = true ∧
    (d.desk o).writeRefused m o y.role (4 * y.role + y.slot)
      (if o.items.any (fun x => itemId x == keyId P.debugUnlockToken) then o.aux.proof.getD ([], false) else ([], false)) = none := by
  simp [Dev.accepts, Option.any_eq_true, and_assoc]

theorem Dev.opWrite_taken (h : Plain key v r) {p : Places} {role own : Nat}
    (hf : ∀ who old d, Dev.written old d m p who o.port o.ses o.aux (oneChg key v) [key] = ⟨f old d, [], none⟩)
    (hitems : o.items = [writeItem key 0 [v]]) (hroom : d.auditRoom (o.items.filter itemProtected).length = true)
    (hneed : d.auditRoom (auditNeed o.items) = true) (hok : d.writeRefused m o role own ([], false) = none) :
    ∃ who, d.opWrite m p o role own =
      { status := 0, dev := Dev.auditItem d (f d (d.storeChange (oneChg key v))) m who 0 (writeItem key 0 [v]) } := by
  have htoken : (o.items.any fun x => itemId x == keyId P.debugUnlockToken) = false := by
    rw [hitems]
    simp only [List.any_cons, List.any_nil, Bool.or_false, h.itemId_eq, h.proofless]
  have hchgs : o.items.map itemChg = [oneChg key v] := by rw [hitems, List.map_singleton, h.itemChg_eq]
  refine ⟨whoOf role o.port (if o.ses < 4 then o.ses else 0), ?_⟩
  rw [Dev.opWrite, htoken]
  simp only [Bool.false_eq_true, if_false, hroom, hneed, hok, hchgs, Bool.not_true, Dev.applyChanges_plain h (hf _)]
  rw [hitems, Dev.auditAll, List.foldl_cons, List.foldl_nil]

theorem Dev.quiet_congr (hkeys : ∀ k, P.riptideEnable ≤ k → evKey k = false → replyKey k = false → d.a k = e.a k) : d.quiet = e.quiet := by
  have hon : d.a P.riptideEnable = e.a P.riptideEnable := hkeys _ le_rfl (by decide) (by decide)
  have hrule (i : Nat) (hi : i ∈ List.range 4) : d.a (P.riptideRules + i) = e.a (P.riptideRules + i) := by
    have hi : i < 4 := List.mem_range.1 hi
    have hle : P.riptideEnable ≤ P.riptideRules + i := by
      simp only [P.riptideEnable, P.riptideRules]
      omega
    refine hkeys _ hle ?_ ?_
    · interval_cases i <;> decide
    · interval_cases i <;> decide
  rw [Dev.quiet, Dev.quiet, Dev.ripOn, Dev.ripOn, hon]
  congr 1
  rw [Bool.eq_iff_iff, List.all_eq_true, List.all_eq_true]
  exact forall₂_congr fun i hi => by rw [hrule i hi]

/-- Neither a plain write nor its effect decides whether a Riptide rule acts. -/
theorem Dev.quiet_of_keepsParams {b g : Dev} (h : Plain key v r) (hdesk : d.Agrees b) (hstores : b.Stores key v e)
    (hkeeps : e.KeepsParams g) : g.quiet = d.quiet := by
  obtain ⟨hdeskKeys, -⟩ := hdesk
  obtain ⟨-, hothers, -⟩ := hstores
  obtain ⟨hkeys, -⟩ := hkeeps
  refine Dev.quiet_congr fun k hk hev hr => ?_
  have hrot : rotKey k = false := by
    simp only [rotKey, P.rxCoreMap, P.rxQuadCalState, P.riptideEnable, Bool.or_eq_false_iff, Bool.and_eq_false_iff,
      decide_eq_false_iff_not] at *
    omega
  rw [hkeys k hev hrot, hothers k (h.low.trans_le hk).ne' hev, hdeskKeys k hev hr]

/-- The audited device of an operation that succeeds is only counted and answered. -/
theorem OpEnd.close_audited {b g : Dev} (hquiet : g.quiet = true) (who : Nat) (x : Item) :
    ∃ e', ({ status := 0, dev := Dev.auditItem b g m who 0 x } : OpEnd).close o = (e', []) ∧ g.Serves e' :=
  ⟨_, rfl, ((((Dev.Serves.refl g).auditItem b m who 0 x).countOp 0).answer hquiet o.port o.id (resultOf 0 0xFF (o.n % 256) []))⟩

theorem Dev.agrees_noteIdle (d : Dev) : d.Agrees d.noteIdle := ⟨fun k _ _ => d.a_noteIdle k, rfl⟩

theorem Dev.quiet_of_serves (h : d.serves o = true) : d.quiet = true := by
  simp only [Dev.serves, Bool.and_eq_true] at h
  exact h.1.1

/-- The device after an accepted write, before the state is left. -/
theorem Dev.opArrive_taken (h : Plain key v r) (hlocal : Local f) {p : Places}
    (hf : ∀ who old d, Dev.written old d m p who o.port o.ses o.aux (oneChg key v) [key] = ⟨f old d, [], none⟩)
    (hop : o.op = 2) (hn : o.n = 1) (hitems : o.items = [writeItem key 0 [v]]) (haccepts : d.accepts m o = true) :
    ∃ e, d.opArrive m p o = (e, []) ∧ (f (d.desk o) ((d.desk o).storeChange (oneChg key v))).Agrees e := by
  obtain ⟨hserves, y, hses, hroom, hneed, hok⟩ := Dev.accepts_iff.1 haccepts
  have htoken : (o.items.any fun x => itemId x == keyId P.debugUnlockToken) = false := by
    rw [hitems]
    simp only [List.any_cons, List.any_nil, Bool.or_false, h.itemId_eq, h.proofless]
  rw [htoken, if_neg Bool.false_ne_true] at hok
  have hses' : (d.front o).sesOn o.port o.ses = some y := by
    rw [← hses, Dev.sesOn, Dev.sesOn, Dev.sesAt, Dev.sesAt, Dev.ses_front]
  have hdesk : d.Serves (d.desk o) := (Dev.Serves.refl d).desk o
  have hstores := Dev.stores_storeChange h (d.desk o)
  obtain ⟨who, hwrite⟩ := Dev.opWrite_taken h hf hitems hroom hneed hok
  have hin := Dev.opIn_of_serves (m := m) p hserves
  rw [Dev.opServe_eq, Dev.opRun_write p hop hn hitems hses', ← Dev.desk_eq, hwrite] at hin
  generalize d.desk o = b at hdesk hstores hin ⊢
  generalize b.storeChange (oneChg key v) = d' at hstores hin ⊢
  have hkeeps := hlocal b d'
  generalize f b d' = g at hkeeps hin ⊢
  have hquiet : g.quiet = true := (Dev.quiet_of_keepsParams h hdesk.agrees hstores hkeeps).trans (Dev.quiet_of_serves hserves)
  obtain ⟨e, hclose, hend⟩ := OpEnd.close_audited (m := m) (o := o) (b := b) hquiet who (writeItem key 0 [v])
  obtain ⟨-, -, -, hrip'⟩ := hstores
  obtain ⟨-, hrip⟩ := hkeeps
  have hheld : e.rip.held.isEmpty = true := by
    rw [hend.held, hrip, hrip', hdesk.held]
    exact Dev.held_of_serves hserves
  exact ⟨_, Dev.opArrive_of_held p (hin.trans hclose) hheld, hend.agrees.trans e.agrees_noteIdle⟩

theorem Dev.works_bare (d : Dev) : d.bare.works = d.works := rfl

theorem Dev.works_eq_of_bare {g d : Dev} (h : d.bare = g.bare) : d.works = g.works := by
  rw [← Dev.works_bare d, h, Dev.works_bare]

theorem State.agrees_leave (s : State) (d : Dev) (m : Memory) : d.Agrees (s.leave d m).dev :=
  ⟨fun _ hev _ => State.leave_a _ _ _ hev, Dev.works_eq_of_bare (State.bare_leave _ _ _)⟩

theorem Dev.agrees_free (d : Dev) (tag n : Nat) : d.Agrees (d.free tag n).2 := ⟨fun _ _ _ => rfl, rfl⟩

/-- The device an operation with a REQ_ID chosen outside comes to. -/
theorem State.agrees_free (s : State) (dt : Nat) : s.dev.Agrees ((s.at_ dt).free 742 32).2 :=
  Dev.Agrees.trans ⟨fun _ hev _ => s.a_at dt hev, Dev.works_eq_of_bare (s.bare_at dt)⟩ (Dev.agrees_free _ _ _)

/-- An accepted write of one value comes to the parameter's effect and leaves memory as it was. -/
theorem doesDev_of_takes {c : Instr} {s : State} {dt : Nat} {w : Who} (h : Plain key v r) (hlocal : Local f)
    (hexec : exec c s = onRow dt w key 0 [v] {} s)
    (hf : ∀ (m : Memory) (p : Places) (who port ses : Nat) (old d : Dev),
      Dev.written old d m p who port ses {} (oneChg key v) [key] = ⟨f old d, [], none⟩)
    (htakes : s.takes dt w (writeItem key 0 [v]) {} = true) : DoesDev c s (Taken key v f s) := by
  rw [DoesDev, does_onAll (f := fun d m p => d.rowWrite m p w (writeItem key 0 [v]) {}) hexec]
  obtain ⟨e, he, hagrees⟩ := Dev.opArrive_taken (d := ((s.at_ dt).free 742 32).2) (m := s.mem) (p := (s.arrive dt).places)
    (o := s.rowOp dt w (writeItem key 0 [v]) {}) h hlocal (fun who old d => hf _ _ who w.port w.ses old d) rfl rfl rfl htakes
  have hrow : (s.at_ dt).rowWrite s.mem (s.arrive dt).places w (writeItem key 0 [v]) {} = (e, []) := he
  rw [hrow]
  have hbefore := (s.agrees_free dt).trans ((Dev.Serves.refl _).desk (s.rowOp dt w (writeItem key 0 [v]) {})).agrees
  have hafter := hagrees.trans ((s.arrive dt).agrees_leave e s.mem)
  exact ⟨rfl, _, _, hbefore, Dev.stores_storeChange h _, hafter⟩

end Sys2Proof.Machine
end

section
/-!
Masks bit by bit, and what the rotation of converter cores moves (R81 to R88): the records of quads, parameters of `rotKey` and those of
events.
-/

namespace Sys2Proof.Machine

/-! ### The bits of a mask -/

theorem bit_eq_testBit (v i : Nat) : bit v i = v.testBit i := by
  rw [bit, Nat.testBit_eq_decide_div_mod_eq, Bool.beq_eq_decide_eq]

theorem maskOf_succ (n : Nat) (p : Nat → Bool) : maskOf (n + 1) p = if p n then maskOf n p + 2 ^ n else maskOf n p := by
  rw [maskOf, List.range_succ, List.foldl_append, List.foldl_cons, List.foldl_nil, maskOf]

theorem maskOf_lt (n : Nat) (p : Nat → Bool) : maskOf n p < 2 ^ n := by
  induction n with
  | zero => simp [maskOf]
  | succ n ih =>
    rw [maskOf_succ, pow_succ]
    split <;> omega

theorem bit_maskOf (n : Nat) (p : Nat → Bool) (i : Nat) : bit (maskOf n p) i = (decide (i < n) && p i) := by
  rw [bit_eq_testBit]
  induction n with
  | zero => simp [maskOf]
  | succ n ih =>
    have hlt := maskOf_lt n p
    have hself : (maskOf n p).testBit n = false := Nat.testBit_lt_two_pow hlt
    rw [maskOf_succ]
    rcases Nat.lt_trichotomy i n with h | rfl | h
    · have hi : (maskOf n p + 2 ^ n).testBit i = (maskOf n p).testBit i := by
        rw [Nat.add_comm, Nat.testBit_two_pow_add_gt h]
      simp [apply_ite (Nat.testBit · i), hi, ih, h, Nat.lt_succ_of_lt h]
    · have hi : (maskOf i p + 2 ^ i).testBit i = true := by
        rw [Nat.add_comm, Nat.testBit_two_pow_add_eq, hself]
        rfl
      cases hp : p i <;> simp [hi, hself]
    · have hbig : maskOf n p + 2 ^ n < 2 ^ i := by
        have hpow : 2 ^ (n + 1) ≤ 2 ^ i := Nat.pow_le_pow_right (by decide) h
        rw [pow_succ] at hpow
        omega
      have hsmall : maskOf n p < 2 ^ i := by omega
      have hi : ¬ i < n + 1 := by omega
      simp [apply_ite (Nat.testBit · i), Nat.testBit_lt_two_pow hbig, Nat.testBit_lt_two_pow hsmall, hi]

theorem bit_maskSub (n v w i : Nat) : bit (maskSub n v w) i = (decide (i < n) && (bit v i && !bit w i)) := bit_maskOf n _ i

theorem bit_maskOr (n v w i : Nat) : bit (maskOr n v w) i = (decide (i < n) && (bit v i || bit w i)) := bit_maskOf n _ i

theorem mem_bitList {n v i : Nat} : i ∈ bitList n v ↔ i < n ∧ bit v i = true := by
  rw [bitList, List.mem_filter, List.mem_range]

theorem nodup_bitList (n v : Nat) : (bitList n v).Nodup := List.nodup_range.filter _

/-! ### What the rotation moves -/

theorem rotKey_coreMap {u : Nat} (hu : u < 16) : rotKey (P.rxCoreMap + u) = true := by
  simp [rotKey, hu]

theorem rotKey_quadCalState {u : Nat} (hu : u < 16) : rotKey (P.rxQuadCalState + u) = true := by
  simp [rotKey, hu]

/-- The receive paths beside the records of quads and the memory of masks. -/
def Dev.pathState (d : Dev) : Rx := { d.rx with quads := [], maskLog := [] }

/-- Between two devices only what the rotation of cores moves has changed, and the memory of masks. -/
def Dev.Rotates (g d : Dev) : Prop :=
  (∀ k, evKey k = false → rotKey k = false → d.a k = g.a k) ∧ d.rip = g.rip ∧ d.pathState = g.pathState

theorem Dev.Rotates.keepsParams {g d : Dev} (h : g.Rotates d) : g.KeepsParams d := by
  obtain ⟨hk, hr, -⟩ := h
  exact ⟨hk, hr⟩

theorem Dev.KeepsParams.trans {a b c : Dev} (h : a.KeepsParams b) (h' : b.KeepsParams c) : a.KeepsParams c := by
  obtain ⟨hk, hr⟩ := h
  obtain ⟨hk', hr'⟩ := h'
  exact ⟨fun k hev hrot => (hk' k hev hrot).trans (hk k hev hrot), hr'.trans hr⟩

theorem Dev.keepsParams_setRx (d : Dev) (x : Rx) : d.KeepsParams { d with rx := x } := ⟨fun _ _ _ => rfl, rfl⟩

namespace Dev.Rotates

variable {g d : Dev} {u : Nat}

theorem refl (d : Dev) : Dev.Rotates d d := ⟨fun _ _ _ => rfl, rfl, rfl⟩

theorem setQuads (h : g.Rotates d) (l : List Quad) : g.Rotates { d with rx := { d.rx with quads := l } } := h

theorem w (h : g.Rotates d) {k : Nat} (hk : rotKey k = true) (v : Nat) : g.Rotates (d.w k v) := by
  obtain ⟨hkeys, hr, hp⟩ := h
  refine ⟨fun j hev hrot => ?_, hr, hp⟩
  rw [Dev.a_w_ne _ _ fun hkj => ?_]
  · exact hkeys j hev hrot
  · rw [hkj, hrot] at hk
    exact Bool.false_ne_true hk

theorem raise (h : g.Rotates d) {n : Nat} (hn : n < 128) (arg : Nat) : g.Rotates (d.raise n arg) := by
  obtain ⟨hkeys, hr, hp⟩ := h
  obtain ⟨m, e, hs⟩ := d.raise_shape n arg
  exact ⟨fun j hev hrot => (d.a_raise arg hn hev).trans (hkeys j hev hrot), by rw [hs]; exact hr, by rw [hs]; exact hp⟩

theorem each {α : Type} {l : List α} {f : α → Dev → Dev} (h : g.Rotates d) (hf : ∀ x ∈ l, ∀ d, g.Rotates d → g.Rotates (f x d)) :
    g.Rotates (d.each l f) := by
  unfold Dev.each
  induction l generalizing d with
  | nil => exact h
  | cons x l ih => exact ih (hf x (List.mem_cons_self ..) d h) fun y hy => hf y (List.mem_cons_of_mem x hy)

end Dev.Rotates

variable {d : Dev} {u : Nat}

/-- All that a quad's rotation does as its roles run or stop: it changes its record, its state and the core of the spare role. -/
theorem Dev.updateQuad_keeps {Q : Dev → Prop} (hquad : ∀ (d : Dev) (f : Quad → Quad), Q d → Q (d.setQuad u f))
    (hstate : ∀ (d : Dev) (st more : Nat), Q d → Q (d.setQuadState u st more)) (hcore : ∀ (d : Dev) (c : Nat), Q d → Q (d.setCore u 8 c))
    (h : Q d) : Q (d.updateQuad u) := by
  have hput (d : Dev) (q : Quad) (h : Q d) : Q { d with rx := { d.rx with quads := modAt d.rx.quads u (fun _ => q) } } := hquad d (fun _ => q) h
  unfold Dev.updateQuad
  dsimp only
  split
  · exact h
  · split
    · split
      · exact h
      · exact hstate _ _ _ (hput _ _ h)
    · split
      · refine hstate _ _ _ (hput _ _ ?_)
        cases (d.rx.quads.getD u {}).stage == 5
        · exact h
        · exact hcore _ _ h
      · split
        · exact h
        · exact hput _ _ h

theorem Dev.Rotates.updateQuad {g : Dev} (h : g.Rotates d) (hu : u < 16) : g.Rotates (d.updateQuad u) :=
  Dev.updateQuad_keeps (fun _ _ h => h.setQuads _) (fun _ _ _ h => h.w (rotKey_quadCalState hu) _) (fun _ _ h => h.w (rotKey_coreMap hu) _) h

theorem Dev.Rotates.spareCycle {g : Dev} (h : g.Rotates d) : g.Rotates d.spareCycle := by
  unfold Dev.spareCycle
  dsimp only
  split
  · exact (h.setQuads _).raise (by decide) _
  · exact h

theorem Dev.Rotates.updateQuads {g : Dev} (h : g.Rotates d) : g.Rotates d.updateQuads :=
  (h.each fun _ hu _ h => h.updateQuad (List.mem_range.1 hu)).spareCycle

theorem Dev.Rotates.maskNote {g : Dev} (h : g.Rotates d) (t : Nat) : g.Rotates (d.maskNote t) := by
  unfold Dev.maskNote
  dsimp only
  split
  · exact h
  · exact h

theorem Dev.Rotates.rxUnretire {g : Dev} (h : g.Rotates d) (hu : u < 16) : g.Rotates (d.rxUnretire u) :=
  ((h.setQuads _).w (rotKey_quadCalState hu) _).updateQuad hu

/-! ### What the rotation leaves of the paths -/

theorem Dev.Rotates.eff_eq {g : Dev} (h : g.Rotates d) (n : Nat) : d.eff n = g.eff n := by
  obtain ⟨-, -, hp⟩ := h
  have heff := congrArg (fun r : Rx => if n = 0 then r.effA else r.effB) hp
  exact heff

theorem Dev.Rotates.offs_eq {g : Dev} (h : g.Rotates d) (n : Nat) : d.offs n = g.offs n := by
  obtain ⟨-, -, hp⟩ := h
  have hoffs := congrArg (fun r : Rx => if n = 0 then r.offA else r.offB) hp
  exact hoffs

theorem Dev.Rotates.starts_eq {g : Dev} (h : g.Rotates d) : d.rx.starts = g.rx.starts := by
  obtain ⟨-, -, hp⟩ := h
  have hstarts := congrArg Rx.starts hp
  exact hstarts

theorem Dev.Rotates.rolesRun_eq {g : Dev} (h : g.Rotates d) (u : Nat) : d.rolesRun u = g.rolesRun u := by
  obtain ⟨hkeys, -, hp⟩ := id h
  have hwide := congrArg Rx.wide hp
  refine Dev.rolesRun_congr hwide h.eff_eq h.starts_eq fun k hk => ?_
  simp only [List.mem_cons, List.not_mem_nil, or_false] at hk
  rcases hk with rfl | rfl | rfl | rfl
  all_goals exact hkeys _ (by decide) (by decide)

end Sys2Proof.Machine
end

section
/-!
The path masks (R98, R99): what a changed mask clears, what it sets, and what then contributes.
-/

namespace Sys2Proof.Machine

variable {d : Dev} {g cleared set old new p : Nat}

/-- The paths that a new mask clears contribute no more, or until the end of the slot in an ACTIVE group. -/
def Dev.pathsCleared (d : Dev) (g cleared : Nat) : Dev :=
  if d.active g then d.setOffs g (maskOr 64 (d.offs g) cleared)
  else
    let d := d.setEff g (maskSub 64 (d.eff g) cleared)
    let d := { d with rx := { d.rx with starts := d.rx.starts.filter (fun s => !(s.1 / 64 == g && bit cleared (s.1 % 64))) } }
    d.each (bitList 64 cleared) (fun p d => d.pathDisabled g p)

/-- The paths that a new mask sets start their settle count. -/
def Dev.pathsSet (d : Dev) (g set : Nat) : Dev :=
  let d := d.setOffs g (maskSub 64 (d.offs g) set)
  { d with rx := { d.rx with
    starts := d.rx.starts.filter (fun (s : Nat × Nat) => !(s.1 / 64 == g && bit set (s.1 % 64)))
      ++ (bitList 64 set).map (fun p => (64 * g + p, d.now + d.latched.settlePs g)) } }

/-- Once the mask has acted on the paths, the quads follow. -/
theorem Dev.rotates_rxMaskWritten (h : d.groupExists g = true) :
    ((d.pathsCleared g (maskSub 64 old new)).pathsSet g (maskSub 64 new old)).Rotates (d.rxMaskWritten g old new) := by
  rw [Dev.rxMaskWritten, if_pos h]
  exact ((Dev.Rotates.refl _).maskNote _).updateQuads

/-! ### The masks -/

theorem Dev.eff_setEff (d : Dev) (g v : Nat) : (d.setEff g v).eff g = v := by
  unfold Dev.setEff Dev.eff
  split
  · rfl
  · rfl

theorem Dev.eff_setOffs (d : Dev) (g v : Nat) : (d.setOffs g v).eff g = d.eff g := by
  unfold Dev.setOffs Dev.eff
  split
  · rfl
  · rfl

theorem Dev.offs_setOffs (d : Dev) (g v : Nat) : (d.setOffs g v).offs g = v := by
  unfold Dev.setOffs Dev.offs
  split
  · rfl
  · rfl

theorem Dev.eff_pathsSet : (d.pathsSet g set).eff g = d.eff g := d.eff_setOffs g _

theorem Dev.offs_pathsSet : (d.pathsSet g set).offs g = maskSub 64 (d.offs g) set := d.offs_setOffs g _

/-- Recording the disabled paths moves events alone. -/
theorem Dev.rotates_pathsDisabled (d : Dev) (g : Nat) (l : List Nat) : d.Rotates (d.each l (fun p d => d.pathDisabled g p)) :=
  (Dev.Rotates.refl d).each fun _ _ _ h => h.raise (by decide) _

theorem Dev.eff_pathsCleared (h : d.active g = false) : (d.pathsCleared g cleared).eff g = maskSub 64 (d.eff g) cleared := by
  rw [Dev.pathsCleared, h, if_neg Bool.false_ne_true]
  exact ((Dev.rotates_pathsDisabled _ _ _).eff_eq g).trans (d.eff_setEff g _)

theorem Dev.pathsCleared_active (h : d.active g = true) : d.pathsCleared g cleared = d.setOffs g (maskOr 64 (d.offs g) cleared) := by
  rw [Dev.pathsCleared, if_pos h]

theorem Dev.keepsParams_pathsCleared (d : Dev) (g cleared : Nat) : d.KeepsParams (d.pathsCleared g cleared) := by
  unfold Dev.pathsCleared
  split
  · exact d.keepsParams_setRx _
  · exact (d.keepsParams_setRx _).trans (Dev.rotates_pathsDisabled _ _ _).keepsParams

theorem Dev.keepsParams_rxMaskWritten (d : Dev) (g old new : Nat) : d.KeepsParams (d.rxMaskWritten g old new) := by
  by_cases h : d.groupExists g = true
  · exact ((d.keepsParams_pathsCleared g _).trans (Dev.keepsParams_setRx _ _)).trans (Dev.rotates_rxMaskWritten h).keepsParams
  · rw [Dev.rxMaskWritten, if_neg h]
    exact (Dev.Rotates.refl d).keepsParams

/-! ### A path whose bit changes -/

section
variable (hexists : d.groupExists g = true) (hp : p < 64)
include hexists hp

theorem Dev.bit_eff_of_cleared (hactive : d.active g = false) (hold : bit old p = true) (hnew : bit new p = false) :
    bit ((d.rxMaskWritten g old new).eff g) p = false := by
  rw [(Dev.rotates_rxMaskWritten hexists).eff_eq, Dev.eff_pathsSet, Dev.eff_pathsCleared hactive]
  simp [bit_maskSub, hp, hold, hnew]

theorem Dev.bit_offs_of_cleared (hactive : d.active g = true) (hold : bit old p = true) (hnew : bit new p = false) :
    bit ((d.rxMaskWritten g old new).offs g) p = true := by
  rw [(Dev.rotates_rxMaskWritten hexists).offs_eq, Dev.offs_pathsSet, Dev.pathsCleared_active hactive, Dev.offs_setOffs]
  simp [bit_maskSub, bit_maskOr, hp, hold, hnew]

theorem Dev.starts_of_set (hold : bit old p = false) (hnew : bit new p = true) :
    ((d.rxMaskWritten g old new).rx.starts.any fun x => x.1 == 64 * g + p) = true := by
  have hmem : p ∈ bitList 64 (maskSub 64 new old) := mem_bitList.2 ⟨hp, by simp [bit_maskSub, hp, hold, hnew]⟩
  rw [(Dev.rotates_rxMaskWritten hexists).starts_eq, List.any_eq_true]
  exact ⟨_, List.mem_append_right _ (List.mem_map_of_mem hmem), beq_self_eq_true _⟩

end

/-- In an ACTIVE group the paths contribute as before. -/
theorem Dev.eff_rxMaskWritten_active (hexists : d.groupExists g = true) (hactive : d.active g = true) :
    (d.rxMaskWritten g old new).eff g = d.eff g := by
  rw [(Dev.rotates_rxMaskWritten hexists).eff_eq, Dev.eff_pathsSet, Dev.pathsCleared_active hactive, Dev.eff_setOffs]

end Sys2Proof.Machine
end

section
/-!
A retired core whose bit is cleared returns to the spare role (R81, R88), each quad by itself.
-/

namespace Sys2Proof.Machine

variable {d : Dev} {u : Nat}

/-- Between two devices the rotation of other quads than `u` alone has moved. -/
def Dev.Aside (u : Nat) (g d : Dev) : Prop :=
  g.Rotates d ∧ d.quad u = g.quad u ∧ d.a (P.rxCoreMap + u) = g.a (P.rxCoreMap + u) ∧ d.rx.quads.length = g.rx.quads.length

namespace Dev.Aside

variable {g : Dev} {v : Nat}

theorem refl (u : Nat) (d : Dev) : Dev.Aside u d d := ⟨Dev.Rotates.refl d, rfl, rfl, rfl⟩

theorem setQuad (h : Dev.Aside u g d) (hv : u ≠ v) (f : Quad → Quad) : Dev.Aside u g (d.setQuad v f) := by
  obtain ⟨hrot, hquad, hcore, hlen⟩ := h
  exact ⟨hrot.setQuads _, (Dev.quad_setQuad_ne f hv).trans hquad, hcore, (modAt_length _ _ _).trans hlen⟩

theorem w (h : Dev.Aside u g d) {k : Nat} (hk : rotKey k = true) (hne : k ≠ P.rxCoreMap + u) (x : Nat) : Dev.Aside u g (d.w k x) := by
  obtain ⟨hrot, hquad, hcore, hlen⟩ := h
  exact ⟨hrot.w hk x, (Dev.quad_w _ _ _).trans hquad, (Dev.a_w_ne _ _ hne).trans hcore, hlen⟩

theorem setQuadState (h : Dev.Aside u g d) (hu : u < 16) (hv : v < 16) (st more : Nat) : Dev.Aside u g (d.setQuadState v st more) :=
  h.w (rotKey_quadCalState hv) (quadCalState_ne_coreMap hu) _

theorem rxUnretire (h : Dev.Aside u g d) (hu : u < 16) (hv : v < 16) (hne : u ≠ v) : Dev.Aside u g (d.rxUnretire v) :=
  Dev.updateQuad_keeps (Q := Dev.Aside u g) (fun _ f h => h.setQuad hne f) (fun _ _ _ h => h.setQuadState hu hv _ _)
    (fun _ _ h => h.w (rotKey_coreMap hv) (fun he => hne (Nat.add_left_cancel he).symm) _) ((h.setQuad hne _).setQuadState hu hv _ _)

theorem each (h : Dev.Aside u g d) (hu : u < 16) {l : List Nat} (hl : ∀ v ∈ l, v < 16) (hmem : u ∉ l) :
    Dev.Aside u g (d.each l (fun v d => d.rxUnretire v)) := by
  unfold Dev.each
  induction l generalizing d with
  | nil => exact h
  | cons v l ih =>
    rw [List.mem_cons, not_or] at hmem
    obtain ⟨hne, hrest⟩ := hmem
    exact ih (h.rxUnretire hu (hl v (List.mem_cons_self ..)) hne) (fun v hv => hl v (List.mem_cons_of_mem _ hv)) hrest

end Dev.Aside

/-- The core of a quad that serves none of its eight roles. -/
def Dev.idleCore (d : Dev) (u : Nat) : Nat := ((List.range 9).find? (fun c => !(List.range 8).any (fun k => d.coreOf u k == c))).getD 0xF

/-- From one device to another the retired core of a quad came back: at the quad's next step, or at once where a role runs. -/
def Dev.Returned (u : Nat) (g d : Dev) : Prop :=
  (g.rolesRun u = 0 → (d.quad u).stage = 5) ∧ (g.rolesRun u ≠ 0 → (d.quad u).stage = 1 ∧ d.coreOf u 8 = g.idleCore u)

theorem Dev.idleCore_lt (d : Dev) (u : Nat) : d.idleCore u < 16 := by
  unfold Dev.idleCore
  cases hfind : (List.range 9).find? (fun c => !(List.range 8).any (fun k => d.coreOf u k == c)) with
  | none => exact (by decide : 0xF < 16)
  | some c =>
    have hc : c < 9 := List.mem_range.1 (List.mem_of_find?_eq_some hfind)
    exact hc.trans (by decide)

theorem Dev.idleCore_congr {e : Dev} (h : d.a (P.rxCoreMap + u) = e.a (P.rxCoreMap + u)) : d.idleCore u = e.idleCore u := by
  have hcore : d.coreOf u = e.coreOf u := funext fun k => Dev.coreOf_congr h k
  rw [Dev.idleCore, Dev.idleCore, hcore]

/-- A quad whose core is to come back begins its step as soon as a role runs. -/
theorem Dev.updateQuad_returns (h : (d.quad u).stage = 5) : d.updateQuad u =
    if d.rolesRun u = 0 then d
    else ((d.setCore u 8 (d.idleCore u)).setQuad u (fun _ =>
      { d.quad u with stage := 1, target := nextRole (d.rolesRun u) 0, done := 0 })).setQuadState u 0 0 := by
  have hstage : (d.rx.quads.getD u {}).stage = 5 := h
  rw [Dev.updateQuad]
  simp only [hstage, beq_self_eq_true, Dev.iff_true]
  rfl

theorem Dev.returned_updateQuad (h : (d.quad u).stage = 5) (hu : u < 16) (hlen : u < d.rx.quads.length) :
    Dev.Returned u d (d.updateQuad u) := by
  rw [Dev.updateQuad_returns h]
  by_cases hrun : d.rolesRun u = 0
  · rw [if_pos hrun]
    exact ⟨fun _ => h, fun hne => absurd hrun hne⟩
  · rw [if_neg hrun]
    refine ⟨fun h0 => absurd h0 hrun, fun _ => ⟨?_, ?_⟩⟩
    · have hlen' : u < (d.setCore u 8 (d.idleCore u)).rx.quads.length := by
        rw [Dev.setCore, Dev.w_rx]
        exact hlen
      rw [Dev.setQuadState, Dev.quad_w, Dev.quad_setQuad_self _ hlen']
    · rw [Dev.coreOf_setQuadState hu, Dev.coreOf_setQuad, Dev.coreOf_setCore_self _ _ _ (d.idleCore_lt u)]

/-- What a quad returns to hangs on its roles and its core map alone. -/
theorem Dev.Returned.congr {e t : Dev} (hruns : d.rolesRun u = e.rolesRun u) (hcore : d.a (P.rxCoreMap + u) = e.a (P.rxCoreMap + u))
    (h : Dev.Returned u d t) : Dev.Returned u e t := by
  rw [Dev.Returned, ← hruns, ← Dev.idleCore_congr hcore]
  exact h

theorem Dev.returned_rxUnretire (hu : u < 16) (hlen : u < d.rx.quads.length) : Dev.Returned u d (d.rxUnretire u) := by
  have hstage : (((d.setQuad u (fun q => { q with stage := 5, fails := 0, done := 0 })).setQuadState u 1 0).quad u).stage = 5 := by
    rw [Dev.setQuadState, Dev.quad_w, Dev.quad_setQuad_self _ hlen]
  have hrot : d.Rotates ((d.setQuad u (fun q => { q with stage := 5, fails := 0, done := 0 })).setQuadState u 1 0) :=
    ((Dev.Rotates.refl d).setQuads _).w (rotKey_quadCalState hu) _
  have hlen' : u < (d.setQuad u (fun q => { q with stage := 5, fails := 0, done := 0 })).rx.quads.length := by
    rw [Dev.setQuad, modAt_length]
    exact hlen
  exact (Dev.returned_updateQuad hstage hu hlen').congr (hrot.rolesRun_eq u) (Dev.a_w_ne _ _ (quadCalState_ne_coreMap hu))

/-- Every quad of a list without repetition returns, whatever its place in the list. -/
theorem Dev.returned_each {l : List Nat} (hnodup : l.Nodup) (hl : ∀ v ∈ l, v < 16) (hmem : u ∈ l) (hlen : d.rx.quads.length = 16) :
    Dev.Returned u d (d.each l (fun v d => d.rxUnretire v)) := by
  have hu := hl u hmem
  induction l generalizing d with
  | nil => exact absurd hmem List.not_mem_nil
  | cons v l ih =>
    obtain ⟨hv, hnodup⟩ := List.nodup_cons.1 hnodup
    have hl' (w : Nat) (hw : w ∈ l) : w < 16 := hl w (List.mem_cons_of_mem _ hw)
    by_cases hne : u = v
    · subst hne
      have hret := Dev.returned_rxUnretire hu (hu.trans_eq hlen.symm)
      obtain ⟨-, hquad, hcore, -⟩ := (Dev.Aside.refl u (d.rxUnretire u)).each hu hl' hv
      have hcoreOf := Dev.coreOf_congr hcore 8
      unfold Dev.Returned
      rw [show d.each (u :: l) (fun v d => d.rxUnretire v) = (d.rxUnretire u).each l (fun v d => d.rxUnretire v) from rfl, hquad, hcoreOf]
      exact hret
    · obtain ⟨hrot, -, hcore, hlen'⟩ := (Dev.Aside.refl u d).rxUnretire hu (hl v (List.mem_cons_self ..)) hne
      have hrest := ih (d := d.rxUnretire v) hnodup hl' ((List.mem_cons.1 hmem).resolve_left hne) (hlen'.trans hlen)
      exact hrest.congr (hrot.rolesRun_eq u) hcore

end Sys2Proof.Machine
end

section
/-!
The writes themselves: each parameter is a plain one, and its effect is the one its chapter gives (R88, R98, R99, R217, R281, R485).
-/

namespace Sys2Proof.Machine

/-! ### What an accepted write leaves -/

section
variable {key v : Nat} {f : Dev → Dev → Dev} {s t : State} {c : Instr} {post : State → Prop}

theorem DoesDev.mono {pre : State → Prop} (h : DoesDev c s pre) (himp : ∀ t, pre t → post t) : DoesDev c s post := by
  obtain ⟨t, hexec, hpending, hmem, ht⟩ := h
  exact ⟨t, hexec, hpending, hmem, himp t ht⟩

theorem Dev.rx_of_works {d e : Dev} (h : d.works = e.works) : d.rx = e.rx := by
  have hrx := congrArg Dev.rx h
  exact hrx

theorem Dev.ul_of_works {d e : Dev} (h : d.works = e.works) : d.ul = e.ul := by
  have hul := congrArg Dev.ul h
  exact hul

/-- The parameter has the value written, and the effect acts on the paths and plans as they were. -/
theorem Taken.effect {r : PRow} (h : Taken key v f s t) (hplain : Plain key v r) (hlocal : Local f) :
    ∃ old d : Dev, old.a key = s.a key ∧ d.a key = v ∧ t.a key = v ∧ d.rx = s.dev.rx ∧ d.ul = s.dev.ul ∧
      (∀ k, k ≠ key → evKey k = false → replyKey k = false → d.a k = s.a k) ∧
      (∀ k, evKey k = false → replyKey k = false → t.a k = (f old d).a k) ∧ t.dev.rx = (f old d).rx ∧ t.dev.ul = (f old d).ul := by
  obtain ⟨old, d, ⟨hold, holdWorks⟩, ⟨hvalue, hothers, hworks, -⟩, ⟨hafter, hafterWorks⟩⟩ := h
  obtain ⟨hkeeps, -⟩ := hlocal old d
  have hstands : t.a key = v :=
    ((hafter key hplain.notEvent hplain.notReply).trans (hkeeps key hplain.notEvent hplain.notRot)).trans hvalue
  have hwork := hworks.trans holdWorks
  exact ⟨old, d, hold key hplain.notEvent hplain.notReply, hvalue, hstands,
    Dev.rx_of_works hwork, Dev.ul_of_works hwork, fun k hne hk hr => (hothers k hne hk).trans (hold k hk hr), hafter,
    Dev.rx_of_works hafterWorks, Dev.ul_of_works hafterWorks⟩

end

/-! ### The path masks -/

/-- The effect of a write to a path enable mask. -/
def pathEffect (group : Nat) (old d : Dev) : Dev :=
  d.rxMaskWritten group (old.a (gk P.rxPathEnableA group)) (d.a (gk P.rxPathEnableA group))

section
variable {group mask dt : Nat} {w : Who} {s t : State} {c : Instr}

theorem plain_rxPathEnable (hg : group < 2) (h : mask < 2 ^ 64) : ∃ r, Plain (gk P.rxPathEnableA group) mask r := by
  interval_cases group
  · exact plain_of_key (width := 8) (by decide) h rfl
  · exact plain_of_key (width := 8) (by decide) h rfl

theorem written_rxPathEnable (hg : group < 2) (m : Memory) (p : Places) (who port ses : Nat) (old d : Dev) :
    Dev.written old d m p who port ses {} (oneChg (gk P.rxPathEnableA group) mask) [gk P.rxPathEnableA group] = ⟨pathEffect group old d, [], none⟩ := by
  rw [Dev.written, oneChg]
  dsimp only
  interval_cases group
  all_goals
    repeat rw [if_neg (by decide)]
    rw [if_pos (by decide)]
    rfl

theorem local_pathEffect (group : Nat) : Local (pathEffect group) := fun _ d => d.keepsParams_rxMaskWritten _ _ _

/-- The write of either mask. -/
theorem rxPathEnable_taken (hg : group < 2) (h : mask < 2 ^ 64) (hexec : exec c s = onRow dt w (gk P.rxPathEnableA group) 0 [mask] {} s)
    (htakes : s.takes dt w (writeItem (gk P.rxPathEnableA group) 0 [mask]) {} = true) :
    DoesDev c s (fun t => t.a (gk P.rxPathEnableA group) = mask ∧ ∃ d : Dev, d.rx = s.dev.rx ∧ d.active group = s.dev.active group ∧
      t.dev.rx = (d.rxMaskWritten group (s.a (gk P.rxPathEnableA group)) mask).rx) := by
  obtain ⟨r, hplain⟩ := plain_rxPathEnable hg h
  refine (doesDev_of_takes hplain (local_pathEffect group) hexec (written_rxPathEnable hg) htakes).mono fun t ht => ?_
  have hne : P.pwrActiveMask ≠ gk P.rxPathEnableA group := by
    simp only [gk, P.rxPathEnableA, P.pwrActiveMask]
    omega
  obtain ⟨old, d, hold, hnew, hvalue, hrx, -, hothers, -, hafter, -⟩ := ht.effect hplain (local_pathEffect group)
  refine ⟨hvalue, d, hrx, ?_, ?_⟩
  · rw [Dev.active, Dev.active, Dev.ab, Dev.ab, hothers _ hne (by decide) (by decide)]
    rfl
  · rw [hafter, pathEffect, hold, hnew]

theorem Dev.eff_of_rx {d e : Dev} (h : d.rx = e.rx) (g : Nat) : d.eff g = e.eff g := by rw [Dev.eff, Dev.eff, h]

theorem Dev.offs_of_rx {d e : Dev} (h : d.rx = e.rx) (g : Nat) : d.offs g = e.offs g := by rw [Dev.offs, Dev.offs, h]

theorem Dev.groupExists_of_rx {d e : Dev} (h : d.rx = e.rx) (g : Nat) : d.groupExists g = e.groupExists g := by
  rw [Dev.groupExists, Dev.groupExists, Dev.wide, Dev.wide, h]

theorem claim_rxPathDisable : Claims.rxPathDisable := by
  intro s dt group mask w hgroup hmask htakes
  have hg : group < 2 := of_decide_eq_true hgroup
  have hexec : exec (.rxPathDisable dt w group mask) s = onRow dt w (gk P.rxPathEnableA (group % 2)) 0 [mask] {} s := rfl
  rw [Nat.mod_eq_of_lt hg] at hexec
  refine (rxPathEnable_taken hg hmask hexec htakes).mono fun t ht => ?_
  obtain ⟨hvalue, d, hrx, hact, hafter⟩ := ht
  refine ⟨hvalue, fun hex hoff p hp hold hnew => ?_, fun hex hon p hp hold hnew => ⟨?_, ?_⟩⟩
  · rw [Dev.eff_of_rx hafter]
    exact Dev.bit_eff_of_cleared ((Dev.groupExists_of_rx hrx _).trans hex) hp (hact.trans hoff) hold hnew
  · rw [Dev.offs_of_rx hafter]
    exact Dev.bit_offs_of_cleared ((Dev.groupExists_of_rx hrx _).trans hex) hp (hact.trans hon) hold hnew
  · rw [Dev.eff_of_rx hafter, Dev.eff_rxMaskWritten_active ((Dev.groupExists_of_rx hrx _).trans hex) (hact.trans hon), Dev.eff_of_rx hrx]

theorem claim_rxPathEnable : Claims.rxPathEnable := by
  intro s dt group mask w hgroup hmask htakes
  have hg : group < 2 := of_decide_eq_true hgroup
  have hexec : exec (.rxPathEnable dt w group mask) s = onRow dt w (gk P.rxPathEnableA (group % 2)) 0 [mask] {} s := rfl
  rw [Nat.mod_eq_of_lt hg] at hexec
  refine (rxPathEnable_taken hg hmask hexec htakes).mono fun t ht => ?_
  obtain ⟨hvalue, d, hrx, -, hafter⟩ := ht
  refine ⟨hvalue, fun hex p hp hold hnew => ?_⟩
  rw [hafter]
  exact Dev.starts_of_set ((Dev.groupExists_of_rx hrx _).trans hex) hp hold hnew

end

end Sys2Proof.Machine
end

section
/-!
The writes that act on plans, on trust and on retired cores (R88, R217, R281, R485).
-/

namespace Sys2Proof.Machine

variable {key v : Nat} {s : State} {c : Instr}

/-! ### What waits for the end of the slot -/

/-- An effect on the plans to come alone, by the value the parameter had. -/
def planEffect (key : Nat) (g : Nat → Ul → Ul) (old d : Dev) : Dev := { d with ul := g (old.a key) d.ul }

theorem local_planEffect (key : Nat) (g : Nat → Ul → Ul) : Local (planEffect key g) := fun _ _ => ⟨fun _ _ _ => rfl, rfl⟩

/-- What an accepted write of a parameter whose effect is on the plans to come leaves of them. -/
theorem planEffect_taken {g : Nat → Ul → Ul} {dt : Nat} {w : Who} (h : ∃ r, Plain key v r) (hexec : exec c s = onRow dt w key 0 [v] {} s)
    (htakes : s.takes dt w (writeItem key 0 [v]) {} = true)
    (hwritten : ∀ (m : Memory) (p : Places) (who port ses : Nat) (old d : Dev),
      Dev.written old d m p who port ses {} (oneChg key v) [key] = ⟨planEffect key g old d, [], none⟩) :
    DoesDev c s (fun t => t.a key = v ∧ t.dev.ul = g (s.a key) s.dev.ul) := by
  obtain ⟨r, hplain⟩ := h
  refine (doesDev_of_takes hplain (local_planEffect key g) hexec hwritten htakes).mono fun t ht => ?_
  obtain ⟨old, d, hold, -, hvalue, -, hul, -, -, -, hafter⟩ := ht.effect hplain (local_planEffect key g)
  refine ⟨hvalue, ?_⟩
  rw [hafter, planEffect, hold, hul]

theorem claim_apGroupDisable : Claims.apGroupDisable := by
  intro s dt value w hvalue htakes
  have hplain : ∃ r, Plain P.apGroupEnable value r :=
    plain_of_key (width := 1) (by decide) (by omega) (by interval_cases value <;> decide)
  refine (planEffect_taken (g := fun old ul => { ul with grpOff := maskOr 2 ul.grpOff (maskSub 2 old value) }) hplain rfl htakes ?_).mono ?_
  · intro m p who port ses old d
    rw [Dev.written, oneChg]
    dsimp only
    repeat rw [if_neg (by decide)]
    rw [if_pos (by decide)]
    rfl
  · rintro t ⟨hv, hul⟩
    exact ⟨hv, by rw [hul]⟩

theorem claim_dlGroupDisable : Claims.dlGroupDisable := by
  intro s dt value w hvalue htakes
  have hplain : ∃ r, Plain P.dlGroupEnable value r :=
    plain_of_key (width := 1) (by decide) (by omega) (by interval_cases value <;> decide)
  refine (planEffect_taken (g := fun old ul => { ul with dlOff := maskOr 2 ul.dlOff (maskSub 2 old value) }) hplain rfl htakes ?_).mono ?_
  · intro m p who port ses old d
    rw [Dev.written, oneChg]
    dsimp only
    repeat rw [if_neg (by decide)]
    rw [if_pos (by decide)]
    rfl
  · rintro t ⟨hv, hul⟩
    exact ⟨hv, by rw [hul]⟩

/-- The modes a new mask of a group clears stop at the end of the slot. -/
def modesOff (group value old : Nat) (ul : Ul) : Ul :=
  if group = 0 then { ul with modeOffA := maskOr 4 ul.modeOffA (maskSub 4 old value) }
  else { ul with modeOffB := maskOr 4 ul.modeOffB (maskSub 4 old value) }

theorem claim_apModeDisable : Claims.apModeDisable := by
  intro s dt group value w hgroup hvalue htakes
  have hg : group < 2 := of_decide_eq_true hgroup
  have hexec : exec (.apModeDisable dt w group value) s = onRow dt w (gk P.apModeEnableA (group % 2)) 0 [value] {} s := rfl
  rw [Nat.mod_eq_of_lt hg] at hexec
  have hplain : ∃ r, Plain (gk P.apModeEnableA group) value r := by
    interval_cases group
    · exact plain_of_key (width := 1) (by decide) (by omega) (by interval_cases value <;> decide)
    · exact plain_of_key (width := 1) (by decide) (by omega) (by interval_cases value <;> decide)
  refine (planEffect_taken (g := modesOff group value) hplain hexec htakes ?_).mono ?_
  · intro m p who port ses old d
    rw [Dev.written, oneChg]
    dsimp only
    interval_cases group
    all_goals
      repeat rw [if_neg (by decide)]
      rw [if_pos (by decide)]
      rfl
  · rintro t ⟨hv, hul⟩
    refine ⟨hv, ?_, ?_⟩
    · rintro rfl
      rw [hul]
      rfl
    · rintro rfl
      rw [hul]
      rfl

theorem claim_mainlandTrustClear : Claims.mainlandTrustClear := by
  intro s dt w htakes
  have hplain : ∃ r, Plain P.mainlandTrust 0 r := plain_of_key (width := 1) (by decide) (by decide) rfl
  refine (planEffect_taken (g := fun old ul => if old = 1 then { ul with trustOff := true } else ul) hplain rfl htakes ?_).mono ?_
  · intro m p who port ses old d
    rw [Dev.written, oneChg]
    dsimp only
    repeat rw [if_neg (by decide)]
    rw [if_pos (by decide)]
    by_cases htrust : old.a P.mainlandTrust = 1
    · simp [htrust, planEffect, Dev.iff]
    · simp [htrust, planEffect, Dev.iff]
  · rintro t ⟨hv, hul⟩
    refine ⟨hv, fun htrust => ?_⟩
    rw [hul, if_pos htrust]

/-! ### Retired cores -/

/-- The effect of a write to the mask of quads with a retired core. -/
def retiredEffect (value : Nat) (old d : Dev) : Dev :=
  d.each (bitList 16 (maskSub 16 (old.a P.rxRetiredMask) value)) (fun u d => d.rxUnretire u)

theorem local_retiredEffect (value : Nat) : Local (retiredEffect value) := fun _ d =>
  ((Dev.Rotates.refl d).each fun _ hu _ h => h.rxUnretire (lt_of_mem_bitList hu)).keepsParams

theorem claim_rxRetiredMaskClear : Claims.rxRetiredMaskClear := by
  intro s dt value w hvalue htakes hshaped
  obtain ⟨r, hplain⟩ : ∃ r, Plain P.rxRetiredMask value r := plain_of_key (width := 2) (by decide) hvalue rfl
  have hwritten (m : Memory) (p : Places) (who port ses : Nat) (old d : Dev) :
      Dev.written old d m p who port ses {} (oneChg P.rxRetiredMask value) [P.rxRetiredMask] = ⟨retiredEffect value old d, [], none⟩ := by
    rw [Dev.written, oneChg]
    dsimp only
    repeat rw [if_neg (by decide)]
    rw [if_pos (by decide)]
    rfl
  refine (doesDev_of_takes hplain (local_retiredEffect value) rfl hwritten htakes).mono fun t ht => ?_
  obtain ⟨old, d, hold, -, hv, hrx, -, hothers, hafter, hafterRx, -⟩ := ht.effect hplain (local_retiredEffect value)
  refine ⟨hv, fun u hu hset hclear => ?_⟩
  have hmem : u ∈ bitList 16 (maskSub 16 (old.a P.rxRetiredMask) value) :=
    mem_bitList.2 ⟨hu, by rw [hold]; simp [bit_maskSub, hu, hset, hclear]⟩
  have hret : Dev.Returned u d (retiredEffect value old d) :=
    Dev.returned_each (nodup_bitList _ _) (fun _ hv => lt_of_mem_bitList hv) hmem (by rw [hrx]; exact Dev.quads_length hshaped)
  have hkey (k : Nat) (hne : k ≠ P.rxRetiredMask) (hev : evKey k = false) (hreply : replyKey k = false) : d.a k = s.dev.a k :=
    hothers k hne hev hreply
  have hreply : replyKey (P.rxCoreMap + u) = false := by interval_cases u <;> decide
  have hne : P.rxCoreMap + u ≠ P.rxRetiredMask := by
    simp only [P.rxCoreMap, P.rxRetiredMask]
    omega
  have hruns : d.rolesRun u = s.dev.rolesRun u := by
    refine Dev.rolesRun_congr (by rw [hrx]) (Dev.eff_of_rx hrx) (by rw [hrx]) fun k hk => ?_
    simp only [List.mem_cons, List.not_mem_nil, or_false] at hk
    rcases hk with rfl | rfl | rfl | rfl
    all_goals exact hkey _ (by decide) (by decide) (by decide)
  obtain ⟨hstands, hreturns⟩ := hret.congr hruns (hkey _ hne (evKey_rxCoreMap hu) hreply)
  have hquad : t.dev.quad u = (retiredEffect value old d).quad u := by rw [Dev.quad, Dev.quad, hafterRx]
  have hcore : t.dev.coreOf u 8 = (retiredEffect value old d).coreOf u 8 :=
    Dev.coreOf_congr (hafter _ (evKey_rxCoreMap hu) hreply) 8
  rw [← hquad] at hstands
  rw [← hquad, ← hcore] at hreturns
  exact ⟨hstands, hreturns⟩

/-- Settles O59: an accepted write comes to the parameter's effect on the device as it stood, with the value stored, and audit, count and
answer show in none of it; each clause then reads one effect bit by bit. -/
theorem pathAndGroupWritesAct : Obligations.PathAndGroupWritesAct :=
  ⟨claim_rxPathDisable, claim_rxPathEnable, claim_rxRetiredMaskClear, claim_apGroupDisable, claim_apModeDisable, claim_dlGroupDisable,
    claim_mainlandTrustClear⟩

end Sys2Proof.Machine
end

section
/-!
The statement on what Catalogue operations commit fails on one state, written out: the answer to an operation whose join has gone bad.
-/

namespace Sys2Proof.Machine

/-- A QUERY (R169): OP 5 in 16 bytes, every other field 0. -/
def queryBody : List Byte := 5#8 :: zeros 15

/-- Island 3 of an Archipelago has the QUERY of its neighbour on S0 at the head of VC1, and the CAPS records of that join have shown
different GEN_STRAIT since it came (R529). -/
def partedJoin : State :=
  { dev := {
      alm := [(P.archIslandNumber, 3)],
      port := [{}, { mismatch := true }, {}, {}, {}],
      cat := { vc1 := [⟨1, true, tCatOp, queryBody⟩] } } }

/-- Refutes O23: an operation that came over a Strait port is answered there (`catalogueOpComplete`), but a join with a generation
mismatch carries no CATALOGUE_OP (R529, `Dev.joinCarries`): the response is neither sent nor waits. -/
theorem not_catalogueCommits : ¬ Obligations.CatalogueCommits := by
  unfold Obligations.CatalogueCommits
  rintro ⟨hcomplete, -⟩
  have hdone := hcomplete partedJoin 0 [] ⟨1, true, tCatOp, queryBody⟩ rfl rfl (by decide +kernel) (by decide) (by decide +kernel)
    (by decide +kernel) rfl
  rw [does_onMem (f := fun d m => d.catOpDone m []) (dt := 0) rfl] at hdone
  obtain ⟨-, -, ⟨q, hout⟩ | hwait, -⟩ := hdone
  · have hsilent : ((partedJoin.at_ 0).catOpDone partedJoin.mem []).1.out = [] := by decide +kernel
    rw [State.leave_out, hsilent] at hout
    exact absurd hout (List.not_mem_nil)
  · have hempty : (((partedJoin.at_ 0).catOpDone partedJoin.mem []).1.port.getD 1 {}).wait = [] := by decide +kernel
    rw [State.leave_port, hempty] at hwait
    exact absurd hwait (List.not_mem_nil)

end Sys2Proof.Machine
end

section
/-!
What an effect moves, said at the instant it acts: some parameters, events raised, and of the device what a frame erases. Each shared
operation has its rule; the frame of a command (`Acts`) and what it counts are then read off.
-/

namespace Sys2Proof.Machine

/-- From `g` to `d` no parameter moved but the listed ones and those of events, no event of the edge is lost, and nothing of the device but
what time, events and `part` erase. -/
def Dev.Moves (keys : List Nat) (part : Dev → Dev) (g d : Dev) : Prop :=
  (∀ k, evKey k = false → k ∉ keys → d.a k = g.a k) ∧ (∀ e ∈ g.edge, e ∈ d.edge) ∧ part d.bare = part g.bare

/-- From `g` to `d` a counter that stays within its width counted. -/
def Dev.Counts (k n : Nat) (g d : Dev) : Prop := g.a k + n < 2 ^ keyBits k → d.a k = g.a k + n

namespace Dev.Moves

variable {keys : List Nat} {part : Dev → Dev} {g d e : Dev}

theorem refl (keys : List Nat) (part : Dev → Dev) (d : Dev) : Dev.Moves keys part d d := ⟨fun _ _ _ => rfl, fun _ h => h, rfl⟩

theorem trans (h : g.Moves keys part d) (h' : d.Moves keys part e) : g.Moves keys part e := by
  obtain ⟨hkeys, hedge, hpart⟩ := h
  obtain ⟨hkeys', hedge', hpart'⟩ := h'
  exact ⟨fun k hk hl => (hkeys' k hk hl).trans (hkeys k hk hl), fun x hx => hedge' x (hedge x hx), hpart'.trans hpart⟩

theorem a_eq (h : g.Moves keys part d) {k : Nat} (hk : evKey k = false) (hl : k ∉ keys) : d.a k = g.a k := h.1 k hk hl

theorem raised (h : g.Moves keys part d) {n arg : Nat} (hr : Raised g n arg) : Raised d n arg := by
  obtain ⟨x, hx, hn⟩ := hr
  exact ⟨x, h.2.1 x hx, hn⟩

/-- More parameters and a frame that erases more. -/
theorem mono (h : g.Moves keys part d) {keys' : List Nat} {part' : Dev → Dev} (hl : ∀ k ∈ keys, k ∈ keys')
    (hp : ∀ d d' : Dev, part d = part d' → part' d = part' d') : g.Moves keys' part' d := by
  obtain ⟨hkeys, hedge, hpart⟩ := h
  exact ⟨fun k hk hn => hkeys k hk fun hin => hn (hl k hin), hedge, hp _ _ hpart⟩

/-! ### The shared operations -/

/-- Parameters and events stand, and what changed is erased. -/
theorem same (h : g.Moves keys part d) (halm : e.alm = d.alm) (hedge : e.edge = d.edge) (hpart : part e.bare = part d.bare) :
    g.Moves keys part e := by
  obtain ⟨hkeys, hev, hp⟩ := h
  refine ⟨fun k hk hl => ?_, fun x hx => ?_, hpart.trans hp⟩
  · rw [← hkeys k hk hl, Dev.a, Dev.a, halm]
  · rw [hedge]
    exact hev x hx

theorem w (h : g.Moves keys part d) {k : Nat} (hk : k ∈ keys ∨ evKey k = true) (v : Nat) : g.Moves keys part (d.w k v) := by
  obtain ⟨hkeys, hedge, hpart⟩ := h
  refine ⟨fun j hj hl => ?_, hedge, hpart⟩
  rw [Dev.a_w_ne, hkeys j hj hl]
  rintro rfl
  obtain hk | hk := hk
  · exact hl hk
  · exact absurd hk (by simp [hj])

theorem add (h : g.Moves keys part d) {k : Nat} (hk : k ∈ keys ∨ evKey k = true) (n : Nat) : g.Moves keys part (d.add k n) := by
  unfold Dev.add
  dsimp only
  split
  · exact h.w hk _
  · split
    · exact h.w hk _
    · exact h.w hk _

theorem inc (h : g.Moves keys part d) {k : Nat} (hk : k ∈ keys ∨ evKey k = true) : g.Moves keys part (d.inc k) := h.add hk 1

theorem raise (h : g.Moves keys part d) {n : Nat} (hn : n < 128) (arg : Nat) : g.Moves keys part (d.raise n arg) := by
  obtain ⟨hkeys, hedge, hpart⟩ := h
  refine ⟨fun k hk hl => (d.a_raise arg hn hk).trans (hkeys k hk hl), fun x hx => d.edge_raise n arg (hedge x hx), ?_⟩
  obtain ⟨m, x, hs⟩ := d.raise_shape n arg
  rw [hs]
  exact hpart

theorem wx (h : g.Moves keys part d) (k v : Nat) : g.Moves keys part (d.wx k v) := h

theorem raiseRate (h : g.Moves keys part d) {n : Nat} (hn : n < 128) (sub period amount : Nat) (mk : Nat → Nat) :
    g.Moves keys part (d.raiseRate n sub period amount mk) := by
  unfold Dev.raiseRate
  dsimp only
  split
  · exact ((h.wx _ _).wx _ _).raise hn _
  · exact h.wx _ _

theorem iff {c : Bool} {f : Dev → Dev} (h : g.Moves keys part d) (hf : ∀ d, g.Moves keys part d → g.Moves keys part (f d)) :
    g.Moves keys part (d.iff c f) := by
  cases c
  · exact h
  · exact hf d h

theorem wN (h : g.Moves keys part d) {k : Nat} (hk : k ∈ keys) (v : Nat) : g.Moves keys part (d.wN k v) :=
  Dev.wN_keeps (Q := g.Moves keys part) (fun _ _ h => h) (fun _ _ h => h.raise (by decide) _) (fun _ h => h.inc (Or.inr evKey_discard))
    (fun _ h => h.w (Or.inl hk) v) h

/-- Counting what package memory serves is bookkeeping alone. -/
theorem served (h : g.Moves keys part d) (c n : Nat) : g.Moves keys part (d.served c n) := by
  unfold Dev.served Dev.servedAt
  dsimp only
  split
  · exact h.wx _ _
  · split
    · exact (((h.wx _ _).wx _ _).wx _ _).wx _ _
    · split
      · exact h.wx _ _
      · exact (h.wx _ _).wx _ _

end Dev.Moves

section
variable {k n : Nat} {g d e : Dev}

theorem Dev.counts_inc (h : d.a k = g.a k) : g.Counts k 1 (d.inc k) := fun hlt => by
  rw [Dev.a_inc_lt _ _ (by rwa [h]), h]

theorem Dev.Counts.keep (h : g.Counts k n d) (he : e.a k = d.a k) : g.Counts k n e := fun hlt => he.trans (h hlt)

end

/-! ### At the command -/

variable {c : Instr} {s : State} {dt : Nat} {keys : List Nat} {part : Dev → Dev} {post : State → Prop} {d : Dev}

theorem State.counted_of_counts {k n : Nat} (hk : evKey k = false) (h : (s.at_ dt).Counts k n d) (mem : Memory) :
    Counted s ((s.arrive dt).leave d mem) k n := fun hlt => by
  rw [State.a, State.leave_a _ _ _ hk, h (by rwa [s.a_at dt hk]), s.a_at dt hk]

theorem acts_onDev_of_moves {f : Dev → Dev} (h : exec c s = onDev dt f s) (hmoves : (s.at_ dt).Moves keys part (f (s.at_ dt)))
    (hpost : post ((s.arrive dt).leave (f (s.at_ dt)) s.mem)) : Acts c s keys part post := by
  obtain ⟨hkeys, -, hpart⟩ := hmoves
  exact acts_onDev h hkeys hpart hpost

/-- A command that may change memory and does not. -/
theorem acts_onMem_of_moves {f : Dev → Memory → Dev × List MemOp} (h : exec c s = onMem dt f s) (hf : f (s.at_ dt) s.mem = (d, []))
    (hmoves : (s.at_ dt).Moves keys part d) (hpost : post ((s.arrive dt).leave d s.mem)) : Acts c s keys part post := by
  obtain ⟨hkeys, -, hpart⟩ := hmoves
  rw [Acts, DoesDev, does_onMem h, hf]
  refine ⟨rfl, fun k hk hl => ?_, ?_, hpost⟩
  · exact (State.leave_a _ _ _ hk).trans ((hkeys k hk hl).trans (s.a_at dt hk))
  · rw [State.bare_leave, hpart, State.bare_at]

end Sys2Proof.Machine
end

section
/-!
Plans that come late (R194, R259, R514): whatever the plan, one of two counters counts, an event is raised, and the lists of what is
awaited change.
-/

namespace Sys2Proof.Machine

/-- The counter of late plans of each kind, and of refused ones. -/
def lateKey (dl : Bool) : Nat := if dl then P.dlPlanLateCount else P.apPlanLateCount
def refusedKey (dl : Bool) : Nat := if dl then P.dlPlanRefusedCount else P.apPlanRefusedCount

theorem evKey_lateKey (dl : Bool) : evKey (lateKey dl) = false := by cases dl <;> decide
theorem evKey_refusedKey (dl : Bool) : evKey (refusedKey dl) = false := by cases dl <;> decide

section
variable {keys : List Nat} {part : Dev → Dev} {g d : Dev} {dl : Bool}

theorem Dev.planLate_eq (d : Dev) (dl : Bool) (group us : Nat) :
    ∃ n arg, n < 128 ∧ d.planLate dl group us = (d.inc (lateKey dl)).raise n arg := by
  cases dl
  · exact ⟨32, _, by decide, rfl⟩
  · exact ⟨44, _, by decide, rfl⟩

theorem Dev.planRefused_eq (d : Dev) (dl : Bool) (group reason : Nat) :
    ∃ arg, d.planRefused dl group reason = (d.inc (refusedKey dl)).raise 33 arg := by
  cases dl
  · exact ⟨_, rfl⟩
  · exact ⟨_, rfl⟩

theorem Dev.Moves.planLate (h : g.Moves keys part d) (hk : lateKey dl ∈ keys) (group us : Nat) :
    g.Moves keys part (d.planLate dl group us) := by
  obtain ⟨n, arg, hn, heq⟩ := d.planLate_eq dl group us
  rw [heq]
  exact (h.inc (Or.inl hk)).raise hn arg

theorem Dev.Moves.planRefused (h : g.Moves keys part d) (hk : refusedKey dl ∈ keys) (group reason : Nat) :
    g.Moves keys part (d.planRefused dl group reason) := by
  obtain ⟨arg, heq⟩ := d.planRefused_eq dl group reason
  rw [heq]
  exact (h.inc (Or.inl hk)).raise (by decide) arg

theorem Dev.counts_planLate (h : d.a (lateKey dl) = g.a (lateKey dl)) (group us : Nat) :
    g.Counts (lateKey dl) 1 (d.planLate dl group us) := by
  obtain ⟨n, arg, hn, heq⟩ := d.planLate_eq dl group us
  rw [heq]
  exact (Dev.counts_inc h).keep (Dev.a_raise _ arg hn (evKey_lateKey dl))

theorem Dev.counts_planRefused (h : d.a (refusedKey dl) = g.a (refusedKey dl)) (group reason : Nat) :
    g.Counts (refusedKey dl) 1 (d.planRefused dl group reason) := by
  obtain ⟨arg, heq⟩ := d.planRefused_eq dl group reason
  rw [heq]
  exact (Dev.counts_inc h).keep (Dev.a_raise _ arg (by decide) (evKey_refusedKey dl))

/-- Neither moves what is awaited. -/
theorem Dev.parts_planLate (dl' : Bool) (group us : Nat) : (d.planLate dl group us).parts dl' = d.parts dl' := by
  obtain ⟨n, arg, -, heq⟩ := d.planLate_eq dl group us
  rw [heq, Dev.parts, Dev.parts]
  simp

theorem Dev.parts_planRefused (dl' : Bool) (group reason : Nat) : (d.planRefused dl group reason).parts dl' = d.parts dl' := by
  obtain ⟨arg, heq⟩ := d.planRefused_eq dl group reason
  rw [heq, Dev.parts, Dev.parts]
  simp

theorem Dev.parts_setParts (l : List PlanPart) : (d.setParts dl l).parts dl = l := by cases dl <;> rfl

theorem Dev.a_setParts (l : List PlanPart) (k : Nat) : (d.setParts dl l).a k = d.a k := by cases dl <;> rfl

/-- Setting the incomplete plans of a kind moves what the frame of that kind erases. -/
theorem Dev.Moves.setParts (h : g.Moves keys part d) (l : List PlanPart)
    (hpart : part ((d.setParts dl l).bare) = part d.bare) : g.Moves keys part (d.setParts dl l) := by
  refine h.same ?_ ?_ hpart
  · cases dl <;> rfl
  · cases dl <;> rfl

end

theorem State.parts_leave (s : State) (d : Dev) (m : Memory) (dl : Bool) : (s.leave d m).dev.parts dl = d.parts dl := by
  simp [Dev.parts]

theorem State.parts_at (s : State) (dt : Nat) (dl : Bool) : (s.at_ dt).parts dl = s.dev.parts dl := by
  simp [Dev.parts, State.at_]

/-! ### The deadline of a plan's segments -/

/-- The part of a plan is marked late. -/
def Dev.markLate (d : Dev) (dl : Bool) (slot g : Nat) (x : PlanPart) : Dev :=
  d.setParts dl ((d.parts dl).filter (fun y => !y.is slot g false) ++ [{ x with late := true }])

theorem Dev.planDeadline_late {d : Dev} {dl : Bool} {g slot : Nat} {x : PlanPart} (hx : (d.parts dl).find? (fun y => y.is slot g false) = some x)
    (hlate : x.late = false) (hvalid : d.tim.valid = true) (hdue : d.deadlineNs dl slot g ≤ d.merNs) :
    ∃ us, d.planDeadline dl g slot =
      if x.bad then (d.markLate dl slot g x).planRefused dl g 1 else (d.markLate dl slot g x).planLate dl g us := by
  refine ⟨(d.merNs - d.deadlineNs dl slot g) / 1000, ?_⟩
  simp only [Dev.planDeadline, Dev.markLate, hx, hvalid, hlate, hdue, decide_true, Bool.not_false, Bool.and_self, if_true]

/-- R194 and R259 in one: the kind of plan decides on the counters and on which list is meant. -/
theorem planLate_of_exec {dl : Bool} {mk : Nat → Nat → Nat → Instr}
    (hexec : ∀ dt g slot s, exec (mk dt g slot) s = onDev dt (·.planDeadline dl g slot) s) :
    Claims.planLate dl mk (lateKey dl) (refusedKey dl) := by
  intro s dt g slot x hx hlate hvalid hdue
  rw [← s.parts_at dt] at hx
  obtain ⟨us, hd⟩ := Dev.planDeadline_late hx hlate hvalid hdue
  have hmark : (s.at_ dt).Moves [lateKey dl, refusedKey dl] (fun d => if dl then { d with dl := {} } else { d with ul := {} })
      ((s.at_ dt).markLate dl slot g x) :=
    (Dev.Moves.refl ..).setParts _ (by cases dl <;> rfl)
  have hparts : ((s.at_ dt).markLate dl slot g x).parts dl =
      (s.dev.parts dl).filter (fun y => !y.is slot g false) ++ [{ x with late := true }] := by
    rw [Dev.markLate, Dev.parts_setParts, s.parts_at]
  by_cases hbad : x.bad = true
  · rw [if_pos hbad] at hd
    refine acts_onDev_of_moves (hexec dt g slot s) ?_ ?_
    · rw [hd]
      exact hmark.planRefused (dl := dl) (by simp) g 1
    · rw [hd, State.parts_leave]
      refine ⟨(Dev.parts_planRefused ..).trans hparts, by simp [hbad], fun _ => ?_⟩
      exact State.counted_of_counts (evKey_refusedKey dl) (Dev.counts_planRefused (Dev.a_setParts ..) g 1) _
  · rw [if_neg hbad] at hd
    refine acts_onDev_of_moves (hexec dt g slot s) ?_ ?_
    · rw [hd]
      exact hmark.planLate (dl := dl) (by simp) g us
    · rw [hd, State.parts_leave]
      refine ⟨(Dev.parts_planLate ..).trans hparts, fun _ => ?_, fun h => absurd h hbad⟩
      exact State.counted_of_counts (evKey_lateKey dl) (Dev.counts_planLate (Dev.a_setParts ..) g us) _

theorem claim_slotPlanDeadline : Claims.slotPlanDeadline := planLate_of_exec fun _ _ _ _ => rfl

theorem claim_dlPlanDeadline : Claims.dlPlanDeadline := planLate_of_exec fun _ _ _ _ => rfl

/-! ### The verdict that does not come -/

/-- What waits for the verdict on a plan is dropped: the plan, and segments of it. -/
def Dev.verdictDropped (d : Dev) (g slot : Nat) (dl : Bool) : Dev :=
  ({ d with arch := { d.arch with fwd := d.arch.fwd.filter (fun f => !(f.slot == slot && f.group == g && f.dl == dl)) } } : Dev).setParts dl
    ((d.parts dl).filter (fun x => !x.is slot g true))

theorem Dev.verdictDeadline_late {d : Dev} {g slot : Nat} {dl : Bool} (hvalid : d.tim.valid = true)
    (hdue : slot * d.slotNs ≤ d.merNs + 100000)
    (hsome : (d.arch.fwd.any fun f => f.slot == slot && f.group == g && f.dl == dl) = true ∨ ((d.parts dl).any fun x => x.is slot g true) = true) :
    ∃ us, d.verdictDeadline g slot dl = (d.verdictDropped g slot dl).planLate dl g us := by
  have hgo : (d.tim.valid && decide (slot * d.slotNs ≤ d.merNs + 100000) &&
      ((d.arch.fwd.any fun f => f.slot == slot && f.group == g && f.dl == dl) || (d.parts dl).any fun x => x.is slot g true)) = true := by
    simp only [Bool.and_eq_true, Bool.or_eq_true, decide_eq_true_eq]
    exact ⟨⟨hvalid, hdue⟩, hsome⟩
  refine ⟨(d.merNs - d.deadlineNs dl slot g) / 1000, ?_⟩
  unfold Dev.verdictDeadline
  dsimp only
  rw [hgo]
  cases dl <;> rfl

theorem Dev.fwd_planLate (d : Dev) (dl : Bool) (group us : Nat) : (d.planLate dl group us).arch = d.arch := by
  obtain ⟨n, arg, -, heq⟩ := d.planLate_eq dl group us
  rw [heq]
  simp

theorem claim_verdictDeadline : Claims.verdictDeadline := by
  intro s dt g slot dl mine hvalid hdue hsome
  have hslot : (s.at_ dt).slotNs = s.dev.slotNs := by
    rw [Dev.slotNs, Dev.slotNs, s.a_at dt (by decide)]
    rfl
  have harch : (s.at_ dt).arch = s.dev.arch := s.arrive_arch dt
  have htim : (s.at_ dt).tim = s.dev.tim := s.arrive_tim dt
  rw [← hslot] at hdue
  rw [← htim] at hvalid
  rw [← harch, ← s.parts_at dt] at hsome
  obtain ⟨us, hd⟩ := Dev.verdictDeadline_late hvalid hdue hsome
  have hdrop : (s.at_ dt).Moves [P.apPlanLateCount, P.dlPlanLateCount] (fun d => { d with arch := {}, ul := {}, dl := {} })
      ((s.at_ dt).verdictDropped g slot dl) := by
    cases dl
    · exact (Dev.Moves.refl ..).same rfl rfl rfl
    · exact (Dev.Moves.refl ..).same rfl rfl rfl
  refine acts_onDev_of_moves (f := (·.verdictDeadline g slot dl)) rfl ?_ ?_
  · rw [hd]
    exact hdrop.planLate (by cases dl <;> decide) g us
  · rw [hd, State.leave_arch, State.parts_leave, Dev.fwd_planLate, Dev.parts_planLate]
    refine ⟨?_, ?_, ?_⟩
    · rw [← harch]
      cases dl <;> rfl
    · rw [Dev.verdictDropped, Dev.parts_setParts, s.parts_at]
    · refine State.counted_of_counts (evKey_lateKey dl) (Dev.counts_planLate ?_ g us) _
      exact (Dev.a_setParts ..).trans rfl

end Sys2Proof.Machine
end

section
/-!
A message of VC1 that is taken (R167, R476 to R484): the receive checks move the counts of the port and its record alone, and no Riptide
rule acts, so a message that comes to an empty VC1 stands there alone when VC1 is served.
-/

namespace Sys2Proof.Machine

section
variable {d : Dev} {h : Hdr} {t len : Nat} {resp shape : Bool}

/-- The frame of the coming of a message: the port's record, and what Riptide holds. -/
def Dev.offPort (d : Dev) : Dev := { d with port := [], rip := {} }

theorem Dev.Moves.mlCount {keys : List Nat} {part : Dev → Dev} {g : Dev} (hm : g.Moves keys part d) {k : Nat} (hk : k ∈ keys) :
    g.Moves keys part (d.mlCount h k) := hm.iff fun _ hm => hm.inc (Or.inl hk)

theorem Dev.rxBase_taken (hok : (d.rxBase h t len shape).2 = true) :
    d.Moves [P.mlPartnerState, P.mlRxSeqGapCount] Dev.offPort (d.rxBase h t len shape).1 := by
  revert hok
  unfold Dev.rxBase
  dsimp only
  split
  · simp
  · split
    · simp
    · have hport (f : Port → Port) : d.Moves [P.mlPartnerState, P.mlRxSeqGapCount] Dev.offPort (d.setPort h.port f) :=
        (Dev.Moves.refl ..).same rfl rfl rfl
      have hpartner (f : Port → Port) := (hport f).iff (c := h.port == 0) fun _ hm => hm.w (k := P.mlPartnerState) (by decide) 2
      have hchan (f : Port → Port) (g : Chan → Chan) : d.Moves [P.mlPartnerState, P.mlRxSeqGapCount] Dev.offPort
          (((d.setPort h.port f).iff (h.port == 0) (·.w P.mlPartnerState 2)).setChan h.port h.vc g) :=
        (hpartner f).same rfl rfl rfl
      split
      · simp
      · split
        · simp
        · split
          · simp
          · split
            · simp
            · exact fun _ => (hchan _ _).iff (f := (·.mlCount h P.mlRxSeqGapCount)) fun _ hm => hm.mlCount (by decide)

theorem Dev.vc_le_of_rxBase (hok : (d.rxBase h t len shape).2 = true) : h.vc ≤ 3 := by
  by_contra hvc
  have hvc : 3 < h.vc := Nat.lt_of_not_le hvc
  simp [Dev.rxBase, hvc] at hok

theorem Dev.rxCheck_taken (hok : (d.rxCheck h t len resp).2 = true) :
    h.vc ≤ 3 ∧ d.Moves [P.mlPartnerState, P.mlRxSeqGapCount, P.mlRxMessageCount + h.vc] Dev.offPort (d.rxCheck h t len resp).1 := by
  revert hok
  unfold Dev.rxCheck
  dsimp only
  split
  · simp
  · next hbase =>
    have hbase : (d.rxBase h t len (h.vc == vcOf t && h.resp == resp)).2 = true := by simpa using hbase
    split
    · simp
    · refine fun _ => ⟨Dev.vc_le_of_rxBase hbase, ((Dev.rxBase_taken hbase).mono (fun k hk => ?_) fun _ _ hp => hp).mlCount (by simp)⟩
      simp only [List.mem_cons, List.not_mem_nil, or_false] at hk ⊢
      tauto

end

/-- A message of VC1 as it stands in the queue, and the device with it there. -/
def vc1Of (h : Hdr) (t : Nat) (body : List Byte) : Vc1 := ⟨h.port, h.port != 0 && h.island == 0xFE, t, body⟩
def Dev.vc1Put (d : Dev) (x : Vc1) : Dev := { d with cat := { d.cat with vc1 := d.cat.vc1 ++ [x] } }

/-- A message that is taken and comes to an empty VC1 stands there alone when VC1 is served; of the parameters only the counts of its port
moved before. -/
theorem State.vc1In_heard {s : State} {dt t : Nat} {h : Hdr} {body : List Byte} (hhears : s.hears dt h t body.length = true)
    (hempty : s.dev.cat.vc1 = []) (i : Hdr → List Byte → Instr) : ∃ d : Dev, (s.at_ dt).vc1In i t h body = d.vc1Serve ∧
      d.cat.vc1 = [vc1Of h t body] ∧ (s.at_ dt).quiet = true ∧
      ∀ k, evKey k = false → replyKey k = false → k ≠ P.mlRxSeqGapCount → d.a k = (s.at_ dt).a k := by
  obtain ⟨hquiet, hok⟩ := Bool.and_eq_true_iff.1 hhears
  obtain ⟨hvc, hkeys, -, hframe⟩ := Dev.rxCheck_taken hok
  have hin : (s.at_ dt).vc1In i t h body = ((s.at_ dt).ripPass false h.port h.vc).vc1Take t h body := by
    rw [Dev.vc1In, Dev.ripRx, Dev.ripPick_quiet hquiet]
  have hcat : (((s.at_ dt).ripPass false h.port h.vc).rxCheck h t body.length false).1.cat = s.dev.cat :=
    (congrArg Dev.cat hframe).trans (s.arrive_cat dt)
  refine ⟨(((s.at_ dt).ripPass false h.port h.vc).rxCheck h t body.length false).1.vc1Put (vc1Of h t body), ?_, ?_, hquiet,
    fun k hev hreply hgap => hkeys k hev ?_⟩
  · rw [hin, Dev.vc1Take]
    dsimp only
    rw [hok, if_pos rfl]
    rfl
  · rw [Dev.vc1Put, hcat, hempty]
    rfl
  · have hcount : replyKey (P.mlRxMessageCount + h.vc) = true := by simp [replyKey, Nat.lt_succ_of_le hvc]
    simp only [List.mem_cons, List.not_mem_nil, or_false, not_or]
    refine ⟨?_, hgap, ?_⟩
    · rintro rfl
      exact absurd hreply (by decide)
    · rintro rfl
      rw [hcount] at hreply
      exact Bool.noConfusion hreply

/-! ### What is served at once -/

/-- An ATTACH at the head waits there for its end. -/
theorem Dev.vc1Serve_attach {d : Dev} {x : Vc1} (h1 : d.cat.vc1 = [x]) (ht : x.type = tAttach) : d.vc1Serve = d := by
  simp [Dev.vc1Serve, Dev.vc1Run, h1, ht, tAttach, tSlotPlan, tDlPlan, tCatOp]

theorem Dev.vc1Run_empty {d : Dev} (h : d.cat.vc1 = []) (n : Nat) : Dev.vc1Run n d = d := by
  cases n with
  | zero => rfl
  | succ n => simp [Dev.vc1Run, h]

/-- So does an operation that passes the checks of R170. -/
theorem Dev.vc1Serve_catOp {d : Dev} {x : Vc1} (h1 : d.cat.vc1 = [x]) (ht : x.type = tCatOp) (hok : d.catStatus (catOp x.body) = 0) :
    d.vc1Serve = d := by
  simp [Dev.vc1Serve, Dev.vc1Run, h1, ht, hok, tSlotPlan, tDlPlan, tCatOp]

theorem Dev.vc1Serve_refuse {d : Dev} {x : Vc1} (h1 : d.cat.vc1 = [x]) (ht : x.type = tCatOp) (hbad : d.catStatus (catOp x.body) ≠ 0)
    (hleft : (d.vc1Pop.catRefuse x.port (catOp x.body) (d.catStatus (catOp x.body))).cat.vc1 = []) :
    d.vc1Serve = d.vc1Pop.catRefuse x.port (catOp x.body) (d.catStatus (catOp x.body)) := by
  have hrun : d.vc1Serve = Dev.vc1Run 1 (d.vc1Pop.catRefuse x.port (catOp x.body) (d.catStatus (catOp x.body))) := by
    simp [Dev.vc1Serve, Dev.vc1Run, h1, ht, hbad, tSlotPlan, tDlPlan, tCatOp]
  rw [hrun, Dev.vc1Run_empty hleft]

/-! ### ATTACH arrives -/

theorem claim_attach : Claims.attach := by
  intro s dt h body hhears hempty
  obtain ⟨d, hin, hvc1, -, -⟩ := State.vc1In_heard hhears hempty (Instr.attach 0)
  rw [doesDev_onDev (f := (·.vc1In (Instr.attach 0) tAttach h body)) rfl, hin, Dev.vc1Serve_attach hvc1 rfl, State.leave_cat]
  exact hvc1

/-- Settles O25: a plan or a verdict that is late moves one counter, raises an event and changes the lists of what is awaited; an ATTACH that
is taken stands on VC1, where nothing serves it before its end. -/
theorem plansComeLate : Obligations.PlansComeLate :=
  ⟨claim_slotPlanDeadline, claim_dlPlanDeadline, claim_attach, claim_verdictDeadline⟩

end Sys2Proof.Machine
end

section
/-!
Catalogue operations that arrive (R167, R169, R170): one that passes the checks waits, another is counted and answered, and the answer moves
nothing of the Catalogue.
-/

namespace Sys2Proof.Machine

theorem Dev.catStatus_congr {d e : Dev} (h : d.a P.memState = e.a P.memState) (o : CatOp) : d.catStatus o = e.catStatus o := by
  simp only [Dev.catStatus, h]

theorem Dev.cat_of_works {d e : Dev} (h : d.works = e.works) : d.cat = e.cat := by
  have hcat := congrArg Dev.cat h
  exact hcat

/-! ### The head of VC1 taken off, and refused -/

theorem Dev.a_vc1Pop (d : Dev) (k : Nat) : d.vc1Pop.a k = d.a k := by
  unfold Dev.vc1Pop
  split
  · rfl
  · rfl

theorem Dev.vc1_vc1Pop {d : Dev} {x : Vc1} (h : d.cat.vc1 = [x]) : d.vc1Pop.cat.vc1 = [] := by
  unfold Dev.vc1Pop
  rw [h]
  rfl

/-- A response on VC1 while no Riptide rule acts. -/
theorem Dev.serves_send {d : Dev} (hquiet : d.quiet = true) (p t : Nat) (body : List Byte) : d.Serves (d.send p 1 t true body) := by
  have hvc : (d.mkMsg p (if p = 0 then d.island else 0xFE) 1 t true body).vc = 1 := by
    unfold Dev.mkMsg
    split
    · rfl
    · rfl
  exact (Dev.Serves.refl d).sendMsg hquiet p (by rw [hvc]; decide)

/-- A refusal is counted and answered: the Catalogue's records stand, and of the parameters those that counting and answering move. -/
theorem Dev.catRefuse_keeps {d : Dev} (hquiet : d.quiet = true) (port : Nat) (o : CatOp) (status : Nat) :
    (d.catRefuse port o status).cat = d.cat ∧
    ∀ k, evKey k = false → replyKey k = false → (d.catRefuse port o status).a k = (d.inc P.catOpRefusedCount).a k := by
  have hquiet' : (d.inc P.catOpRefusedCount).quiet = true := by
    rw [← hquiet]
    refine Dev.quiet_congr fun k hk _ _ => Dev.a_inc_ne _ ?_
    simp only [P.catOpRefusedCount, P.riptideEnable] at *
    omega
  obtain ⟨⟨hkeys, -⟩, hworks⟩ := Dev.serves_send hquiet' port tCatOp (d.catResponse o status)
  exact ⟨(Dev.cat_of_works hworks).trans (Dev.inc_cat ..), hkeys⟩

theorem State.a_leave (s : State) (d : Dev) (m : Memory) {k : Nat} (hk : evKey k = false) : (s.leave d m).a k = d.a k := State.leave_a _ _ _ hk

/-- What an operation finds when it comes to an empty VC1, whichever of the five it is. -/
theorem catalogueOp_of_exec {mk : Nat → Hdr → List Byte → Instr} {i : Hdr → List Byte → Instr} (n : Nat)
    (hexec : ∀ dt h body s, exec (mk dt h body) s = onDev dt (·.vc1In i tCatOp h body) s) : Claims.catalogueOp mk n := by
  intro s dt h body hhears hempty _
  obtain ⟨d, hin, hvc1, hquiet, hkeys⟩ := State.vc1In_heard hhears hempty i
  have hkey (k : Nat) (hev : evKey k = false) (hreply : replyKey k = false) (hgap : k ≠ P.mlRxSeqGapCount) : d.a k = s.a k :=
    (hkeys k hev hreply hgap).trans (s.a_at dt hev)
  have hstatus : (s.at_ dt).catStatus (catOp body) = d.catStatus (catOp body) :=
    Dev.catStatus_congr ((s.a_at dt (by decide)).trans (hkey _ (by decide) (by decide) (by decide)).symm) _
  have hquiet' : d.quiet = true := by
    rw [← hquiet]
    refine Dev.quiet_congr fun k hk hev hreply => hkeys k hev hreply ?_
    simp only [P.mlRxSeqGapCount, P.riptideEnable] at *
    omega
  rw [doesDev_onDev (hexec dt h body s), hin, hstatus, State.leave_cat, State.a_leave _ _ _ (by decide),
    State.a_leave _ _ _ (by decide)]
  have hgen : d.a P.catGeneration = s.a P.catGeneration := hkey _ (by decide) (by decide) (by decide)
  have hcount : d.a P.catOpRefusedCount = s.a P.catOpRefusedCount := hkey _ (by decide) (by decide) (by decide)
  by_cases hok : d.catStatus (catOp body) = 0
  · rw [Dev.vc1Serve_catOp hvc1 rfl hok]
    exact ⟨fun _ => ⟨hvc1, hcount⟩, fun hbad => absurd hok hbad, hgen⟩
  · have hpop : d.vc1Pop.quiet = true := by
      rw [← hquiet']
      exact Dev.quiet_congr fun k _ _ _ => d.a_vc1Pop k
    obtain ⟨hcat, hafter⟩ := Dev.catRefuse_keeps hpop h.port (catOp body) (d.catStatus (catOp body))
    have hleft := (congrArg Cat.vc1 hcat).trans (Dev.vc1_vc1Pop hvc1)
    rw [Dev.vc1Serve_refuse hvc1 rfl hok hleft]
    have hrefused : d.vc1Pop.a P.catOpRefusedCount = s.a P.catOpRefusedCount := (d.a_vc1Pop _).trans hcount
    refine ⟨fun h => absurd h hok, fun _ => ⟨hleft, fun hlt => ?_⟩, ?_⟩
    · rw [State.a_leave _ _ _ (by decide)]
      refine (hafter _ (by decide) (by decide)).trans ?_
      rw [Dev.a_inc_lt _ _ (by rwa [hrefused]), hrefused]
    · refine (hafter _ (by decide) (by decide)).trans ?_
      rw [Dev.a_inc_ne _ (by decide), Dev.a_vc1Pop, hgen]

theorem claim_catalogueOpWrite : Claims.catalogueOpWrite := catalogueOp_of_exec (i := Instr.catalogueOpWrite 0) 1 fun _ _ _ _ => rfl
theorem claim_catalogueOpClear : Claims.catalogueOpClear := catalogueOp_of_exec (i := Instr.catalogueOpClear 0) 2 fun _ _ _ _ => rfl
theorem claim_catalogueOpRead : Claims.catalogueOpRead := catalogueOp_of_exec (i := Instr.catalogueOpRead 0) 3 fun _ _ _ _ => rfl
theorem claim_catalogueOpSetState : Claims.catalogueOpSetState := catalogueOp_of_exec (i := Instr.catalogueOpSetState 0) 4 fun _ _ _ _ => rfl
theorem claim_catalogueOpQuery : Claims.catalogueOpQuery := catalogueOp_of_exec (i := Instr.catalogueOpQuery 0) 5 fun _ _ _ _ => rfl

end Sys2Proof.Machine
end

section
/-!
Package memory and the entries of the Catalogue (R148 to R152, R155, R162 to R165): what reading a burst moves, what storing an entry leaves of
memory and of CatGeneration, and what a failed read makes of an entry and of the fetches of a slot.
-/

namespace Sys2Proof.Machine

/-! ### Images in memory -/

theorem length_setBytes {b v : List Byte} {off : Nat} (h : off + v.length ≤ b.length) : (setBytes b off v).length = b.length := by
  simp only [setBytes, List.length_append, List.length_take, List.length_drop]
  omega

theorem length_setGen {b : List Byte} (h : 4 ≤ b.length) (gen : Nat) : (setGen b gen).length = b.length :=
  length_setBytes (by rwa [length_leBytes])

theorem length_bareEntry (c st gen : Nat) : (bareEntry c st gen).length = 128 := by
  simp [bareEntry, length_leBytes, zeros]

section
variable {m : Memory} {c : Nat} {b : List Byte}

theorem Memory.get_put_entry (hwf : m.wf = true) (hb : b.length = 128) (a : Nat) :
    (m.apply (.put (entAddr c) b)).get a = if 128 * c ≤ a ∧ a < 128 * c + 128 then b.getD (a - 128 * c) 0 else m.get a := by
  rw [Memory.apply, Memory.get_write hwf, hb, entAddr]

theorem Memory.entry_put (hwf : m.wf = true) (hb : b.length = 128) : (m.apply (.put (entAddr c) b)).entry c = b := by
  refine List.ext_getElem (by simp [Memory.entry, Memory.read, hb]) fun i hi hi' => ?_
  have hin : 128 * c ≤ 128 * c + i ∧ 128 * c + i < 128 * c + 128 := by omega
  have hbyte := Memory.get_put_entry (c := c) hwf hb (128 * c + i)
  rw [if_pos hin, Nat.add_sub_cancel_left, List.getD_eq_getElem _ _ hi'] at hbyte
  simpa [Memory.entry, Memory.read, entAddr] using hbyte

end

theorem entState_lt (b : List Byte) : entState b < 4 := Nat.mod_lt _ (by decide)

/-! ### Reading a burst (R150, R151) -/

variable {keys : List Nat} {part : Dev → Dev} {g d : Dev}

theorem Dev.Moves.eccCorrected (h : g.Moves keys part d) (hk : P.memCorrectedCount ∈ keys) : g.Moves keys part d.eccCorrected :=
  ((h.inc (Or.inl hk)).served 7 32).raiseRate (by decide) _ _ _ _

theorem Dev.counts_eccCorrected (h : d.a P.memCorrectedCount = g.a P.memCorrectedCount) : g.Counts P.memCorrectedCount 1 d.eccCorrected := by
  have hafter : (d.inc P.memCorrectedCount).Moves [] id d.eccCorrected :=
    ((Dev.Moves.refl ..).served 7 32).raiseRate (by decide) _ _ _ _
  exact (Dev.counts_inc h).keep (hafter.a_eq (by decide) List.not_mem_nil)

theorem Dev.Moves.eccUncorrectable (h : g.Moves keys part d) (hn : P.memUncorrectableCount ∈ keys) (ha : P.memLastUncorrectableAddr ∈ keys)
    (a : Nat) (scrub : Bool) : g.Moves keys part (d.eccUncorrectable a scrub) :=
  ((h.wN hn _).w (Or.inl ha) _).raise (by decide) _

theorem Dev.raised_eccUncorrectable (d : Dev) (a : Nat) (scrub : Bool) : Raised (d.eccUncorrectable a scrub) 36 (memRegion a + 8 * b2n scrub) :=
  Dev.raised_raise _ _ _

theorem Dev.a_eccUncorrectable_addr (d : Dev) (a : Nat) (scrub : Bool) : (d.eccUncorrectable a scrub).a P.memLastUncorrectableAddr = a / 32 * 32 :=
  (Dev.a_raise _ _ (by decide) (by decide)).trans (Dev.a_w_self _ _ _)

theorem Dev.clk_served (d : Dev) (c n : Nat) : (d.served c n).clk = d.clk := by
  unfold Dev.served Dev.servedAt
  dsimp only
  split
  · rfl
  · split
    · rfl
    · split
      · rfl
      · rfl

theorem Dev.clk_eccCorrected (d : Dev) : d.eccCorrected.clk = d.clk := by
  rw [Dev.eccCorrected, Dev.raiseRate_clk, Dev.clk_served, Dev.inc_clk]

theorem Dev.clk_eccUncorrectable (d : Dev) (a : Nat) (scrub : Bool) : (d.eccUncorrectable a scrub).clk = d.clk := by
  rw [Dev.eccUncorrectable, Dev.raise_clk, Dev.w_clk]
  obtain ⟨_, _, _, h⟩ := d.wN_shape P.memUncorrectableCount (sat 0xFFFFFFFF (d.a P.memUncorrectableCount + 1))
  rw [h]

/-! ### Storing an entry (R164, R165, R173) -/

/-- The frame of package memory: its own records, those of the slots and the sentinel ring's. -/
def Dev.offMemory (d : Dev) : Dev := { d with cat := {}, ul := {}, sen := {} }

/-- What storing an entry that failed moves of the parameters. -/
def staleKeys : List Nat := [P.memLastUncorrectableCat, P.catGeneration] ++ span P.catStateCounts 4

theorem mem_staleKeys {i : Nat} (hi : i < 4) : P.catStateCounts + i ∈ staleKeys := by
  simp [staleKeys, span, hi]

theorem Dev.Moves.storeEntry (h : g.Moves staleKeys Dev.offMemory d) (c : Nat) (old image : List Byte) :
    g.Moves staleKeys Dev.offMemory (d.storeEntry c old image).1 := by
  have hgen : g.Moves staleKeys Dev.offMemory (d.setGeneration (d.a P.catGeneration + 1)) :=
    (h.w (k := P.catGeneration) (by decide) _).same rfl rfl rfl
  unfold Dev.storeEntry Dev.countState
  dsimp only
  split
  · exact hgen
  · exact (hgen.w (Or.inl (mem_staleKeys (entState_lt old))) _).w (Or.inl (mem_staleKeys (entState_lt image))) _

theorem Dev.a_countState (d : Dev) {old new : Nat} (hold : old < 4) (hnew : new < 4) :
    (d.countState old new).a P.catGeneration = d.a P.catGeneration := by
  have hne (st : Nat) (hst : st < 4) : P.catStateCounts + st ≠ P.catGeneration := by
    interval_cases st <;> decide
  unfold Dev.countState
  split
  · rfl
  · exact (Dev.a_w_ne _ _ (hne new hnew)).trans (Dev.a_w_ne _ _ (hne old hold))

theorem Dev.a_storeEntry_generation (d : Dev) (c : Nat) (old image : List Byte) :
    (d.storeEntry c old image).1.a P.catGeneration = (d.a P.catGeneration + 1) % 2 ^ 64 :=
  (Dev.a_countState _ (entState_lt old) (entState_lt image)).trans (Dev.a_w_self d _ _)

/-! ### A read that fails (R162) -/

/-- The image a failed read leaves of an entry. -/
def staleImage (c gen : Nat) : List Byte := setGen (bareEntry c stStale 0) gen

theorem length_staleImage (c gen : Nat) : (staleImage c gen).length = 128 :=
  (length_setGen (by rw [length_bareEntry]; decide) gen).trans (length_bareEntry ..)

theorem Dev.Moves.makeStale (h : g.Moves staleKeys Dev.offMemory d) (c : Nat) (old : List Byte) :
    g.Moves staleKeys Dev.offMemory (d.makeStale c old).1 :=
  ((h.served 5 128).w (k := P.memLastUncorrectableCat) (by decide) c).storeEntry c old _

theorem Dev.generation_makeStale (d : Dev) (c : Nat) (old : List Byte) :
    (d.makeStale c old).1.a P.catGeneration = (d.a P.catGeneration + 1) % 2 ^ 64 ∧
      (d.makeStale c old).2 = .put (entAddr c) (staleImage c (d.a P.catGeneration + 1)) := by
  have hbefore : ((d.served 5 128).w P.memLastUncorrectableCat c).a P.catGeneration = d.a P.catGeneration :=
    (Dev.a_w_ne _ _ (by decide)).trans (((Dev.Moves.refl [] id d).served 5 128).a_eq (by decide) List.not_mem_nil)
  refine ⟨(Dev.a_storeEntry_generation ..).trans (by rw [hbefore]), ?_⟩
  rw [Dev.makeStale, Dev.storeEntry, hbefore]
  rfl

/-- A read is good where its burst can be corrected and the HEADER names the entry. -/
def goodRead (m : Memory) (c : Nat) (ecc : Ecc) : Prop := ecc ≠ .uncorrectable ∧ entCat (m.entry c) = c

def readKeys : List Nat := [P.memCorrectedCount, P.memUncorrectableCount, P.memLastUncorrectableAddr]

/-- What reading an entry can do: beside what meeting a bad burst moves, nothing where the read is good, and else the entry is STALE. -/
theorem Dev.readEntry_cases (d : Dev) (m : Memory) (c : Nat) (ecc : Ecc) (burst : Nat) : ∃ e : Dev, d.Moves readKeys id e ∧ e.clk = d.clk ∧
    (goodRead m c ecc → d.readEntry m c ecc burst = (e, [])) ∧
    (¬ goodRead m c ecc → d.readEntry m c ecc burst = ((e.makeStale c (m.entry c)).1, [(e.makeStale c (m.entry c)).2])) := by
  have hrefl := Dev.Moves.refl readKeys id d
  have hcat (hecc : ecc ≠ .uncorrectable) (h : ¬ goodRead m c ecc) : entCat (m.entry c) ≠ c := fun hcat => h ⟨hecc, hcat⟩
  cases ecc with
  | uncorrectable =>
    exact ⟨_, hrefl.eccUncorrectable (by decide) (by decide) (entAddr c + 32 * burst) false, d.clk_eccUncorrectable _ _,
      fun h => absurd rfl h.1, fun _ => rfl⟩
  | corrected =>
    refine ⟨_, hrefl.eccCorrected (by decide), d.clk_eccCorrected, fun h => ?_, fun h => ?_⟩
    · simp [Dev.readEntry, h.2]
    · simp [Dev.readEntry, hcat (by decide) h]
  | ok =>
    refine ⟨_, hrefl, rfl, fun h => ?_, fun h => ?_⟩
    · simp [Dev.readEntry, h.2]
    · simp [Dev.readEntry, hcat (by decide) h]

/-! ### Misses (R162, R163) -/

theorem Dev.Moves.countMisses (h : g.Moves keys part d) (hk : P.catMissCount ∈ keys) (group n : Nat) :
    g.Moves keys part (d.countMisses group n) :=
  h.iff fun _ h => (h.add (Or.inl hk) n).raiseRate (by decide) _ _ _ _

theorem Dev.ul_countMisses (d : Dev) (group n : Nat) : (d.countMisses group n).ul = d.ul := by
  obtain ⟨-, -, hbare⟩ := (Dev.Moves.refl [P.catMissCount] id d).countMisses (by decide) group n
  have hul := congrArg Dev.ul hbare
  exact hul

/-- A fetch of the slot and entry becomes a miss. -/
def missIf (slot c : Nat) (f : Fetch) : Fetch := if f.slot = slot ∧ f.cat = c then { f with miss := true } else f

theorem Dev.fetched_spoil (d : Dev) (slot c : Nat) : (d.spoil slot c).ul.fetched = d.ul.fetched.map (missIf slot c) := by
  rw [Dev.spoil, Dev.ul_countMisses, Dev.ul_countMisses]
  rfl

theorem Dev.Moves.spoil (h : g.Moves keys Dev.offMemory d) (hk : P.catMissCount ∈ keys) (slot c : Nat) :
    g.Moves keys Dev.offMemory (d.spoil slot c) := by
  have hset (l : List Fetch) : g.Moves keys Dev.offMemory { d with ul := { d.ul with fetched := l } } := h.same rfl rfl rfl
  exact ((hset _).countMisses hk _ _).countMisses hk _ _

theorem Dev.Moves.spoilNow (h : g.Moves keys Dev.offMemory d) (hk : P.catMissCount ∈ keys) (c : Nat) :
    g.Moves keys Dev.offMemory (d.spoilNow c) := by
  unfold Dev.spoilNow
  split
  · exact h
  · exact h.spoil hk _ c

end Sys2Proof.Machine
end

section
/-!
Catalogue fetches, scrub and the MRAM copy of CatGeneration (R149, R152, R153, R161 to R163, R165).
-/

namespace Sys2Proof.Machine

/-! ### Fetch -/

/-- The fetch of an entry as it is recorded, read from a memory. -/
def fetchOf (m : Memory) (slot g c at_ : Nat) : Fetch := ⟨slot, g, c, m.entry c, entMiss (m.entry c) g, at_⟩

/-- The device with one more fetch of a slot. -/
def Dev.fetchNoted (d : Dev) (f : Fetch) : Dev := { d with ul := { d.ul with fetched := d.ul.fetched ++ [f] } }

/-- What of a fetch names the entry it is of. -/
def Fetch.names (f : Fetch) (slot g c : Nat) : Bool := f.slot == slot && f.group == g && f.cat == c

theorem Fetch.names_missIf (f : Fetch) (slot c slot' g' c' : Nat) : (missIf slot c f).names slot' g' c' = f.names slot' g' c' := by
  unfold missIf
  split
  · rfl
  · rfl

theorem any_names_append (l : List Fetch) (m : Memory) (slot g c at_ : Nat) :
    (l ++ [fetchOf m slot g c at_]).any (·.names slot g c) = true := by
  simp [Fetch.names, fetchOf]

theorem any_names_map (l : List Fetch) (slot c slot' g' c' : Nat) :
    (l.map (missIf slot c)).any (·.names slot' g' c') = l.any (·.names slot' g' c') := by
  rw [List.any_map]
  exact congrArg l.any (funext fun f => f.names_missIf ..)

theorem miss_of_mem_missIf {l : List Fetch} {slot c : Nat} {f : Fetch} (hf : f ∈ l.map (missIf slot c)) (hslot : f.slot = slot)
    (hcat : f.cat = c) : f.miss = true := by
  obtain ⟨x, -, rfl⟩ := List.mem_map.1 hf
  unfold missIf at *
  split
  · rfl
  · next hne => exact absurd ⟨by simpa [hne] using hslot, by simpa [hne] using hcat⟩ hne

/-- A fetch that a plan waits for reads its entry: a good read is recorded, and a failed one leaves it STALE and its fetches in the slot
misses. -/
theorem Dev.fetch_cases {d : Dev} {g c slot : Nat} (hslot : d.fetchSlot g c = some slot) (hserves : d.a P.memState = 0) (m : Memory)
    (ecc : Ecc) (burst : Nat) : ∃ e : Dev, d.Moves readKeys id e ∧
    (goodRead m c ecc → d.fetch m g c ecc burst = (e.fetchNoted (fetchOf m slot g c d.now), [])) ∧
    (¬ goodRead m c ecc → let stale := e.makeStale c (m.entry c)
      d.fetch m g c ecc burst = ((stale.1.fetchNoted (fetchOf (m.apply stale.2) slot g c stale.1.now)).spoil slot c, [stale.2])) := by
  obtain ⟨e, hmoves, hclk, hgood, hbad⟩ := (d.served 1 128).readEntry_cases m c ecc burst
  have hserved : d.Moves readKeys id (d.served 1 128) := (Dev.Moves.refl ..).served 1 128
  have hnow : e.now = d.now := congrArg Clk.ps (hclk.trans (d.clk_served 1 128))
  refine ⟨e, hserved.trans hmoves, fun h => ?_, fun h => ?_⟩
  · rw [Dev.fetch, hslot]
    dsimp only
    rw [if_neg (by simp [hserves]), hgood h, ← hnow]
    rfl
  · rw [Dev.fetch, hslot]
    dsimp only
    rw [if_neg (by simp [hserves]), hbad h]
    generalize e.makeStale c (m.entry c) = stale
    rfl

theorem Memory.applyAll_singleton (m : Memory) (op : MemOp) : m.applyAll [op] = m.apply op := rfl

theorem claim_catalogueFetch : Claims.catalogueFetch := by
  intro s dt g c slot burst ecc hslot hserves _ hwf
  obtain ⟨e, hmoves, hgood, hbad⟩ := Dev.fetch_cases hslot ((s.a_at dt (by decide)).trans hserves) s.mem ecc burst
  have hul : e.ul = s.dev.ul := by
    obtain ⟨-, -, hbare⟩ := hmoves
    have hul := congrArg Dev.ul hbare
    exact hul.trans (s.arrive_ul dt)
  have hgen : e.a P.catGeneration = s.a P.catGeneration := (hmoves.a_eq (by decide) (by decide)).trans (s.a_at dt (by decide))
  rw [does_onMem (f := fun d m => d.fetch m g c ecc burst) rfl, State.leave_ul, State.leave_mem, State.a_leave _ _ _ (by decide)]
  by_cases hread : goodRead s.mem c ecc
  · rw [hgood hread]
    have hfetched : (e.fetchNoted (fetchOf s.mem slot g c (s.at_ dt).now)).ul.fetched =
        s.dev.ul.fetched ++ [fetchOf s.mem slot g c (s.at_ dt).now] := by rw [Dev.fetchNoted, hul]
    refine ⟨?_, fun _ => ⟨rfl, hfetched⟩, fun hnot => absurd hread hnot⟩
    rw [hfetched]
    exact any_names_append ..
  · obtain ⟨hnext, hput⟩ := e.generation_makeStale c (s.mem.entry c)
    have hfetch := hbad hread
    dsimp only at hfetch
    rw [hfetch, hput, hgen]
    generalize (e.makeStale c (s.mem.entry c)).1 = d at *
    rw [hgen] at hnext
    have himage := length_staleImage c (s.a P.catGeneration + 1)
    generalize hi : staleImage c (s.a P.catGeneration + 1) = image at *
    generalize hf : fetchOf _ slot g c d.now = f
    have hspoil : d.Moves [P.catMissCount] Dev.offMemory ((d.fetchNoted f).spoil slot c) :=
      (Dev.Moves.same (Dev.Moves.refl ..) rfl rfl rfl).spoil (by decide) slot c
    have hgen' := (hspoil.a_eq (k := P.catGeneration) (by decide) (by decide)).trans hnext
    have hfetched := (d.fetchNoted f).fetched_spoil slot c
    generalize (d.fetchNoted f).spoil slot c = d' at *
    dsimp only
    rw [Memory.applyAll_singleton, hfetched]
    refine ⟨?_, fun hgood => absurd hgood hread, fun _ => ⟨?_, hgen', fun x hx => ?_, fun a ha => ?_⟩⟩
    · rw [Dev.fetchNoted, ← hf]
      exact (any_names_map ..).trans (any_names_append ..)
    · exact (Memory.entry_put hwf himage).trans hi.symm
    · exact miss_of_mem_missIf hx
    · exact (Memory.get_put_entry hwf himage a).trans (if_neg ha)

end Sys2Proof.Machine
end

section
/-!
Scrub and the MRAM copy of CatGeneration (R150 to R153, R165), and the family's statement on fetches, scrub and operations that arrive.
-/

namespace Sys2Proof.Machine

/-- The frame of scrub and of the MRAM copy: the records of package memory. -/
def Dev.offCat (d : Dev) : Dev := { d with cat := {} }

/-! ### One burst of scrub -/

/-- A burst that was corrected counts for its pass. -/
def Dev.scrubCorrected (d : Dev) : Dev := { d.eccCorrected with cat := { d.cat with scrubFound := d.cat.scrubFound + 1 } }

/-- What reading a burst at an address makes of the device, and what it changes of memory. -/
def Dev.scrubRead (d : Dev) (m : Memory) (a : Nat) : Ecc → Dev × List MemOp
  | .ok => (d, [])
  | .corrected => (d.scrubCorrected, [])
  | .uncorrectable =>
    let d := d.eccUncorrectable a true
    if a < catBytes then
      let stale := d.makeStale (a / 128) (m.entry (a / 128))
      (stale.1.spoilNow (a / 128), [stale.2])
    else (d.scrubZero a, [.wipe a (a + 32)])

/-- The records of scrub as a pass begins. -/
def Dev.scrubReset (d : Dev) : Dev := { d with cat := { d.cat with scrubFound := 0, scrubStart := d.now } }

/-- A pass ends: the next begins at the start of package memory. -/
def Dev.scrubEnd (d : Dev) : Dev :=
  ((d.scrubReset.w P.memScrubPosition 0).inc P.memScrubPassCount).raise 47 (sat 131071 d.cat.scrubFound)

/-- The position moves on from an address. -/
def Dev.scrubNext (d : Dev) (a : Nat) : Dev := if a + 32 < ipmEnd then d.w P.memScrubPosition (a + 32) else d.scrubEnd

variable {d : Dev}

theorem Dev.scrub_eq (hup : d.up = true) (hserves : d.a P.memState = 0) (m : Memory) (ecc : Ecc) :
    d.scrub m ecc = (((d.served 7 32).scrubRead m (d.a P.memScrubPosition) ecc).1.scrubNext (d.a P.memScrubPosition),
      ((d.served 7 32).scrubRead m (d.a P.memScrubPosition) ecc).2) := by
  rw [Dev.scrub, if_neg (by simp [hup, hserves]), Dev.scrubNext]
  generalize d.a P.memScrubPosition = a
  by_cases hnext : a + 32 < ipmEnd
  · simp only [if_pos hnext]
    rfl
  · simp only [if_neg hnext]
    rfl

/-- The scrub of a state at the instant of the command. -/
theorem State.scrub_at {s : State} {dt : Nat} (hup : (s.at_ dt).up = true) (hserves : s.a P.memState = 0) (m : Memory) (ecc : Ecc) :
    (s.at_ dt).scrub m ecc = ((((s.at_ dt).served 7 32).scrubRead m (s.a P.memScrubPosition) ecc).1.scrubNext (s.a P.memScrubPosition),
      (((s.at_ dt).served 7 32).scrubRead m (s.a P.memScrubPosition) ecc).2) := by
  rw [Dev.scrub_eq hup ((s.a_at dt (by decide)).trans hserves), s.a_at dt (by decide)]

theorem Dev.moves_served (d : Dev) (c n : Nat) : d.Moves [] id (d.served c n) := (Dev.Moves.refl ..).served c n

/-- What stands of the device beside time and events stands of the records of package memory. -/
theorem Dev.Moves.cat_eq {keys : List Nat} {g : Dev} (h : g.Moves keys id d) : d.cat = g.cat := by
  obtain ⟨-, -, hbare⟩ := h
  have hcat := congrArg Dev.cat hbare
  exact hcat

theorem Dev.Moves.toOffCat {keys : List Nat} {g : Dev} (h : g.Moves keys id d) : g.Moves keys Dev.offCat d :=
  h.mono (fun _ hk => hk) fun _ _ hd => congrArg Dev.offCat hd

theorem Dev.Moves.toOffMemory {keys : List Nat} {g : Dev} (h : g.Moves keys Dev.offCat d) : g.Moves keys Dev.offMemory d :=
  h.mono (fun _ hk => hk) fun x y hd => by
    have hoff := congrArg Dev.offMemory hd
    exact hoff

theorem Dev.a_setCat (d : Dev) (x : Cat) (k : Nat) : ({ d with cat := x } : Dev).a k = d.a k := rfl

theorem Dev.Moves.setCat {keys : List Nat} {g : Dev} (h : g.Moves keys Dev.offCat d) (x : Cat) :
    g.Moves keys Dev.offCat { d with cat := x } :=
  h.same rfl rfl rfl

theorem Dev.moves_scrubEnd (d : Dev) : d.Moves [P.memScrubPosition, P.memScrubPassCount] Dev.offCat d.scrubEnd :=
  ((((Dev.Moves.refl _ Dev.offCat d).setCat _).w (Or.inl (by decide)) 0).inc (Or.inl (by decide))).raise
    (by decide) _

theorem Dev.moves_scrubNext (d : Dev) (a : Nat) : d.Moves [P.memScrubPosition, P.memScrubPassCount] Dev.offCat (d.scrubNext a) := by
  unfold Dev.scrubNext
  split
  · exact (Dev.Moves.refl ..).w (Or.inl (by decide)) _
  · exact d.moves_scrubEnd

theorem Dev.a_scrubEnd (d : Dev) : d.scrubEnd.a P.memScrubPosition = 0 := by
  rw [Dev.scrubEnd, Dev.a_raise _ _ (by decide) (by decide), Dev.a_inc_ne _ (by decide), Dev.a_w_self]

theorem Dev.counts_scrubEnd (d : Dev) : d.Counts P.memScrubPassCount 1 d.scrubEnd :=
  (Dev.counts_inc (d := d.scrubReset.w P.memScrubPosition 0) (Dev.a_w_ne _ _ (by decide))).keep (Dev.a_raise _ _ (by decide) (by decide))

theorem Dev.a_scrubNext_inner {a : Nat} (hnext : a + 32 < ipmEnd) (d : Dev) : (d.scrubNext a).a P.memScrubPosition = a + 32 := by
  rw [Dev.scrubNext, if_pos hnext, Dev.a_w_self]

theorem claim_scrubBurst : Claims.scrubBurst := by
  intro s dt hup hserves
  have hserved := (s.at_ dt).moves_served 7 32
  have hcat : ((s.at_ dt).served 7 32).cat = s.dev.cat := hserved.cat_eq.trans (s.arrive_cat dt)
  have hpass : ((s.at_ dt).served 7 32).a P.memScrubPassCount = (s.at_ dt).a P.memScrubPassCount :=
    hserved.a_eq (by decide) List.not_mem_nil
  refine acts_onMem_of_moves (f := fun d m => d.scrub m .ok) rfl (State.scrub_at hup hserves ..)
    ((hserved.toOffCat.mono (fun _ h => absurd h List.not_mem_nil) fun _ _ h => h).trans (Dev.moves_scrubNext ..))
    ⟨fun hnext => ?_, fun hend => ?_⟩
  · rw [State.a_leave _ _ _ (by decide), Dev.a_scrubNext_inner hnext, State.leave_cat, Dev.scrubNext, if_pos hnext]
    exact ⟨rfl, hcat⟩
  · rw [Dev.scrubNext, if_neg (Nat.not_lt.2 hend), State.a_leave _ _ _ (by decide), State.leave_raised, ← hcat]
    refine ⟨Dev.a_scrubEnd _, State.counted_of_counts (by decide) (fun hlt => ?_) _, Dev.raised_raise _ _ _⟩
    rw [← hpass] at hlt ⊢
    exact Dev.counts_scrubEnd _ hlt

theorem Dev.Moves.scrubCorrected {keys : List Nat} {g : Dev} (h : g.Moves keys Dev.offCat d) (hk : P.memCorrectedCount ∈ keys) :
    g.Moves keys Dev.offCat d.scrubCorrected :=
  (h.eccCorrected hk).setCat _

theorem Dev.counts_scrubCorrected {g : Dev} (h : d.a P.memCorrectedCount = g.a P.memCorrectedCount) :
    g.Counts P.memCorrectedCount 1 d.scrubCorrected :=
  (Dev.counts_eccCorrected h).keep (Dev.a_setCat ..)

theorem claim_scrubCorrected : Claims.scrubCorrected := by
  intro s dt hup hserves hnext
  have hserved := (s.at_ dt).moves_served 7 32
  have hcat : ((s.at_ dt).served 7 32).cat = s.dev.cat := hserved.cat_eq.trans (s.arrive_cat dt)
  have hcount := Dev.counts_scrubCorrected (hserved.a_eq (k := P.memCorrectedCount) (by decide) List.not_mem_nil)
  have hmoves : (s.at_ dt).Moves [P.memScrubPosition, P.memCorrectedCount] Dev.offCat ((s.at_ dt).served 7 32).scrubCorrected :=
    Dev.Moves.scrubCorrected (hserved.toOffCat.mono (fun _ h => absurd h List.not_mem_nil) fun _ _ h => h) (by decide)
  have hfound : ((s.at_ dt).served 7 32).scrubCorrected.cat.scrubFound = s.dev.cat.scrubFound + 1 := by rw [← hcat]; rfl
  have hscrub := State.scrub_at hup hserves s.mem .corrected
  rw [Dev.scrubRead, Dev.scrubNext, if_pos hnext] at hscrub
  generalize ((s.at_ dt).served 7 32).scrubCorrected = d at *
  refine acts_onMem_of_moves (f := fun d m => d.scrub m .corrected) rfl hscrub (hmoves.w (Or.inl (by decide)) _) ⟨?_, ?_⟩
  · exact State.counted_of_counts (by decide) (hcount.keep (Dev.a_w_ne _ _ (by decide))) _
  · rw [State.leave_cat]
    exact hfound

/-! ### A burst that cannot be corrected -/

theorem Dev.moves_scrubZero (d : Dev) (a : Nat) : d.Moves [] Dev.offMemory (d.scrubZero a) := by
  have hrefl := Dev.Moves.refl [] Dev.offMemory d
  unfold Dev.scrubZero
  split
  · exact hrefl.same rfl rfl rfl
  · split
    · exact Dev.Moves.iff (hrefl.same rfl rfl rfl) fun _ h => h.same rfl rfl rfl
    · exact hrefl

def scrubKeys : List Nat := P.catMissCount :: P.memScrubPosition :: P.memScrubPassCount :: staleKeys

/-- Once the burst is reported, what follows moves neither its address nor its event. -/
theorem Dev.moves_scrub_uncorrectable (d : Dev) (m : Memory) (a : Nat) :
    (d.eccUncorrectable a true).Moves scrubKeys Dev.offMemory ((d.scrubRead m a .uncorrectable).1.scrubNext a) := by
  refine Dev.Moves.trans ?_ ((Dev.moves_scrubNext _ a).toOffMemory.mono (by decide) fun _ _ h => h)
  unfold Dev.scrubRead
  dsimp only
  split
  · exact (((Dev.Moves.refl ..).makeStale _ _).mono (by decide) fun _ _ h => h).spoilNow (by decide) _
  · exact (Dev.moves_scrubZero _ a).mono (fun _ h => absurd h List.not_mem_nil) fun _ _ h => h

theorem Dev.scrubRead_catalogue {a : Nat} (ha : a < catBytes) (d : Dev) (m : Memory) :
    (d.scrubRead m a .uncorrectable).2 = [.put (entAddr (a / 128)) (staleImage (a / 128) (d.a P.catGeneration + 1))] := by
  have hgen : (d.eccUncorrectable a true).a P.catGeneration = d.a P.catGeneration :=
    ((Dev.Moves.refl readKeys id d).eccUncorrectable (by decide) (by decide) a true).a_eq (by decide) (by decide)
  obtain ⟨-, hput⟩ := (d.eccUncorrectable a true).generation_makeStale (a / 128) (m.entry (a / 128))
  rw [Dev.scrubRead, if_pos ha]
  dsimp only
  rw [hput, hgen]

theorem Dev.scrubRead_beyond {a : Nat} (ha : catBytes ≤ a) (d : Dev) (m : Memory) :
    (d.scrubRead m a .uncorrectable).2 = [.wipe a (a + 32)] := by
  rw [Dev.scrubRead, if_neg (Nat.not_lt.2 ha)]

/-- Beyond the Catalogue an address that nothing is listed for reads zero. -/
theorem unlisted_of_le {a : Nat} (ha : catBytes ≤ a) : unlisted a = 0#8 :=
  if_neg fun ⟨hlt, _⟩ => absurd hlt (Nat.not_lt.2 ha)

theorem claim_scrubUncorrectable : Claims.scrubUncorrectable := by
  intro s dt hup hserves a _ hburst hwf
  rw [does_onMem (f := fun d m => d.scrub m .uncorrectable) rfl, State.scrub_at hup hserves, State.a_leave _ _ _ (by decide),
    State.leave_raised, State.leave_mem]
  have hmoves := ((s.at_ dt).served 7 32).moves_scrub_uncorrectable s.mem a
  refine ⟨?_, hmoves.raised (Dev.raised_eccUncorrectable _ a true), fun ha => ?_, fun ha b => ?_⟩
  · rw [hmoves.a_eq (by decide) (by decide), Dev.a_eccUncorrectable_addr]
    omega
  · have hgen : ((s.at_ dt).served 7 32).a P.catGeneration = s.a P.catGeneration :=
      (((s.at_ dt).moves_served 7 32).a_eq (by decide) List.not_mem_nil).trans (s.a_at dt (by decide))
    have himage := length_staleImage (a / 128) (s.a P.catGeneration + 1)
    rw [Dev.scrubRead_catalogue ha, hgen, Memory.applyAll_singleton]
    refine ⟨Memory.entry_put hwf himage, fun b hb => ?_⟩
    rw [Memory.get_put_entry hwf himage, if_neg (by omega)]
  · rw [Dev.scrubRead_beyond ha, Memory.applyAll_singleton]
    refine (Memory.get_wipe ..).trans ?_
    split
    · next hin => exact unlisted_of_le (ha.trans hin.1)
    · rfl

/-! ### The MRAM copy -/

/-- A device that is up does not rest in DEEP, so a copy that is not deferred is made at once, where CatGeneration moved. -/
theorem Dev.copyGeneration_eq (hup : d.up = true) (hdefer : d.nvm.deferring = false) :
    d.iff d.up (·.copyGeneration) = { d with cat := { d.cat with genMram := d.a P.catGeneration } } := by
  have hasleep : d.asleep = false := by
    simp only [Dev.up, Bool.and_eq_true, bne_iff_ne, ne_eq] at hup
    simp [Dev.asleep, hup]
  rw [hup, Dev.iff_true, Dev.copyGeneration]
  dsimp only
  by_cases hmoved : d.a P.catGeneration = d.cat.genMram
  · rw [hmoved, bne_self_eq_false]
    rfl
  · rw [(bne_iff_ne ..).2 hmoved, Dev.iff_true, Dev.mramWrite, hdefer, hasleep]
    rfl

theorem claim_catgenMramCopy : Claims.catgenMramCopy := by
  intro s dt hup hdefer
  have hcopy := Dev.copyGeneration_eq hup hdefer
  refine acts_onDev_of_moves (f := fun d => d.iff d.up (·.copyGeneration)) rfl ?_ ?_
  · rw [hcopy]
    exact (Dev.Moves.refl ..).same rfl rfl rfl
  · rw [hcopy, State.leave_cat, s.a_at dt (by decide), State.at_, State.arrive_cat]

/-- Settles O22, command by command: a read that fails leaves its entry STALE and the slot's fetches of it misses, scrub moves on from the
burst it read, and an operation that comes to an empty VC1 waits there or is answered. -/
theorem catalogueIsReadAndScrubbed : Obligations.CatalogueIsReadAndScrubbed :=
  ⟨claim_catalogueFetch, claim_scrubBurst, claim_scrubCorrected, claim_scrubUncorrectable, claim_catgenMramCopy, claim_catalogueOpWrite,
    claim_catalogueOpClear, claim_catalogueOpRead, claim_catalogueOpSetState, claim_catalogueOpQuery⟩

end Sys2Proof.Machine
end

section
/-!
The first segment of a plan (R190, R193, R256, R258): the message comes to an empty VC1 and is served there at once, on the device the
receive checks leave with its credit freed.
-/

namespace Sys2Proof.Machine

section
variable {d : Dev} {h : Hdr} {t len : Nat} {resp shape : Bool}

/-! ### What the receive checks leave -/

theorem Dev.clk_iff {c : Bool} {f : Dev → Dev} (hf : ∀ d : Dev, (f d).clk = d.clk) : (d.iff c f).clk = d.clk := by
  cases c
  · rfl
  · exact hf d

theorem Dev.clk_mlCount (k : Nat) : (d.mlCount h k).clk = d.clk := Dev.clk_iff fun _ => Dev.inc_clk ..

/-- A message that passes has the shape its type asks for, and the clocks stand. -/
theorem Dev.rxBase_passed (hok : (d.rxBase h t len shape).2 = true) : shape = true ∧ (d.rxBase h t len shape).1.clk = d.clk := by
  revert hok
  unfold Dev.rxBase
  dsimp only
  split
  · simp
  · split
    · simp
    · split
      · simp
      · split
        · simp
        · split
          · simp
          · next hshape =>
            split
            · simp
            · refine fun _ => ⟨by simpa using hshape, ?_⟩
              refine (Dev.clk_iff fun _ => Dev.clk_mlCount _).trans ?_
              exact Dev.clk_iff (d := d.setPort h.port _) fun _ => Dev.w_clk ..

theorem Dev.rxCheck_passed (hok : (d.rxCheck h t len resp).2 = true) : h.vc = vcOf t ∧ (d.rxCheck h t len resp).1.clk = d.clk := by
  revert hok
  unfold Dev.rxCheck
  dsimp only
  split
  · simp
  · next hbase =>
    obtain ⟨hshape, hclk⟩ := Dev.rxBase_passed (d := d) (h := h) (t := t) (len := len) (by simpa using hbase)
    split
    · simp
    · rw [Bool.and_eq_true, beq_iff_eq] at hshape
      exact fun _ => ⟨hshape.1, (Dev.clk_mlCount _).trans hclk⟩

end

/-- The device once a message is taken, as it is when VC1 is served: the message stands there, its credit is not yet free. -/
def State.taken (s : State) (dt : Nat) (h : Hdr) (t len : Nat) : Dev := (((s.at_ dt).ripPass false h.port h.vc).rxCheck h t len false).1

/-- Between two devices the receive of a message of VC1 has moved counts of its port, the port's record and what Riptide holds. -/
def Dev.Hears (g d : Dev) : Prop :=
  (∀ k, evKey k = false → k ∉ [P.mlPartnerState, P.mlRxSeqGapCount, P.mlRxMessageCount + 1] → d.a k = g.a k) ∧ d.clk = g.clk ∧
    d.cat = g.cat ∧ d.ul = g.ul ∧ d.dl = g.dl ∧ d.tim = g.tim

section
variable {s : State} {dt t : Nat} {h : Hdr} {body : List Byte}

/-- The message's coming leaves the clocks, VC1 and the plans. -/
theorem State.hears_heard (hhears : s.hears dt h t body.length = true) (hvc : vcOf t = 1) :
    (s.at_ dt).Hears (s.heard dt h t body.length) := by
  obtain ⟨-, hok⟩ := Bool.and_eq_true_iff.1 hhears
  obtain ⟨-, hkeys, -, hframe⟩ := Dev.rxCheck_taken hok
  obtain ⟨hone, hclk⟩ := Dev.rxCheck_passed hok
  have hcat := congrArg Dev.cat hframe
  have hul := congrArg Dev.ul hframe
  have hdl := congrArg Dev.dl hframe
  have htim := congrArg Dev.tim hframe
  exact ⟨fun k hev hk => hkeys k hev (by rwa [hone, hvc]), hclk, hcat, hul, hdl, htim⟩

theorem Dev.vc1Pop_vc1Put {d : Dev} (hnil : d.cat.vc1 = []) (x : Vc1) :
    (d.vc1Put x).vc1Pop = d.freeUnits x.port 1 (msgUnits x.body.length) := by
  have hback : ({ d with cat := { d.cat with vc1 := [] } } : Dev) = d := by rw [← hnil]
  have hpop : (d.vc1Put x).vc1Pop =
      ({ d with cat := { d.cat with vc1 := [] } } : Dev).freeUnits x.port 1 (msgUnits x.body.length) := by
    rw [Dev.vc1Put, hnil]
    rfl
  rw [hpop, hback]

/-- A message that comes to an empty VC1 stands there alone when VC1 is served, and taken off leaves the device that heard it. -/
theorem State.vc1In_eq (hhears : s.hears dt h t body.length = true) (hvc : vcOf t = 1) (hempty : s.dev.cat.vc1 = [])
    (i : Hdr → List Byte → Instr) : ∃ d : Dev, (s.at_ dt).vc1In i t h body = d.vc1Serve ∧ d.cat.vc1 = [vc1Of h t body] ∧
      d.vc1Pop = s.heard dt h t body.length := by
  obtain ⟨hquiet, hok⟩ := Bool.and_eq_true_iff.1 hhears
  obtain ⟨hone, -⟩ := Dev.rxCheck_passed hok
  obtain ⟨-, -, hcat, -⟩ := State.hears_heard hhears hvc
  have hnil : (s.taken dt h t body.length).cat.vc1 = [] :=
    ((congrArg Cat.vc1 hcat).trans (congrArg Cat.vc1 (s.arrive_cat dt))).trans hempty
  have hin : (s.at_ dt).vc1In i t h body = ((s.at_ dt).ripPass false h.port h.vc).vc1Take t h body := by
    rw [Dev.vc1In, Dev.ripRx, Dev.ripPick_quiet hquiet]
  refine ⟨(s.taken dt h t body.length).vc1Put (vc1Of h t body), ?_, ?_, ?_⟩
  · rw [hin, Dev.vc1Take]
    dsimp only
    rw [hok, if_pos rfl]
    rfl
  · rw [Dev.vc1Put, hnil]
    rfl
  · have hvc1 : 1 = h.vc := (hone.trans hvc).symm
    exact (Dev.vc1Pop_vc1Put hnil _).trans (congrArg ((s.taken dt h t body.length).freeUnits h.port · (msgUnits body.length)) hvc1)

end

/-! ### A segment at the head of VC1 -/

/-- What differs between the two kinds of plan: the message type and the counter of plans accepted. -/
def planType (dl : Bool) : Nat := if dl then tDlPlan else tSlotPlan
def acceptedKey (dl : Bool) : Nat := if dl then P.dlPlanAcceptedCount else P.apPlanAcceptedCount

theorem evKey_acceptedKey (dl : Bool) : evKey (acceptedKey dl) = false := by cases dl <;> decide

/-- The queue of one kind of plan. -/
def Dev.queue (d : Dev) (dl : Bool) : List Plan := if dl then d.dl.plans else d.ul.plans

section
variable {d e : Dev} {dl : Bool}

/-- A segment is served at once and VC1 is empty after it. -/
theorem Dev.vc1Serve_segment {x : Vc1} (h1 : d.cat.vc1 = [x]) (ht : x.type = planType dl)
    (hserved : d.vc1Pop.segment dl x.far x.body = e) (hleft : e.cat.vc1 = []) : d.vc1Serve = e := by
  have hrun : d.vc1Serve = Dev.vc1Run 1 (d.vc1Pop.segment dl x.far x.body) := by
    cases dl
    · simp [Dev.vc1Serve, Dev.vc1Run, h1, ht, planType]
    · simp [Dev.vc1Serve, Dev.vc1Run, h1, ht, planType, tSlotPlan, tDlPlan]
  rw [hrun, hserved, Dev.vc1Run_empty hleft]

/-- Outside a reduction tree, or at its root, a segment is the island's own. -/
theorem Dev.segment_own (hmember : d.a P.redState ≠ 1) (hcollector : d.a P.redState ≠ 2) (far : Bool) {b : List Byte} (hlen : 32 ≤ b.length) :
    d.segment dl far b = d.ownSegment dl (segHdr dl b) b := by
  have hshort : ¬ b.length < 32 := Nat.not_lt.2 hlen
  simp [Dev.segment, hshort, hmember, hcollector, Dev.iff]

/-- The first segment of a plan, in time: the plan waits for its other segments or is judged. -/
theorem Dev.ownSegment_first {h : SegHdr} {b : List Byte} (hnone : (d.parts dl).find? (fun x => x.is h.slot h.group false) = none)
    (htime : d.tim.valid = true → d.merNs ≤ d.deadlineNs dl h.slot h.group) :
    let rest := (d.parts dl).filter (fun x => !x.is h.slot h.group false)
    let x := ({ slot := h.slot, group := h.group } : PlanPart).add dl h b
    d.ownSegment dl h b = if x.complete then (d.setParts dl rest).judge dl x x.plan else d.setParts dl (rest ++ [x]) := by
  have hlate : (d.tim.valid && decide (d.deadlineNs dl h.slot h.group < d.merNs)) = false := by
    rw [Bool.and_eq_false_iff, decide_eq_false_iff_not, Nat.not_lt]
    cases hvalid : d.tim.valid
    · exact Or.inl rfl
    · exact Or.inr (htime hvalid)
  simp only [Dev.ownSegment, hnone, hlate, Bool.false_eq_true, if_false]

/-- The same of the message that brings it. -/
theorem Dev.segment_first {b : List Byte} (hmember : d.a P.redState ≠ 1) (hcollector : d.a P.redState ≠ 2) (hlen : 32 ≤ b.length)
    (hnone : (d.parts dl).find? (fun x => x.is (segHdr dl b).slot (segHdr dl b).group false) = none)
    (htime : d.tim.valid = true → d.merNs ≤ d.deadlineNs dl (segHdr dl b).slot (segHdr dl b).group) (far : Bool) :
    let rest := (d.parts dl).filter (fun x => !x.is (segHdr dl b).slot (segHdr dl b).group false)
    let x := ({ slot := (segHdr dl b).slot, group := (segHdr dl b).group } : PlanPart).add dl (segHdr dl b) b
    d.segment dl far b = if x.complete then (d.setParts dl rest).judge dl x x.plan else d.setParts dl (rest ++ [x]) :=
  (Dev.segment_own hmember hcollector far hlen).trans (Dev.ownSegment_first hnone htime)

/-- A plan that breaks the layout is malformed, whatever else may be wrong with it (R197, R261). -/
theorem Dev.judge_bad {x : PlanPart} (hcollector : d.a P.redState ≠ 2) (hbad : x.bad = true) (p : Plan) :
    d.judge dl x p = d.planRefused dl p.group 1 := by
  have hmalformed : d.malformed dl x p = true := by simp [Dev.malformed, hbad]
  cases dl
  · simp [Dev.judge, Dev.ulReason, hmalformed, hcollector, Dev.iff]
  · simp [Dev.judge, Dev.dlReason, hmalformed, hcollector, Dev.iff]

/-- A plan that no reason refuses and that the ledger carries is taken. -/
theorem Dev.judge_accepts {x : PlanPart} {p : Plan} (hcollector : d.a P.redState ≠ 2)
    (hreason : (if dl then d.dlReason x p else d.ulReason x p) = 0) (hterm : d.planTerm dl p = none) :
    d.judge dl x p = d.enqueue dl p := by
  simp [Dev.judge, hreason, hterm, hcollector, Dev.iff]

/-! ### What refusing and taking a plan leave -/

theorem Dev.cat_setParts (l : List PlanPart) : (d.setParts dl l).cat = d.cat := by cases dl <;> rfl

theorem Dev.queue_setParts (l : List PlanPart) : (d.setParts dl l).queue dl = d.queue dl := by cases dl <;> rfl

theorem Dev.cat_planRefused (group reason : Nat) : (d.planRefused dl group reason).cat = d.cat := by
  obtain ⟨arg, heq⟩ := d.planRefused_eq dl group reason
  rw [heq, Dev.raise_cat, Dev.inc_cat]

theorem Dev.queue_planRefused (group reason : Nat) : (d.planRefused dl group reason).queue dl = d.queue dl := by
  obtain ⟨arg, heq⟩ := d.planRefused_eq dl group reason
  rw [heq, Dev.queue, Dev.queue, Dev.raise_ul, Dev.raise_dl, Dev.inc_ul, Dev.inc_dl]

theorem Dev.raised_planRefused (group reason : Nat) :
    Raised (d.planRefused dl group reason) 33 (group * 65536 + (if dl then 32768 else 0) + reason) := by
  have heq : d.planRefused dl group reason =
      (d.inc (refusedKey dl)).raise 33 (group * 65536 + (if dl then 32768 else 0) + reason) := by
    cases dl <;> simp [Dev.planRefused, refusedKey]
  rw [heq]
  exact Dev.raised_raise ..

/-- The plans a new one takes the place of: those of its slot, group and way. -/
def Plan.sameAs (p x : Plan) : Bool := x.slot == p.slot && x.group == p.group && x.fwd == p.fwd

/-- A plan in its queue, in place of the one it replaces, whose fetches go with it (R196, R260). -/
def Dev.queuePut (d : Dev) (dl : Bool) (p : Plan) : Dev :=
  if dl then { d with dl := { d.dl with plans := d.dl.plans.filter (fun x => !p.sameAs x) ++ [p] } }
  else { d with ul := { d.ul with
    plans := d.ul.plans.filter (fun x => !p.sameAs x) ++ [p],
    fetched := if d.ul.plans.any p.sameAs then d.ul.fetched.filter (fun f => !(f.slot == p.slot && f.group == p.group)) else d.ul.fetched } }

/-- What taking a plan moves beside its queue and its counter: the count of plans replaced and the counts shown of the queues. -/
def takingKeys : List Nat := [P.apPlanReplacedCount, P.dlPlanReplacedCount, gk P.apPlanQueuedA 0, gk P.apPlanQueuedA 1]

/-- The frame of taking a plan: since when the device idles. -/
def Dev.offPwr (d : Dev) : Dev := { d with pwr := {} }

theorem Dev.Moves.showQueued {g : Dev} (h : g.Moves takingKeys Dev.offPwr d) : g.Moves takingKeys Dev.offPwr d.showQueued :=
  (h.w (k := gk P.apPlanQueuedA 0) (by decide) _).w (k := gk P.apPlanQueuedA 1) (by decide) _

theorem Dev.Moves.noteIdle {g : Dev} (h : g.Moves takingKeys Dev.offPwr d) : g.Moves takingKeys Dev.offPwr d.noteIdle := h.same rfl rfl rfl

theorem Dev.moves_enqueue (p : Plan) : ((d.queuePut dl p).inc (acceptedKey dl)).Moves takingKeys Dev.offPwr (d.enqueue dl p) := by
  have hrepl (c : Bool) {k : Nat} (hk : k ∈ takingKeys) : ((d.queuePut dl p).inc (acceptedKey dl)).Moves takingKeys Dev.offPwr
      (((d.queuePut dl p).inc (acceptedKey dl)).iff c (·.inc k)) := (Dev.Moves.refl ..).iff fun _ h => h.inc (Or.inl hk)
  cases dl
  · exact (hrepl (d.ul.plans.any p.sameAs) (by decide : P.apPlanReplacedCount ∈ takingKeys)).showQueued.noteIdle
  · exact (hrepl (d.dl.plans.any p.sameAs) (by decide : P.dlPlanReplacedCount ∈ takingKeys)).noteIdle

/-- The parts of the device a plan taken leaves. -/
theorem Dev.enqueue_fields (p : Plan) : (d.enqueue dl p).cat = (d.queuePut dl p).cat ∧ (d.enqueue dl p).ul = (d.queuePut dl p).ul ∧
    (d.enqueue dl p).dl = (d.queuePut dl p).dl := by
  obtain ⟨-, -, hpart⟩ := d.moves_enqueue (dl := dl) p
  have hcat := congrArg Dev.cat hpart
  have hul := congrArg Dev.ul hpart
  have hdl := congrArg Dev.dl hpart
  exact ⟨hcat.trans (Dev.inc_cat ..), hul.trans (Dev.inc_ul ..), hdl.trans (Dev.inc_dl ..)⟩

theorem Dev.queue_enqueue (p : Plan) : (d.enqueue dl p).queue dl = (d.queue dl).filter (fun x => !p.sameAs x) ++ [p] := by
  obtain ⟨-, hul, hdl⟩ := d.enqueue_fields (dl := dl) p
  rw [Dev.queue, hul, hdl]
  cases dl <;> rfl

theorem Dev.parts_enqueue (p : Plan) : (d.enqueue dl p).parts dl = d.parts dl := by
  obtain ⟨-, hul, hdl⟩ := d.enqueue_fields (dl := dl) p
  rw [Dev.parts, hul, hdl]
  cases dl <;> rfl

theorem Dev.cat_enqueue (p : Plan) : (d.enqueue dl p).cat = d.cat := by
  obtain ⟨hcat, -⟩ := d.enqueue_fields (dl := dl) p
  rw [hcat]
  cases dl <;> rfl

theorem Dev.counts_enqueue {g : Dev} (h : d.a (acceptedKey dl) = g.a (acceptedKey dl)) (p : Plan) :
    g.Counts (acceptedKey dl) 1 (d.enqueue dl p) := by
  have hput : (d.queuePut dl p).a (acceptedKey dl) = g.a (acceptedKey dl) := by
    rw [← h]
    cases dl <;> rfl
  exact (Dev.counts_inc hput).keep ((d.moves_enqueue p).a_eq (evKey_acceptedKey dl) (by cases dl <;> decide))

end

/-! ### The first segment -/

theorem Dev.deadlineNs_congr {d e : Dev} {g : Nat} (hslot : d.a P.apSlotLengthCode = e.a P.apSlotLengthCode)
    (hrate : d.a (gk P.bandRateCodeA g) = e.a (gk P.bandRateCodeA g)) (hbins : d.a (gk P.chanLog2BinsA g) = e.a (gk P.chanLog2BinsA g))
    (dl : Bool) (slot : Nat) : d.deadlineNs dl slot g = e.deadlineNs dl slot g := by
  simp only [Dev.deadlineNs, Dev.slotNs, Dev.planLeadNs, Dev.dlLeadNs, Dev.dlLeadPs, Dev.chanN, Dev.fb, Dev.ballNs, hslot, hrate, hbins]

theorem Dev.Hears.deadlineNs {g d : Dev} (h : g.Hears d) {p : Nat} (hp : p < 2) (dl : Bool) (slot : Nat) :
    d.deadlineNs dl slot p = g.deadlineNs dl slot p := by
  obtain ⟨hkeys, -⟩ := h
  interval_cases p
  · exact Dev.deadlineNs_congr (hkeys _ (by decide) (by decide)) (hkeys _ (by decide) (by decide)) (hkeys _ (by decide) (by decide)) dl slot
  · exact Dev.deadlineNs_congr (hkeys _ (by decide) (by decide)) (hkeys _ (by decide) (by decide)) (hkeys _ (by decide) (by decide)) dl slot

theorem Dev.Hears.parts {g d : Dev} (h : g.Hears d) (dl : Bool) : d.parts dl = g.parts dl := by
  obtain ⟨-, -, -, hul, hdl, -⟩ := h
  rw [Dev.parts, Dev.parts, hul, hdl]

theorem Dev.Hears.queue {g d : Dev} (h : g.Hears d) (dl : Bool) : d.queue dl = g.queue dl := by
  obtain ⟨-, -, -, hul, hdl, -⟩ := h
  rw [Dev.queue, Dev.queue, hul, hdl]

theorem State.queue_at (s : State) (dt : Nat) (dl : Bool) : (s.at_ dt).queue dl = s.dev.queue dl := by
  rw [Dev.queue, Dev.queue, State.at_, State.arrive_ul, State.arrive_dl]

theorem State.queue_leave (s : State) (d : Dev) (m : Memory) (dl : Bool) : (s.leave d m).dev.queue dl = d.queue dl := by
  rw [Dev.queue, Dev.queue, State.leave_ul, State.leave_dl]

theorem vcOf_planType (dl : Bool) : vcOf (planType dl) = 1 := by cases dl <;> decide

theorem segHdr_group_lt (dl : Bool) (b : List Byte) : (segHdr dl b).group < 2 := Nat.mod_lt _ (by decide)

/-- R190, R193 and R256, R258 in one. -/
theorem planSegment_of_exec {dl : Bool} {mk : Nat → Hdr → List Byte → Instr} {i : Hdr → List Byte → Instr}
    (hexec : ∀ dt h body s, exec (mk dt h body) s = onDev dt (·.vc1In i (planType dl) h body) s) :
    Claims.planSegment dl mk (planType dl) (acceptedKey dl) (refusedKey dl) := by
  intro s dt h body g mine x rest queue j hhears hlen hempty hmember hcollector hnone htime
  obtain ⟨d, hin, hvc1, hpop⟩ := State.vc1In_eq hhears (vcOf_planType dl) hempty i
  have hheard := State.hears_heard hhears (vcOf_planType dl)
  have hparts : (s.heard dt h (planType dl) body.length).parts dl = s.dev.parts dl := (hheard.parts dl).trans (s.parts_at dt dl)
  have hqueue : (s.heard dt h (planType dl) body.length).queue dl = queue s.dev := (hheard.queue dl).trans (s.queue_at dt dl)
  have hdue := hheard.deadlineNs (segHdr_group_lt dl body) dl g.slot
  obtain ⟨hkeys, hclk, hcat, -, -, htim⟩ := hheard
  rw [doesDev_onDev (hexec dt h body s), hin]
  set e := s.heard dt h (planType dl) body.length
  have hred : e.a P.redState = s.a P.redState := (hkeys _ (by decide) (by decide)).trans (s.a_at dt (by decide))
  have hred' : j.a P.redState ≠ 2 := fun h => hcollector (hred.symm.trans ((Dev.a_setParts (dl := dl) rest _).symm.trans h))
  have hown : e.segment dl (vc1Of h (planType dl) body).far body =
      if x.complete then j.judge dl x x.plan else e.setParts dl (rest ++ [x]) := by
    refine (Dev.segment_first (by rwa [hred]) (by rwa [hred]) hlen (by rwa [hparts]) (fun hvalid => ?_) _).trans (by rw [hparts])
    rw [hdue, Dev.merNs, hclk]
    exact htime (by rwa [← htim])
  have hserve {f : Dev} (hf : e.segment dl (vc1Of h (planType dl) body).far body = f) (hfcat : f.cat = e.cat) : d.vc1Serve = f :=
    Dev.vc1Serve_segment hvc1 rfl (by rwa [hpop]) (by rw [hfcat, hcat, ← hempty, State.at_, State.arrive_cat])
  refine ⟨fun hpartial => ?_, fun hwhole hbad => ?_, fun hwhole hreason hterm => ?_⟩
  · rw [hserve (hown.trans (if_neg (by simp [hpartial]))) (Dev.cat_setParts _), State.parts_leave, Dev.parts_setParts]
    exact ⟨rfl, ((s.arrive dt).queue_leave _ _ dl).trans ((Dev.queue_setParts _).trans hqueue)⟩
  · have hjudge := (hown.trans (if_pos hwhole)).trans (Dev.judge_bad hred' hbad x.plan)
    rw [hserve hjudge ((Dev.cat_planRefused _ _).trans (Dev.cat_setParts _)), State.parts_leave, State.leave_raised]
    refine ⟨(Dev.parts_planRefused ..).trans (Dev.parts_setParts _), ?_, ?_, ?_⟩
    · exact ((s.arrive dt).queue_leave _ _ dl).trans ((Dev.queue_planRefused _ _).trans ((Dev.queue_setParts _).trans hqueue))
    · refine State.counted_of_counts (evKey_refusedKey dl) (Dev.counts_planRefused ?_ _ _) _
      exact (Dev.a_setParts ..).trans (hkeys _ (evKey_refusedKey dl) (by cases dl <;> decide))
    · exact Dev.raised_planRefused _ _
  · have hjudge := (hown.trans (if_pos hwhole)).trans (Dev.judge_accepts hred' hreason hterm)
    rw [hserve hjudge ((Dev.cat_enqueue _).trans (Dev.cat_setParts _)), State.parts_leave]
    refine ⟨(Dev.parts_enqueue _).trans (Dev.parts_setParts _), ?_, ?_⟩
    · refine State.counted_of_counts (evKey_acceptedKey dl) (Dev.counts_enqueue ?_ _) _
      exact (Dev.a_setParts ..).trans (hkeys _ (evKey_acceptedKey dl) (by cases dl <;> decide))
    · refine ((s.arrive dt).queue_leave _ _ dl).trans ((Dev.queue_enqueue _).trans ?_)
      rw [Dev.queue_setParts, hqueue]
      rfl

theorem claim_slotPlan : Claims.slotPlan := planSegment_of_exec (dl := false) (i := Instr.slotPlan 0) fun _ _ _ _ => rfl

theorem claim_dlPlan : Claims.dlPlan := planSegment_of_exec (dl := true) (i := Instr.dlPlan 0) fun _ _ _ _ => rfl

/-- Settles O24: a segment that is taken is served at once on the device that heard it; the first one of a plan, in time, waits with its
part or the whole plan is judged, where a broken layout is reason 1 before any other and a plan no check refuses is enqueued. -/
theorem plansAreTaken : Obligations.PlansAreTaken := ⟨claim_slotPlan, claim_dlPlan⟩

end Sys2Proof.Machine
end

section
/-!
The plans the device holds at a slot boundary (R175, R217): the relation `KeepsPlans`, its rules for each way of changing the device, then
the functions of units, chains and paths a slot boundary is made of.
-/

namespace Sys2Proof.Machine

/-- What uplink combining holds of plans: those queued and in force, the slot served, the disables that wait for the slot's end. -/
def Ul.held (u : Ul) : Ul :=
  { u with part := [], past := [], fetched := [], holdHist := [], refresh := [], outs := [], began := 0, missed := [], noHist := none }

/-- What the device holds of plans of both kinds. -/
def Dev.plansHeld (d : Dev) : Ul × List Plan × List Plan := (d.ul.held, d.dl.plans, d.dl.cur)

/-- The device `d` holds the plans `g` holds. -/
def Dev.KeepsPlans (g d : Dev) : Prop := d.plansHeld = g.plansHeld

namespace Dev.KeepsPlans

variable {g d e : Dev}

theorem refl (d : Dev) : Dev.KeepsPlans d d := rfl

theorem trans (h : g.KeepsPlans d) (h' : d.KeepsPlans e) : g.KeepsPlans e := Eq.trans h' h

/-- Nothing that `KeepsPlans` speaks of stands in what has changed. -/
theorem same (h : g.KeepsPlans d) (hul : e.ul = d.ul) (hdl : e.dl = d.dl) : g.KeepsPlans e := by
  unfold Dev.KeepsPlans Dev.plansHeld at *
  rw [hul, hdl]
  exact h

theorem setUl (h : g.KeepsPlans d) {u : Ul} (hu : u.held = d.ul.held) : g.KeepsPlans { d with ul := u } := by
  unfold Dev.KeepsPlans Dev.plansHeld at *
  rw [← h, ← hu]

theorem setRefresh (h : g.KeepsPlans d) {l : List Refresh} : g.KeepsPlans { d with ul := { d.ul with refresh := l } } := h.setUl (by rfl)

theorem setHoldHist (h : g.KeepsPlans d) {l : List HoldRec} : g.KeepsPlans { d with ul := { d.ul with holdHist := l } } := h.setUl (by rfl)

theorem setOuts (h : g.KeepsPlans d) {l : List OutKind} : g.KeepsPlans { d with ul := { d.ul with outs := l } } := h.setUl (by rfl)

theorem setOutput (h : g.KeepsPlans d) {l : List OutKind} {n : Option Nat} :
    g.KeepsPlans { d with ul := { d.ul with outs := l, noHist := n } } := h.setUl (by rfl)

theorem setMissed (h : g.KeepsPlans d) {l : List (Nat × Nat × Nat)} : g.KeepsPlans { d with ul := { d.ul with missed := l } } := h.setUl (by rfl)

theorem setDl (h : g.KeepsPlans d) {x : Dl} (hplans : x.plans = d.dl.plans) (hcur : x.cur = d.dl.cur) :
    g.KeepsPlans { d with dl := x } := by
  unfold Dev.KeepsPlans Dev.plansHeld at *
  rw [← h, ← hplans, ← hcur]

theorem w (h : g.KeepsPlans d) {k v : Nat} : g.KeepsPlans (d.w k v) := h

theorem wx (h : g.KeepsPlans d) {k v : Nat} : g.KeepsPlans (d.wx k v) := h

theorem add (h : g.KeepsPlans d) {k n : Nat} : g.KeepsPlans (d.add k n) := by
  obtain ⟨_, hs⟩ := d.add_shape k n
  rw [hs]
  exact h

theorem inc (h : g.KeepsPlans d) {k : Nat} : g.KeepsPlans (d.inc k) := h.add

theorem raise (h : g.KeepsPlans d) {n arg : Nat} : g.KeepsPlans (d.raise n arg) := by
  obtain ⟨_, _, hs⟩ := d.raise_shape n arg
  rw [hs]
  exact h

theorem raiseRate (h : g.KeepsPlans d) {n sub period amount : Nat} {mk : Nat → Nat} :
    g.KeepsPlans (d.raiseRate n sub period amount mk) := by
  obtain ⟨_, _, _, hs⟩ := d.raiseRate_shape n sub period amount mk
  rw [hs]
  exact h

theorem wList (h : g.KeepsPlans d) {k : Nat} {vs : List Nat} : g.KeepsPlans (d.wList k vs) := by
  obtain ⟨_, hs⟩ := d.wList_shape k vs
  rw [hs]
  exact h

theorem iff (h : g.KeepsPlans d) {c : Bool} {f : Dev → Dev} (hf : ∀ d, g.KeepsPlans d → g.KeepsPlans (f d)) : g.KeepsPlans (d.iff c f) := by
  cases c
  · exact h
  · exact hf d h

theorem ite {c : Prop} [Decidable c] (h : g.KeepsPlans d) (h' : g.KeepsPlans e) : g.KeepsPlans (if c then d else e) := by
  split
  · exact h
  · exact h'

theorem foldl {α : Type} {l : List α} {f : Dev → α → Dev} (h : g.KeepsPlans d) (hf : ∀ x d, g.KeepsPlans d → g.KeepsPlans (f d x)) :
    g.KeepsPlans (l.foldl f d) := by
  induction l generalizing d with
  | nil => exact h
  | cons x l ih => exact ih (hf x d h)

theorem each {α : Type} {l : List α} {f : α → Dev → Dev} (h : g.KeepsPlans d) (hf : ∀ x d, g.KeepsPlans d → g.KeepsPlans (f x d)) :
    g.KeepsPlans (d.each l f) := h.foldl hf

/-- A loop that also collects something. -/
theorem foldlFst {α β : Type} {l : List α} {f : Dev × β → α → Dev × β} {acc : Dev × β} (h : g.KeepsPlans acc.1)
    (hf : ∀ acc x, g.KeepsPlans acc.1 → g.KeepsPlans (f acc x).1) : g.KeepsPlans (l.foldl f acc).1 := by
  induction l generalizing acc with
  | nil => exact h
  | cons x l ih => exact ih (hf acc x h)

theorem foldlSnd {α β : Type} {l : List α} {f : β × Dev → α → β × Dev} {acc : β × Dev} (h : g.KeepsPlans acc.2)
    (hf : ∀ acc x, g.KeepsPlans acc.2 → g.KeepsPlans (f acc x).2) : g.KeepsPlans (l.foldl f acc).2 := by
  induction l generalizing acc with
  | nil => exact h
  | cons x l ih => exact ih (hf acc x h)

theorem noteIdle (h : g.KeepsPlans d) : g.KeepsPlans d.noteIdle := h

theorem showQueued (h : g.KeepsPlans d) : g.KeepsPlans d.showQueued := h.each fun _ _ h => h.w

theorem served (h : g.KeepsPlans d) {c sec n : Nat} : g.KeepsPlans (d.servedAt c sec n) := by
  unfold Dev.servedAt
  exact ite (h.same (by rfl) (by rfl)) (ite (h.same (by rfl) (by rfl)) (ite (h.same (by rfl) (by rfl)) (h.same (by rfl) (by rfl))))

/-! ### Units and converter cores -/

theorem endFade (h : g.KeepsPlans d) {p : Nat} : g.KeepsPlans (d.endFade p) := by
  unfold Dev.endFade
  split
  · exact h
  · exact raise (h.same (by rfl) (by rfl))

theorem gridEnds (h : g.KeepsPlans d) {p till : Nat} : g.KeepsPlans (d.gridEnds p till) := ite (h.same (by rfl) (by rfl)) h

theorem updateQuad (h : g.KeepsPlans d) {u : Nat} : g.KeepsPlans (d.updateQuad u) :=
  Dev.updateQuad_keeps (Q := g.KeepsPlans) (fun _ _ h => h.same (by rfl) (by rfl)) (fun _ _ _ h => h.w) (fun _ _ h => h.w) h

theorem spareCycle (h : g.KeepsPlans d) : g.KeepsPlans d.spareCycle := by
  unfold Dev.spareCycle
  exact ite (raise (h.same (by rfl) (by rfl))) h

theorem updateQuads (h : g.KeepsPlans d) : g.KeepsPlans d.updateQuads := spareCycle (h.each fun _ _ h => h.updateQuad)

theorem ringEnds (h : g.KeepsPlans d) : g.KeepsPlans d.ringEnds := by
  unfold Dev.ringEnds
  exact ite h (h.served.served.same (by rfl) (by rfl))

theorem sentinelStop (h : g.KeepsPlans d) : g.KeepsPlans d.sentinelStop := by
  unfold Dev.sentinelStop
  split
  · exact updateQuads (h.ringEnds.same (by rfl) (by rfl))
  · exact h

theorem setTxPaths (h : g.KeepsPlans d) {q v : Nat} : g.KeepsPlans (d.setTxPaths q v) := h.each fun _ _ h => h.w

theorem refreshTx (h : g.KeepsPlans d) {q : Nat} : g.KeepsPlans (d.refreshTx q) := by
  unfold Dev.refreshTx
  split
  · exact h.setTxPaths
  · exact h.setTxPaths
  · exact h.setTxPaths
  · exact h.setTxPaths

theorem dropUnits (h : g.KeepsPlans d) {mask : Nat} : g.KeepsPlans (d.dropUnits mask) := by
  have hfade {d : Dev} (h : g.KeepsPlans d) (p : Nat) : g.KeepsPlans (if bit mask p then d.endFade p else d) := ite h.endFade h
  have hgrids := (hfade (hfade h 0) 1).each (l := [0, 1]) fun p _ h =>
    h.iff (c := bit mask p) (f := fun d => d.gridEnds p d.now) fun _ h => h.gridEnds
  unfold Dev.dropUnits
  dsimp only
  have hpwr {d : Dev} (h : g.KeepsPlans d) {x : Pwr} : g.KeepsPlans { d with pwr := x } := h.same (by rfl) (by rfl)
  refine noteIdle (sentinelStop (updateQuads (each (each (hpwr (iff (w hgrids) fun _ h => h.w)) ?_) ?_)))
  · exact fun _ _ h => h.iff fun _ h => h.same (by rfl) (by rfl)
  · exact fun _ _ h => h.iff fun _ h => h.refreshTx

/-! ### The sentinel and the power states -/

theorem rfctl (h : g.KeepsPlans d) {i : Nat} {on : Bool} : g.KeepsPlans (d.rfctl i on) := by
  unfold Dev.rfctl
  exact ite h (h.same (by rfl) (by rfl))

theorem rfShort (h : g.KeepsPlans d) : g.KeepsPlans d.rfShort :=
  h.each fun _ _ h => h.iff fun _ h => h.rfctl.iff fun _ h => h.inc

theorem bankAtOnce (h : g.KeepsPlans d) {p : Nat} : g.KeepsPlans (d.bankAtOnce p) := by
  unfold Dev.bankAtOnce
  exact ite h (h.same (by rfl) (by rfl))

theorem sentinelFollow (h : g.KeepsPlans d) : g.KeepsPlans d.sentinelFollow := by
  have hstart {d : Dev} (h : g.KeepsPlans d) : g.KeepsPlans
      ((d.bankAtOnce 0).latchRates.each [0, 1, 2, 3] (fun q d => let (v, d) := d.free (100 + q) 40; d.setPhase q v)).updateQuads :=
    updateQuads (each (h.bankAtOnce.same (by rfl) (by rfl)) fun _ _ h => h.same (by rfl) (by rfl))
  unfold Dev.sentinelFollow
  split
  · split
    · exact h
    · exact rfShort (iff (h.same (by rfl) (by rfl)) fun d h => hstart (h.same (by rfl) (by rfl)))
  · exact h.sentinelStop

theorem replayDiscard (h : g.KeepsPlans d) : g.KeepsPlans d.replayDiscard := by
  unfold Dev.replayDiscard
  exact ite h (raise (add (h.same (by rfl) (by rfl))))

theorem synthsOff (h : g.KeepsPlans d) {mask : Nat} : g.KeepsPlans (d.synthsOff mask) := h.each fun _ _ h => h.same (by rfl) (by rfl)

theorem goWatch (h : g.KeepsPlans d) : g.KeepsPlans d.goWatch := by
  unfold Dev.goWatch
  exact ite h (synthsOff (h.same (by rfl) (by rfl)))

theorem synthOpen (h : g.KeepsPlans d) {k : Nat} : g.KeepsPlans (d.synthOpen k) := ite (h.same (by rfl) (by rfl)) h

theorem synthsCal (h : g.KeepsPlans d) {mask : Nat} : g.KeepsPlans (d.synthsCal mask) := h.each fun _ _ h => h.synthOpen.same (by rfl) (by rfl)

theorem beginUp (h : g.KeepsPlans d) {target : Nat} : g.KeepsPlans (d.beginUp target) := synthsCal (h.same (by rfl) (by rfl))

theorem goUp (h : g.KeepsPlans d) {target cause : Nat} : g.KeepsPlans (d.goUp target cause) := by
  unfold Dev.goUp
  exact ite (h.same (by rfl) (by rfl)) (ite h (ite (h.same (by rfl) (by rfl)) h.beginUp))

theorem freeUnits (h : g.KeepsPlans d) {p vc n : Nat} : g.KeepsPlans (d.freeUnits p vc n) := h.same (by rfl) (by rfl)

theorem maskNote (h : g.KeepsPlans d) {at_ : Nat} : g.KeepsPlans (d.maskNote at_) := ite h (h.same (by rfl) (by rfl))

end Dev.KeepsPlans

end Sys2Proof.Machine
end

section
/-!
`KeepsPlans`, function by function: refresh, snapshots and what is left of the output of a slot that ends.
-/

namespace Sys2Proof.Machine

namespace Dev.KeepsPlans

variable {g d : Dev}

/-! ### The end of a slot -/

theorem tapOfV (h : g.KeepsPlans d) {beam n2 : Nat} {v : CInt} {walked : Bool} : g.KeepsPlans (d.tapOfV beam v n2 walked).2 := by
  unfold Dev.tapOfV
  split
  · exact h.same (by rfl) (by rfl)
  · exact h

theorem orderTaps (h : g.KeepsPlans d) {beams : List Nat} {v : List CInt} {walk : Option (Nat × Nat)} :
    g.KeepsPlans (d.orderTaps beams v walk).2 := foldlSnd h fun _ _ h => h.tapOfV

theorem residual (h : g.KeepsPlans d) {num den : Nat} : g.KeepsPlans (d.residual num den).2 := by
  unfold Dev.residual
  split
  · exact h.same (by rfl) (by rfl)
  · exact h

theorem refreshSig (h : g.KeepsPlans d) {p : Nat} {img : List Byte} {samples : List (List Nat)} :
    g.KeepsPlans (d.refreshSig p img samples).2 := by
  unfold Dev.refreshSig
  extract_lets
  exact residual h.orderTaps

theorem refreshOne (h : g.KeepsPlans d) {slot p : Nat} {x : Place} {samples : List (List Nat)} :
    g.KeepsPlans (d.refreshOne slot p x samples) := by
  unfold Dev.refreshOne
  split
  · exact h
  · split
    · exact h
    · dsimp only
      split
      · exact h.inc
      · exact setRefresh h.refreshSig

theorem refreshAll (h : g.KeepsPlans d) {slot : Nat} {rs : List RefreshIn} : g.KeepsPlans (d.refreshAll slot rs) :=
  h.each fun _ _ h => h.iff fun _ h => h.refreshOne

theorem holdItem (h : g.KeepsPlans d) {slot p : Nat} {i : ModeItem} {snaps : List (List Nat)} :
    g.KeepsPlans (d.holdItem slot p i snaps).1 := served (w h.setHoldHist)

theorem holdAll (h : g.KeepsPlans d) {plans : List Plan} {hs : List HoldIn} : g.KeepsPlans (d.holdAll plans hs).1 := by
  refine foldlFst h fun acc p h => foldlFst h fun acc x h => ?_
  split
  · exact h.holdItem (snaps := ((hs.find? fun y => y.group == p.group && y.item == x.2).map (·.snaps)).getD [])
  · exact h

theorem wakeOutput (h : g.KeepsPlans d) : g.KeepsPlans d.wakeOutput := by
  unfold Dev.wakeOutput
  split
  · exact h
  · dsimp only
    split
    · exact h
    · exact iff h.setOuts fun _ h => h.add.inc

theorem cleanFollow (h : g.KeepsPlans d) : g.KeepsPlans d.cleanFollow := by
  unfold Dev.cleanFollow
  split
  · exact h
  · exact wakeOutput (h.same (by rfl) (by rfl))

theorem holdOutput (h : g.KeepsPlans d) {p : Nat} : g.KeepsPlans (d.holdOutput p) := by
  unfold Dev.holdOutput
  split
  · exact raise (add h.setOuts)
  · exact h

theorem holdOutputs (h : g.KeepsPlans d) : g.KeepsPlans d.holdOutputs := h.holdOutput.holdOutput

theorem dlMissingReport (h : g.KeepsPlans d) {slot : Nat} : g.KeepsPlans (d.dlMissingReport slot) :=
  setDl (each (iff h fun _ h => h.raise) fun _ _ h => h.freeUnits) (by rfl) (by rfl)

theorem wakeWindowEnd (h : g.KeepsPlans d) {old new : Nat} : g.KeepsPlans (d.wakeWindowEnd old new) := by
  have hback {d : Dev} (h : g.KeepsPlans d) (c : Bool) : g.KeepsPlans (if c then d.goWatch.sentinelFollow else d.goUp 2 255) :=
    ite h.goWatch.sentinelFollow h.goUp
  have hclosed {d : Dev} (h : g.KeepsPlans d) {x : Sen} : g.KeepsPlans { d with sen := x } := h.same (by rfl) (by rfl)
  unfold Dev.wakeWindowEnd
  split
  · exact h
  · split
    · exact h
    · dsimp only
      split
      · exact hclosed h.replayDiscard
      · exact hback (hclosed h.replayDiscard).dropUnits.sentinelFollow _

/-! ### The start of a slot -/

theorem rxBoundary (h : g.KeepsPlans d) : g.KeepsPlans d.rxBoundary := by
  have hoff {d : Dev} (h : g.KeepsPlans d) (p v w : Nat) (l : List (Nat × Nat)) :
      g.KeepsPlans (({ d.setEff p v with rx := { (d.setEff p v).rx with starts := l } } : Dev).setOffs p w) := h.same (by rfl) (by rfl)
  exact updateQuads (each h fun _ _ h => each (hoff h _ _ _ _) fun _ _ h => h.raise)

theorem synthBoundary (h : g.KeepsPlans d) {slot : Nat} : g.KeepsPlans (d.synthBoundary slot) := maskNote (h.same (by rfl) (by rfl))

theorem restep (h : g.KeepsPlans d) {p : Nat} : g.KeepsPlans (d.restep p) := by
  unfold Dev.restep
  exact ite (h.same (by rfl) (by rfl)) (h.same (by rfl) (by rfl))

theorem setModel (h : g.KeepsPlans d) {p : Nat} {m : List Nat} : g.KeepsPlans (d.setModel p m) := h.wList

theorem setDpdP (h : g.KeepsPlans d) {p : Nat} {f : DpdP → DpdP} : g.KeepsPlans (d.setDpdP p f) := h.same (by rfl) (by rfl)

theorem dpdCommit (h : g.KeepsPlans d) {slot p : Nat} : g.KeepsPlans (d.dpdCommit slot p) := by
  unfold Dev.dpdCommit
  split
  · exact h
  · exact raiseRate (setDpdP (w (inc (w (w h.setModel)))))

theorem warmLoad (h : g.KeepsPlans d) {p : Nat} : g.KeepsPlans (d.warmLoad p) := by
  unfold Dev.warmLoad
  exact ite h (ite h.w (setDpdP (w h.setModel)))

theorem dpdBoundary (h : g.KeepsPlans d) {slot : Nat} : g.KeepsPlans (d.dpdBoundary slot) := by
  have hwrites {d : Dev} (h : g.KeepsPlans d) {l : List (Nat × Nat)} : g.KeepsPlans (d.wAll l) := h.foldl fun _ _ h => h.w
  have hdpd {d : Dev} (h : g.KeepsPlans d) {x : Dpd} : g.KeepsPlans { d with dpd := x } := h.same (by rfl) (by rfl)
  have hreload {d : Dev} (h : g.KeepsPlans d) {q : Nat} {f : DpdQ → DpdQ} : g.KeepsPlans (d.setDpdQ q f) := h.same (by rfl) (by rfl)
  unfold Dev.dpdBoundary
  extract_lets d1 wr d2 chart d3 x d4
  have h1 : g.KeepsPlans d1 := h.each fun _ _ h => h.dpdCommit
  have h2 : g.KeepsPlans d2 := hwrites h1
  have h3 : g.KeepsPlans d3 := h2.each fun _ _ h => h.iff fun _ h => h.setDpdP
  have h4 : g.KeepsPlans d4 := hdpd h3
  refine h4.each fun _ _ h => h.iff fun _ h => (hreload h).iff fun _ h => ?_
  exact h.each fun _ _ h => h.warmLoad

theorem countMisses (h : g.KeepsPlans d) {p n : Nat} : g.KeepsPlans (d.countMisses p n) := h.iff fun _ h => h.add.raiseRate

theorem missesOf (h : g.KeepsPlans d) {slot p : Nat} : g.KeepsPlans (d.missesOf slot p) := by
  unfold Dev.missesOf
  extract_lets mine got c0 lateUl lateDl late missed onTime miss x d1 d2
  have h1 : g.KeepsPlans d1 := h.setMissed
  have h2 : g.KeepsPlans d2 := h1.iff fun _ h => h.raise
  exact h2.countMisses

theorem groupsLeave (h : g.KeepsPlans d) {new : Nat} : g.KeepsPlans (d.groupsLeave new) := by
  unfold Dev.groupsLeave
  exact h.iff fun _ h => h.dropUnits.sentinelFollow

/-! ### Messages that leave -/

theorem ripRule (h : g.KeepsPlans d) {port dir type i : Nat} : g.KeepsPlans (d.ripRule port dir type i).2 := by
  unfold Dev.ripRule
  dsimp only
  split
  · split
    · exact h.same (by rfl) (by rfl)
    · exact h.same (by rfl) (by rfl)
  · exact h

theorem ripPick (h : g.KeepsPlans d) {port dir type : Nat} : g.KeepsPlans (d.ripPick port dir type).2 := by
  unfold Dev.ripPick
  split
  · dsimp only
    split
    · exact foldlSnd (acc := (none, d)) h fun _ _ h => h.ripRule
    · exact inc (foldlSnd (acc := (none, d)) h fun _ _ h => h.ripRule)
  · exact h

theorem ripCorrupt (h : g.KeepsPlans d) {bs : List Byte} {n : Nat} : g.KeepsPlans (d.ripCorrupt bs n).2 := by
  unfold Dev.ripCorrupt
  split
  · exact h
  · exact foldlSnd h fun _ _ h => h.same (by rfl) (by rfl)

theorem put (h : g.KeepsPlans d) {p : Nat} {ok : Bool} {m : Msg} : g.KeepsPlans (d.put p ok m) := by
  have hchan {f : Chan → Chan} : g.KeepsPlans (d.setChan p m.vc f) := h.same (by rfl) (by rfl)
  have hemit {d : Dev} (h : g.KeepsPlans d) {o : Out} : g.KeepsPlans (d.emit o) := h.same (by rfl) (by rfl)
  exact hemit (iff (iff hchan fun _ h => h.inc) fun _ h => h.w)

theorem ripPass (h : g.KeepsPlans d) {sent : Bool} {p vc : Nat} : g.KeepsPlans (d.ripPass sent p vc) := h.same (by rfl) (by rfl)

theorem start (h : g.KeepsPlans d) {p : Nat} {m : Msg} : g.KeepsPlans (d.start p m) := by
  have hheld {d : Dev} (h : g.KeepsPlans d) {x : Rip} : g.KeepsPlans { d with rip := x } := h.same (by rfl) (by rfl)
  unfold Dev.start
  dsimp only
  split
  · exact h.ripPick.ripPass.put
  · split
    · exact h.ripPick
    · exact h.ripPick.ripCorrupt.ripPass.put
    · exact h.ripPick.ripCorrupt.ripPass.put
    · exact hheld h.ripPick

theorem send (h : g.KeepsPlans d) {p vc type : Nat} {resp : Bool} {body : List Byte} : g.KeepsPlans (d.send p vc type resp body) := by
  unfold Dev.send Dev.sendMsg
  exact ite h (ite h.start (h.same (by rfl) (by rfl)))

theorem redVoid (h : g.KeepsPlans d) {slot : Nat} : g.KeepsPlans (d.redVoid slot) := by
  unfold Dev.redVoid
  exact ite h (each h fun _ _ h => h.iff fun _ h => h.send)

theorem startOutput (h : g.KeepsPlans d) {slot : Nat} : g.KeepsPlans (d.startOutput slot) := by
  unfold Dev.startOutput
  extract_lets plans placed grid raw wake total order cut mk comp outs words keep x d1
  have h1 : g.KeepsPlans d1 := h.setOutput
  exact h1.iff fun _ h => h.add.inc

theorem redReport (h : g.KeepsPlans d) {r : Red} : g.KeepsPlans (d.redReport r) := by
  unfold Dev.redReport
  exact ite h h.inc.w.raise

theorem redBoundary (h : g.KeepsPlans d) {slot : Nat} : g.KeepsPlans (d.redBoundary slot) :=
  each (h.same (by rfl) (by rfl)) fun _ _ h => h.redReport

theorem rxEnds (h : g.KeepsPlans d) {before : List Bool} {new : Nat} : g.KeepsPlans (d.rxEnds before new) :=
  h.each fun _ _ h => h.iff fun _ h => h.wx

/-! ### Bursts -/

theorem setBurst (h : g.KeepsPlans d) {q : Nat} {f : Burst → Burst} : g.KeepsPlans (d.setBurst q f) := h.setDl (by rfl) (by rfl)

theorem dpdAbandon (h : g.KeepsPlans d) {q : Nat} : g.KeepsPlans (d.dpdAbandon q) := by
  unfold Dev.dpdAbandon
  split
  · exact h
  · exact inc (h.same (by rfl) (by rfl))

theorem leaveOn (h : g.KeepsPlans d) {q : Nat} : g.KeepsPlans (d.leaveOn q) := ite (h.same (by rfl) (by rfl)) h

theorem coexUpdate (h : g.KeepsPlans d) : g.KeepsPlans d.coexUpdate := by
  have hpin {d : Dev} (h : g.KeepsPlans d) {x : Pin} {level : Bool} : g.KeepsPlans (d.pin x level) := h.same (by rfl) (by rfl)
  have hcoex {d : Dev} (h : g.KeepsPlans d) {x : Coex} : g.KeepsPlans { d with coex := x } := h.same (by rfl) (by rfl)
  exact hcoex (iff (iff h fun _ h => hpin h) fun _ h => hpin h)

theorem unrequest (h : g.KeepsPlans d) {q : Nat} : g.KeepsPlans (d.unrequest q) :=
  h.iff fun _ h => coexUpdate (each h.setBurst fun _ _ h => h.iff fun _ h => h.rfctl)

theorem txLeave (h : g.KeepsPlans d) {q : Nat} : g.KeepsPlans (d.txLeave q) := by
  unfold Dev.txLeave
  exact h.iff fun _ h => h.dropUnits

theorem endBurst (h : g.KeepsPlans d) {q slot cause : Nat} : g.KeepsPlans (d.endBurst q slot cause) := by
  unfold Dev.endBurst
  exact ite h (coexUpdate (refreshTx (raise (inc (setBurst h.dpdAbandon.leaveOn)))))

theorem burstEnd (h : g.KeepsPlans d) {q : Nat} : g.KeepsPlans (d.burstEnd q) := by
  unfold Dev.burstEnd
  exact ite h.setBurst.refreshTx.coexUpdate.txLeave (ite (txLeave (coexUpdate (refreshTx (setBurst h.dpdAbandon.leaveOn)))) h)

theorem burstBoundary (h : g.KeepsPlans d) {slot : Nat} : g.KeepsPlans (d.burstBoundary slot) :=
  h.each fun _ _ h => ite h (ite h.endBurst (ite h.setBurst (ite h.burstEnd (h.iff fun _ h => h.unrequest))))

theorem quadsLeave (h : g.KeepsPlans d) {new : Nat} : g.KeepsPlans (d.quadsLeave new) :=
  h.each fun _ _ h => h.iff fun _ h => h.txLeave

end Dev.KeepsPlans

end Sys2Proof.Machine
end

section
/-!
The slot boundary (R175, R176, R217, R281, R485): at the end of a slot the plans disabled since are discarded, at the start of the next
those of the slot come into force.
-/

namespace Sys2Proof.Machine

/-! ### Plans discarded -/

section
variable (d : Dev) (p q : Plan → Bool)

theorem Dev.ul_showQueued : d.showQueued.ul = d.ul := rfl
theorem Dev.dl_showQueued : d.showQueued.dl = d.dl := rfl
theorem Dev.ul_noteIdle : d.noteIdle.ul = d.ul := rfl
theorem Dev.dl_noteIdle : d.noteIdle.dl = d.dl := rfl

/-- Plans of one kind discarded leave those of the other. -/
theorem Dev.plans_discardPlans :
    (d.discardPlans p).ul.plans = d.ul.plans.filter (fun x => !p x) ∧ (d.discardPlans p).dl.plans = d.dl.plans := by
  unfold Dev.discardPlans
  rw [Dev.ul_noteIdle, Dev.ul_showQueued, Dev.add_ul, Dev.dl_noteIdle, Dev.dl_showQueued, Dev.add_dl]
  exact ⟨rfl, rfl⟩

theorem Dev.plans_discardDl :
    (d.discardDl q).ul.plans = d.ul.plans ∧ (d.discardDl q).dl.plans = d.dl.plans.filter (fun x => !q x) := by
  unfold Dev.discardDl
  rw [Dev.ul_noteIdle, Dev.add_ul, Dev.dl_noteIdle, Dev.add_dl]
  exact ⟨rfl, rfl⟩

/-- A test that selects nothing leaves the list. -/
theorem filter_not_of_none {l : List Plan} (h : l.any p = false) : l.filter (fun x => !p x) = l :=
  List.filter_eq_self.2 fun x hx => by simpa using List.any_eq_false.1 h x hx

/-- Queued plans of both kinds are discarded, where a test selects any. -/
def Dev.discardUl : Dev := d.iff (d.ul.plans.any p) (·.discardPlans p)
def Dev.discardBoth : Dev := (d.discardUl p).iff ((d.discardUl p).dl.plans.any q) (·.discardDl q)

theorem Dev.plans_discardUl :
    (d.discardUl p).ul.plans = d.ul.plans.filter (fun x => !p x) ∧ (d.discardUl p).dl.plans = d.dl.plans := by
  unfold Dev.discardUl
  cases hany : d.ul.plans.any p
  · rw [Dev.iff_false, filter_not_of_none p hany]
    exact ⟨rfl, rfl⟩
  · exact d.plans_discardPlans p

theorem Dev.plans_discardBoth : (d.discardBoth p q).ul.plans = d.ul.plans.filter (fun x => !p x) ∧
    (d.discardBoth p q).dl.plans = d.dl.plans.filter (fun x => !q x) := by
  obtain ⟨hul, hdl⟩ := d.plans_discardUl p
  rw [← hul, ← hdl]
  unfold Dev.discardBoth
  cases hany : (d.discardUl p).dl.plans.any q
  · rw [Dev.iff_false, filter_not_of_none q hany]
    exact ⟨rfl, rfl⟩
  · exact (d.discardUl p).plans_discardDl q

end

/-! ### The end of a slot -/

/-- The plans that the disables of a slot discard at its end (R217, R281, R485). -/
def Ul.gone (u : Ul) (p : Plan) : Bool :=
  u.trustOff || bit u.grpOff p.group || maskAnd 4 p.modes (if p.group = 0 then u.modeOffA else u.modeOffB) != 0
def Ul.goneDl (u : Ul) (p : Plan) : Bool := u.trustOff || bit u.dlOff p.group

/-- Between two devices the plans disabled since have left the queues. -/
def Dev.Disables (g d : Dev) : Prop :=
  d.ul.plans = g.ul.plans.filter (fun p => !g.ul.gone p) ∧ d.dl.plans = g.dl.plans.filter (fun p => !g.ul.goneDl p)

/-- The fields of `KeepsPlans` that matter at a slot's start and after it. -/
theorem Dev.KeepsPlans.fields {g d : Dev} (h : g.KeepsPlans d) : d.ul.slot = g.ul.slot ∧ d.ul.cur = g.ul.cur ∧ d.ul.plans = g.ul.plans ∧
    d.dl.cur = g.dl.cur ∧ d.dl.plans = g.dl.plans :=
  ⟨congrArg (·.1.slot) h, congrArg (·.1.cur) h, congrArg (·.1.plans) h, congrArg (·.2.2) h, congrArg (·.2.1) h⟩

theorem Dev.KeepsPlans.gone {g d : Dev} (h : g.KeepsPlans d) : d.ul.gone = g.ul.gone ∧ d.ul.goneDl = g.ul.goneDl :=
  ⟨congrArg (·.1.gone) h, congrArg (·.1.goneDl) h⟩

/-- No disable waits any more. -/
def Dev.disablesDone (d : Dev) : Dev :=
  { d with ul := { d.ul with grpOff := 0, modeOffA := 0, modeOffB := 0, trustOff := false, dlOff := 0 } }

theorem Dev.disablesAct_eq (d : Dev) : d.disablesAct =
    (d.discardBoth d.ul.gone d.ul.goneDl).disablesDone.iff (d.ul.grpOff != 0)
      (fun e => e.dropUnits (maskAnd 6 d.ul.grpOff (e.a P.pwrActiveMask))) := rfl

theorem Dev.disables_disablesAct (d : Dev) : d.Disables d.disablesAct := by
  rw [Dev.disablesAct_eq]
  have hkeep := (Dev.KeepsPlans.refl (d.discardBoth d.ul.gone d.ul.goneDl).disablesDone).iff (c := d.ul.grpOff != 0)
    (f := fun e => e.dropUnits (maskAnd 6 d.ul.grpOff (e.a P.pwrActiveMask))) fun _ h => h.dropUnits
  obtain ⟨-, -, hplans, -, hdl⟩ := hkeep.fields
  obtain ⟨hgone, hgoneDl⟩ := d.plans_discardBoth d.ul.gone d.ul.goneDl
  exact ⟨hplans.trans hgone, hdl.trans hgoneDl⟩

/-- The end of a slot discards what was disabled in it and nothing else of the queues. -/
theorem Dev.disables_slotEnd (d : Dev) (old new : Nat) (inp : SlotIn) : d.Disables (d.slotEnd old new inp).1 := by
  have hrefresh := (Dev.KeepsPlans.refl d).refreshAll (slot := old) (rs := inp.refresh)
  have hbefore := (hrefresh.holdAll (plans := (d.refreshAll old inp.refresh).ul.cur) (hs := inp.hold)).cleanFollow.holdOutputs.dlMissingReport
    (slot := old)
  unfold Dev.slotEnd
  dsimp only
  generalize ((d.refreshAll old inp.refresh).holdAll (d.refreshAll old inp.refresh).ul.cur inp.hold).1.cleanFollow.holdOutputs.dlMissingReport old
    = e at hbefore ⊢
  obtain ⟨-, -, hplans, -, hdl⟩ := hbefore.fields
  obtain ⟨hgone, hgoneDl⟩ := hbefore.gone
  obtain ⟨-, -, hplans', -, hdl'⟩ := ((Dev.KeepsPlans.refl e.disablesAct).wakeWindowEnd (old := old) (new := new)).fields
  obtain ⟨hact, hactDl⟩ := e.disables_disablesAct
  exact ⟨by rw [hplans', hact, hplans, hgone], by rw [hdl', hactDl, hdl, hgoneDl]⟩

/-! ### The start of a slot -/

/-- Plans queued for an earlier slot are discarded, those of the slot come into force, later ones stay. -/
theorem Dev.takePlans_fields (d : Dev) (n : Nat) : (d.takePlans n).ul.slot = some n ∧
    (d.takePlans n).ul.cur = d.ul.plans.filter (fun p => p.slot == n) ∧
    (d.takePlans n).ul.plans = d.ul.plans.filter (fun p => decide (n < p.slot)) ∧
    (d.takePlans n).dl.cur = d.dl.plans.filter (fun p => p.slot == n) := by
  obtain ⟨hul, hdl⟩ := d.plans_discardBoth (fun p => p.slot < n) (fun p => p.slot < n)
  have hcur (l : List Plan) : (l.filter (fun p => !decide (p.slot < n))).filter (fun p => p.slot == n) = l.filter (fun p => p.slot == n) := by
    rw [List.filter_filter]
    refine List.filter_congr fun p _ => ?_
    by_cases h : p.slot = n <;> simp [h]
  have hlater (l : List Plan) :
      (l.filter (fun p => !decide (p.slot < n))).filter (fun p => !(p.slot == n)) = l.filter (fun p => decide (n < p.slot)) := by
    rw [List.filter_filter]
    refine List.filter_congr fun p _ => ?_
    rw [Bool.eq_iff_iff]
    simp
    omega
  refine ⟨rfl, ?_, ?_, ?_⟩
  · rw [← hcur, ← hul]
    rfl
  · rw [← hlater, ← hul]
    rfl
  · rw [← hcur, ← hdl]
    rfl

/-- After the plans of a slot are taken its start leaves them in force. -/
theorem Dev.keepsPlans_slotStartEdge (d : Dev) (n : Nat) : (d.takePlans n).KeepsPlans (d.slotStartEdge n) := by
  have hpaths {g d : Dev} (h : g.KeepsPlans d) {v : Nat} : g.KeepsPlans { d with dl := { d.dl with pathEff := v } } := h.setDl (by rfl) (by rfl)
  unfold Dev.slotStartEdge
  extract_lets d1 x d2 d3 d4 d5 d6 d7
  have h1 : (d.takePlans n).KeepsPlans d1 := (Dev.KeepsPlans.refl _).rxBoundary
  have h2 : (d.takePlans n).KeepsPlans d2 := hpaths h1
  have h3 : (d.takePlans n).KeepsPlans d3 := h2.synthBoundary.each fun _ _ h => h.restep
  have h4 : (d.takePlans n).KeepsPlans d4 := h3.dpdBoundary
  have h5 : (d.takePlans n).KeepsPlans d5 := h4.each fun _ _ h => h.missesOf
  have h6 : (d.takePlans n).KeepsPlans d6 := h5.groupsLeave.redVoid.cleanFollow
  have h7 : (d.takePlans n).KeepsPlans d7 := h6.startOutput.burstBoundary
  exact h7.quadsLeave.showQueued.noteIdle

/-! ### The boundary -/

/-- What of the plans of `g` the device holds once slot `n` has begun. -/
def Dev.Turns (n : Nat) (g d : Dev) : Prop :=
  d.ul.slot = some n ∧ d.ul.cur = g.ul.plans.filter (fun p => p.slot == n && !g.ul.gone p) ∧
    d.ul.plans = g.ul.plans.filter (fun p => decide (n < p.slot) && !g.ul.gone p) ∧
    d.dl.cur = g.dl.plans.filter (fun p => p.slot == n && !g.ul.goneDl p)

/-- The slot starts on what the disables left. -/
theorem Dev.Disables.turns {g d : Dev} (h : g.Disables d) (n : Nat) (before : List Bool) :
    Dev.Turns n g (((d.slotStartEdge n).redBoundary n).rxEnds before n) := by
  obtain ⟨hul, hdl⟩ := h
  obtain ⟨hslot, hcur, hplans, hdlcur⟩ := d.takePlans_fields n
  obtain ⟨hslot', hcur', hplans', hdlcur', -⟩ := ((d.keepsPlans_slotStartEdge n).redBoundary (slot := n)).rxEnds
    (before := before) (new := n) |>.fields
  rw [hul, List.filter_filter] at hcur hplans
  rw [hdl, List.filter_filter] at hdlcur
  exact ⟨hslot'.trans hslot, hcur'.trans hcur, hplans'.trans hplans, hdlcur'.trans hdlcur⟩

/-- The first slot of a powered device: the disables act, then the slot starts. -/
theorem Dev.slotBoundary_first {d : Dev} (hup : d.up = true) (hold : d.ul.slot = none) (inp : SlotIn) :
    d.slotBoundary inp = (((d.disablesAct.slotStartEdge d.slotNow).redBoundary d.slotNow).rxEnds [] d.slotNow, []) := by
  simp only [Dev.slotBoundary, hup, hold]
  rfl

/-- A slot after another: the old one ends, then the new one starts. -/
theorem Dev.slotBoundary_next {d : Dev} {old : Nat} (hup : d.up = true) (hold : d.ul.slot = some old) (hne : old ≠ d.slotNow) (inp : SlotIn) :
    d.slotBoundary inp = ((((d.slotEnd old d.slotNow inp).1.slotStartEdge d.slotNow).redBoundary d.slotNow).rxEnds
      ((List.range 8).map (fun i => d.rxRuns (i / 4) (i % 4) old)) d.slotNow, (d.slotEnd old d.slotNow inp).2) := by
  have hgo : (!d.up || some old == some d.slotNow) = false := by simp [hup, hne]
  simp only [Dev.slotBoundary, hold, hgo, Bool.false_eq_true, if_false]

theorem Dev.turns_slotBoundary {d : Dev} (hup : d.up = true) (hslot : d.ul.slot ≠ some d.slotNow) (inp : SlotIn) :
    Dev.Turns d.slotNow d (d.slotBoundary inp).1 ∧ (d.ul.slot = none → (d.slotBoundary inp).2 = []) := by
  cases hold : d.ul.slot with
  | none =>
    rw [Dev.slotBoundary_first hup hold]
    dsimp only
    exact ⟨d.disables_disablesAct.turns _ _, fun _ => rfl⟩
  | some old =>
    rw [Dev.slotBoundary_next hup hold fun h => hslot (hold.trans (congrArg some h))]
    dsimp only
    exact ⟨(d.disables_slotEnd old d.slotNow inp).turns _ _, nofun⟩

theorem claim_slotBoundary : Claims.slotBoundary := by
  intro s dt inp n u gone goneDl hup hslot
  have hul : (s.at_ dt).ul = u := s.arrive_ul dt
  have hdl : (s.at_ dt).dl = s.dev.dl := s.arrive_dl dt
  rw [← hul] at hslot
  obtain ⟨⟨hnew, hcur, hplans, hdlcur⟩, hmem⟩ := Dev.turns_slotBoundary hup hslot inp
  rw [hul] at hcur hplans hdlcur hmem
  rw [hdl] at hdlcur
  rw [does_onMem (f := fun d _ => d.slotBoundary inp) rfl, State.leave_ul, State.leave_dl, State.leave_mem]
  refine ⟨fun hnone => ?_, hnew, hcur, hplans, hdlcur⟩
  rw [hmem hnone]
  rfl

/-- Settles O26: of all that the end and the start of a slot do only the disables that waited and the taking of the slot's plans touch what
the device holds of plans. -/
theorem slotsTurn : Obligations.SlotsTurn := claim_slotBoundary

end Sys2Proof.Machine
end

section
/-!
The detector's choice (R226 to R228): what it means that a sequence correlates, and what `Dev.detects` reports in modes 0 and 1.
-/

namespace Sys2Proof.Machine

variable {d : Dev} {ms : List (Nat × Nat)} {back hi k m : Nat}

theorem Dev.correlates_iff {i num den : Nat} : d.correlates hi i (num, den) = true ↔
    d.ab P.sentinelSeqEnable i = true ∧ 0 < den ∧ num ≤ den ∧ d.a P.sentinelDetectLevel * den ≤ 1024 * num ∧
      d.metricForms i hi = true := by
  simp only [Dev.correlates, Bool.and_eq_true, bne_iff_ne, ne_eq, decide_eq_true_eq, Nat.pos_iff_ne_zero, and_assoc]

theorem rnear_nonneg (n b : Nat) : 0 ≤ rnear n b := Int.fdiv_nonneg (by omega) (by omega)

/-- In modes 0 and 1 a report is of the first sequence that correlates, at band output t, with its metric rounded. -/
theorem Dev.detects_correlation (hmode : d.a P.sentinelTriggerMode < 2) (h : d.detects ms back = some (hi, k, m)) :
    hi = d.sentinelT back ∧ (d.a P.sentinelTriggerMode = 1 → d.a P.sentinelGateCount ≤ d.aboveCount) ∧
      ∃ num den, (ms.zip (List.range 4)).find? (fun x => d.correlates hi x.2 x.1) = some ((num, den), k) ∧
        (m : Int) = rnear (1023 * num : Nat) den := by
  have hne : d.a P.sentinelTriggerMode ≠ 2 := hmode.ne
  simp only [Dev.detects, if_neg hne] at h
  split at h
  · exact absurd h nofun
  · split at h
    · exact absurd h nofun
    · next hgate =>
      obtain ⟨⟨⟨num, den⟩, i⟩, hfind, heq⟩ := Option.map_eq_some_iff.mp h
      obtain ⟨rfl, rfl, rfl⟩ := by simpa only [Prod.mk.injEq] using heq
      exact ⟨rfl, fun hone => not_lt.mp fun hlt => hgate ⟨hone, hlt⟩, num, den, hfind, Int.toNat_of_nonneg (rnear_nonneg _ _)⟩

/-- The first of the sequences that passes a test stands at its own number, and none before it passes. -/
theorem find_zip_range {p : (Nat × Nat) × Nat → Bool} {x : Nat × Nat} (h : (ms.zip (List.range 4)).find? p = some (x, k)) :
    k < 4 ∧ ms[k]? = some x ∧ p (x, k) = true ∧ ∀ i y, i < k → ms[i]? = some y → p (y, i) = false := by
  obtain ⟨hp, i, hi, hx, hbefore⟩ := List.find?_eq_some_iff_getElem.mp h
  obtain ⟨hms, hfour⟩ : i < ms.length ∧ i < 4 := by simpa using hi
  obtain ⟨rfl, rfl⟩ : ms[i] = x ∧ i = k := by simpa using hx
  refine ⟨hfour, List.getElem?_eq_getElem hms, hp, fun j y hj hy => ?_⟩
  obtain ⟨hlen, rfl⟩ := List.getElem?_eq_some_iff.mp hy
  simpa using hbefore j hj

theorem claim_detectionRule : Claims.detectionRule := by
  intro d ms back hi k m hmode h meets
  obtain ⟨hhi, hgate, num, den, hfind, hm⟩ := Dev.detects_correlation hmode h
  obtain ⟨hk, hms, hcorr, hlower⟩ := find_zip_range hfind
  refine ⟨hhi, hk, ⟨num, den, hms, Dev.correlates_iff.mp hcorr⟩, fun i hik hmeets => ?_, fun num' den' hms' => ?_, hgate⟩
  · obtain ⟨n, e, hi', hmeet⟩ := hmeets
    exact Bool.false_ne_true ((hlower i (n, e) hik hi').symm.trans (Dev.correlates_iff.mpr hmeet))
  · obtain ⟨rfl, rfl⟩ : num = num' ∧ den = den' := by simpa using hms.symm.trans hms'
    exact hm

end Sys2Proof.Machine
end

section
/-!
What a detection does, part by part (R229, R230, R234, R238, R245): it is recorded, and then it wakes group A, is latched for a wake, or
moves the end of an open wake window.
-/

namespace Sys2Proof.Machine

variable {d : Dev} {hi k m : Nat}

/-! ### The record of a detection -/

/-- The Meridian ps of t_r of a detection at band output t (R228). -/
def Dev.detectedPs (d : Dev) (hi : Nat) : Nat := d.merPs - (d.now - (hi - d.latched.bandDelay 0))

/-- The argument of EV41 (R230). -/
def Dev.ev41Arg (d : Dev) (k m : Nat) (wakes : Bool) : Nat :=
  k + 4 * b2n (d.a P.sentinelTriggerMode == 2) + 8 * b2n (!wakes) + 16 * m

section
variable (x : Sen)

theorem Dev.a_setSen (j : Nat) : ({ d with sen := x } : Dev).a j = d.a j := rfl

theorem Dev.timeAtPs_setSen (ps : Nat) : ({ d with sen := x } : Dev).timeAtPs ps = d.timeAtPs ps := rfl

theorem Dev.Moves.setSen {keys : List Nat} {g : Dev} (h : g.Moves keys (fun d => { d with sen := {} }) d) :
    g.Moves keys (fun d => { d with sen := {} }) { d with sen := x } := h.same rfl rfl rfl

end

/-- The elapsed ps at which the hold-off of a detection declared now ends (R229). -/
def Dev.holdoffEnd (d : Dev) : Nat := d.now + d.a P.sentinelHoldoff * 10 ^ 6

/-- The hold-off begins (R229). -/
def Dev.beginHoldoff (d : Dev) : Dev := { d with sen := { d.sen with holdTill := d.holdoffEnd, rose := none } }

/-- A detection counted, recorded and reported, its hold-off begun (R229, R230). -/
def Dev.recordDetection (d : Dev) (hi k m : Nat) (wakes : Bool) : Dev :=
  (((d.beginHoldoff.inc P.sentinelDetectCount).w P.sentinelLastDetect (d.beginHoldoff.timeAtPs (d.detectedPs hi))).w
    P.sentinelLastMetric m).raise 41 (d.ev41Arg k m wakes)

/-- The parameters that recording a detection writes. -/
def detectKeys : List Nat := [P.sentinelDetectCount, P.sentinelLastDetect, P.sentinelLastMetric]

section
variable (wakes : Bool)

theorem Dev.now_recordDetection : (d.recordDetection hi k m wakes).now = d.now := by
  rw [Dev.recordDetection, Dev.now, Dev.raise_clk, Dev.w_clk, Dev.w_clk, Dev.inc_clk]
  rfl

theorem Dev.sen_recordDetection : (d.recordDetection hi k m wakes).sen = { d.sen with holdTill := d.holdoffEnd, rose := none } := by
  rw [Dev.recordDetection, Dev.raise_sen, Dev.w_sen, Dev.w_sen, Dev.inc_sen]
  rfl

theorem Dev.moves_recordDetection :
    d.Moves detectKeys (fun d => { d with sen := {} }) (d.recordDetection hi k m wakes) := by
  have hheld : d.Moves detectKeys (fun d => { d with sen := {} }) d.beginHoldoff := (Dev.Moves.refl _ _ d).setSen _
  exact (((hheld.inc (by decide)).w (by decide) _).w (by decide) _).raise (by decide) _

theorem Dev.counts_recordDetection : d.Counts P.sentinelDetectCount 1 (d.recordDetection hi k m wakes) := by
  refine Dev.Counts.keep (Dev.counts_inc (d := d.beginHoldoff) (Dev.a_setSen _ _)) ?_
  rw [Dev.recordDetection, Dev.a_raise _ _ (by decide) (by decide), Dev.a_w_ne _ _ (by decide), Dev.a_w_ne _ _ (by decide)]

theorem Dev.lastMetric_recordDetection : (d.recordDetection hi k m wakes).a P.sentinelLastMetric = m := by
  rw [Dev.recordDetection, Dev.a_raise _ _ (by decide) (by decide), Dev.a_w_self]

theorem Dev.lastDetect_recordDetection :
    (d.recordDetection hi k m wakes).a P.sentinelLastDetect = d.timeAtPs (d.detectedPs hi) := by
  rw [Dev.recordDetection, Dev.a_raise _ _ (by decide) (by decide), Dev.a_w_ne _ _ (by decide), Dev.a_w_self]
  exact Dev.timeAtPs_setSen _ _

theorem Dev.raised_recordDetection : Raised (d.recordDetection hi k m wakes) 41 (d.ev41Arg k m wakes) := Dev.raised_raise _ _ _

end

/-! ### What follows the record -/

/-- A transition to DEEP has begun (R245). -/
def Dev.goingDeep (d : Dev) : Bool := d.goingDown && d.downTo == 0

/-- Whether a detection wakes group A, at once or when the transition to DEEP has ended (R234, R238, R245). -/
def Dev.detectionWakes (d : Dev) : Bool :=
  (d.ab P.wakeSourceMask 1 && d.pw == 1 && d.sen.win.isNone && !d.sen.wakeAt.isSome && d.mayWake) && (d.goingDeep || !d.goingDown)

/-- An open wake window ends no earlier than SentinelWakeSlots slots after a slot (R238). -/
def Dev.extendWindow (d : Dev) (slot : Nat) : Dev :=
  match d.sen.win with
  | some (a, b) => { d with sen := { d.sen with win := some (a, max b (slot + d.a P.sentinelWakeSlots)) } }
  | none => d

/-- What a detection does: its record, then the wake, the latch or the longer window. -/
theorem Dev.detection_eq : d.detection hi k m =
    if d.detectionWakes then
      if d.goingDeep then (d.recordDetection hi k m d.detectionWakes).sentinelLatch
      else (d.recordDetection hi k m d.detectionWakes).sentinelWake (hi - d.latched.bandDelay 0)
    else (d.recordDetection hi k m d.detectionWakes).extendWindow
      ((d.recordDetection hi k m d.detectionWakes).slotOfPs (d.detectedPs hi)) := rfl

theorem Dev.moves_extendWindow (slot : Nat) : d.Moves [] (fun d => { d with sen := {} }) (d.extendWindow slot) := by
  unfold Dev.extendWindow
  split
  · exact (Dev.Moves.refl _ _ d).setSen _
  · exact Dev.Moves.refl _ _ d

theorem Dev.holdTill_extendWindow (slot : Nat) : (d.extendWindow slot).sen.holdTill = d.sen.holdTill := by
  unfold Dev.extendWindow
  split
  · rfl
  · rfl

theorem Dev.Moves.historyMissing {keys : List Nat} {part : Dev → Dev} {g : Dev} (h : g.Moves keys part d) (us : Nat) :
    g.Moves keys part (d.historyMissing us) := h.iff fun _ h => h.raise (by decide) _

theorem Dev.sen_historyMissing (us : Nat) : (d.historyMissing us).sen = d.sen := by
  unfold Dev.historyMissing Dev.iff
  split
  · exact Dev.raise_sen _ _ _
  · rfl

theorem Dev.holdTill_sentinelLatch : d.sentinelLatch.sen.holdTill = d.sen.holdTill := by
  rw [Dev.sentinelLatch, Dev.sen_historyMissing, Dev.inc_sen]

theorem Dev.Moves.each {keys : List Nat} {part : Dev → Dev} {g : Dev} {α : Type} {l : List α} {f : α → Dev → Dev}
    (h : g.Moves keys part d) (hf : ∀ x ∈ l, ∀ d, g.Moves keys part d → g.Moves keys part (f x d)) : g.Moves keys part (d.each l f) :=
  List.foldlRecOn (motive := g.Moves keys part) l _ h fun d h x hx => hf x hx d h

/-! ### Carrier group A is brought up (R55, R234, R287) -/

/-- The device without its power state and its synthesisers, which bringing carrier group A up moves. -/
def Dev.offPower (d : Dev) : Dev := { d with pwr := {}, syn := {} }

/-- The parameters it moves: a synthesiser that must lock begins to calibrate (R287). -/
def calKeys : List Nat := P.synthFailedMask :: span P.synthState 12

theorem mem_calKeys {i : Nat} (hi : i < 12) : P.synthState + i ∈ calKeys := by
  simp [calKeys, span, hi]

section
variable {g : Dev}

theorem Dev.Moves.setPwr (h : g.Moves calKeys Dev.offPower d) (x : Pwr) : g.Moves calKeys Dev.offPower { d with pwr := x } :=
  h.same rfl rfl rfl

theorem Dev.Moves.setSyn (h : g.Moves calKeys Dev.offPower d) (x : Syn) : g.Moves calKeys Dev.offPower { d with syn := x } :=
  h.same rfl rfl rfl

theorem Dev.Moves.synthOpen (h : g.Moves calKeys Dev.offPower d) (i : Nat) : g.Moves calKeys Dev.offPower (d.synthOpen i) := by
  unfold Dev.synthOpen
  split
  · exact h.setSyn _
  · exact h

theorem Dev.Moves.synthsCal (h : g.Moves calKeys Dev.offPower d) (mask : Nat) : g.Moves calKeys Dev.offPower (d.synthsCal mask) := by
  refine h.each fun i hi d h => ?_
  have htry : g.Moves calKeys Dev.offPower ((d.synthOpen i).synthTry i) :=
    ((h.synthOpen i).w (Or.inl (mem_calKeys (lt_of_mem_bitList hi))) 1).setSyn _
  exact (htry.w (by decide) _).setSyn _

theorem Dev.Moves.goUp (h : g.Moves calKeys Dev.offPower d) (target cause : Nat) :
    g.Moves calKeys Dev.offPower (d.goUp target cause) := by
  unfold Dev.goUp
  split
  · exact h.setPwr _
  · split
    · exact h
    · split
      · exact h.setPwr _
      · exact (h.setPwr _).synthsCal _

/-- Unit 0 is carrier group A, which has no warm models to load. -/
theorem Dev.Moves.startGroupA (h : g.Moves calKeys Dev.offPower d) : g.Moves calKeys Dev.offPower (d.startUnit 0) :=
  (h.setPwr _).iff fun _ h => h.synthsCal _

theorem Dev.Moves.bringGroupA (h : g.Moves calKeys Dev.offPower d) : g.Moves calKeys Dev.offPower (d.bringUnits 1) := by
  have hunit : d.bringUnits 1 = (d.bringUnit 0).noteIdle := rfl
  rw [hunit]
  refine Dev.Moves.setPwr ?_ _
  unfold Dev.bringUnit
  split
  · exact h
  · split
    · exact h.startGroupA
    · exact (h.setPwr _).goUp _ _

end

/-! ### The wake by a detection -/

/-- The parameters a wake by a detection moves. -/
def wakeKeys : List Nat := P.sentinelWakeCount :: P.wakeLastSource :: calKeys

/-- The device without the sentinel's state and what bringing carrier group A up moves. -/
def Dev.offWake (d : Dev) : Dev := { d.offPower with sen := {} }

/-- A wake is noted with the replay it offers, counted, perhaps reported for history that is missing, and served. -/
theorem Dev.sentinelWake_shape (d : Dev) (tr : Nat) : ∃ (x : Sen) (y : Pwr) (c : Bool) (us : Nat), x.wakeAt = some d.now ∧
    x.holdTill = d.sen.holdTill ∧ d.sentinelWake tr =
      (((({ d with sen := x, pwr := y } : Dev).inc P.sentinelWakeCount).iff c (·.historyMissing us)).w P.wakeLastSource 1).bringUnits 1 := by
  -- opened as a function: at `tr` the kernel would go on to compute the replay's span
  generalize h : Dev.sentinelWake = wake
  delta Dev.sentinelWake at h
  subst h
  beta_reduce
  generalize d.replaySpan tr = found
  obtain ⟨start, missing⟩ := found
  refine ⟨_, _, _, missing, ?_, ?_, rfl⟩
  · rfl
  · rfl

theorem Dev.sen_iff_historyMissing (c : Bool) (us : Nat) : (d.iff c (·.historyMissing us)).sen = d.sen := by
  cases c
  · rfl
  · exact Dev.sen_historyMissing us

theorem Dev.moves_bringGroupA (d : Dev) : d.Moves calKeys Dev.offPower (d.bringUnits 1) := (Dev.Moves.refl _ _ d).bringGroupA

theorem Dev.sen_bringGroupA (d : Dev) : (d.bringUnits 1).sen = d.sen := by
  obtain ⟨-, -, hbare⟩ := d.moves_bringGroupA
  have hsen := congrArg Dev.sen hbare
  exact hsen

theorem Dev.sen_sentinelWake (tr : Nat) :
    (d.sentinelWake tr).sen.wakeAt = some d.now ∧ (d.sentinelWake tr).sen.holdTill = d.sen.holdTill := by
  obtain ⟨x, y, c, us, hwake, hhold, heq⟩ := d.sentinelWake_shape tr
  rw [heq, Dev.sen_bringGroupA, Dev.w_sen, Dev.sen_iff_historyMissing, Dev.inc_sen]
  exact ⟨hwake, hhold⟩

theorem Dev.moves_sentinelWake (tr : Nat) : d.Moves wakeKeys Dev.offWake (d.sentinelWake tr) := by
  obtain ⟨x, y, c, us, -, -, heq⟩ := d.sentinelWake_shape tr
  have hnoted : d.Moves wakeKeys Dev.offWake { d with sen := x, pwr := y } := (Dev.Moves.refl _ _ d).same rfl rfl rfl
  have hcounted := ((hnoted.inc (k := P.sentinelWakeCount) (by decide)).iff (c := c) fun _ h => h.historyMissing us).w
    (k := P.wakeLastSource) (by decide) 1
  rw [heq]
  exact hcounted.trans ((Dev.moves_bringGroupA _).mono (fun k hk => List.mem_cons_of_mem _ (List.mem_cons_of_mem _ hk))
    fun _ _ h => congrArg (fun e : Dev => { e with sen := {} }) h)

theorem Dev.wakeLastSource_sentinelWake (tr : Nat) : (d.sentinelWake tr).a P.wakeLastSource = 1 := by
  obtain ⟨x, y, c, us, -, -, heq⟩ := d.sentinelWake_shape tr
  rw [heq, (Dev.moves_bringGroupA _).a_eq (by decide) (by decide), Dev.a_w_self]

theorem Dev.counts_sentinelWake (tr : Nat) : d.Counts P.sentinelWakeCount 1 (d.sentinelWake tr) := by
  obtain ⟨x, y, c, us, -, -, heq⟩ := d.sentinelWake_shape tr
  have hcounted : d.Counts P.sentinelWakeCount 1 (({ d with sen := x, pwr := y } : Dev).inc P.sentinelWakeCount) := Dev.counts_inc rfl
  have hreport (e : Dev) : e.Moves [] id (e.iff c (·.historyMissing us)) := (Dev.Moves.refl _ _ e).iff fun _ h => h.historyMissing us
  rw [heq]
  refine hcounted.keep ?_
  rw [(Dev.moves_bringGroupA _).a_eq (by decide) (by decide), Dev.a_w_ne _ _ (by decide), (hreport _).a_eq (by decide) (by decide)]

/-! ### Declared or not -/

theorem Dev.sentinelDetection_of_held {ms : List (Nat × Nat)} {back : Nat} (h : d.now < d.sen.holdTill) :
    d.sentinelDetection ms back = d := by
  simp [Dev.sentinelDetection, h]

/-- Chains that run and no hold-off: what the detector reports is declared. -/
theorem Dev.sentinelDetection_of_detects {ms : List (Nat × Nat)} {back : Nat} (hup : d.up = true) (hstart : d.sen.startAt.isSome = true)
    (hhold : d.sen.holdTill ≤ d.now) (hdet : d.detects ms back = some (hi, k, m)) :
    d.sentinelDetection ms back = d.detection hi k m := by
  have hgo : (!d.up || d.sen.startAt.isNone || decide (d.now < d.sen.holdTill)) = false := by
    simpa [hup, hhold] using hstart
  simp only [Dev.sentinelDetection, hgo, hdet, Bool.false_eq_true, if_false]

theorem Dev.holdTill_detection : (d.detection hi k m).sen.holdTill = d.holdoffEnd := by
  have hrecord (wakes : Bool) : (d.recordDetection hi k m wakes).sen.holdTill = d.holdoffEnd := by rw [Dev.sen_recordDetection]
  rw [Dev.detection_eq]
  split
  · split
    · rw [Dev.holdTill_sentinelLatch, hrecord]
    · obtain ⟨-, hhold⟩ := (d.recordDetection hi k m d.detectionWakes).sen_sentinelWake (hi - d.latched.bandDelay 0)
      rw [hhold, hrecord]
  · rw [Dev.holdTill_extendWindow, hrecord]

/-- With the sentinel's wake source off a detection wakes nothing. -/
theorem Dev.detectionWakes_of_source_off (h : bit (d.a P.wakeSourceMask) 1 = false) : d.detectionWakes = false := by
  simp [Dev.detectionWakes, Dev.ab, h]

/-- In WATCH, with no window open, no wake begun and no transition in progress, a detection of an enabled source wakes. -/
theorem Dev.detectionWakes_of_watch (hsource : bit (d.a P.wakeSourceMask) 1 = true) (hpw : d.a P.pwrState = 1) (hwin : d.sen.win = none)
    (hwake : d.sen.wakeAt = none) (hmay : d.mayWake = true) (hjobs : d.pwr.jobs = []) : d.detectionWakes = true := by
  simp [Dev.detectionWakes, Dev.ab, Dev.pw, Dev.goingDown, hsource, hpw, hwin, hwake, hmay, hjobs]

end Sys2Proof.Machine
end

section
/-! The obligations on the sentinel's detections (R225 to R230, R234). -/

namespace Sys2Proof.Machine

/-- The end of the hold-off as the state before shows it. -/
theorem State.holdoffEnd_at (s : State) (dt : Nat) : (s.at_ dt).holdoffEnd = (s.at_ dt).now + s.a P.sentinelHoldoff * 10 ^ 6 := by
  rw [Dev.holdoffEnd, s.a_at dt (by decide)]

theorem State.sen_at (s : State) (dt : Nat) : (s.at_ dt).sen = s.dev.sen := s.arrive_sen dt

/-- A detection that is declared, on the device as it stands. -/
theorem State.declares {s : State} {dt back hi k m : Nat} {ms : List (Nat × Nat)} (hup : (s.at_ dt).up = true)
    (hstart : s.dev.sen.startAt.isSome = true) (hhold : s.dev.sen.holdTill ≤ (s.at_ dt).now)
    (hdet : (s.at_ dt).detects ms back = some (hi, k, m)) :
    (s.at_ dt).sentinelDetection ms back = (s.at_ dt).detection hi k m := by
  rw [← s.sen_at dt] at hstart hhold
  exact Dev.sentinelDetection_of_detects hup hstart hhold hdet

theorem claim_holdoff : Claims.holdoff := by
  intro s dt back sq num den d ms
  rw [doesDev_onDev (f := (·.sentinelDetection ms back)) rfl]
  refine ⟨fun hlt => ?_, fun hup hstart hhold hdet => ?_⟩
  · rw [← s.sen_at dt] at hlt
    rw [Dev.sentinelDetection_of_held hlt]
    exact ⟨(State.leave_sen _ _ _).trans (s.sen_at dt), fun k hk => (State.leave_a _ _ _ hk).trans (s.a_at dt hk)⟩
  · obtain ⟨⟨hi, k, m⟩, hdet⟩ := Option.isSome_iff_exists.mp hdet
    rw [State.declares hup hstart hhold hdet, State.leave_sen, Dev.holdTill_detection, State.holdoffEnd_at]

/-- Settles O10: before its end the hold-off stops a detection at its first test, and the end set by a declaration stands through the wake,
the latch or the longer window that follows. -/
theorem holdoffSilencesDetections : Obligations.HoldoffSilencesDetections := claim_holdoff

theorem claim_sentinelDetection : Claims.sentinelDetection := by
  intro s dt back hi k m sq num den d ms hup hstart hhold hdet hsource
  have hwakes : d.detectionWakes = false := Dev.detectionWakes_of_source_off (by rwa [s.a_at dt (by decide)])
  have hdone : d.sentinelDetection ms back =
      (d.recordDetection hi k m false).extendWindow ((d.recordDetection hi k m false).slotOfPs (d.detectedPs hi)) := by
    rw [State.declares hup hstart hhold hdet, Dev.detection_eq, hwakes, if_neg Bool.false_ne_true]
  have hextend := (d.recordDetection hi k m false).moves_extendWindow ((d.recordDetection hi k m false).slotOfPs (d.detectedPs hi))
  have hmoves := (Dev.moves_recordDetection false).trans (hextend.mono nofun fun _ _ h => h)
  have harg : d.ev41Arg k m false = k + 4 * b2n (s.a P.sentinelTriggerMode == 2) + 8 + 16 * m := by
    rw [Dev.ev41Arg, s.a_at dt (by decide)]
    rfl
  refine acts_onDev_of_moves (f := (·.sentinelDetection ms back)) rfl (by rw [hdone]; exact hmoves) ?_
  rw [hdone]
  refine ⟨State.counted_of_counts (by decide) ((Dev.counts_recordDetection false).keep (hextend.a_eq (by decide) nofun)) _, ?_, ?_, ?_, ?_⟩
  · rw [State.a, State.leave_a _ _ _ (by decide), hextend.a_eq (by decide) nofun, Dev.lastMetric_recordDetection]
  · rw [State.a, State.leave_a _ _ _ (by decide), hextend.a_eq (by decide) nofun, Dev.lastDetect_recordDetection]
    rfl
  · rw [State.leave_sen, Dev.holdTill_extendWindow, Dev.sen_recordDetection]
    exact s.holdoffEnd_at dt
  · rw [State.leave_raised, ← harg]
    exact hextend.raised (Dev.raised_recordDetection false)

theorem claim_sentinelWakes : Claims.sentinelWakes := by
  intro s dt back sq num den d ms hup hstart hhold hdet hsource hpw hwin hwake hmay hjobs
  obtain ⟨⟨hi, k, m⟩, hdet⟩ := Option.isSome_iff_exists.mp hdet
  have hjobs' : d.pwr.jobs = [] := (congrArg Pwr.jobs (s.arrive_pwr dt)).trans hjobs
  have hwakes : d.detectionWakes = true := by
    refine Dev.detectionWakes_of_watch ?_ ?_ ?_ ?_ hmay hjobs'
    · rwa [s.a_at dt (by decide)]
    · rwa [s.a_at dt (by decide)]
    · rwa [s.sen_at dt]
    · rwa [s.sen_at dt]
  have hdeep : d.goingDeep = false := by simp [Dev.goingDeep, Dev.goingDown, hjobs']
  have hdone : d.sentinelDetection ms back = (d.recordDetection hi k m true).sentinelWake (hi - d.latched.bandDelay 0) := by
    rw [State.declares hup hstart hhold hdet, Dev.detection_eq, hwakes, hdeep, if_pos rfl, if_neg Bool.false_ne_true]
  generalize hi - d.latched.bandDelay 0 = tr at hdone
  obtain ⟨hat, -⟩ := (d.recordDetection hi k m true).sen_sentinelWake tr
  have hrecord := Dev.moves_recordDetection (d := d) (hi := hi) (k := k) (m := m) true
  have hserved := (d.recordDetection hi k m true).moves_sentinelWake tr
  have hcount : d.Counts P.sentinelWakeCount 1 ((d.recordDetection hi k m true).sentinelWake tr) := fun hlt => by
    have hbefore := hrecord.a_eq (k := P.sentinelWakeCount) (by decide) (by decide)
    rw [Dev.counts_sentinelWake tr (by rwa [hbefore]), hbefore]
  rw [doesDev_onDev (f := (·.sentinelDetection ms back)) rfl, hdone]
  refine ⟨?_, ?_, State.counted_of_counts (by decide) hcount _, State.counted_of_counts (by decide)
    ((Dev.counts_recordDetection true).keep (hserved.a_eq (by decide) (by decide))) _⟩
  · rw [State.leave_sen, hat, Dev.now_recordDetection]
  · rw [State.a, State.leave_a _ _ _ (by decide), Dev.wakeLastSource_sentinelWake]

theorem claim_sentinelHoldoffEnd : Claims.sentinelHoldoffEnd := by
  intro s dt h
  have hend : (s.at_ dt).iff ((s.at_ dt).sen.holdTill ≤ (s.at_ dt).now) (fun d => { d with sen := { d.sen with holdTill := 0 } }) =
      { s.at_ dt with sen := { s.dev.sen with holdTill := 0 } } := by
    rw [s.sen_at dt, decide_eq_true h, Dev.iff_true, s.sen_at dt]
  refine acts_onDev_of_moves (f := fun d => d.iff (d.sen.holdTill ≤ d.now) (fun d => { d with sen := { d.sen with holdTill := 0 } })) rfl
    ?_ ?_
  · rw [hend]
    exact (Dev.Moves.refl _ _ _).setSen _
  · rw [hend, State.leave_sen]

/-- Settles O28, clause by clause: the record of a detection is followed by the wake, the latch or the longer window alone, and none of
these takes back what the record has written; the detector reports the first sequence that correlates. -/
theorem sentinelDeclares : Obligations.SentinelDeclares :=
  ⟨claim_sentinelDetection, claim_detectionRule, claim_sentinelWakes, claim_sentinelHoldoffEnd⟩

end Sys2Proof.Machine
end

section
/-!
The statements on downlink data and on bursts fail, each on one state, written out: numbers no device holds, which the clauses leave open.
A bank in force far beyond the table of filter lengths takes its length from another parameter, and a path enabled beyond the last one
belongs to a quadrant beyond the last one.
-/

namespace Sys2Proof.Machine

/-- DL_DATA as it comes: past Riptide, then past the receive checks. -/
def Dev.dlDataHeard (d : Dev) (h : Hdr) (body : List Byte) : Dev :=
  match d.ripRx (Instr.dlData 0) h tDlData body with
  | (d, none) => d
  | (d, some (h, b)) => d.dlDataIn h b

theorem exec_dlData (dt : Nat) (h : Hdr) (body : List Byte) (s : State) :
    exec (.dlData dt h body) s = onDev dt (·.dlDataHeard h body) s := rfl

/-- A DL_PLAN of group A for slot 0 (R257) that places one bin. -/
def oneBinPlan : Plan :=
  { slot := 0, group := 0, compact := false, items := [], places := [{ cat := 0, first := 0, count := 1, layer := 0, refresh := false }] }

/-- READY in slot 0, at the consumption instant of instant 4 of that plan, and a bank in force whose entry of FirLengthA is
MlPartnerState; the Mainland may send on VC3. -/
def strayBank : State :=
  { dev := {
      clk := { ps := 112587500 }
      alm := [(P.pwrState, 2), (P.firBankActiveA, P.mlPartnerState - P.firLengthA), (P.mlLinkWidth, 1), (P.mainlandTrust, 1)]
      pwr := { phase := .running, base := 2 }
      port := [{ ch := [{}, {}, {}, { limitSent := 1 }] }, {}, {}, {}, {}]
      dl := { plans := [oneBinPlan] } } }

/-- A DL_DATA message from the Mainland (R265): slot 0, group A, instant 4, offset 0, one native word of 0. -/
def oneWordHdr : Hdr := { port := 0, vc := 3, resp := false, island := 0xFE, seq := 0, crcOk := true }
def oneWordBody : List Byte := zeros 10 ++ [4#8] ++ zeros 5 ++ [1#8] ++ zeros 20

/-- Refutes O29: DL_DATA taken from the Mainland shows its partner as up (`Dev.rxBase` sets MlPartnerState to 2) before its words are timed.
Where the length of the bank in force is that parameter the group delay grows by 5 ns with it, so the word that came at its instant, as
the clause `dlData` times it, is late by 5 ns when it is judged, and is discarded. A premise that the bank in force is one of
the four of FirLengthA is missing. -/
theorem not_downlinkDataFlows : ¬ Obligations.DownlinkDataFlows := by
  unfold Obligations.DownlinkDataFlows
  rintro ⟨hdata, -⟩
  have hdoes := hdata strayBank 0 oneWordHdr oneWordBody (by decide +kernel) (by decide +kernel) (by decide +kernel)
  rw [doesDev_onDev (exec_dlData ..)] at hdoes
  obtain ⟨-, htaken⟩ := hdoes
  have hplan : ((strayBank.at_ 0).slotPlans true 0 0).head? = some oneBinPlan := by decide +kernel
  have hinstant : (strayBank.at_ 0).consumeAt 0 0 4 = some 112587500 := by decide +kernel
  have hwords : dlWords (dlDataReq oneWordBody) oneBinPlan.block = some [0] := by decide +kernel
  obtain ⟨hdl, -⟩ := htaken _ hplan _ hinstant _ hwords (by decide +kernel) (by decide +kernel) (by decide +kernel)
    (by decide +kernel) (by decide +kernel)
  exact absurd (congrArg Dl.got hdl) (by decide +kernel)

/-- The plan for slot 0 with the mask of enabled paths at path 64 alone, one beyond the last. -/
def pathBeyond : State := { dev := { dl := { pathEff := 2 ^ 64, plans := [oneBinPlan] } } }

/-- Refutes O30: path 64 makes quadrant 4 one that transmits in slot 0, so `txRequestInstant` has a burst requested of it, but the device
has no record of a fifth quadrant's burst to request it in. The premise q < 4, which its neighbours have, is missing. -/
theorem not_burstsRun : ¬ Obligations.BurstsRun := by
  unfold Obligations.BurstsRun
  rintro ⟨hrequest, -⟩
  have hnext : (pathBeyond.at_ 0).nextBurst 4 = some 0 := by decide +kernel
  have hacts := hrequest pathBeyond 0 4 0 (by decide +kernel) hnext rfl (by decide +kernel)
  rw [Acts, doesDev_onDev (f := (·.txRequest 4)) rfl] at hacts
  obtain ⟨-, -, hrequested, -⟩ := hacts
  exact absurd hrequested (by decide +kernel)

end Sys2Proof.Machine
end

section
/-!
What the operations of the transmit paths move (R276 to R280, R292 to R299, R306, R307, R316): the states of paths, the counts of drops,
skips and short leads, the RF outputs, and of the device its bursts, its captures and its coexistence pins.
-/

namespace Sys2Proof.Machine

variable {d g : Dev}

/-- An entry of a parameter within its size. -/
theorem add_mem_span (k : Nat) {n i : Nat} (h : i < n) : k + i ∈ span k n := List.mem_map_of_mem (List.mem_range.mpr h)

theorem mem_span_iff {k n j : Nat} : j ∈ span k n ↔ k ≤ j ∧ j < k + n := by
  constructor
  · intro h
    obtain ⟨i, hi, rfl⟩ := List.mem_map.mp h
    exact ⟨Nat.le_add_right .., Nat.add_lt_add_left (List.mem_range.mp hi) k⟩
  · rintro ⟨hle, hlt⟩
    obtain ⟨i, rfl⟩ := Nat.exists_eq_add_of_le hle
    exact add_mem_span k (Nat.lt_of_add_lt_add_left hlt)

theorem bit_putBit_self (v n : Nat) (b : Bool) : bit (putBit v n b) n = b := by
  cases b
  · exact bit_putBit_false v n
  · exact bit_putBit_true v n

/-! ### Pins -/

theorem Dev.Moves.pin {keys : List Nat} {part : Dev → Dev} (h : g.Moves keys part d) (p : Pin) (level : Bool) :
    g.Moves keys part (d.pin p level) := h.same rfl rfl rfl

theorem Dev.iff_pin_shape (c : Bool) (p : Pin) (level : Bool) : ∃ o, d.iff c (·.pin p level) = { d with out := o } := by
  cases c
  · exact ⟨d.out, rfl⟩
  · exact ⟨_, rfl⟩

/-- Driving the coexistence outputs sets their two levels and moves pins. -/
theorem Dev.coexDrive_shape (d : Dev) (req pri : Bool) :
    ∃ o, d.coexDrive req pri = { d with out := o, coex := { d.coex with req := req, pri := pri } } := by
  obtain ⟨o, ho⟩ := d.iff_pin_shape (d.coex.pri != pri) .coexPri (pri != bit (d.a P.coexPolarity) 2)
  obtain ⟨o', ho'⟩ := ({ d with out := o } : Dev).iff_pin_shape (d.coex.req != req) .coexReq (req != bit (d.a P.coexPolarity) 0)
  refine ⟨o', ?_⟩
  unfold Dev.coexDrive
  dsimp only
  rw [ho, ho']

theorem Dev.Moves.rfctl {keys : List Nat} {part : Dev → Dev} (h : g.Moves keys part d) (hk : P.rfctlLevels ∈ keys) (i : Nat) (on : Bool) :
    g.Moves keys part (d.rfctl i on) := by
  unfold Dev.rfctl
  dsimp only
  split
  · exact h
  · exact (h.w (Or.inl hk) _).pin _ _

/-- An RF output that is driven stands at its level, in the sense its configuration gives it (R297). -/
theorem Dev.bit_rfctl (i : Nat) (on : Bool) : bit ((d.rfctl i on).a P.rfctlLevels) i = (on != bit (d.a (P.rfctlConfig + i)) 2) := by
  unfold Dev.rfctl
  dsimp only
  split
  next hstands => exact hstands
  next =>
    rw [Dev.pin, Dev.a_emit, Dev.a_w_self]
    exact bit_putBit_self _ _ _

/-! ### Paths and bursts -/

/-- The parameters that the operations on a quadrant's paths and burst move. -/
def txKeys : List Nat :=
  P.rfctlLevels :: P.rfctlLeadShortCount :: (span P.txPathState 64 ++ span P.dlBurstDropCount 4 ++ span P.dpdSkipCount 64)

/-- The device without its bursts, its captures and its coexistence pins. -/
def Dev.offTx (d : Dev) : Dev := { d with dl := {}, dpd := {}, coex := {} }

theorem rfctlLevels_mem_txKeys : P.rfctlLevels ∈ txKeys := List.mem_cons_self ..

theorem leadShort_mem_txKeys : P.rfctlLeadShortCount ∈ txKeys := List.mem_cons_of_mem _ (List.mem_cons_self ..)

theorem pathState_mem_txKeys {q i : Nat} (hq : q < 4) (hi : i < 16) : P.txPathState + 16 * q + i ∈ txKeys := by
  have hpath : P.txPathState + (16 * q + i) ∈ span P.txPathState 64 := add_mem_span _ (by omega)
  simp only [txKeys, List.mem_cons, List.mem_append, Nat.add_assoc, hpath, true_or, or_true]

theorem burstDrop_mem_txKeys {q : Nat} (hq : q < 4) : P.dlBurstDropCount + q ∈ txKeys := by
  simp only [txKeys, List.mem_cons, List.mem_append, add_mem_span _ hq, true_or, or_true]

theorem dpdSkip_mem_txKeys (p : Nat) : P.dpdSkipCount + p % 64 ∈ txKeys := by
  have hp : p % 64 < 64 := Nat.mod_lt _ (by decide)
  simp only [txKeys, List.mem_cons, List.mem_append, add_mem_span _ hp, or_true]

section
variable {q : Nat} (h : g.Moves txKeys Dev.offTx d)
include h

theorem Dev.Moves.setDl (x : Dl) : g.Moves txKeys Dev.offTx { d with dl := x } := h.same rfl rfl rfl

theorem Dev.Moves.setDpd (x : Dpd) : g.Moves txKeys Dev.offTx { d with dpd := x } := h.same rfl rfl rfl

theorem Dev.Moves.setTxPaths (hq : q < 4) (v : Nat) : g.Moves txKeys Dev.offTx (d.setTxPaths q v) :=
  h.each fun _ hi _ h => h.w (Or.inl (pathState_mem_txKeys hq (List.mem_range.mp hi))) v

theorem Dev.Moves.refreshTx (hq : q < 4) : g.Moves txKeys Dev.offTx (d.refreshTx q) := by
  unfold Dev.refreshTx
  split
  · exact h.setTxPaths hq 4
  · exact h.setTxPaths hq 5
  · exact h.setTxPaths hq 5
  · exact h.setTxPaths hq _

theorem Dev.Moves.dpdAbandon (q : Nat) : g.Moves txKeys Dev.offTx (d.dpdAbandon q) := by
  unfold Dev.dpdAbandon
  split
  · exact h
  · exact (h.setDpd _).inc (Or.inl (dpdSkip_mem_txKeys _))

theorem Dev.Moves.leaveOn (q : Nat) : g.Moves txKeys Dev.offTx (d.leaveOn q) := by
  unfold Dev.leaveOn
  dsimp only
  split
  · exact h.setDpd _
  · exact h

theorem Dev.Moves.reportDrop (hq : q < 4) (cause : Nat) : g.Moves txKeys Dev.offTx (d.reportDrop q cause) :=
  (h.inc (Or.inl (burstDrop_mem_txKeys hq))).raise (by decide) _

theorem Dev.Moves.stopBurst (hq : q < 4) (cause : Nat) : g.Moves txKeys Dev.offTx (d.stopBurst q cause) := by
  unfold Dev.stopBurst
  dsimp only
  split
  · exact ((((h.dpdAbandon q).leaveOn q).setDl _).reportDrop hq cause).refreshTx hq
  · exact h

theorem Dev.Moves.coexUpdate : g.Moves txKeys Dev.offTx d.coexUpdate := by
  obtain ⟨o, ho⟩ := d.coexDrive_shape ([0, 1, 2, 3].any d.coexHolds) d.coexPriority
  rw [Dev.coexUpdate, ho]
  exact h.same rfl rfl rfl

theorem Dev.Moves.issueHeld (q : Nat) : g.Moves txKeys Dev.offTx (d.issueHeld q) := by
  unfold Dev.issueHeld
  dsimp only
  split
  · refine Dev.Moves.each ?_ fun i _ d h => h.iff fun d h => ?_
    · exact (h.setDl _).coexUpdate.iff fun d h => h.add (Or.inl leadShort_mem_txKeys) _
    · exact (h.rfctl rfctlLevels_mem_txKeys i true).iff fun d h => h.inc (Or.inl leadShort_mem_txKeys)
  · exact h

end

end Sys2Proof.Machine
end

section
/-!
Synthesisers (R286, R288, R289): what the device notes at a lock, at a failed attempt and at a lost lock, apart from what its transmit
paths do about it.
-/

namespace Sys2Proof.Machine

variable {d g : Dev} {k : Nat}

/-! ### The parameters of the synthesisers -/

theorem synthState_lt (hk : k < 12) : P.synthState + k < P.txPathState :=
  (Nat.add_lt_add_left hk _).trans (by decide)

theorem synthLockTime_lt (hk : k < 12) : P.synthLockTime + k < P.txPathState :=
  (Nat.add_lt_add_left hk _).trans (by decide)

theorem synthUnlockCount_lt (hk : k < 12) : P.synthUnlockCount + k < P.txPathState :=
  (Nat.add_lt_add_left hk _).trans (by decide)

theorem synthState_ne_failedMask (hk : k < 12) : P.synthFailedMask ≠ P.synthState + k :=
  (lt_of_lt_of_le (Nat.add_lt_add_left hk _) (by decide)).ne'

theorem synthLockTime_ne_state : P.synthLockTime + k ≠ P.synthState + k := by
  simp only [P.synthLockTime, P.synthState]
  omega

theorem evKey_synth {j : Nat} (h : j < P.txPathState) : evKey j = false := evKey_of_lt (h.trans (by decide))

/-- The transmit paths leave the parameters of the synthesisers alone. -/
theorem not_mem_txKeys {j : Nat} (hle : P.synthState ≤ j) (hlt : j < P.txPathState) : j ∉ txKeys := by
  simp only [txKeys, List.mem_cons, List.mem_append, mem_span_iff, P.synthState, P.txPathState, P.rfctlLevels, P.rfctlLeadShortCount,
    P.dlBurstDropCount, P.dpdSkipCount] at *
  omega

theorem Dev.Moves.synth_eq (h : g.Moves txKeys Dev.offTx d) {j : Nat} (hle : P.synthState ≤ j) (hlt : j < P.txPathState) :
    d.a j = g.a j := h.a_eq (evKey_synth hlt) (not_mem_txKeys hle hlt)

theorem Dev.Moves.syn_eq {keys : List Nat} (h : g.Moves keys Dev.offTx d) : d.syn = g.syn := by
  obtain ⟨-, -, hpart⟩ := h
  have hsyn := congrArg Dev.syn hpart
  exact hsyn

theorem State.syn_at (s : State) (dt : Nat) : (s.at_ dt).syn = s.dev.syn := s.arrive_syn dt

theorem Dev.fails_length (h : d.shaped = true) : d.syn.fails.length = 12 := by
  simp only [Dev.shaped, Bool.and_eq_true, beq_iff_eq] at h
  simp only [h]

theorem getD_setNth_self {α : Type} {l : List α} {i : Nat} (v x : α) (h : i < l.length) : (setNth l i v).getD i x = v :=
  getD_modAt_self (fun _ => v) x h

theorem Dev.syn_settleRun (p i from_ to_ : Nat) : (d.settleRun p i from_ to_).syn = d.syn := rfl

theorem Dev.syn_synthRuns : (d.synthRuns k).syn = d.syn := by
  unfold Dev.synthRuns
  split
  · rfl
  · exact Dev.each_keeps Dev.syn _ _ (fun _ _ => Dev.syn_settleRun _ _ _ _) d

/-! ### A lock (R286, R289) -/

/-- The time from the commit of a channel to its lock. -/
def Dev.lockPs (d : Dev) (k : Nat) : Nat := d.now - d.syn.commit.getD k 0

/-- The synthesiser is LOCKED and none of its failures counts. -/
def Dev.lockNoted (d : Dev) (k : Nat) : Dev :=
  let d := d.synthRuns k
  let d := (d.w (P.synthState + k) 3).w P.synthFailedMask (putBit (d.a P.synthFailedMask) k false)
  { d with syn := { d.syn with fails := setNth d.syn.fails k 0, change := setNth d.syn.change k false } }

/-- As the lock is noted, and reported where it ends a change of channel. -/
def Dev.lockReported (d : Dev) (k : Nat) : Dev :=
  (d.lockNoted k).iff (d.syn.change.getD k false) fun e =>
    (e.w (P.synthLockTime + k) (d.lockPs k / 1000)).raise 48 (k + 16 * (d.lockPs k / 100000 % 2 ^ 13))

/-- After the note and the report of a lock only the transmit paths of a TX synthesiser follow. -/
theorem Dev.moves_synthLocked (hk : k < 12) (hst : d.a (P.synthState + k) = 1 ∨ d.a (P.synthState + k) = 2) :
    (d.lockReported k).Moves txKeys Dev.offTx (d.synthLocked k) := by
  have hlocked : d.synthLocked k =
      if k % 3 = 2 then ((d.lockReported k).refreshTx (k / 3)).issueHeld (k / 3) else d.lockReported k := by
    rw [Dev.synthLocked, if_pos hst]
    rfl
  have hstart := Dev.Moves.refl txKeys Dev.offTx (d.lockReported k)
  rw [hlocked]
  split
  · exact (hstart.refreshTx (by omega)).issueHeld _
  · exact hstart

theorem Dev.moves_lockReported : (d.lockNoted k).Moves [P.synthLockTime + k] Dev.offTx (d.lockReported k) :=
  (Dev.Moves.refl _ _ _).iff fun _ h => (h.w (Or.inl (List.mem_singleton_self _)) _).raise (by decide) _

theorem Dev.synthState_lockReported (hk : k < 12) : (d.lockReported k).a (P.synthState + k) = 3 := by
  rw [Dev.moves_lockReported.a_eq (evKey_synth (synthState_lt hk)) (mt List.mem_singleton.mp synthLockTime_ne_state.symm)]
  exact (Dev.a_w_ne _ _ (synthState_ne_failedMask hk)).trans (Dev.a_w_self _ _ _)

theorem Dev.failedMask_lockReported (hk : k < 12) : bit ((d.lockReported k).a P.synthFailedMask) k = false := by
  have hne : P.synthFailedMask ∉ [P.synthLockTime + k] :=
    mt List.mem_singleton.mp (lt_of_lt_of_le (Nat.add_lt_add_left hk _) (by decide)).ne'
  have hmask : (d.lockNoted k).a P.synthFailedMask = putBit ((d.synthRuns k).a P.synthFailedMask) k false := Dev.a_w_self _ _ _
  rw [Dev.moves_lockReported.a_eq (by decide) hne, hmask]
  exact bit_putBit_false _ _

theorem Dev.fails_lockReported (hk : k < d.syn.fails.length) : (d.lockReported k).syn.fails.getD k 0 = 0 := by
  have hruns : (d.lockNoted k).syn.fails = setNth (d.synthRuns k).syn.fails k 0 := rfl
  have hfails : (d.lockNoted k).syn.fails = setNth d.syn.fails k 0 := by rw [hruns, Dev.syn_synthRuns]
  rw [Dev.moves_lockReported.syn_eq, hfails]
  exact getD_setNth_self 0 0 hk

theorem Dev.lockTime_lockReported (hk : k < 12) (hchange : d.syn.change.getD k false = true) :
    (d.lockReported k).a (P.synthLockTime + k) = d.lockPs k / 1000 := by
  rw [Dev.lockReported, hchange, Dev.iff_true, Dev.a_raise _ _ (by decide) (evKey_synth (synthLockTime_lt hk)), Dev.a_w_self]

theorem Dev.raised_lockReported (hchange : d.syn.change.getD k false = true) :
    Raised (d.lockReported k) 48 (k + 16 * (d.lockPs k / 100000 % 2 ^ 13)) := by
  rw [Dev.lockReported, hchange, Dev.iff_true]
  exact Dev.raised_raise _ _ _

theorem claim_synthLock : Claims.synthLock := by
  intro s dt k hk hshaped hst
  have hstate := evKey_synth (synthState_lt hk)
  have hmoves := (s.at_ dt).moves_synthLocked hk (by rwa [s.a_at dt hstate])
  rw [doesDev_onDev (f := (·.synthLocked k)) rfl, State.a, State.a, State.a, State.leave_a _ _ _ hstate,
    State.leave_a _ _ _ (by decide : evKey P.synthFailedMask = false), State.leave_a _ _ _ (evKey_synth (synthLockTime_lt hk)),
    State.leave_syn, State.leave_raised, ← s.syn_at dt]
  refine ⟨?_, ?_, ?_, fun hchange => ⟨?_, ?_⟩⟩
  · rw [hmoves.synth_eq (Nat.le_add_right _ _) (synthState_lt hk), Dev.synthState_lockReported hk]
  · rw [hmoves.synth_eq (by decide) (by decide), Dev.failedMask_lockReported hk]
  · have hlen : (s.at_ dt).syn.fails.length = 12 := by rw [s.syn_at dt, Dev.fails_length hshaped]
    rw [hmoves.syn_eq, Dev.fails_lockReported (by omega)]
  · rw [hmoves.synth_eq ((by decide : P.synthState ≤ P.synthLockTime).trans (Nat.le_add_right _ _)) (synthLockTime_lt hk),
      Dev.lockTime_lockReported hk hchange]
    rfl
  · exact hmoves.raised (Dev.raised_lockReported hchange)

/-! ### An attempt that fails (R288) -/

/-- A failed attempt is counted. -/
def Dev.failCounted (d : Dev) (k : Nat) : Dev :=
  { d with syn := { d.syn with fails := setNth d.syn.fails k (d.syn.fails.getD k 0 + 1) } }

/-- The synthesiser is FAILED, with EV50. -/
def Dev.synthFailed (d : Dev) (k : Nat) : Dev :=
  ((d.w (P.synthState + k) 4).w P.synthFailedMask (putBit (d.a P.synthFailedMask) k true)).raise 50 k

theorem Dev.synthCalFail_retry (hst : d.a (P.synthState + k) = 1 ∨ d.a (P.synthState + k) = 2) (hfails : d.syn.fails.getD k 0 < 2) :
    d.synthCalFail k = (d.failCounted k).synthTry k := by
  rw [Dev.synthCalFail, if_pos hst]
  exact if_pos (Nat.add_lt_add_right hfails 1)

/-- The third failure is reported, and the transmit paths of a TX synthesiser follow. -/
theorem Dev.moves_synthCalFail (hk : k < 12) (hst : d.a (P.synthState + k) = 1 ∨ d.a (P.synthState + k) = 2)
    (hfails : 2 ≤ d.syn.fails.getD k 0) : ((d.failCounted k).synthFailed k).Moves txKeys Dev.offTx (d.synthCalFail k) := by
  have hfailed : d.synthCalFail k = ((d.failCounted k).synthFailed k).iff (k % 3 == 2) (·.refreshTx (k / 3)) := by
    rw [Dev.synthCalFail, if_pos hst]
    exact if_neg (by omega)
  rw [hfailed]
  exact (Dev.Moves.refl _ _ _).iff fun _ h => h.refreshTx (by omega)

theorem Dev.fails_failCounted (hk : k < d.syn.fails.length) :
    (d.failCounted k).syn.fails.getD k 0 = d.syn.fails.getD k 0 + 1 := getD_setNth_self _ 0 hk

theorem Dev.synthState_synthTry : (d.synthTry k).a (P.synthState + k) = 1 := Dev.a_w_self _ _ _

theorem Dev.syn_synthFailed : (d.synthFailed k).syn = d.syn := Dev.raise_syn _ _ _

theorem Dev.synthState_synthFailed (hk : k < 12) : (d.synthFailed k).a (P.synthState + k) = 4 := by
  rw [Dev.synthFailed, Dev.a_raise _ _ (by decide) (evKey_synth (synthState_lt hk)), Dev.a_w_ne _ _ (synthState_ne_failedMask hk),
    Dev.a_w_self]

theorem Dev.failedMask_synthFailed : bit ((d.synthFailed k).a P.synthFailedMask) k = true := by
  rw [Dev.synthFailed, Dev.a_raise _ _ (by decide) (by decide), Dev.a_w_self]
  exact bit_putBit_true _ _

theorem claim_synthCalFail : Claims.synthCalFail := by
  intro s dt k hk hshaped hst
  have hstate := evKey_synth (synthState_lt hk)
  have hat : (s.at_ dt).a (P.synthState + k) = 1 ∨ (s.at_ dt).a (P.synthState + k) = 2 := by rwa [s.a_at dt hstate]
  have hlen : (s.at_ dt).syn.fails.length = 12 := by rw [s.syn_at dt, Dev.fails_length hshaped]
  have hcounted := (s.at_ dt).fails_failCounted (k := k) (by omega)
  rw [doesDev_onDev (f := (·.synthCalFail k)) rfl, State.a, State.a, State.leave_a _ _ _ hstate,
    State.leave_a _ _ _ (by decide : evKey P.synthFailedMask = false), State.leave_syn, State.leave_raised, ← s.syn_at dt]
  obtain hfew | hmany := Nat.lt_or_ge ((s.at_ dt).syn.fails.getD k 0) 2
  · rw [Dev.synthCalFail_retry hat hfew]
    exact ⟨hcounted, fun _ => Dev.synthState_synthTry, fun hge => absurd hfew (not_lt.mpr hge)⟩
  · have hmoves := Dev.moves_synthCalFail hk hat hmany
    refine ⟨?_, fun hlt => absurd hlt (not_lt.mpr hmany), fun _ => ⟨?_, ?_, ?_⟩⟩
    · rw [hmoves.syn_eq, Dev.syn_synthFailed, hcounted]
    · rw [hmoves.synth_eq (Nat.le_add_right _ _) (synthState_lt hk), Dev.synthState_synthFailed hk]
    · rw [hmoves.synth_eq (by decide) (by decide), Dev.failedMask_synthFailed]
    · exact hmoves.raised (Dev.raised_raise _ _ _)

/-! ### A lost lock (R289, R296) -/

/-- A lost lock is counted and reported. -/
def Dev.unlockReported (d : Dev) (k : Nat) : Dev := (d.inc (P.synthUnlockCount + k)).raise 49 k

/-- A synthesiser recalibrates at its active frequency, as after a change of channel. -/
def Dev.recalibrate (d : Dev) (k : Nat) : Dev :=
  let e := d.synthOpen k
  { e with syn := { e.syn with
    commit := setNth e.syn.commit k e.now, change := setNth e.syn.change k true, fails := setNth e.syn.fails k 0 } }.synthTry k

/-- After the report and the new attempt only the transmit paths of a TX synthesiser follow. -/
theorem Dev.moves_synthUnlock (hk : k < 12) (hst : d.a (P.synthState + k) = 3) :
    ((d.unlockReported k).recalibrate k).Moves txKeys Dev.offTx (d.synthUnlock k) := by
  have hunlocked : d.synthUnlock k =
      if k % 3 = 2 then ((((d.unlockReported k).recalibrate k).dpdAbandon (k / 3)).stopBurst (k / 3) 6).refreshTx (k / 3)
      else (d.unlockReported k).recalibrate k := by
    rw [Dev.synthUnlock, if_pos hst]
    rfl
  have hquad : k / 3 < 4 := by omega
  have hstart := Dev.Moves.refl txKeys Dev.offTx ((d.unlockReported k).recalibrate k)
  rw [hunlocked]
  split
  · exact ((hstart.dpdAbandon _).stopBurst hquad 6).refreshTx hquad
  · exact hstart

theorem Dev.moves_recalibrate (hk : k < 12) : d.Moves calKeys Dev.offPower (d.recalibrate k) :=
  ((((Dev.Moves.refl _ _ d).synthOpen k).setSyn _).w (Or.inl (mem_calKeys hk)) 1).setSyn _

theorem Dev.synthState_recalibrate : (d.recalibrate k).a (P.synthState + k) = 1 := Dev.synthState_synthTry

theorem synthUnlockCount_not_mem_calKeys (hk : k < 12) : P.synthUnlockCount + k ∉ calKeys := by
  simp only [calKeys, List.mem_cons, mem_span_iff, P.synthFailedMask, P.synthState, P.synthUnlockCount]
  omega

theorem Dev.counts_unlockReported (hk : k < 12) : d.Counts (P.synthUnlockCount + k) 1 (d.unlockReported k) :=
  (Dev.counts_inc rfl).keep (Dev.a_raise _ _ (by decide) (evKey_synth (synthUnlockCount_lt hk)))

theorem claim_synthUnlock : Claims.synthUnlock := by
  intro s dt k hk hst
  have hstate := evKey_synth (synthState_lt hk)
  have hcount := evKey_synth (synthUnlockCount_lt hk)
  have htx := (s.at_ dt).moves_synthUnlock hk (by rwa [s.a_at dt hstate])
  have hcal := ((s.at_ dt).unlockReported k).moves_recalibrate hk
  have hcounts := (((s.at_ dt).counts_unlockReported hk).keep (hcal.a_eq hcount (synthUnlockCount_not_mem_calKeys hk))).keep
    (htx.synth_eq ((by decide : P.synthState ≤ P.synthUnlockCount).trans (Nat.le_add_right _ _)) (synthUnlockCount_lt hk))
  rw [doesDev_onDev (f := (·.synthUnlock k)) rfl, State.a, State.leave_a _ _ _ hstate, State.leave_raised]
  refine ⟨?_, State.counted_of_counts hcount hcounts _, htx.raised (hcal.raised (Dev.raised_raise _ _ _))⟩
  rw [htx.synth_eq (Nat.le_add_right _ _) (synthState_lt hk), Dev.synthState_recalibrate]

end Sys2Proof.Machine
end

section
/-!
RF outputs and the coexistence pins (R297, R298, R306, R308, R345, R347): an output follows its sources, and a probe step of a Collimation
run whose grant was missing gives the run up.
-/

namespace Sys2Proof.Machine

variable {d : Dev}

theorem claim_rfctlEdge : Claims.rfctlEdge := by
  intro s dt i on hi hwanted
  have hcalled : (decide (i < 32) && (s.at_ dt).rfWanted i == on) = true := by simp [hi, hwanted]
  have hstep : (s.at_ dt).iff (i < 32 && (s.at_ dt).rfWanted i == on) (·.rfctl i on) = (s.at_ dt).rfctl i on := by
    rw [hcalled, Dev.iff_true]
  have hconfig : evKey (P.rfctlConfig + i) = false := evKey_of_lt ((Nat.add_lt_add_left hi _).trans (by decide))
  refine acts_onDev_of_moves (f := fun d => d.iff (i < 32 && d.rfWanted i == on) (·.rfctl i on)) rfl ?_ ?_
  · rw [hstep]
    exact (Dev.Moves.refl _ _ _).rfctl (List.mem_singleton_self _) i on
  · rw [hstep, State.a, State.leave_a _ _ _ (by decide), Dev.bit_rfctl, s.a_at dt hconfig]

/-! ### A probe step that is judged (R345, R347) -/

/-- The first sample of a probe step has passed, and the grant was not present there. -/
def Dev.Ungranted (d : Dev) (t : Nat) : Prop := d.coex.probe = some t ∧ t ≤ d.now ∧ d.grantedAt t = false

/-- The probe step is judged. -/
def Dev.probeDone (d : Dev) : Dev := { d with coex := { d.coex with probe := none } }

theorem Dev.probeJudge_of_ungranted {t : Nat} (h : d.Ungranted t) : d.probeJudge = d.probeDone.colAbandon 4 := by
  obtain ⟨hprobe, hpast, hmissing⟩ := h
  unfold Dev.probeJudge
  rw [hprobe]
  dsimp only
  rw [if_neg (not_lt.mpr hpast), hmissing]
  rfl

theorem Dev.colAbandon_of_no_run (h : d.col.run = none) (status : Nat) : d.colAbandon status = d := by rw [Dev.colAbandon, h]

/-- Without a run, or with the grant of its probe step not missing, judging changes what is still to be judged alone. -/
theorem Dev.probeJudge_shape (h : ¬ (d.col.run.isSome = true ∧ ∃ t, d.Ungranted t)) :
    ∃ p, d.probeJudge = { d with coex := { d.coex with probe := p } } := by
  by_cases hmissing : ∃ t, d.Ungranted t
  · obtain ⟨t, ht⟩ := hmissing
    have hrun : d.col.run = none := Option.not_isSome_iff_eq_none.mp fun hrun => h ⟨hrun, t, ht⟩
    rw [Dev.probeJudge_of_ungranted ht]
    exact ⟨none, Dev.colAbandon_of_no_run (d := d.probeDone) hrun 4⟩
  · unfold Dev.probeJudge
    split
    · exact ⟨d.coex.probe, rfl⟩
    next t ht =>
      dsimp only
      split
      · exact ⟨d.coex.probe, rfl⟩
      next hpast =>
        have hgranted : d.grantedAt t = true := by
          by_contra hno
          exact hmissing ⟨t, ht, not_lt.mp hpast, by simpa using hno⟩
        rw [if_pos hgranted]
        exact ⟨none, rfl⟩

/-! ### A run given up (R347) -/

/-- A run that is given up: its figures are no longer stale, it is counted and reported. -/
theorem Dev.colAbandon_of_run (h : d.col.run.isSome = true) (status : Nat) : d.colAbandon status =
    (((({ d with col := { d.col with run := none } } : Dev).showCol.w P.collimFiguresStale 0).incN P.collimAbandonCount).raise 58 status) := by
  obtain ⟨r, hr⟩ := Option.isSome_iff_exists.mp h
  rw [Dev.colAbandon, hr]

section
variable (h : d.col.run.isSome = true) (status : Nat)
include h

theorem Dev.col_colAbandon : (d.colAbandon status).col = { d.col with run := none } := by
  obtain ⟨n, m, e, hn⟩ := ((({ d with col := { d.col with run := none } } : Dev).showCol.w P.collimFiguresStale 0)).wN_shape
    P.collimAbandonCount _
  rw [Dev.colAbandon_of_run h, Dev.raise_col, Dev.incN, hn]
  rfl

theorem Dev.figuresStale_colAbandon : (d.colAbandon status).a P.collimFiguresStale = 0 := by
  rw [Dev.colAbandon_of_run h, Dev.a_raise _ _ (by decide) (by decide), Dev.a_incN_ne (by decide) (by decide), Dev.a_w_self]

theorem Dev.raised_colAbandon : Raised (d.colAbandon status) 58 status := by
  rw [Dev.colAbandon_of_run h]
  exact Dev.raised_raise _ _ _

end

/-! ### The edges of COEX_REQ and COEX_GNT -/

/-- An edge of COEX_REQ: a probe step's, or what the bursts ask for (R306, R345). -/
def Dev.coexReqEdge (d : Dev) (on : Bool) : Dev :=
  if d.col.run.isSome && d.a P.coexEnable == 1 then d.probeEdge on
  else d.iff ([0, 1, 2, 3].any d.coexHolds == on) (·.coexUpdate)

theorem exec_coexReqEdge (dt : Nat) (on : Bool) (s : State) : exec (.coexReqEdge dt on) s = onDev dt (·.coexReqEdge on) s := rfl

/-- The level of COEX_GNT and the instant of its change. -/
def Dev.gntSet (d : Dev) (level : Bool) : Dev := { d with coex := { d.coex with gnt := level, gntAt := d.now } }

/-- An edge of COEX_GNT (R308, R345). -/
def Dev.coexGntEdge (d : Dev) (level : Bool) : Dev := d.iff (d.coex.gnt != level) fun d => d.probeJudge.gntSet level

theorem exec_coexGntEdge (dt : Nat) (level : Bool) (s : State) : exec (.coexGntEdge dt level) s = onDev dt (·.coexGntEdge level) s := rfl

theorem State.coex_at (s : State) (dt : Nat) : (s.at_ dt).coex = s.dev.coex := s.arrive_coex dt

theorem State.col_at (s : State) (dt : Nat) : (s.at_ dt).col = s.dev.col := s.arrive_col dt

theorem Dev.coexReqEdge_of_probe {on : Bool} (hrun : d.col.run.isSome = true) (hen : d.a P.coexEnable = 1) :
    d.coexReqEdge on = d.probeEdge on := by
  rw [Dev.coexReqEdge, hrun, hen]
  rfl

theorem Dev.coexReqEdge_of_bursts {on : Bool} (hprobe : ¬ (d.col.run.isSome = true ∧ d.a P.coexEnable = 1))
    (hholds : [0, 1, 2, 3].any d.coexHolds = on) : d.coexReqEdge on = d.coexUpdate := by
  have hguard : ¬ (d.col.run.isSome && d.a P.coexEnable == 1) = true := by simpa using hprobe
  rw [Dev.coexReqEdge, if_neg hguard, hholds, beq_self_eq_true, Dev.iff_true]

/-- Whatever the coexistence pins were noted as, driving the outputs leaves the request as driven and what is to be judged as noted. -/
theorem Dev.coexDrive_setCoex (d : Dev) (x : Coex) (req pri : Bool) :
    ∃ o y, ({ d with coex := x } : Dev).coexDrive req pri = { d with out := o, coex := y } ∧ y.req = req ∧ y.probe = x.probe := by
  obtain ⟨o, ho⟩ := ({ d with coex := x } : Dev).coexDrive_shape req pri
  exact ⟨o, _, ho, rfl, rfl⟩

/-- An edge of COEX_REQ that gives no run up moves the pins alone. -/
theorem Dev.coexReqEdge_shape {on : Bool}
    (h : (d.col.run.isSome = true ∧ d.a P.coexEnable = 1 ∧ (on = true ∨ ¬ ∃ t, d.Ungranted t)) ∨
      (¬ (d.col.run.isSome = true ∧ d.a P.coexEnable = 1) ∧ [0, 1, 2, 3].any d.coexHolds = on)) :
    ∃ o x, d.coexReqEdge on = { d with out := o, coex := x } ∧ x.req = on := by
  have hdrive (x : Coex) (pri : Bool) : ∃ o y, ({ d with coex := x } : Dev).coexDrive on pri = { d with out := o, coex := y } ∧
      y.req = on := by
    obtain ⟨o, y, hy, hreq, -⟩ := d.coexDrive_setCoex x on pri
    exact ⟨o, y, hy, hreq⟩
  obtain ⟨hrun, hen, hjudged⟩ | ⟨hprobe, hholds⟩ := h
  · rw [Dev.coexReqEdge_of_probe hrun hen]
    cases on with
    | true => exact hdrive _ _
    | false =>
      obtain ⟨p, hp⟩ := Dev.probeJudge_shape (d := d) fun ⟨_, hmissing⟩ => hjudged.elim nofun fun hno => hno hmissing
      rw [Dev.probeEdge, hp]
      exact hdrive _ _
  · rw [Dev.coexReqEdge_of_bursts hprobe hholds, Dev.coexUpdate, hholds]
    exact hdrive d.coex _

theorem claim_coexReqEdge : Claims.coexReqEdge := by
  intro s dt on d judged h
  have hungranted : judged ↔ ∃ t, d.Ungranted t := by simp only [judged, Dev.Ungranted, d, s.coex_at dt]
  rw [← s.col_at dt, ← s.a_at dt (by decide), hungranted] at h
  obtain ⟨o, x, hstep, hreq⟩ := Dev.coexReqEdge_shape h
  refine acts_onDev_of_moves (exec_coexReqEdge ..) ?_ ?_
  · rw [hstep]
    exact (Dev.Moves.refl _ _ _).same rfl rfl rfl
  · rw [hstep, State.leave_coex, hreq]

/-- The run is given up at the edge that ends its probe step. -/
theorem Dev.coexReqEdge_of_ungranted {t : Nat} (hrun : d.col.run.isSome = true) (hen : d.a P.coexEnable = 1) (h : d.Ungranted t) :
    ∃ o x, d.coexReqEdge false = { d.probeDone.colAbandon 4 with out := o, coex := x } ∧ x.probe = none := by
  rw [Dev.coexReqEdge_of_probe hrun hen, Dev.probeEdge, Dev.probeJudge_of_ungranted h]
  obtain ⟨o, x, hx, -, hprobe⟩ := (d.probeDone.colAbandon 4).coexDrive_setCoex d.probeDone.coex false false
  exact ⟨o, x, hx, hprobe⟩

theorem Dev.coex_colAbandon (status : Nat) : (d.colAbandon status).coex = d.coex := by
  unfold Dev.colAbandon
  split
  · rfl
  · obtain ⟨n, m, e, hn⟩ := ((({ d with col := { d.col with run := none } } : Dev).showCol.w P.collimFiguresStale 0)).wN_shape
      P.collimAbandonCount _
    rw [Dev.raise_coex, Dev.incN, hn]
    rfl

/-- Or at a change of COEX_GNT. -/
theorem Dev.coexGntEdge_of_ungranted {t : Nat} {level : Bool} (hgnt : d.coex.gnt ≠ level) (h : d.Ungranted t) :
    ∃ o x, d.coexGntEdge level = { d.probeDone.colAbandon 4 with out := o, coex := x } ∧ x.probe = none := by
  rw [Dev.coexGntEdge, bne_iff_ne.mpr hgnt, Dev.iff_true, Dev.probeJudge_of_ungranted h]
  exact ⟨_, _, rfl, congrArg Coex.probe (Dev.coex_colAbandon (d := d.probeDone) 4)⟩

/-- Whichever edge it was, the run is given up with status 4 and nothing is left to judge. -/
theorem doesDev_of_given_up {c : Instr} {s : State} {dt : Nat} {f : Dev → Dev} (hexec : exec c s = onDev dt f s)
    (hrun : s.dev.col.run.isSome = true)
    (h : ∃ o x, f (s.at_ dt) = { (s.at_ dt).probeDone.colAbandon 4 with out := o, coex := x } ∧ x.probe = none) :
    DoesDev c s (fun u => u.dev.col = { s.dev.col with run := none } ∧ Raised u.dev 58 4 ∧ u.a P.collimFiguresStale = 0 ∧
      u.dev.coex.probe = none) := by
  obtain ⟨o, x, hstep, hprobe⟩ := h
  have hrun' : (s.at_ dt).probeDone.col.run.isSome = true := by rwa [Dev.probeDone, s.col_at dt]
  rw [doesDev_onDev hexec, hstep, State.leave_col, State.leave_raised, State.a, State.leave_a _ _ _ (by decide), State.leave_coex]
  refine ⟨?_, (Dev.raised_colAbandon hrun' 4).of_edge rfl, Dev.figuresStale_colAbandon hrun' 4, hprobe⟩
  rw [Dev.col_colAbandon hrun', Dev.probeDone, s.col_at dt]

theorem claim_probeWithoutGrant : Claims.probeWithoutGrant := by
  intro s dt t c d hrun hprobe hpast hmissing hc
  have hungranted : (s.at_ dt).Ungranted t := ⟨by rwa [s.coex_at dt], hpast, hmissing⟩
  obtain ⟨rfl, hen⟩ | ⟨level, rfl, hgnt⟩ := hc
  · refine doesDev_of_given_up (exec_coexReqEdge ..) hrun (Dev.coexReqEdge_of_ungranted ?_ ?_ hungranted)
    · rwa [s.col_at dt]
    · rwa [s.a_at dt (by decide)]
  · refine doesDev_of_given_up (exec_coexGntEdge ..) hrun (Dev.coexGntEdge_of_ungranted ?_ hungranted)
    rwa [s.coex_at dt]

/-- An edge of COEX_GNT that gives no run up notes its level, the instant of a change, and what is left to judge. -/
theorem Dev.coexGntEdge_shape {level : Bool} (h : ¬ (d.col.run.isSome = true ∧ ∃ t, d.Ungranted t)) :
    ∃ x, d.coexGntEdge level = { d with coex := x } ∧ x.gnt = level ∧ (d.coex.gnt ≠ level → x.gntAt = d.now) ∧
      x.req = d.coex.req := by
  by_cases hgnt : d.coex.gnt = level
  · refine ⟨d.coex, ?_, hgnt, fun hne => absurd hgnt hne, rfl⟩
    rw [Dev.coexGntEdge, hgnt, bne_self_eq_false, Dev.iff_false]
  · obtain ⟨p, hp⟩ := Dev.probeJudge_shape h
    rw [Dev.coexGntEdge, bne_iff_ne.mpr hgnt, Dev.iff_true, hp]
    exact ⟨_, rfl, rfl, fun _ => rfl, rfl⟩

theorem claim_coexGntEdge : Claims.coexGntEdge := by
  intro s dt level h
  have hkept : ¬ ((s.at_ dt).col.run.isSome = true ∧ ∃ t, (s.at_ dt).Ungranted t) := by
    simpa only [Dev.Ungranted, s.col_at dt, s.coex_at dt] using h
  obtain ⟨x, hstep, hlevel, hchanged, hreq⟩ := Dev.coexGntEdge_shape (level := level) hkept
  rw [s.coex_at dt] at hchanged hreq
  refine acts_onDev_of_moves (exec_coexGntEdge ..) ?_ ?_
  · rw [hstep]
    exact (Dev.Moves.refl _ _ _).same rfl rfl rfl
  · rw [hstep, State.leave_coex]
    exact ⟨hlevel, hchanged, hreq⟩

/-- Settles O31, clause by clause: what a synthesiser's lock, failure or loss writes of its own parameters stands through what its transmit
paths do about it, and an edge of a coexistence pin gives a Collimation run up only where a judged probe step had no grant. -/
theorem synthesisersAndPins : Obligations.SynthesisersAndPins :=
  ⟨claim_synthLock, claim_synthCalFail, claim_synthUnlock, claim_rfctlEdge, claim_coexReqEdge, claim_probeWithoutGrant, claim_coexGntEdge⟩

end Sys2Proof.Machine
end

section
/-!
Predistortion (R314 to R327): a visit, the end of a capture and of its computation touch the record of one quadrant or one path, and a
store files the model under the bin of its instant. The bin of a quadrant of which no die sensor reads comes of a free value, another one
after time has passed on the LPO; the clause `dpdWarmStore` names the bin before that time, and with it the statement on predistortion
turns on a constant nothing is known of.
-/

namespace Sys2Proof.Machine

variable {d : Dev} {q p : Nat}

/-! ### The records of a quadrant and of a path -/

theorem Dev.dpdQuads_length (h : d.shaped = true) : d.dpd.quads.length = 4 := by
  simp only [Dev.shaped, Bool.and_eq_true, beq_iff_eq] at h
  simp only [h]

theorem Dev.dpdPaths_length (h : d.shaped = true) : d.dpd.paths.length = 64 := by
  simp only [Dev.shaped, Bool.and_eq_true, beq_iff_eq] at h
  simp only [h]

theorem Dev.bursts_length (h : d.shaped = true) : d.dl.burst.length = 4 := by
  simp only [Dev.shaped, Bool.and_eq_true, beq_iff_eq] at h
  simp only [h]

theorem Dev.dpdQ_setDpdQ_self (f : DpdQ → DpdQ) (h : q < d.dpd.quads.length) : (d.setDpdQ q f).dpdQ q = f (d.dpdQ q) :=
  getD_modAt_self f {} h

theorem Dev.dpdP_setDpdP_self (f : DpdP → DpdP) (h : p < d.dpd.paths.length) : (d.setDpdP p f).dpdP p = f (d.dpdP p) :=
  getD_modAt_self f {} h

theorem Dev.burst_setBurst_self (f : Burst → Burst) (h : q < d.dl.burst.length) : (d.setBurst q f).burst q = f (d.burst q) :=
  getD_modAt_self f {} h

/-- A quadrant with a burst under way is one of the four. -/
theorem Dev.quadrant_lt_of_burst (h : d.shaped = true) (hst : (d.burst q).st = 2) : q < 4 := by
  by_contra hq
  have hnone : d.burst q = {} := List.getD_eq_default _ _ (by rw [Dev.bursts_length h]; omega)
  rw [hnone] at hst
  exact absurd hst (by decide)

/-- A path whose model is computed is one of the 64. -/
theorem Dev.path_lt_of_busy (h : d.shaped = true) (hbusy : (d.dpdP p).busy = true) : p < 64 := by
  by_contra hp
  have hnone : d.dpdP p = {} := List.getD_eq_default _ _ (by rw [Dev.dpdPaths_length h]; omega)
  rw [hnone] at hbusy
  exact absurd hbusy (by decide)

theorem State.dpd_at (s : State) (dt : Nat) : (s.at_ dt).dpd = s.dev.dpd := s.arrive_dpd dt

theorem State.dl_at (s : State) (dt : Nat) : (s.at_ dt).dl = s.dev.dl := s.arrive_dl dt

theorem State.dpdQ_at (s : State) (dt q : Nat) : (s.at_ dt).dpdQ q = s.dev.dpdQ q := by rw [Dev.dpdQ, s.dpd_at, Dev.dpdQ]

theorem State.dpdP_at (s : State) (dt p : Nat) : (s.at_ dt).dpdP p = s.dev.dpdP p := by rw [Dev.dpdP, s.dpd_at, Dev.dpdP]

theorem State.burst_at (s : State) (dt q : Nat) : (s.at_ dt).burst q = s.dev.burst q := by rw [Dev.burst, s.dl_at, Dev.burst]

theorem State.nextVisit_at (s : State) (dt q : Nat) : (s.at_ dt).nextVisit q = s.dev.nextVisit q := by
  rw [Dev.nextVisit, s.dpdQ_at, s.dl_at, Dev.nextVisit]

theorem State.dpdQ_leave (s : State) (d : Dev) (m : Memory) (q : Nat) : (s.leave d m).dev.dpdQ q = d.dpdQ q := by
  rw [Dev.dpdQ, State.leave_dpd, Dev.dpdQ]

theorem State.dpdP_leave (s : State) (d : Dev) (m : Memory) (p : Nat) : (s.leave d m).dev.dpdP p = d.dpdP p := by
  rw [Dev.dpdP, State.leave_dpd, Dev.dpdP]

theorem State.burst_leave (s : State) (d : Dev) (m : Memory) (q : Nat) : (s.leave d m).dev.burst q = d.burst q := by
  rw [Dev.burst, State.leave_dl, Dev.burst]

/-! ### A visit (R315, R316, R322) -/

/-- The ORX of the quadrant may take a visit but for the time that has passed (R315). -/
def Dev.Visitable (d : Dev) (q : Nat) : Prop :=
  (d.burst q).st = 2 ∧ d.dpd.modes.getD q 0 = 2 ∧ (d.dpdQ q).cap = none ∧ d.synthSt (3 * q + 2) = 3

/-- The path that waits out of turn (R322). -/
def Dev.turnPath (d : Dev) (q : Nat) : Option Nat := (d.dpdQ q).turn.find? (fun p => bit d.dl.pathEff p)

/-- A visit begins: the ON time counts on from here. -/
def Dev.visitBegun (d : Dev) (q : Nat) : Dev :=
  (d.setDpdQ q (fun x => { x with onTime := 0 })).setBurst q (fun b => { b with on := d.now })

/-- The capture of a path that waits out of turn, which leaves the order alone (R322). -/
def DpdQ.outOfTurn (x : DpdQ) (p now : Nat) : DpdQ := { x with turn := x.turn.erase p, cap := some (p, now) }

/-- The capture of the next path in the order (R315). -/
def DpdQ.inOrder (x : DpdQ) (p now : Nat) : DpdQ := { x with last := p % 16, cap := some (p, now) }

theorem Dev.dpdVisit_of_not_due (hdue : ¬ 2000000000 ≤ d.onSince q) : d.dpdVisit q = d :=
  if_neg fun ⟨_, _, _, _, h⟩ => hdue h

theorem Dev.quads_visitBegun : (d.visitBegun q).dpd.quads.length = d.dpd.quads.length := modAt_length _ _ _

theorem Dev.dpdQ_visitBegun (h : q < d.dpd.quads.length) : (d.visitBegun q).dpdQ q = { d.dpdQ q with onTime := 0 } :=
  Dev.dpdQ_setDpdQ_self (fun x => { x with onTime := 0 }) h

theorem Dev.burst_visitBegun (h : q < d.dl.burst.length) : (d.visitBegun q).burst q = { d.burst q with on := d.now } :=
  Dev.burst_setBurst_self (d := d.setDpdQ q _) _ h

/-- Beginning a visit leaves the order as it is. -/
theorem Dev.nextVisit_visitBegun (h : q < d.dpd.quads.length) : (d.visitBegun q).nextVisit q = d.nextVisit q := by
  rw [Dev.nextVisit, Dev.dpdQ_visitBegun h, Dev.nextVisit]
  rfl

/-- What a visit that is due does: it begins, and captures the path that waits out of turn, else the next of the order, if any. -/
theorem Dev.dpdVisit_of_due (hv : d.Visitable q) (hdue : 2000000000 ≤ d.onSince q) (hq : q < d.dpd.quads.length) :
    (∃ p, d.turnPath q = some p ∧ d.dpdVisit q = (d.visitBegun q).setDpdQ q (·.outOfTurn p d.now)) ∨
    (∃ p, d.turnPath q = none ∧ d.nextVisit q = some p ∧ d.dpdVisit q = (d.visitBegun q).setDpdQ q (·.inOrder p d.now)) ∨
    (d.turnPath q = none ∧ d.nextVisit q = none ∧ d.dpdVisit q = d.visitBegun q) := by
  obtain ⟨hst, hmode, hcap, hsyn⟩ := hv
  have hstep : d.dpdVisit q = match d.turnPath q with
      | some p => (d.visitBegun q).setDpdQ q (·.outOfTurn p d.now)
      | none => match (d.visitBegun q).nextVisit q with
        | some p => (d.visitBegun q).setDpdQ q (·.inOrder p d.now)
        | none => d.visitBegun q :=
    if_pos ⟨hst, hmode, Option.isNone_iff_eq_none.mpr hcap, hsyn, hdue⟩
  rw [Dev.nextVisit_visitBegun hq] at hstep
  cases hturn : d.turnPath q with
  | some p => exact .inl ⟨p, rfl, by rw [hstep, hturn]⟩
  | none =>
    cases hnext : d.nextVisit q with
    | some p => exact .inr (.inl ⟨p, rfl, rfl, by rw [hstep, hturn, hnext]⟩)
    | none => exact .inr (.inr ⟨rfl, rfl, by rw [hstep, hturn, hnext]⟩)

/-- Of a visit that is due, the quadrant's record: time counts anew, and which path is captured. -/
theorem Dev.dpdQ_dpdVisit (hv : d.Visitable q) (hdue : 2000000000 ≤ d.onSince q) (hq : q < d.dpd.quads.length) :
    ((d.dpdVisit q).dpdQ q).onTime = 0 ∧
    (∀ p, d.turnPath q = some p → ((d.dpdVisit q).dpdQ q).cap = some (p, d.now) ∧ ((d.dpdVisit q).dpdQ q).last = (d.dpdQ q).last) ∧
    (∀ p, d.turnPath q = none → d.nextVisit q = some p →
      ((d.dpdVisit q).dpdQ q).cap = some (p, d.now) ∧ ((d.dpdVisit q).dpdQ q).last = p % 16) := by
  have hset (f : DpdQ → DpdQ) : ((d.visitBegun q).setDpdQ q f).dpdQ q = f { d.dpdQ q with onTime := 0 } := by
    rw [Dev.dpdQ_setDpdQ_self f (by rwa [Dev.quads_visitBegun]), Dev.dpdQ_visitBegun hq]
  obtain ⟨p, hturn, hstep⟩ | ⟨p, hturn, hnext, hstep⟩ | ⟨hturn, hnext, hstep⟩ := Dev.dpdVisit_of_due hv hdue hq
  · rw [hstep, hset, hturn]
    exact ⟨rfl, fun _ h => by cases h; exact ⟨rfl, rfl⟩, nofun⟩
  · rw [hstep, hset, hturn, hnext]
    exact ⟨rfl, nofun, fun _ _ h => by cases h; exact ⟨rfl, rfl⟩⟩
  · rw [hstep, Dev.dpdQ_visitBegun hq, hturn, hnext]
    exact ⟨rfl, nofun, nofun⟩

theorem Dev.burst_dpdVisit (hv : d.Visitable q) (hdue : 2000000000 ≤ d.onSince q) (hq : q < d.dpd.quads.length)
    (hb : q < d.dl.burst.length) : (d.dpdVisit q).burst q = { d.burst q with on := d.now } := by
  rw [← Dev.burst_visitBegun hb]
  obtain ⟨p, -, hstep⟩ | ⟨p, -, -, hstep⟩ | ⟨-, -, hstep⟩ := Dev.dpdVisit_of_due hv hdue hq <;> rw [hstep] <;> rfl

/-- A visit touches the bursts and the records of the quadrants alone. -/
theorem Dev.dpdVisit_shape (d : Dev) (q : Nat) :
    ∃ b qs, d.dpdVisit q = { d with dl := { d.dl with burst := b }, dpd := { d.dpd with quads := qs } } := by
  unfold Dev.dpdVisit
  dsimp only
  split
  · split
    · exact ⟨_, _, rfl⟩
    · split
      · exact ⟨_, _, rfl⟩
      · exact ⟨_, _, rfl⟩
  · exact ⟨d.dl.burst, d.dpd.quads, rfl⟩

theorem claim_dpdVisit : Claims.dpdVisit := by
  intro s dt q d due hshaped hst hmode hcap hsyn
  have hq : q < 4 := Dev.quadrant_lt_of_burst hshaped hst
  have hquads : q < d.dpd.quads.length := by rwa [s.dpd_at, Dev.dpdQuads_length hshaped]
  have hbursts : q < d.dl.burst.length := by rwa [s.dl_at, Dev.bursts_length hshaped]
  have hv : d.Visitable q := ⟨by rwa [s.burst_at], by rwa [s.dpd_at], by rwa [s.dpdQ_at], hsyn⟩
  have hsince : due ↔ 2000000000 ≤ d.onSince q := by rw [Dev.onSince, s.dpdQ_at, s.burst_at]
  have hturn : d.turnPath q = (s.dev.dpdQ q).turn.find? (fun p => bit s.dev.dl.pathEff p) := by
    rw [Dev.turnPath, s.dpdQ_at, s.dl_at]
  obtain ⟨b, qs, hshape⟩ := d.dpdVisit_shape q
  refine acts_onDev_of_moves (f := (·.dpdVisit q)) rfl ?_ ?_
  · change d.Moves _ _ (d.dpdVisit q)
    rw [hshape]
    exact (Dev.Moves.refl ..).same rfl rfl rfl
  · rw [State.leave_dpd, State.leave_dl, State.dpdQ_leave, State.burst_leave, hsince, ← hturn, ← s.nextVisit_at dt q,
      ← s.dpdQ_at dt q, ← s.burst_at dt q, ← s.dpd_at dt, ← s.dl_at dt]
    refine ⟨fun hnot => ?_, fun hdue => ?_, fun hdue => ?_, fun hdue => ?_, ?_⟩
    · change (d.dpdVisit q).dpd = d.dpd ∧ (d.dpdVisit q).dl = d.dl
      rw [Dev.dpdVisit_of_not_due hnot]
      exact ⟨rfl, rfl⟩
    · obtain ⟨htime, -, -⟩ := Dev.dpdQ_dpdVisit hv hdue hquads
      exact ⟨htime, Dev.burst_dpdVisit hv hdue hquads hbursts⟩
    · obtain ⟨-, hturned, -⟩ := Dev.dpdQ_dpdVisit hv hdue hquads
      exact hturned
    · obtain ⟨-, -, hordered⟩ := Dev.dpdQ_dpdVisit hv hdue hquads
      exact hordered
    · change (d.dpdVisit q).dpd.paths = d.dpd.paths
      rw [hshape]

/-! ### The end of a capture (R317) -/

/-- The ORX is free again. -/
def Dev.captureTaken (d : Dev) (q : Nat) : Dev := d.setDpdQ q (fun x => { x with cap := none })

/-- A capture is skipped: a sample clipped, or the signal was too weak (R317). -/
def Dev.captureSkipped (d : Dev) (clipped : Bool) (power : Nat) : Prop :=
  clipped = true ∨ atLeastLevel (d.a P.dpdCaptureLog2) power (d.a P.dpdMinCapturePower) = false

section
variable {t0 power : Nat} {clipped : Bool} (hcap : (d.dpdQ (p / 16)).cap = some (p, t0))
  (hend : t0 + 2 ^ d.a P.dpdCaptureLog2 * 1250 ≤ d.now)
include hcap hend

theorem Dev.dpdCaptureDone_of_whole : d.dpdCaptureDone p clipped power =
    if clipped ∨ !atLeastLevel (d.a P.dpdCaptureLog2) power (d.a P.dpdMinCapturePower) then (d.captureTaken (p / 16)).dpdSkip p clipped
    else (d.captureTaken (p / 16)).setDpdP p (fun x => { x with busy := true }) := by
  have hwhole : ¬ (p ≠ p ∨ d.now < t0 + 2 ^ d.a P.dpdCaptureLog2 * 1250) := by omega
  unfold Dev.dpdCaptureDone
  dsimp only
  rw [hcap]
  exact if_neg hwhole

theorem Dev.dpdCaptureDone_of_skipped (h : d.captureSkipped clipped power) :
    d.dpdCaptureDone p clipped power = (d.captureTaken (p / 16)).dpdSkip p clipped := by
  rw [Dev.dpdCaptureDone_of_whole hcap hend, if_pos (by simpa [Dev.captureSkipped] using h)]

theorem Dev.dpdCaptureDone_of_used (h : ¬ d.captureSkipped clipped power) :
    d.dpdCaptureDone p clipped power = (d.captureTaken (p / 16)).setDpdP p (fun x => { x with busy := true }) := by
  rw [Dev.dpdCaptureDone_of_whole hcap hend, if_neg (by simpa [Dev.captureSkipped] using h)]

end

theorem evKey_dpdSkipCount (hp : p < 64) : evKey (P.dpdSkipCount + p) = false :=
  evKey_of_lt ((Nat.add_lt_add_left hp _).trans (by decide))

/-- A clipped capture is reported, at most once a second for a path. -/
def Dev.clipReported (d : Dev) (p : Nat) : Dev := d.raiseRate 57 p (10 ^ 12) 1 (fun n => p + 64 * sat 2047 n)

theorem Dev.dpdSkip_eq (clipped : Bool) : d.dpdSkip p clipped = (d.inc (P.dpdSkipCount + p)).iff clipped (·.clipReported p) := rfl

theorem Dev.dpd_dpdSkip (clipped : Bool) : (d.dpdSkip p clipped).dpd = d.dpd := by
  rw [Dev.dpdSkip_eq]
  cases clipped
  · exact Dev.inc_dpd _ _
  · rw [Dev.iff_true, Dev.clipReported, Dev.raiseRate_dpd, Dev.inc_dpd]

theorem Dev.counts_dpdSkip {g : Dev} (hp : p < 64) (h : d.a (P.dpdSkipCount + p) = g.a (P.dpdSkipCount + p)) (clipped : Bool) :
    g.Counts (P.dpdSkipCount + p) 1 (d.dpdSkip p clipped) := by
  refine (Dev.counts_inc h).keep ?_
  rw [Dev.dpdSkip_eq]
  cases clipped
  · rfl
  · rw [Dev.iff_true, Dev.clipReported, Dev.a_raiseRate _ _ _ _ _ (by decide) (evKey_dpdSkipCount hp)]

theorem Dev.Moves.dpdSkip {keys : List Nat} {part : Dev → Dev} {g : Dev} (h : g.Moves keys part d) (hk : P.dpdSkipCount + p ∈ keys)
    (clipped : Bool) : g.Moves keys part (d.dpdSkip p clipped) := by
  rw [Dev.dpdSkip_eq]
  refine (h.inc (Or.inl hk)).iff fun d h => ?_
  rw [Dev.clipReported]
  exact h.raiseRate (by decide) _ _ _ _

/-- The records of predistortion set aside, as the frame of its commands has it. -/
def Dev.offDpd (d : Dev) : Dev := { d with dpd := {} }

theorem Dev.Moves.setPredistortion {keys : List Nat} {g : Dev} (h : g.Moves keys Dev.offDpd d) (x : Dpd) :
    g.Moves keys Dev.offDpd { d with dpd := x } := h.same rfl rfl rfl

theorem claim_dpdCaptureDone : Claims.dpdCaptureDone := by
  intro s dt p t0 power clipped hp hshaped hcap hend
  have hlog : (s.at_ dt).a P.dpdCaptureLog2 = s.a P.dpdCaptureLog2 := s.a_at dt (by decide)
  have hmin : (s.at_ dt).a P.dpdMinCapturePower = s.a P.dpdMinCapturePower := s.a_at dt (by decide)
  have hquads : p / 16 < (s.at_ dt).dpd.quads.length := by rw [s.dpd_at, Dev.dpdQuads_length hshaped]; omega
  have hpaths : p < (s.at_ dt).dpd.paths.length := by rwa [s.dpd_at, Dev.dpdPaths_length hshaped]
  have hkey := evKey_dpdSkipCount hp
  have htaken : ((s.at_ dt).captureTaken (p / 16)).dpdQ (p / 16) = { (s.at_ dt).dpdQ (p / 16) with cap := none } :=
    Dev.dpdQ_setDpdQ_self _ hquads
  have hstart := (Dev.Moves.refl [P.dpdSkipCount + p] Dev.offDpd (s.at_ dt)).setPredistortion ((s.at_ dt).captureTaken (p / 16)).dpd
  rw [← s.dpdQ_at dt] at hcap
  rw [← hlog] at hend ⊢
  rw [← hmin]
  by_cases hskip : (s.at_ dt).captureSkipped clipped power
  · have hstep := Dev.dpdCaptureDone_of_skipped hcap hend hskip
    refine acts_onDev_of_moves (f := (·.dpdCaptureDone p clipped power)) rfl ?_ ?_
    · rw [hstep]
      exact hstart.dpdSkip (List.mem_singleton_self _) clipped
    · rw [hstep, State.dpdQ_leave, State.leave_dpd, Dev.dpdQ, Dev.dpd_dpdSkip]
      have hpaths : ((s.at_ dt).captureTaken (p / 16)).dpd.paths = (s.at_ dt).dpd.paths := rfl
      refine ⟨congrArg DpdQ.cap htaken, fun _ => ⟨?_, by rw [hpaths, s.dpd_at]⟩, fun hno hstrong => ?_⟩
      · have hread : ((s.at_ dt).captureTaken (p / 16)).a (P.dpdSkipCount + p) = (s.at_ dt).a (P.dpdSkipCount + p) := rfl
        exact State.counted_of_counts hkey (Dev.counts_dpdSkip hp hread clipped) _
      · rw [Dev.captureSkipped, hno, hstrong] at hskip
        exact absurd hskip (by decide)
  · have hstep := Dev.dpdCaptureDone_of_used hcap hend hskip
    refine acts_onDev_of_moves (f := (·.dpdCaptureDone p clipped power)) rfl ?_ ?_
    · rw [hstep]
      exact hstart.setPredistortion _
    · rw [hstep, State.dpdQ_leave, State.dpdP_leave, State.a, State.leave_a _ _ _ hkey]
      refine ⟨congrArg DpdQ.cap htaken, fun h => absurd h hskip, fun _ _ => ⟨?_, s.a_at dt hkey⟩⟩
      rw [Dev.dpdP_setDpdP_self (d := (s.at_ dt).captureTaken (p / 16)) _ hpaths]

/-! ### The end of a computation (R314, R318, R320, R321) -/

/-- A poor figure is reported, at most once a second for a path (R321). -/
def Dev.qualityReported (d : Dev) (p : Nat) (nmse : Int) : Dev := d.raiseRate 56 p (10 ^ 12) 0 (fun _ => p + 64 * nmseField nmse)

/-- The model waits for the slot boundary with its figures (R320). -/
def Dev.modelWaits (d : Dev) (p : Nat) (nmse : Int) (aclr : Nat) (incs : List (Int × Int)) : Dev :=
  ({ d with clk := { d.clk with free := d.clk.free + 1 } } : Dev).setDpdP p
    (fun x => { x with busy := false, pend := some (d.newModel p incs, nmseField nmse, aclr) })

section
variable (hbusy : (d.dpdP p).busy = true) (nmse : Int) (aclr : Nat) (incs : List (Int × Int))
include hbusy

theorem Dev.dpdComputeDone_of_adapting (hmode : d.dpd.modes.getD (p / 16) 0 = 2) : d.dpdComputeDone p nmse aclr incs =
    (d.modelWaits p nmse aclr incs).iff (-(100 * (d.a P.dpdNmseThreshold : Int)) < nmse) (·.qualityReported p nmse) := by
  unfold Dev.dpdComputeDone
  dsimp only
  rw [hbusy, if_neg (by decide), if_neg (not_not_intro hmode)]
  rfl

theorem Dev.dpdComputeDone_of_not_adapting (hmode : d.dpd.modes.getD (p / 16) 0 ≠ 2) :
    d.dpdComputeDone p nmse aclr incs = d.setDpdP p (fun x => { x with busy := false }) := by
  unfold Dev.dpdComputeDone
  dsimp only
  rw [hbusy, if_neg (by decide), if_pos hmode]

theorem Dev.dpd_dpdComputeDone (hmode : d.dpd.modes.getD (p / 16) 0 = 2) :
    (d.dpdComputeDone p nmse aclr incs).dpd = (d.modelWaits p nmse aclr incs).dpd := by
  rw [Dev.dpdComputeDone_of_adapting hbusy nmse aclr incs hmode]
  cases decide (-(100 * (d.a P.dpdNmseThreshold : Int)) < nmse)
  · rfl
  · rw [Dev.iff_true, Dev.qualityReported, Dev.raiseRate_dpd]

theorem Dev.moves_dpdComputeDone : d.Moves [] Dev.offDpd (d.dpdComputeDone p nmse aclr incs) := by
  have hstart := Dev.Moves.refl [] Dev.offDpd d
  by_cases hmode : d.dpd.modes.getD (p / 16) 0 = 2
  · rw [Dev.dpdComputeDone_of_adapting hbusy nmse aclr incs hmode]
    have hwaits : d.Moves [] Dev.offDpd (d.modelWaits p nmse aclr incs) := hstart.same rfl rfl rfl
    refine hwaits.iff fun d h => ?_
    rw [Dev.qualityReported]
    exact h.raiseRate (by decide) _ _ _ _
  · rw [Dev.dpdComputeDone_of_not_adapting hbusy nmse aclr incs hmode]
    exact hstart.setPredistortion _

end

theorem claim_dpdComputeDone : Claims.dpdComputeDone := by
  intro s dt p aclr nmse incs hshaped hbusy
  have hpaths : p < (s.at_ dt).dpd.paths.length := by
    rw [s.dpd_at, Dev.dpdPaths_length hshaped]
    exact Dev.path_lt_of_busy hshaped hbusy
  rw [← s.dpdP_at dt] at hbusy
  refine acts_onDev_of_moves (f := (·.dpdComputeDone p nmse aclr incs)) rfl (Dev.moves_dpdComputeDone hbusy nmse aclr incs) ?_
  rw [State.dpdP_leave, ← s.dpd_at dt, ← s.dpdP_at dt p]
  by_cases hmode : (s.at_ dt).dpd.modes.getD (p / 16) 0 = 2
  · have hrec : ((s.at_ dt).dpdComputeDone p nmse aclr incs).dpdP p =
        { (s.at_ dt).dpdP p with busy := false, pend := some ((s.at_ dt).newModel p incs, nmseField nmse, aclr) } := by
      rw [Dev.dpdP, Dev.dpd_dpdComputeDone hbusy nmse aclr incs hmode]
      exact Dev.dpdP_setDpdP_self _ hpaths
    rw [hrec]
    exact ⟨rfl, fun _ => rfl, fun h => absurd hmode h⟩
  · rw [Dev.dpdComputeDone_of_not_adapting hbusy nmse aclr incs hmode, Dev.dpdP_setDpdP_self _ hpaths]
    exact ⟨rfl, fun h => absurd h hmode, fun _ => rfl⟩

/-! ### A store (R324, R327) -/

/-- The records of the pair that a path stores into now: those of the active Chart and of its quadrant's bin (R327). -/
def Dev.inPair (d : Dev) (p : Nat) (w : Warm) : Bool := w.path == p && w.chart == d.warmChart && w.bin == d.binOf (p / 16)

/-- The newest record of that pair. -/
def Dev.newestInPair (d : Dev) (p : Nat) : Option Warm := d.dpd.warm.find? (d.inPair p)

/-- The record of a path's model as it stands (R324). -/
def Dev.warmRecord (d : Dev) (p : Nat) : Warm :=
  ⟨p, d.warmChart, d.binOf (p / 16), (((d.newestInPair p).map (·.seq)).getD 0 + 1) % 2 ^ 32, d.secs, d.a (P.dpdNmse + p),
    pointsOf (d.entries (modelKey p) 448)⟩

/-- The record is written over the older one of its pair. -/
def Dev.recordFiled (d : Dev) (p : Nat) : Dev :=
  { d with dpd := { d.dpd with
    warm := d.warmRecord p :: (d.newestInPair p).toList ++ d.dpd.warm.filter (fun w => !d.inPair p w) } }

theorem Dev.a_setDpdP (f : DpdP → DpdP) (k : Nat) : (d.setDpdP p f).a k = d.a k := rfl

theorem Dev.a_recordFiled (k : Nat) : (d.recordFiled p).a k = d.a k := rfl

/-- A path's model is stored where it is due, as its command runs it (R327). -/
def Dev.storeDueModel (d : Dev) (p : Nat) : Dev :=
  let x := d.dpdP p
  d.iff (d.up && x.updated && (x.stored == 0 || x.stored - 1 + d.a P.dpdStorePeriod * 10 ^ 12 ≤ d.now) && p < 64) (·.warmStore p)

theorem exec_dpdWarmStore (dt p : Nat) (s : State) : exec (.dpdWarmStore dt p) s = onDev dt (·.storeDueModel p) s := rfl

/-- A path's model has changed since its last store, which is long enough ago, and MRAM may be written. -/
def Dev.Storable (d : Dev) (p : Nat) : Prop :=
  p < 64 ∧ d.up = true ∧ (d.dpdP p).updated = true ∧
    ((d.dpdP p).stored = 0 ∨ (d.dpdP p).stored - 1 + d.a P.dpdStorePeriod * 10 ^ 12 ≤ d.now) ∧ d.nvm.deferring = false

/-- A device that is up does not rest in DEEP. -/
theorem Dev.asleep_of_up (hup : d.up = true) : d.asleep = false := by
  simp only [Dev.up, Bool.and_eq_true, bne_iff_ne, ne_eq] at hup
  simp [Dev.asleep, hup]

theorem Dev.storeDueModel_eq (h : d.Storable p) : d.storeDueModel p =
    ((d.recordFiled p).inc P.dpdStoreCount).setDpdP p (fun x => { x with updated := false, stored := d.now + 1 }) := by
  obtain ⟨hp, hup, hupdated, hdue, hdefer⟩ := h
  have hcalled : (d.up && (d.dpdP p).updated &&
      ((d.dpdP p).stored == 0 || decide ((d.dpdP p).stored - 1 + d.a P.dpdStorePeriod * 10 ^ 12 ≤ d.now)) && decide (p < 64)) = true := by
    simp only [hup, hupdated, hp, Bool.and_eq_true, Bool.or_eq_true, beq_iff_eq, decide_eq_true_eq, hdue, and_self]
  have hnow : ((d.recordFiled p).inc P.dpdStoreCount).now = d.now := congrArg Clk.ps (Dev.inc_clk _ _)
  rw [Dev.storeDueModel, hcalled, Dev.iff_true, ← hnow, Dev.warmStore, Dev.mramWrite, hdefer, Dev.asleep_of_up hup]
  rfl

theorem Dev.warm_storeDueModel (h : d.Storable p) : (d.storeDueModel p).dpd.warm = (d.recordFiled p).dpd.warm := by
  have hset : (d.storeDueModel p).dpd.warm = ((d.recordFiled p).inc P.dpdStoreCount).dpd.warm := by rw [Dev.storeDueModel_eq h]; rfl
  rw [hset, Dev.inc_dpd]

/-- What a store changes beside the record it files: it is counted, and the path's model is no longer newer than its record. -/
theorem acts_dpdWarmStore {s : State} {dt : Nat} (hshaped : s.dev.shaped = true) (h : (s.at_ dt).Storable p) :
    Acts (.dpdWarmStore dt p) s [P.dpdStoreCount] Dev.offDpd (fun t =>
      Counted s t P.dpdStoreCount 1 ∧ (t.dev.dpdP p).updated = false ∧ t.dev.dpd.warm = ((s.at_ dt).recordFiled p).dpd.warm) := by
  have hstep := Dev.storeDueModel_eq h
  have hpaths : p < (((s.at_ dt).recordFiled p).inc P.dpdStoreCount).dpd.paths.length := by
    have hlen : ((s.at_ dt).recordFiled p).dpd.paths = (s.at_ dt).dpd.paths := rfl
    obtain ⟨hp, -⟩ := h
    rwa [Dev.inc_dpd, hlen, s.dpd_at, Dev.dpdPaths_length hshaped]
  have hfiled := (Dev.Moves.refl [P.dpdStoreCount] Dev.offDpd (s.at_ dt)).setPredistortion ((s.at_ dt).recordFiled p).dpd
  refine acts_onDev_of_moves (exec_dpdWarmStore dt p s) ?_ ?_
  · rw [hstep]
    exact (hfiled.inc (Or.inl (List.mem_singleton_self _))).setPredistortion _
  · rw [State.dpdP_leave, State.leave_dpd, Dev.warm_storeDueModel h]
    refine ⟨?_, ?_, rfl⟩
    · have hcounts : (s.at_ dt).Counts P.dpdStoreCount 1 (((s.at_ dt).recordFiled p).inc P.dpdStoreCount) :=
        Dev.counts_inc (Dev.a_recordFiled _)
      rw [hstep]
      exact State.counted_of_counts (by decide) (hcounts.keep (Dev.a_setDpdP ..)) _
    · rw [hstep, Dev.dpdP_setDpdP_self _ hpaths]

theorem evKey_modelKey (hp : p < 64) {i : Nat} (hi : i < 448) : evKey (modelKey p + i) = false := by
  have hmodel : p * 2 ^ 24 + i ≤ 63 * 2 ^ 24 + 447 := Nat.add_le_add (Nat.mul_le_mul_right _ (by omega)) (by omega)
  rw [modelKey, Nat.add_assoc]
  exact evKey_of_lt ((Nat.add_le_add_left hmodel _).trans_lt (by decide))

theorem State.model_at (s : State) (dt : Nat) (hp : p < 64) : (s.at_ dt).entries (modelKey p) 448 = s.dev.entries (modelKey p) 448 :=
  List.map_congr_left fun _ hi => s.a_at dt (evKey_modelKey hp (List.mem_range.mp hi))

/-! ### The bin of a quadrant (R323) -/

/-- The valid reading of a die sensor. -/
def Thm.reading (x : Thm) (n : Nat) : Option Int := if (x.sens.getD n {}).lastValid then some (x.sens.getD n {}).last else none

/-- The highest valid reading among some die sensors, in 0.1 degrees C. -/
def Thm.hottest (x : Thm) (l : List Nat) : Option Int :=
  l.foldl (fun acc n => match acc, x.reading n with
    | none, t => t
    | some a, some b => some (if a < b then b else a)
    | some a, none => some a) none

/-- The value that stands for the temperature of a quadrant of which no die sensor reads. -/
def freeTemp (n : Nat) : Int := sx 16 (Config.freeValue n 480 % 2 ^ 16)

/-- R323, and the free value where no sensor reads. -/
theorem Dev.quadTemp_eq (d : Dev) (q : Nat) : d.quadTemp q =
    ((d.thm.hottest [4 * q, 4 * q + 1, 4 * q + 2, 4 * q + 3]).or (d.thm.hottest (List.range 16))).getD (freeTemp d.clk.free) := by
  have hquad : d.quadTemp q = match d.thm.hottest [4 * q, 4 * q + 1, 4 * q + 2, 4 * q + 3] with
      | some t => t
      | none => (d.thm.hottest (List.range 16)).getD (freeTemp d.clk.free) := rfl
  rw [hquad]
  cases d.thm.hottest [4 * q, 4 * q + 1, 4 * q + 2, 4 * q + 3] <;> rfl

/-- The bin of such a quadrant. -/
def freeBin (n : Nat) : Nat := tempBin (freeTemp n)

theorem Dev.binOf_congr {e : Dev} (hthm : e.thm = d.thm) (hfree : freeBin e.clk.free = freeBin d.clk.free) (q : Nat) :
    e.binOf q = d.binOf q := by
  rw [Dev.binOf, Dev.binOf, Dev.quadTemp_eq, Dev.quadTemp_eq, hthm]
  cases (d.thm.hottest [4 * q, 4 * q + 1, 4 * q + 2, 4 * q + 3]).or (d.thm.hottest (List.range 16)) with
  | none => rwa [Option.getD_none, Option.getD_none]
  | some t => rw [Option.getD_some, Option.getD_some]

/-- Time that passes on the LPO steps the counter of the free values. -/
theorem State.free_at (s : State) {dt : Nat} (h : dt ≠ 0) :
    (s.at_ dt).clk.free = if s.dev.clk.onLpo then s.dev.clk.free + 1 else s.dev.clk.free := by
  obtain ⟨⟨m, n, hclosed⟩, -⟩ := closeEdge_drops { s.dev with out := [] } s.places
  unfold State.at_ State.arrive
  rw [if_neg h]
  dsimp only
  rw [hclosed]
  unfold Dev.advance
  dsimp only
  split
  · rfl
  · rfl

theorem State.thm_at (s : State) (dt : Nat) : (s.at_ dt).thm = s.dev.thm := s.arrive_thm dt

theorem State.binOf_at (hbin : ∀ n, freeBin (n + 1) = freeBin n) (s : State) (dt q : Nat) : (s.at_ dt).binOf q = s.dev.binOf q := by
  refine Dev.binOf_congr (s.thm_at dt) ?_ q
  by_cases hdt : dt = 0
  · rw [hdt]
    rfl
  · rw [s.free_at hdt]
    split
    · exact hbin _
    · rfl

theorem claim_dpdWarmStore_of_freeBin (hbin : ∀ n, freeBin (n + 1) = freeBin n) : Claims.dpdWarmStore := by
  intro s dt p d hp hshaped hup hupdated hdue hdefer
  have hstorable : d.Storable p := by
    refine ⟨hp, hup, ?_, ?_, hdefer⟩
    · rwa [s.dpdP_at]
    · rwa [s.dpdP_at, s.a_at dt (by decide)]
  obtain ⟨t, hexec, hpending, hmem, hkeys, hpart, hcounted, hstored, hwarm⟩ := acts_dpdWarmStore hshaped hstorable
  refine ⟨t, hexec, hpending, hmem, hkeys, hpart, hcounted, hstored, ?_⟩
  have hchart : d.warmChart = s.a P.chartActive % 4 := by rw [Dev.warmChart, s.a_at dt (by decide)]
  rw [hwarm, ← hchart, ← s.model_at dt hp, ← State.binOf_at hbin s dt]
  simp only [Dev.recordFiled, Dev.warmRecord, List.cons_append, List.any_cons, beq_self_eq_true, Bool.and_self, Bool.true_or, d]

/-! ### A store on the LPO where no sensor reads -/

/-- A device on the LPO, in WATCH, of which no die sensor has read: the model of path 0 waits to be stored, and MRAM holds no record. -/
def sensorless (n : Nat) : State :=
  { dev := {
      clk := { onLpo := true, free := n }
      alm := [(P.pwrState, 1)]
      pwr := { phase := .running }
      dpd := { paths := { updated := true } :: List.replicate 63 {} } } }

theorem sensorless_shaped (n : Nat) : (sensorless n).dev.shaped = true := by
  have hclock : (sensorless n).dev.shaped = (sensorless 0).dev.shaped := rfl
  rw [hclock]
  decide +kernel

theorem sensorless_storable (n : Nat) : ((sensorless n).at_ 1).Storable 0 :=
  ⟨by decide, rfl, rfl, .inl rfl, rfl⟩

/-- No sensor has read since reset. -/
theorem Dev.binOf_of_unread (h : d.thm = {}) : d.binOf 0 = freeBin d.clk.free := by
  have hquad : ({} : Thm).hottest [4 * 0, 4 * 0 + 1, 4 * 0 + 2, 4 * 0 + 3] = none := by decide
  have hall : ({} : Thm).hottest (List.range 16) = none := by decide
  rw [Dev.binOf, Dev.quadTemp_eq, h, hquad, hall, Option.none_or, Option.getD_none, freeBin]

/-- What the statement on predistortion comes to: three of its clauses hold, and the fourth, which names the bin of the state before the
command where the record is filed under that of its instant, holds if and only if the free values that stand for an unread temperature all
lie in one bin. These are opaque, so neither that nor its negation has a proof. -/
theorem predistortionAdapts_iff_freeBin : Obligations.PredistortionAdapts ↔ ∀ n, freeBin (n + 1) = freeBin n := by
  constructor
  · rintro ⟨-, -, -, hstore⟩ n
    have hstorable := sensorless_storable n
    have hacts := hstore (sensorless n) 1 0 (by decide) (sensorless_shaped n) rfl rfl (.inl rfl) rfl
    rw [Acts, doesDev_onDev (exec_dpdWarmStore ..), State.leave_dpd, Dev.warm_storeDueModel hstorable] at hacts
    obtain ⟨-, -, -, -, hfiled⟩ := hacts
    have hrecord : (((sensorless n).at_ 1).recordFiled 0).dpd.warm = [((sensorless n).at_ 1).warmRecord 0] := rfl
    have hat : ((sensorless n).at_ 1).binOf 0 = freeBin (n + 1) := by
      rw [Dev.binOf_of_unread ((sensorless n).thm_at 1), State.free_at _ one_ne_zero]
      rfl
    have hbefore : (sensorless n).dev.binOf 0 = freeBin n := Dev.binOf_of_unread rfl
    rw [hrecord] at hfiled
    simp only [List.any_cons, List.any_nil, Bool.or_false, Bool.and_eq_true, beq_iff_eq] at hfiled
    obtain ⟨⟨-, hbin⟩, -⟩ := hfiled
    rw [← hat, ← hbefore]
    exact hbin
  · intro hbin
    exact ⟨claim_dpdVisit, claim_dpdCaptureDone, claim_dpdComputeDone, claim_dpdWarmStore_of_freeBin hbin⟩

end Sys2Proof.Machine
end

section
/-!
A COLLIMATE entry that finds a window open (R341): waking the device and ending bursts leave the run, and its window only grows.
-/

namespace Sys2Proof.Machine

/-- What a change keeps it also keeps under a condition. -/
theorem Dev.iff_keeps {β : Type} (π : Dev → β) (c : Bool) {f : Dev → Dev} (h : ∀ d, π (f d) = π d) (d : Dev) : π (d.iff c f) = π d := by
  cases c
  · rfl
  · exact h d

variable {d g : Dev}

theorem Dev.Moves.endBurst (h : g.Moves txKeys Dev.offTx d) {q : Nat} (hq : q < 4) (slot cause : Nat) :
    g.Moves txKeys Dev.offTx (d.endBurst q slot cause) := by
  unfold Dev.endBurst
  dsimp only
  split
  · exact h
  · exact (((((h.dpdAbandon q).leaveOn q).setDl _).reportDrop hq cause).refreshTx hq).coexUpdate

theorem Dev.Moves.burstsEnd (h : g.Moves txKeys Dev.offTx d) : g.Moves txKeys Dev.offTx d.burstsEnd := by
  refine h.each fun q hq d h => ?_
  split
  · exact h.endBurst (lt_four_of_mem hq) _ _
  · exact h

theorem Dev.col_burstsEnd (d : Dev) : d.burstsEnd.col = d.col := by
  obtain ⟨-, -, hpart⟩ := (Dev.Moves.refl txKeys Dev.offTx d).burstsEnd
  generalize d.burstsEnd = e at hpart ⊢
  have hcol := congrArg Dev.col hpart
  exact hcol

theorem Dev.col_goUp (d : Dev) (target cause : Nat) : (d.goUp target cause).col = d.col := by
  obtain ⟨-, -, hpart⟩ := (Dev.Moves.refl calKeys Dev.offPower d).goUp target cause
  generalize d.goUp target cause = e at hpart ⊢
  have hcol := congrArg Dev.col hpart
  exact hcol

/-- The Collimation run in progress. -/
def Dev.run (d : Dev) : Option Nat := d.col.run

theorem Dev.run_ephBegin {e : EphEnt} (h : e.action = 5) (late : Bool) : (d.ephBegin e late).run = d.run := by
  have htarget : e.target = some 2 := by simp [EphEnt.target, h]
  unfold Dev.ephBegin
  rw [htarget]
  dsimp only
  rw [if_neg (by rw [h]; decide)]
  refine (Dev.iff_keeps Dev.run _ (fun d => congrArg Col.run (d.col_goUp _ _)) _).trans
    ((Dev.iff_keeps Dev.run _ (fun d => ?_) _).trans (Dev.iff_keeps Dev.run _ (fun d => ?_) _))
  · rfl
  · rfl

theorem Dev.run_colNoted (e : EphEnt) : (d.colNoted e).run = d.run := by
  refine Dev.iff_keeps Dev.run _ (fun d => Dev.iff_keeps Dev.run _ (fun d => ?_) d) d
  rfl

theorem Dev.run_colOpen_of_open {a b : Nat} (h : d.win = some (a, b)) (start length : Nat) (force arch : Bool) :
    (d.colOpen start length force arch).run = d.run := by
  rw [Dev.win] at h
  rw [Dev.colOpen, h]
  rfl

theorem Dev.run_colEntry {e : EphEnt} (h : e.action = 5) {a b : Nat} (hopen : d.win = some (a, b)) : (d.colEntry e).run = d.run := by
  have hrisen : (d.colRisen e).run = d.run := (Dev.iff_keeps Dev.run _ (fun _ => Dev.run_ephBegin h true) _).trans (Dev.run_colNoted e)
  have hwin : (d.colRisen e).burstsEnd.win = some (a, b) := Dev.win_burstsEnd.trans ((Dev.win_colRisen h).trans hopen)
  exact (Dev.run_colOpen_of_open hwin _ _ _ _).trans ((congrArg Col.run (Dev.col_burstsEnd _)).trans hrisen)

theorem Dev.run_acting (at_ : Nat) (f : Dev → Dev) : (d.acting at_ f).run = (f { d with clk := { d.clk with act := some at_ } }).run := rfl

theorem Dev.run_ephDone (flag : Bool) (arg : Nat) : (d.ephDone flag arg).run = d.run := by
  obtain ⟨m, ev, x, h⟩ := d.ephDone_shape flag arg
  rw [h]
  rfl

theorem Dev.ephActed_collimate {i : Nat} {e : EphEnt} (h : e.action = 5) : d.ephActed i e = d.acting (d.ephInstant e) (·.colEntry e) := by
  have hacted := Dev.ephActed_eq (d := d) (i := i) (e := e) (f := (·.colEntry e)) (r := 0) fun c => Dev.ephAct_collimate h
  rw [hacted, h]
  rfl

theorem Dev.win_ephActed_of_open {i : Nat} {e : EphEnt} (h : e.action = 5) {a b : Nat} (hopen : d.win = some (a, b)) :
    (d.ephActed i e).win = some (a, max b (e.ns + 1000 * (e.arg % 2 ^ 24))) := by
  have hgrown (d : Dev) (hopen : d.win = some (a, b)) :
      (d.colEntry e).win = some (a, max b (e.ns + 1000 * (e.arg % 2 ^ 24))) := by rw [Dev.win_colEntry h, hopen, windowOpened]
  rw [Dev.ephActed_collimate h, Dev.win_acting]
  exact hgrown _ hopen

theorem Dev.run_ephActed_of_open {i : Nat} {e : EphEnt} (h : e.action = 5) {a b : Nat} (hopen : d.win = some (a, b)) :
    (d.ephActed i e).run = d.run := by
  have hentry (d : Dev) (hopen : d.win = some (a, b)) : (d.colEntry e).run = d.run := Dev.run_colEntry h hopen
  rw [Dev.ephActed_collimate h, Dev.run_acting]
  exact hentry _ hopen

/-- Settles O12: coming up for the window and ending the bursts touch neither the window nor the run, and with a window open the entry does
no more than move its end. -/
theorem openWindowOnlyExtends : Obligations.OpenWindowOnlyExtends := by
  unfold Obligations.OpenWindowOnlyExtends
  intro s dt i a b e hfires hwin
  have haction : e.action = 5 := (State.fires_iff.mp hfires).2.1
  obtain ⟨flag, arg, hgo⟩ := State.ephGo_of_fires hfires
  have hcol : ((s.at_ dt).ephFree i).col = s.dev.col := s.arrive_col dt
  have hopen : ((s.at_ dt).ephFree i).win = some (a, b) := (congrArg Col.win hcol).trans hwin
  rw [doesDev_onDev (f := fun d => d.ephGo i 5 0) rfl, hgo, State.leave_col]
  exact ⟨(Dev.win_ephDone flag arg).trans (Dev.win_ephActed_of_open haction hopen),
    ((Dev.run_ephDone flag arg).trans (Dev.run_ephActed_of_open haction hopen)).trans (congrArg Col.run hcol)⟩

end Sys2Proof.Machine
end

section
/-!
The statement on command parameters fails on one state, written out: the edge that closes as the command arrives raises an event, and the
injected slot that was armed for it converts before the mask is written.
-/

namespace Sys2Proof.Machine

/-- In READY with an operator's session; slot 0 of housekeeping injection is armed and triggered by EV70, MRAM defers, and an event for the
log stands on the edge, so EV70 is raised as the edge closes (R403). -/
def armedForDeferral : State :=
  { dev := { pwr := { phase := .running, base := 2 }, hk := { running := true }, nvm := { deferring := true },
             edge := [{ n := 9, arg := 0, log := true }],
             alm := [(P.pwrState, 2), (P.mlLinkWidth, 1), (P.hkInjectConfig, 16384 + 70 * 128), (P.hkInjectState, 1)],
             ses := { h := [{ st := 2, role := 0 }, {}, {}, {}] } } }

/-- Refutes O60: a REFCLK edge passes before HkInjectArm is written 0. Slot 0 is armed in the state before the command, where the clause has
it disarmed; but on that edge its trigger comes, it converts, and a slot that converts is not disarmed (R380). -/
theorem not_commandParametersAct : ¬ Obligations.CommandParametersAct := by
  unfold Obligations.CommandParametersAct
  intro h
  obtain ⟨-, -, hdisarm, -⟩ := h
  have hdoes := hdisarm armedForDeferral 1 0 ⟨0, 0⟩ (by decide) (by decide +kernel)
  rw [DoesDev, does_onAll (dt := 1) (f := fun d m p => d.rowWrite m p ⟨0, 0⟩ (writeItem P.hkInjectArm 0 [0]) {}) rfl] at hdoes
  obtain ⟨-, -, hslots⟩ := hdoes
  obtain ⟨-, hcleared, -⟩ := hslots 0 (by decide)
  have hidle := hcleared (by decide) (by decide +kernel)
  exact absurd hidle (by decide +kernel)

end Sys2Proof.Machine
end

section
/-!
Collimation releases and walks its delays (11_collimation.md R334, R346, R354): the record that comes into force, what is counted, and the
one delay a step moves.
-/

namespace Sys2Proof.Machine

variable {d g : Dev} {keys : List Nat} {part : Dev → Dev}

theorem Dev.Moves.wList (h : g.Moves keys part d) {k : Nat} {vs : List Nat} (hk : ∀ i < vs.length, k + i ∈ keys) :
    g.Moves keys part (d.wList k vs) := by
  unfold Dev.wList
  refine List.foldlRecOn (motive := g.Moves keys part) _ _ h fun d h x hx => h.w (Or.inl (hk _ ?_)) _
  exact List.mem_range.mp (List.of_mem_zip hx).2

/-- The device without what it holds of Collimation beside the parameters. -/
def Dev.offCol (d : Dev) : Dev := { d with col := {} }

theorem Dev.Moves.setCol (h : g.Moves keys Dev.offCol d) (x : Col) : g.Moves keys Dev.offCol { d with col := x } := h.same rfl rfl rfl

/-- The parameters that follow the delays as they walk (R334, R355). -/
def walkKeys : List Nat := [P.collimWalkRemaining, P.collimState]

theorem Dev.Moves.showWalk (h : g.Moves walkKeys part d) : g.Moves walkKeys part d.showWalk :=
  (h.w (Or.inl (by decide)) _).w (Or.inl (by decide)) _

/-! ### The walk of the delays (R334) -/

theorem Dev.Moves.walkStep (h : g.Moves walkKeys Dev.offCol d) (i : Nat) : g.Moves walkKeys Dev.offCol (d.walkStep i) :=
  (h.setCol _).showWalk

theorem Dev.delayTarget_congr {e : Dev} {i : Nat} (hcorr : d.a (P.collimCorrection + i) = e.a (P.collimCorrection + i))
    (hbridge : d.a (P.collimBridge + i / 64) = e.a (P.collimBridge + i / 64)) : d.delayTarget i = e.delayTarget i := by
  rw [Dev.delayTarget, Dev.delayTarget, hcorr, hbridge]

/-- One step of a delay toward a target. -/
def stepTo (t x : Int) : Int := if x < t then x + 1 else if t < x then x - 1 else x

theorem Dev.delays_walkStep (i : Nat) :
    (d.walkStep i).col.delays = modAt d.col.delays i (fun _ => stepTo (d.delayTarget i) (d.col.delays.getD i 0)) := rfl

theorem Dev.delays_length (h : d.shaped = true) : d.col.delays.length = 128 := by
  simp only [Dev.shaped, Bool.and_eq_true, beq_iff_eq] at h
  simp only [h]

/-- One step of the delay of an entry moves the other parameters of the walk, and that delay alone. -/
theorem Dev.delays_walkStep_getD {i : Nat} (hi : i < d.col.delays.length) :
    (d.walkStep i).col.delays.getD i 0 = stepTo (d.delayTarget i) (d.col.delays.getD i 0) ∧
      ∀ j, j ≠ i → (d.walkStep i).col.delays.getD j 0 = d.col.delays.getD j 0 := by
  rw [Dev.delays_walkStep]
  exact ⟨getD_modAt_self _ _ hi, fun j hj => getD_modAt_ne _ _ _ hj⟩

theorem State.delayTarget_at (s : State) (dt : Nat) {i : Nat} (hi : i < 128) : (s.at_ dt).delayTarget i = s.dev.delayTarget i := by
  have hgroup : i / 64 < 2 := Nat.div_lt_of_lt_mul hi
  have hcorr : evKey (P.collimCorrection + i) = false := evKey_of_lt ((Nat.add_lt_add_left hi _).trans (by decide))
  have hbridge : evKey (P.collimBridge + i / 64) = false := evKey_of_lt ((Nat.add_lt_add_left hgroup _).trans (by decide))
  exact Dev.delayTarget_congr (s.a_at dt hcorr) (s.a_at dt hbridge)

theorem claim_collimDelayWalkStep : Claims.collimDelayWalkStep := by
  intro s dt g p hgroup hpath hup hshaped
  have hg : g < 2 := of_decide_eq_true hgroup
  have hp : p < 64 := of_decide_eq_true hpath
  have hi : 64 * g + p < 128 := by omega
  have hstep : (s.at_ dt).iff (s.at_ dt).up (·.walkStep (64 * g + p)) = (s.at_ dt).walkStep (64 * g + p) := by rw [hup, Dev.iff_true]
  refine acts_onDev_of_moves (f := fun d => d.iff d.up (·.walkStep (64 * g + p))) rfl ?_ ?_
  · rw [hstep]
    exact (Dev.Moves.refl walkKeys Dev.offCol _).walkStep _
  · have hlength : 64 * g + p < (s.at_ dt).col.delays.length := by rwa [State.col_at, Dev.delays_length hshaped]
    have hmoved := Dev.delays_walkStep_getD hlength
    rw [State.delayTarget_at s dt hi, State.col_at] at hmoved
    rw [hstep]
    dsimp only
    rw [State.leave_col]
    exact hmoved

/-! ### Release (R346, R354) -/

/-- The parameters a record in force shows. -/
def recordKeys : List Nat :=
  [P.collimLastRun, P.collimRecordSeq, P.collimDue, P.collimRequest, P.collimFiguresStale] ++ span P.collimCorrection 128 ++
    span P.collimBridge 2 ++ span P.collimResidPhase 2 ++ span P.collimResidDelay 2 ++ span P.collimResidGainSpread 2

theorem Dev.Moves.colShow (h : g.Moves recordKeys part d) {r : ColRec} (hcorr : r.corr.length = 128) (hbridge : r.bridge.length = 2) :
    g.Moves recordKeys part (d.colShow r) := by
  have hfigures : g.Moves recordKeys part (((d.wList P.collimCorrection r.corr).wList P.collimBridge r.bridge).each [0, 1] (fun g d =>
      ((d.w (P.collimResidPhase + g) (r.figures.getD (3 * g) 0)).w (P.collimResidDelay + g) (r.figures.getD (3 * g + 1) 0)).w
        (P.collimResidGainSpread + g) (r.figures.getD (3 * g + 2) 0))) := by
    refine Dev.Moves.each ((h.wList fun i hi => ?_).wList fun i hi => ?_) fun q hq d h =>
      ((h.w (Or.inl ?_) _).w (Or.inl ?_) _).w (Or.inl ?_) _
    · simp [recordKeys, add_mem_span P.collimCorrection (hi.trans_eq hcorr)]
    · simp [recordKeys, add_mem_span P.collimBridge (hi.trans_eq hbridge)]
    · simp [recordKeys, add_mem_span P.collimResidPhase (lt_two_of_mem hq)]
    · simp [recordKeys, add_mem_span P.collimResidDelay (lt_two_of_mem hq)]
    · simp [recordKeys, add_mem_span P.collimResidGainSpread (lt_two_of_mem hq)]
  exact (hfigures.w (Or.inl (by simp [recordKeys])) _).w (Or.inl (by simp [recordKeys])) _

/-- The run ends, and its record is in force. -/
def Dev.recordForced (d : Dev) (r : CollimResult) : Dev :=
  { d with col := { d.col with run := none, rcd := some (d.colRecord r), dueQuads := maskAnd 4 d.col.dueQuads (d.colMissed r) } }

/-- The record of a run comes into force and is shown. -/
def Dev.recordTaken (d : Dev) (r : CollimResult) : Dev :=
  ((((d.recordForced r).colShow (d.colRecord r)).w P.collimDue (d.dueAfter r)).w P.collimRequest 0).w P.collimFiguresStale 0

/-- A record stands in MRAM. -/
def Dev.recordStored (d : Dev) (new : ColRec) : Dev := { d with col := { d.col with store := some new } }

/-- The record is counted, stored and reported, and the delays begin to walk. -/
def Dev.recordKept (d : Dev) (new : ColRec) (arg : Nat) : Dev :=
  (((d.incN P.collimRunCount).mramWrite 748 (·.recordStored new)).showWalk).raise 58 arg

theorem Dev.colRelease_of_did {r : CollimResult} {t0 : Nat} (hrun : d.col.run = some t0)
    (hdid : d.colDidGroup r 0 = true ∨ d.colDidGroup r 1 = true) : ∃ arg, d.colRelease r = (d.recordTaken r).recordKept (d.colRecord r) arg := by
  have hsome : (!d.colDidGroup r 0 && !d.colDidGroup r 1) = false := by
    obtain h | h := hdid
    · simp [h]
    · simp [h]
  rw [Dev.colRelease, hrun]
  dsimp only
  rw [hsome, if_neg Bool.false_ne_true]
  exact ⟨_, rfl⟩

theorem Dev.colRelease_of_none {r : CollimResult} {t0 : Nat} (hrun : d.col.run = some t0)
    (hnone : ¬ (d.colDidGroup r 0 = true ∨ d.colDidGroup r 1 = true)) : d.colRelease r = d.colAbandon 3 := by
  simp only [not_or, Bool.not_eq_true] at hnone
  obtain ⟨h0, h1⟩ := hnone
  rw [Dev.colRelease, hrun]
  dsimp only
  rw [h0, h1]
  rfl

theorem Dev.Moves.recordTaken (h : g.Moves recordKeys Dev.offCol d) (r : CollimResult) :
    g.Moves recordKeys Dev.offCol (d.recordTaken r) := by
  have hforced : g.Moves recordKeys Dev.offCol (d.recordForced r) := h.setCol _
  have hshown := hforced.colShow (r := d.colRecord r) (by simp [Dev.colRecord]) (by simp [Dev.colRecord])
  exact ((hshown.w (Or.inl (by simp [recordKeys])) _).w (Or.inl (by simp [recordKeys])) _).w (Or.inl (by simp [recordKeys])) _

theorem Dev.Moves.mramWrite (h : g.Moves keys part d) {f : Dev → Dev} (hf : ∀ d, g.Moves keys part d → g.Moves keys part (f d))
    (bytes : Nat) : g.Moves keys part (d.mramWrite bytes f) :=
  Dev.mramWrite_keeps (Q := g.Moves keys part) (fun _ _ h => h) (fun _ _ h => h.raise (by decide) _) (fun _ h => h.inc (Or.inr evKey_discard))
    hf h bytes

/-- Storing and reporting the record moves none but the parameters of the walk. -/
theorem Dev.moves_recordKept (new : ColRec) (arg : Nat) :
    (d.incN P.collimRunCount).Moves walkKeys Dev.offCol (d.recordKept new arg) :=
  ((Dev.Moves.refl walkKeys Dev.offCol _).mramWrite (fun _ h => h.setCol _) 748).showWalk.raise (by decide) arg

theorem Dev.counts_incN {k : Nat} (h : d.a k = g.a k) : g.Counts k 1 (d.incN k) := fun hlt => by
  rw [Dev.incN, Dev.a_wN_self]
  exact Dev.counts_inc h hlt

/-- The run in progress and the record in force. -/
def Dev.inForce (d : Dev) : Option Nat × Option ColRec := (d.col.run, d.col.rcd)

theorem Dev.inForce_w (k v : Nat) : (d.w k v).inForce = d.inForce := rfl

theorem Dev.inForce_wList (k : Nat) (vs : List Nat) : (d.wList k vs).inForce = d.inForce := by
  rw [Dev.inForce, Dev.wList_col, Dev.inForce]

theorem Dev.inForce_inc (k : Nat) : (d.inc k).inForce = d.inForce := by rw [Dev.inForce, Dev.inc_col, Dev.inForce]

theorem Dev.inForce_raise (n arg : Nat) : (d.raise n arg).inForce = d.inForce := by rw [Dev.inForce, Dev.raise_col, Dev.inForce]

theorem Dev.inForce_colShow (r : ColRec) : (d.colShow r).inForce = d.inForce := by
  unfold Dev.colShow
  dsimp only
  rw [Dev.inForce_w, Dev.inForce_w]
  refine (Dev.each_keeps Dev.inForce _ _ (fun _ _ => ?_) _).trans ((Dev.inForce_wList _ _).trans (Dev.inForce_wList _ _))
  rfl

theorem Dev.inForce_recordTaken (r : CollimResult) : (d.recordTaken r).inForce = (none, some (d.colRecord r)) := by
  rw [Dev.recordTaken, Dev.inForce_w, Dev.inForce_w, Dev.inForce_w, Dev.inForce_colShow]
  rfl

theorem Dev.inForce_showWalk : d.showWalk.inForce = d.inForce := by
  rw [Dev.showWalk, Dev.showCol, Dev.inForce_w, Dev.inForce_w]

theorem Dev.inForce_recordStored (new : ColRec) : (d.recordStored new).inForce = d.inForce := rfl

theorem Dev.inForce_recordKept (new : ColRec) (arg : Nat) : (d.recordKept new arg).inForce = d.inForce := by
  have hraise (e : Dev) (arg : Nat) (h : e.inForce = d.inForce) : (e.raise 70 arg).inForce = d.inForce := (Dev.inForce_raise _ _).trans h
  have hinc (e : Dev) (h : e.inForce = d.inForce) : (e.inc P.nvmDeferredDiscardCount).inForce = d.inForce := (Dev.inForce_inc _).trans h
  have hcounted : (d.incN P.collimRunCount).inForce = d.inForce :=
    Dev.wN_keeps (Q := fun e => e.inForce = d.inForce) (fun _ _ h => h) hraise hinc (fun _ h => h) rfl
  rw [Dev.recordKept, Dev.inForce_raise, Dev.inForce_showWalk]
  exact Dev.mramWrite_keeps (Q := fun e => e.inForce = d.inForce) (fun _ _ h => h) hraise hinc
    (fun e h => (Dev.inForce_recordStored (d := e) new).trans h) hcounted 748

theorem Dev.counts_colAbandon (h : d.col.run.isSome = true) (status : Nat) : d.Counts P.collimAbandonCount 1 (d.colAbandon status) := by
  rw [Dev.colAbandon_of_run h]
  refine Dev.Counts.keep (Dev.counts_incN ?_) (Dev.a_raise _ _ (by decide) (by decide))
  rw [Dev.a_w_ne _ _ (by decide), Dev.showCol, Dev.a_w_ne _ _ (by decide)]
  rfl

theorem claim_collimRelease : Claims.collimRelease := by
  intro s dt t0 r hrun
  replace hrun : (s.at_ dt).col.run = some t0 := by rw [State.col_at, hrun]
  rw [doesDev_onDev (f := (·.colRelease r)) rfl]
  dsimp only
  by_cases hdid : (s.at_ dt).colDidGroup r 0 = true ∨ (s.at_ dt).colDidGroup r 1 = true
  · obtain ⟨arg, hrelease⟩ := Dev.colRelease_of_did hrun hdid
    have htaken := (Dev.Moves.refl recordKeys Dev.offCol (s.at_ dt)).recordTaken r
    have hkept := Dev.moves_recordKept (d := (s.at_ dt).recordTaken r) ((s.at_ dt).colRecord r) arg
    have hforce : ((s.at_ dt).colRelease r).inForce = (none, some ((s.at_ dt).colRecord r)) := by
      rw [hrelease, Dev.inForce_recordKept, Dev.inForce_recordTaken]
    obtain ⟨hnone, hnew⟩ := Prod.mk.inj hforce
    have hrequest : ((s.at_ dt).colRelease r).a P.collimRequest = 0 := by
      rw [hrelease, hkept.a_eq (by decide) (by decide), Dev.a_incN_ne (by decide) (by decide), Dev.recordTaken,
        Dev.a_w_ne _ _ (by decide), Dev.a_w_self]
    have hcount : (s.at_ dt).Counts P.collimRunCount 1 ((s.at_ dt).colRelease r) := by
      rw [hrelease]
      exact (Dev.counts_incN (htaken.a_eq (by decide) (by decide))).keep (hkept.a_eq (by decide) (by decide))
    rw [State.leave_col]
    refine ⟨hnone, fun _ => ⟨hnew, ?_, State.counted_of_counts (by decide) hcount _⟩, fun hnot => absurd hdid hnot⟩
    rw [State.a, State.leave_a _ _ _ (by decide), hrequest]
  · have hsome : (s.at_ dt).col.run.isSome = true := by rw [hrun]; rfl
    rw [Dev.colRelease_of_none hrun hdid, State.leave_col, Dev.col_colAbandon hsome]
    refine ⟨rfl, fun h => absurd h hdid, fun _ => ⟨?_, ?_, ?_⟩⟩
    · rw [State.col_at]
    · exact State.counted_of_counts (by decide) (Dev.counts_colAbandon hsome 3) _
    · exact (State.leave_raised ..).mpr (Dev.raised_colAbandon hsome 3)

end Sys2Proof.Machine
end

section
/-!
What the way down to WATCH or DEEP leaves alone: the power state but since when the device idles, Collimation, the plans queued. The relation
`Rests`, its rules for each way of changing the device, then the functions this way is made of.
-/

namespace Sys2Proof.Machine

/-- The power state but since when the device idles, Collimation, the plans queued of both kinds. -/
def Dev.restPart (d : Dev) : Pwr × Col × List Plan × List Plan :=
  ({ d.pwr with idleSince := none }, d.col, d.ul.plans, d.dl.plans)

/-- From `g` to `d` none of these moved. -/
def Dev.Rests (g d : Dev) : Prop := d.restPart = g.restPart

namespace Dev.Rests

variable {g d e : Dev}

theorem refl (d : Dev) : Dev.Rests d d := rfl

theorem trans (h : g.Rests d) (h' : d.Rests e) : g.Rests e := Eq.trans h' h

/-- Nothing that `Rests` speaks of stands in what has changed. -/
theorem same (h : g.Rests d) (hsame : e.restPart = d.restPart) : g.Rests e := hsame.trans h

theorem w (h : g.Rests d) {k v : Nat} : g.Rests (d.w k v) := h

theorem add (h : g.Rests d) {k n : Nat} : g.Rests (d.add k n) := by
  obtain ⟨_, hs⟩ := d.add_shape k n
  rw [hs]
  exact h

theorem inc (h : g.Rests d) {k : Nat} : g.Rests (d.inc k) := h.add

theorem raise (h : g.Rests d) {n arg : Nat} : g.Rests (d.raise n arg) := by
  obtain ⟨_, _, hs⟩ := d.raise_shape n arg
  rw [hs]
  exact h

theorem wList (h : g.Rests d) {k : Nat} {vs : List Nat} : g.Rests (d.wList k vs) := by
  obtain ⟨_, hs⟩ := d.wList_shape k vs
  rw [hs]
  exact h

theorem iff (h : g.Rests d) {c : Bool} {f : Dev → Dev} (hf : ∀ d, g.Rests d → g.Rests (f d)) : g.Rests (d.iff c f) := by
  cases c
  · exact h
  · exact hf d h

theorem ite {c : Prop} [Decidable c] (h : g.Rests d) (h' : g.Rests e) : g.Rests (if c then d else e) := by
  split
  · exact h
  · exact h'

theorem foldl {α : Type} {l : List α} {f : Dev → α → Dev} (h : g.Rests d) (hf : ∀ x d, g.Rests d → g.Rests (f d x)) : g.Rests (l.foldl f d) :=
  List.foldlRecOn (motive := g.Rests) l f h fun d h x _ => hf x d h

theorem each {α : Type} {l : List α} {f : α → Dev → Dev} (h : g.Rests d) (hf : ∀ x d, g.Rests d → g.Rests (f x d)) : g.Rests (d.each l f) :=
  h.foldl hf

theorem wAll (h : g.Rests d) {l : List (Nat × Nat)} : g.Rests (d.wAll l) := h.foldl fun _ _ h => h.w

/-- A loop that also collects something beside the device. -/
theorem foldlFst {α β : Type} {l : List α} {f : Dev × β → α → Dev × β} {acc : Dev × β} (h : g.Rests acc.1)
    (hf : ∀ acc x, g.Rests acc.1 → g.Rests (f acc x).1) : g.Rests (l.foldl f acc).1 :=
  List.foldlRecOn (motive := fun acc => g.Rests acc.1) l f h fun acc h x _ => hf acc x h

theorem foldlSnd {α β : Type} {l : List α} {f : β × Dev → α → β × Dev} {acc : β × Dev} (h : g.Rests acc.2)
    (hf : ∀ acc x, g.Rests acc.2 → g.Rests (f acc x).2) : g.Rests (l.foldl f acc).2 :=
  List.foldlRecOn (motive := fun acc => g.Rests acc.2) l f h fun acc h x _ => hf acc x h

theorem noteIdle (h : g.Rests d) : g.Rests d.noteIdle := h

/-! ### MRAM -/

theorem mramWrite (h : g.Rests d) {n : Nat} {f : Dev → Dev} (hf : ∀ d, g.Rests d → g.Rests (f d)) : g.Rests (d.mramWrite n f) :=
  Dev.mramWrite_keeps (Q := g.Rests) (fun _ _ h => h) (fun _ _ h => h.raise) (fun _ h => h.inc) hf h n

theorem wN (h : g.Rests d) {k v : Nat} : g.Rests (d.wN k v) :=
  Dev.wN_keeps (Q := g.Rests) (fun _ _ h => h) (fun _ _ h => h.raise) (fun _ h => h.inc) (fun _ h => h) h

theorem incN (h : g.Rests d) {k : Nat} : g.Rests (d.incN k) := h.wN

theorem trimStore (h : g.Rests d) : g.Rests d.trimStore := h.mramWrite fun _ h => h.same (by rfl)

theorem copyGeneration (h : g.Rests d) : g.Rests d.copyGeneration := h.iff fun _ h => h.mramWrite fun _ h => h.same (by rfl)

theorem setDpd (h : g.Rests d) {x : Dpd} : g.Rests { d with dpd := x } := h.same (by rfl)

theorem warmStore (h : g.Rests d) {p : Nat} : g.Rests (d.warmStore p) := by
  unfold Dev.warmStore
  exact setDpd (h.mramWrite fun _ h => h.setDpd.inc)

theorem warmDeep (h : g.Rests d) : g.Rests d.warmDeep := by
  unfold Dev.warmDeep
  exact setDpd (h.each fun _ _ h => h.iff fun _ h => h.warmStore)

/-! ### Direct memory access and Transit -/

theorem served (h : g.Rests d) {c sec n : Nat} : g.Rests (d.servedAt c sec n) := by
  unfold Dev.servedAt
  exact ite (h.same (by rfl)) (ite (h.same (by rfl)) (ite (h.same (by rfl)) (h.same (by rfl))))

theorem dmaStopAt (h : g.Rests d) {m : Memory} {p : Places} {c moved : Nat} : g.Rests (d.dmaStopAt m p c moved).1 := by
  unfold Dev.dmaStopAt
  dsimp only
  split
  · exact h
  · exact same h.served (by rfl)

theorem dmaEvent (h : g.Rests d) {c st : Nat} : g.Rests (d.dmaEvent c st) := h.iff fun _ h => h.raise

theorem dmaDisableOne (h : g.Rests d) {m : Memory} {p : Places} {c moved : Nat} : g.Rests (d.dmaDisableOne m p c moved).1 := by
  unfold Dev.dmaDisableOne
  dsimp only
  split
  · exact dmaEvent (iff (same (dmaStopAt h.w) (by rfl)) fun _ h => h.w)
  · split
    · exact h.same (by rfl)
    · exact h.w

theorem dmaDeep (h : g.Rests d) {m : Memory} {p : Places} : g.Rests (d.dmaDeep m p).1 := by
  refine foldlFst h fun acc c h => ?_
  have hfree : g.Rests (acc.1.free (620 + c) 27).2 := h.same (by rfl)
  exact same hfree.dmaDisableOne (by rfl)

theorem traEnd (h : g.Rests d) {trunc : Bool} {t pre post phase next : Nat} : g.Rests (d.traEnd trunc t pre post phase next) := by
  have hkept {d : Dev} (h : g.Rests d) {x : Tra} : g.Rests { d with tra := x } := h.same (by rfl)
  exact raise (w (iff (inc (hkept h.wList)) fun _ h => h.inc))

theorem traDeep (h : g.Rests d) : g.Rests d.traDeep := by
  have hfree : g.Rests (d.free 640 40).2 := h.same (by rfl)
  exact ite hfree.traEnd (ite hfree.traEnd (ite hfree.w hfree))

/-! ### Bursts, RF control, synthesisers -/

theorem rfctl (h : g.Rests d) {i : Nat} {on : Bool} : g.Rests (d.rfctl i on) := ite h (h.same (by rfl))

theorem coexUpdate (h : g.Rests d) : g.Rests d.coexUpdate := by
  have hpin {d : Dev} (h : g.Rests d) {x : Pin} {level : Bool} : g.Rests (d.pin x level) := h.same (by rfl)
  exact same (iff (iff h fun _ h => hpin h) fun _ h => hpin h) (by rfl)

theorem unrequest (h : g.Rests d) {q : Nat} : g.Rests (d.unrequest q) :=
  h.iff fun _ h => coexUpdate (each (h.same (by rfl)) fun _ _ h => h.iff fun _ h => h.rfctl)

theorem synthsOff (h : g.Rests d) {mask : Nat} : g.Rests (d.synthsOff mask) := h.each fun _ _ h => h.w.w

theorem replayDiscard (h : g.Rests d) : g.Rests d.replayDiscard := by
  have hsen : g.Rests { d with sen := { d.sen with replay := 0 } } := h.same (by rfl)
  exact ite h hsen.add.raise

/-! ### Messages that leave -/

theorem put (h : g.Rests d) {p : Nat} {ok : Bool} {m : Msg} : g.Rests (d.put p ok m) := by
  have hchan {f : Chan → Chan} : g.Rests (d.setChan p m.vc f) := h.same (by rfl)
  exact same (iff (iff hchan fun _ h => h.inc) fun _ h => h.w) (by rfl)

theorem fieldPut (h : g.Rests d) {fn low : Nat} {data : List Byte} : g.Rests (d.fieldPut fn low data) := h.iff fun _ h => h.same (by rfl)

theorem fieldOut (h : g.Rests d) {m : Msg} {crc : Nat} : g.Rests (d.fieldOut m crc) := ite (h.each fun _ _ h => h.fieldPut) h.fieldPut

theorem ripLeave (h : g.Rests d) {x : RipHold} : g.Rests (d.ripLeave x) := by
  unfold Dev.ripLeave
  split
  · exact h
  · exact ite h.fieldOut h.put

theorem ripRule (h : g.Rests d) {port dir type i : Nat} : g.Rests (d.ripRule port dir type i).2 := by
  unfold Dev.ripRule
  dsimp only
  split
  · split
    · exact h.same (by rfl)
    · exact h.same (by rfl)
  · exact h

theorem ripPick (h : g.Rests d) {port dir type : Nat} : g.Rests (d.ripPick port dir type).2 := by
  unfold Dev.ripPick
  split
  · dsimp only
    split
    · exact foldlSnd (acc := (none, d)) h fun _ _ h => h.ripRule
    · exact inc (foldlSnd (acc := (none, d)) h fun _ _ h => h.ripRule)
  · exact h

theorem ripCorrupt (h : g.Rests d) {bs : List Byte} {n : Nat} : g.Rests (d.ripCorrupt bs n).2 := by
  unfold Dev.ripCorrupt
  split
  · exact h
  · exact foldlSnd h fun _ _ h => h.same (by rfl)

theorem ripPass (h : g.Rests d) {sent : Bool} {p vc : Nat} : g.Rests (d.ripPass sent p vc) := h.same (by rfl)

theorem start (h : g.Rests d) {p : Nat} {m : Msg} : g.Rests (d.start p m) := by
  unfold Dev.start
  dsimp only
  split
  · exact h.ripPick.ripPass.put
  · split
    · exact h.ripPick
    · exact h.ripPick.ripCorrupt.ripPass.put
    · exact h.ripPick.ripCorrupt.ripPass.put
    · exact same h.ripPick (by rfl)

theorem sendMsg (h : g.Rests d) {p : Nat} {m : Msg} : g.Rests (d.sendMsg p m) := ite h (ite h.start (h.same (by rfl)))

theorem send (h : g.Rests d) {p vc type : Nat} {resp : Bool} {body : List Byte} : g.Rests (d.send p vc type resp body) := h.sendMsg

end Dev.Rests

end Sys2Proof.Machine
end

section
/-!
`Rests`, function by function: time, the Archipelago and the lanes, which go off with DEEP.
-/

namespace Sys2Proof.Machine

namespace Dev.Rests

variable {g d e : Dev}

/-! ### Time -/

theorem setTim (h : g.Rests d) {x : Tim} : g.Rests { d with tim := x } := h.same (by rfl)

theorem timeFollow (h : g.Rests d) : g.Rests d.timeFollow := by
  unfold Dev.timeFollow
  split
  · exact h
  · exact ite h (setTim (iff h fun _ h => h.setTim))

theorem qualCheck (h : g.Rests d) : g.Rests d.qualCheck := by
  unfold Dev.qualCheck
  exact ite h.setTim.raise h

theorem enterHoldover (h : g.Rests d) {cause : Nat} : g.Rests (d.enterHoldover cause) := by
  unfold Dev.enterHoldover
  exact ite h (qualCheck (raise (ite h h.setTim.w.inc)))

theorem sourceLost (h : g.Rests d) {cause : Nat} : g.Rests (d.sourceLost cause) := by
  unfold Dev.sourceLost
  exact ite (enterHoldover (iff h.setTim fun _ h => h.setTim)) h

theorem timeRoute (h : g.Rests d) : g.Rests d.timeRoute := by
  have hlane {parent port : Nat} : g.Rests { (d.w P.timeParentIsland parent).w P.timeParentPort port with
      tim := { ((d.w P.timeParentIsland parent).w P.timeParentPort port).tim with lane := none } } := h.same (by rfl)
  unfold Dev.timeRoute
  split
  · exact h.w.w
  · exact ite h (ite hlane.timeFollow (ite (enterHoldover hlane.setTim) (timeFollow (setTim (raise hlane.enterHoldover)))))

/-! ### The Archipelago -/

theorem setArch (h : g.Rests d) {x : Arch} : g.Rests { d with arch := x } := h.same (by rfl)

theorem freeUnits (h : g.Rests d) {p vc u : Nat} : g.Rests (d.freeUnits p vc u) := h.same (by rfl)

theorem sentWords (h : g.Rests d) {slot gr kind n : Nat} : g.Rests (d.sentWords slot gr kind n) := h.same (by rfl)

theorem redUp (h : g.Rests d) {r : Red} {l : List (Nat × Nat × Nat)} : g.Rests (d.redUp r l) :=
  h.each fun _ _ h => same h.send.sentWords (by rfl)

theorem redOut (h : g.Rests d) {o : OutKind} {l : List (Nat × Nat)} : g.Rests (d.redOut o l) := by
  unfold Dev.redOut
  exact sentWords (sendMsg (h.same (by rfl)))

theorem redFlush (n : Nat) (r : Red) (h : g.Rests d) : g.Rests (Dev.redFlush n r d).2 := by
  induction n generalizing r d with
  | zero => exact h
  | succ n ih =>
    unfold Dev.redFlush
    split
    · exact h
    next o _ =>
      have hsome (k : Nat) : g.Rests (if k = 0 then (r, d)
          else Dev.redFlush n { r with queue := r.queue.drop k } (d.redOut o (r.queue.take k))).2 := by
        split
        · exact h
        · exact ih _ h.redOut
      exact hsome _

theorem redAdvance (h : g.Rests d) {r : Red} : g.Rests (d.redAdvance r) := by
  unfold Dev.redAdvance
  dsimp only
  split
  · exact setArch (redUp (h.each fun _ _ h => h.freeUnits))
  · exact setArch (redFlush _ _ (h.each fun _ _ h => h.freeUnits))

theorem redPortLost (h : g.Rests d) {port : Nat} : g.Rests (d.redPortLost port) := h.each fun _ _ h => h.iff fun _ h => h.redAdvance

theorem applyAssign (h : g.Rests d) {a : Assign} : g.Rests (d.applyAssign a) := by
  unfold Dev.applyAssign
  exact iff (timeRoute (iff (wList (wList (wAll h.setArch))) fun _ h => h.raise)) fun _ h => h.each fun _ _ h => h.send

theorem takeAssign (h : g.Rests d) {a : Assign} : g.Rests (d.takeAssign a) := ite h.setArch h.applyAssign

theorem sendAssigns (h : g.Rests d) {t : Topo} : g.Rests (d.sendAssigns t) := by
  unfold Dev.sendAssigns
  extract_lets
  split
  · exact h
  · refine each h.setArch fun c d h => ?_
    dsimp only
    split
    · exact h.takeAssign
    · split
      · exact h
      · exact h.sendMsg

theorem rebuild (h : g.Rests d) : g.Rests d.rebuild := by
  unfold Dev.rebuild
  exact sendAssigns (each (each (each (w h.setArch) fun _ _ h => h.raise) fun _ _ h => h.raise) fun _ _ h => h.raise)

theorem archPortChanged (h : g.Rests d) {port : Nat} {rose : Bool} : g.Rests (d.archPortChanged port rose) := by
  have hfound : g.Rests (d.iff rose (·.discover port)) := h.iff fun _ h => h.send
  unfold Dev.archPortChanged
  dsimp only
  split
  · exact h
  · split
    · exact hfound.rebuild
    · split
      · exact hfound
      · exact hfound.sendMsg

/-! ### Lanes and ports -/

theorem restartPort (h : g.Rests d) {p : Nat} : g.Rests (d.restartPort p) := each (h.same (by rfl)) fun _ _ h => h.iff fun _ h => h.w

theorem linkToggled (h : g.Rests d) {p : Nat} {up : Bool} : g.Rests (d.linkToggled p up) := by
  have hport : g.Rests ((d.restartPort p).iff (!up && d.timePort == some p) (·.sourceLost 1)) := h.restartPort.iff fun _ h => h.sourceLost
  unfold Dev.linkToggled
  exact ite (iff (w hport) fun _ h => h.w) (archPortChanged (iff (ite hport.raise hport.raise) fun _ h => h.redPortLost.w))

theorem setLink (h : g.Rests d) {p width r : Nat} : g.Rests (d.setLink p width r) := by
  have hwidth : g.Rests (if p = 0 then (d.w P.mlLinkWidth width).w P.mlPayload (width * laneMb r) else d.w (P.stLinkWidth + (p - 1)) width) :=
    ite h.w.w h.w
  exact ite hwidth (ite hwidth.w hwidth.w)

theorem portFollow (h : g.Rests d) {p : Nat} : g.Rests (d.portFollow p) := by
  unfold Dev.portFollow
  exact timeFollow (iff (iff (setLink (h.each fun _ _ h => h.w)) fun _ h => h.raise) fun _ h => h.linkToggled)

theorem laneTo (h : g.Rests d) {l stage rate : Nat} : g.Rests (d.laneTo l stage rate) := h.same (by rfl)

theorem laneLeave (h : g.Rests d) {l cause : Nat} : g.Rests (d.laneLeave l cause) := h.inc.iff fun _ h => h.raise

theorem laneCycle (h : g.Rests d) {l : Nat} : g.Rests (d.laneCycle l) := h.same (by rfl)

theorem laneRestart (h : g.Rests d) {l cause : Nat} : g.Rests (d.laneRestart l cause) :=
  iff (laneCycle (h.iff fun _ h => h.laneLeave)) fun _ h => h.portFollow

theorem lane0Retrain (h : g.Rests d) : g.Rests d.lane0Retrain := h.iff fun _ h => h.laneRestart

theorem portUpdate (h : g.Rests d) {p : Nat} : g.Rests (d.portUpdate p) := h.portFollow.iff fun _ h => h.lane0Retrain

theorem laneOff (h : g.Rests d) {l cause : Nat} : g.Rests (d.laneOff l cause) :=
  ite h (iff (laneTo (h.iff fun _ h => h.laneLeave)) fun _ h => h.portUpdate)

theorem laneFollow (h : g.Rests d) {l cause : Nat} : g.Rests (d.laneFollow l cause) := ite h.laneOff (ite h.laneCycle (ite h.laneRestart h))

theorem lanesFollow (h : g.Rests d) {cause : Nat} : g.Rests (d.lanesFollow cause) := lane0Retrain (h.each fun _ _ h => h.laneFollow)

theorem ripOff (h : g.Rests d) {cause : Nat} : g.Rests (d.ripOff cause) := by
  have hheld {x : Rip} : g.Rests { d with rip := x } := h.same (by rfl)
  exact ite h (lanesFollow (raise (w (w (each hheld fun _ _ h => h.ripLeave)))))

end Dev.Rests

end Sys2Proof.Machine
end

section
/-!
The way down, exactly: what leaving ACTIVE, discarding the plans and the transition to DEEP set of the parts `Rests` speaks of.
-/

namespace Sys2Proof.Machine

namespace Dev.Rests

variable {g d e : Dev}

theorem iff_parts : g.Rests d ↔ ({ d.pwr with idleSince := none } : Pwr) = { g.pwr with idleSince := none } ∧ d.col = g.col ∧
    d.ul.plans = g.ul.plans ∧ d.dl.plans = g.dl.plans := by
  simp only [Dev.Rests, Dev.restPart, Prod.mk.injEq]

theorem col_eq (h : g.Rests d) : d.col = g.col := (iff_parts.mp h).2.1

theorem plans_eq (h : g.Rests d) : d.ul.plans = g.ul.plans ∧ d.dl.plans = g.dl.plans := (iff_parts.mp h).2.2

/-- Two devices that differ by rest have the same power state but since when they idle. -/
theorem pwr_eq (h : g.Rests d) {α : Type} {π : Pwr → α} (hπ : ∀ p : Pwr, π { p with idleSince := none } = π p) : π d.pwr = π g.pwr := by
  rw [← hπ d.pwr, (iff_parts.mp h).1, hπ]

/-- The same transitions and units to come on both sides. -/
theorem setJobs (h : g.Rests d) (after : Nat) (jobs : List Job) :
    Dev.Rests { g with pwr := { g.pwr with after := after, jobs := jobs } } { d with pwr := { d.pwr with after := after, jobs := jobs } } := by
  obtain ⟨hpwr, hrest⟩ := iff_parts.mp h
  exact iff_parts.mpr ⟨congrArg (fun p : Pwr => { p with after := after, jobs := jobs }) hpwr, hrest⟩

/-! ### Units leave ACTIVE -/

theorem setRx (h : g.Rests d) {x : Rx} : g.Rests { d with rx := x } := h.same (by rfl)

theorem setSen (h : g.Rests d) {x : Sen} : g.Rests { d with sen := x } := h.same (by rfl)

theorem endFade (h : g.Rests d) {p : Nat} : g.Rests (d.endFade p) := by
  unfold Dev.endFade
  split
  · exact h
  · exact raise (setRx h.w.w)

theorem gridEnds (h : g.Rests d) {p till : Nat} : g.Rests (d.gridEnds p till) := ite h.setRx h

theorem updateQuad (h : g.Rests d) {u : Nat} : g.Rests (d.updateQuad u) :=
  Dev.updateQuad_keeps (Q := g.Rests) (fun _ _ h => h.same (by rfl)) (fun _ _ _ h => h.w) (fun _ _ h => h.w) h

theorem spareCycle (h : g.Rests d) : g.Rests d.spareCycle := by
  unfold Dev.spareCycle
  exact ite h.setRx.raise h

theorem updateQuads (h : g.Rests d) : g.Rests d.updateQuads := spareCycle (h.each fun _ _ h => h.updateQuad)

theorem ringEnds (h : g.Rests d) : g.Rests d.ringEnds := by
  unfold Dev.ringEnds
  exact ite h (setSen h.served.served)

theorem sentinelStop (h : g.Rests d) : g.Rests d.sentinelStop := by
  unfold Dev.sentinelStop
  exact ite (updateQuads (w h.ringEnds.setSen)) h

theorem refreshTx (h : g.Rests d) {q : Nat} : g.Rests (d.refreshTx q) := by
  have hpaths {v : Nat} : g.Rests (d.setTxPaths q v) := h.each fun _ _ h => h.w
  unfold Dev.refreshTx
  split
  · exact hpaths
  · exact hpaths
  · exact hpaths
  · exact hpaths

/-- Units that leave ACTIVE take what was to come of them along and begin their transition. -/
theorem dropUnits (d : Dev) (mask : Nat) : ∃ after jobs, Dev.Rests { d with pwr := { d.pwr with after := after, jobs := jobs } } (d.dropUnits mask) := by
  have hfade {e : Dev} (h : d.Rests e) (p : Nat) : d.Rests (if bit mask p then e.endFade p else e) := ite h.endFade h
  have hgrids := (hfade (hfade (refl d) 0) 1).each (l := [0, 1]) fun p _ h =>
    h.iff (c := bit mask p) (f := fun d => d.gridEnds p d.now) fun _ h => h.gridEnds
  unfold Dev.dropUnits
  dsimp only
  refine ⟨_, _, noteIdle (sentinelStop (updateQuads (each (each (setJobs (iff (w hgrids) fun _ h => h.w) _ _) ?_) ?_)))⟩
  · exact fun _ _ h => h.iff fun _ h => h.setRx
  · exact fun _ _ h => h.iff fun _ h => h.refreshTx

/-! ### The transition to WATCH -/

theorem goWatch (hbase : d.pwr.base = 2) (hjobs : d.pwr.jobs = []) : (d.begin 3 1).Rests d.goWatch := by
  have hdown : d.goingDown = false := by rw [Dev.goingDown, hjobs]; rfl
  rw [Dev.goWatch, hbase, hdown, if_neg (by decide)]
  exact (refl _).synthsOff

end Dev.Rests

end Sys2Proof.Machine
end

section
/-!
The way into DEEP, exactly, and the commands that begin it (R57, R66, R339, R340, R445): the end of a Collimation window, and a SLEEP that
takes effect.
-/

namespace Sys2Proof.Machine

variable {d g : Dev} {m : Memory} {p : Places}

/-! ### What is given up on the way -/

/-- The device with no Collimation run. -/
def Dev.runless (d : Dev) : Dev := { d with col := { d.col with run := none } }

/-- The device with no Collimation window open. -/
def Dev.windowless (d : Dev) : Dev := { d with col := { d.col with win := none } }

/-- The device with no plan queued. -/
def Dev.planless (d : Dev) : Dev := { d with ul := { d.ul with plans := [] }, dl := { d.dl with plans := [] } }

theorem Dev.Rests.runless (h : g.Rests d) : g.runless.Rests d.runless := by
  obtain ⟨hpwr, hcol, hplans⟩ := Dev.Rests.iff_parts.mp h
  exact Dev.Rests.iff_parts.mpr ⟨hpwr, congrArg (fun x : Col => { x with run := none }) hcol, hplans⟩

theorem Dev.Rests.windowless (h : g.Rests d) : g.windowless.Rests d.windowless := by
  obtain ⟨hpwr, hcol, hplans⟩ := Dev.Rests.iff_parts.mp h
  exact Dev.Rests.iff_parts.mpr ⟨hpwr, congrArg (fun x : Col => { x with win := none }) hcol, hplans⟩

theorem Dev.Rests.planless (h : g.Rests d) : g.planless.Rests d.planless := by
  obtain ⟨hpwr, hcol, -⟩ := Dev.Rests.iff_parts.mp h
  exact Dev.Rests.iff_parts.mpr ⟨hpwr, hcol, rfl, rfl⟩

theorem Dev.rests_colAbandon (d : Dev) (status : Nat) : d.runless.Rests (d.colAbandon status) := by
  cases hrun : d.col.run with
  | none =>
    rw [Dev.colAbandon_of_no_run hrun, Dev.Rests.iff_parts]
    exact ⟨rfl, by rw [Dev.runless, ← hrun], rfl, rfl⟩
  | some r =>
    have hgone : d.runless.Rests (d.runless.showCol.w P.collimFiguresStale 0) := Dev.Rests.refl _
    rw [Dev.colAbandon_of_run (by rw [hrun]; rfl)]
    exact hgone.incN.raise

theorem Dev.rests_discardAllPlans (d : Dev) : d.planless.Rests d.discardAllPlans := by
  have hul (d : Dev) : Dev.Rests { d with ul := { d.ul with plans := [] } } (d.discardPlans fun _ => true) := by
    unfold Dev.discardPlans
    simp only [Bool.not_true, List.filter_false]
    exact ((Dev.Rests.refl _).add.each fun _ _ h => h.w).noteIdle
  have hdl (d : Dev) : Dev.Rests { d with dl := { d.dl with plans := [] } } (d.discardDl fun _ => true) := by
    have hgot {x : List DlBlk} : Dev.Rests { d with dl := { d.dl with plans := [] } } { d with dl := { d.dl with plans := [], got := x } } := rfl
    unfold Dev.discardDl
    simp only [Bool.not_true, List.filter_false]
    exact hgot.add.noteIdle
  obtain ⟨hpwr, hcol, hulNone, -⟩ := Dev.Rests.iff_parts.mp (hul d)
  obtain ⟨hpwr', hcol', hulKept, hdlNone⟩ := Dev.Rests.iff_parts.mp (hdl (d.discardPlans fun _ => true))
  exact Dev.Rests.iff_parts.mpr ⟨hpwr'.trans hpwr, hcol'.trans hcol, hulKept.trans hulNone, hdlNone⟩

/-! ### The transition to DEEP (R66) -/

/-- On its way to DEEP: every other transition is given up, and with them the Collimation run and window and the plans. -/
def Dev.bedded (d : Dev) : Dev := (d.dropUp.begin 3 0).runless.planless.windowless

theorem Dev.rests_deepActions (d : Dev) (m : Memory) (p : Places) : d.bedded.Rests (d.deepActions m p).1 := by
  have hstopped : (d.dropUp.begin 3 0).Rests ((d.dropUp.begin 3 0).dmaDeep m p).1.traDeep := (Dev.Rests.refl _).dmaDeep.traDeep
  have hgone := hstopped.runless.trans (Dev.rests_colAbandon _ 3)
  have hplans := hgone.planless.trans (Dev.rests_discardAllPlans _)
  have hclosed := (hplans.each (l := [0, 1, 2, 3]) (f := fun q d => d.unrequest q) fun _ _ h => h.unrequest).windowless
  have hquiet {e : Dev} (h : d.bedded.Rests e) : d.bedded.Rests (e.replayDiscard.hkStop).thermCountsRestart := h.replayDiscard.same (by rfl)
  have hlost {e : Dev} (h : d.bedded.Rests e) : d.bedded.Rests e.buffersLost.bgPause := h.same (by rfl)
  unfold Dev.deepActions
  dsimp only
  refine Dev.Rests.noteIdle (hlost (Dev.Rests.lanesFollow (Dev.Rests.ripOff (Dev.Rests.synthsOff (Dev.Rests.setSen (hquiet
    (Dev.Rests.trimStore (Dev.Rests.copyGeneration (Dev.Rests.warmDeep (Dev.Rests.w ?_))))))))))
  exact hclosed

/-- Giving the transitions up in progress up sets four fields of the power state. -/
theorem Dev.rests_dropUp (d : Dev) : Dev.Rests { d with pwr := { d.pwr with
    jobs := d.pwr.jobs.filter (fun j => j.kind == 2 || j.kind == 3), after := 0, goal := 0, wakes := [] } } d.dropUp :=
  (Dev.Rests.refl _).each fun _ _ h => h.raise

theorem Dev.col_bedded (d : Dev) : d.bedded.col = { d.col with run := none, win := none } :=
  congrArg (fun x : Col => { x with run := none, win := none }) (Dev.rests_dropUp d).col_eq

/-- The transition to DEEP is among those begun, and no other field but those four is set. -/
theorem Dev.pwr_bedded (d : Dev) : d.bedded.pwr.sleepTo = d.pwr.sleepTo ∧ d.bedded.pwr.jobs.any (fun j => j.kind == 3 && j.arg == 0) = true := by
  have hsleep : d.dropUp.pwr.sleepTo = d.pwr.sleepTo := (Dev.rests_dropUp d).pwr_eq (π := Pwr.sleepTo) fun _ => rfl
  have hjobs : d.bedded.pwr.jobs = d.dropUp.pwr.jobs ++ [⟨3, 0, d.dropUp.now⟩] := rfl
  exact ⟨hsleep, by rw [hjobs]; simp⟩

/-! ### The end of a Collimation window (R339, R340) -/

theorem Dev.col_goDown (hrun : d.col.run = none) (hwin : d.col.win = none) (target : Nat) : (d.goDown m p target).1.col = d.col := by
  have hclosed : ({ d.col with run := none, win := none } : Col) = d.col := by rw [← hrun, ← hwin]
  unfold Dev.goDown Dev.goDeep Dev.goWatch
  dsimp only
  split
  · split
    · rfl
    · rw [(Dev.rests_deepActions _ m p).col_eq, Dev.col_bedded, hclosed]
  · dsimp only
    split
    · rfl
    · exact ((Dev.Rests.refl (d.begin 3 1)).synthsOff).col_eq

/-- The units that follow no plan in the slot in progress or the next, as the end of a window finds them. -/
def Dev.planlessUnits (d : Dev) : Nat :=
  maskOf 6 (fun u =>
    if u < 2 then !(d.slotPlans false (d.slotNow + 1) u).any (fun p => p.modes != 0) && !(d.slotPlans false d.slotNow u).any (fun p => p.modes != 0)
    else (d.burst (u - 2)).st == 0 && !d.txPlanned (d.slotNow + 1) (u - 2) && !d.txPlanned d.slotNow (u - 2))

/-- The device with its run given up and its window closed, its units not yet dropped. -/
def Dev.windowClosed (d : Dev) : Dev := (d.colAbandon 3).windowless.showCol

theorem Dev.colClose_eq (d : Dev) :
    d.colClose = d.windowClosed.dropUnits (maskAnd 6 d.windowClosed.planlessUnits (d.windowClosed.a P.pwrActiveMask)) := rfl

theorem Dev.rests_windowClosed (d : Dev) : d.runless.windowless.Rests d.windowClosed := (Dev.rests_colAbandon d 3).windowless.w

/-- The end of a window closes it and gives its run up; what the device was told of states to return to stands. -/
theorem Dev.colClose_parts (d : Dev) : d.colClose.col = { d.col with run := none, win := none } ∧ d.colClose.pwr.named = d.pwr.named := by
  have hclosed := d.rests_windowClosed
  rw [Dev.colClose_eq]
  generalize maskAnd 6 d.windowClosed.planlessUnits (d.windowClosed.a P.pwrActiveMask) = mask
  obtain ⟨after, jobs, hdropped⟩ := Dev.Rests.dropUnits d.windowClosed mask
  exact ⟨hdropped.col_eq.trans hclosed.col_eq,
    (hdropped.pwr_eq (π := Pwr.named) fun _ => rfl).trans (hclosed.pwr_eq (π := Pwr.named) fun _ => rfl)⟩

/-- Where the device returns to once its window is closed: down to a lower state, or nowhere. -/
def Dev.colBack (d : Dev) (m : Memory) (p : Places) : Dev × List MemOp :=
  let back := max d.col.before d.pwr.named
  let free := d.a P.pwrActiveMask == 0 && d.bringing == 0 && d.ul.plans.isEmpty && d.dl.plans.isEmpty
  if back < 2 && back < d.pwr.base && free && !d.goingUp && !d.upd.waiting then
    ((d.goDown m p back).1.noteIdle, (d.goDown m p back).2)
  else (d.noteIdle, [])

theorem Dev.colEnd_eq (d : Dev) (m : Memory) (p : Places) : d.colEnd m p = d.colClose.colBack m p := by
  unfold Dev.colEnd Dev.colBack
  generalize d.colClose = e
  dsimp only

theorem Dev.col_noteIdle (d : Dev) : d.noteIdle.col = d.col := rfl

theorem Dev.col_colBack (hrun : d.col.run = none) (hwin : d.col.win = none) : (d.colBack m p).1.col = d.col := by
  unfold Dev.colBack
  dsimp only
  split
  · exact (Dev.col_noteIdle _).trans (Dev.col_goDown hrun hwin _)
  · exact Dev.col_noteIdle d

/-- A device that stays up returns nowhere. -/
theorem Dev.colBack_up (hback : 2 ≤ max d.col.before d.pwr.named) : (d.colBack m p).2 = [] := by
  unfold Dev.colBack
  dsimp only
  rw [decide_eq_false (not_lt.mpr hback), Bool.false_and, Bool.false_and, Bool.false_and, Bool.false_and]
  rfl

/-- After its end the window is closed and no run is in progress, wherever the device returns to. -/
theorem Dev.col_colEnd (d : Dev) (m : Memory) (p : Places) : (d.colEnd m p).1.col = { d.col with run := none, win := none } := by
  obtain ⟨hcol, -⟩ := d.colClose_parts
  rw [Dev.colEnd_eq, Dev.col_colBack (by rw [hcol]) (by rw [hcol]), hcol]

theorem Dev.colEnd_up (hback : 2 ≤ max d.col.before d.pwr.named) : (d.colEnd m p).2 = [] := by
  obtain ⟨hcol, hnamed⟩ := d.colClose_parts
  rw [Dev.colEnd_eq]
  exact Dev.colBack_up (by rw [hcol, hnamed]; exact hback)

theorem claim_collimWindowEnd : Claims.collimWindowEnd := by
  intro s dt a b hwin hend
  have hended : (s.at_ dt).colWindowEnd s.mem (s.arrive dt).places = (s.at_ dt).colEnd s.mem (s.arrive dt).places := by
    rw [Dev.colWindowEnd, State.col_at, hwin]
    exact if_pos hend
  rw [does_onAll (f := fun d m p => d.colWindowEnd m p) rfl, hended, State.leave_col, Dev.col_colEnd]
  refine ⟨rfl, rfl, fun hback => ?_⟩
  have hnone : ((s.at_ dt).colEnd s.mem (s.arrive dt).places).2 = [] := by
    refine Dev.colEnd_up ?_
    rw [State.col_at, State.at_, State.arrive_pwr]
    exact hback
  rw [hnone]
  exact State.leave_mem _ _ _

/-! ### SLEEP takes effect (R445) -/

/-- The device with the transitions down in progress given up. -/
def Dev.downless (d : Dev) : Dev := { d with pwr := { d.pwr with jobs := d.pwr.jobs.filter (fun j => j.kind != 3) } }

theorem Dev.downless_of_quiet (hjobs : d.pwr.jobs = []) : d.downless = d := by
  rw [Dev.downless, hjobs, List.filter_nil, ← hjobs]

theorem Dev.goDeep_of_ready (hbase : d.pwr.base = 2) (hjobs : d.pwr.jobs = []) : d.goDeep m p = d.deepActions m p := by
  have hdown : d.goingDown = false := by rw [Dev.goingDown, hjobs]; rfl
  have hbegins : ((d.goingDown && d.downTo == 0) || (d.pwr.base == 0 && !d.goingUp)) = false := by
    rw [hdown, Bool.false_and, hbase]; rfl
  have hshape : d.goDeep m p = if ((d.goingDown && d.downTo == 0) || (d.pwr.base == 0 && !d.goingUp)) = true then (d, [])
    else d.downless.deepActions m p := rfl
  rw [hshape, hbegins, if_neg Bool.false_ne_true, Dev.downless_of_quiet hjobs]

/-- From READY with no transition in progress one to the state asked for begins. -/
theorem Dev.goDown_of_ready (hbase : d.pwr.base = 2) (hjobs : d.pwr.jobs = []) (hul : d.ul.plans = []) (hdl : d.dl.plans = []) {x : Nat}
    (hx : x ≤ 1) : (x = 1 → (d.goDown m p x).2 = []) ∧ (d.goDown m p x).1.pwr.sleepTo = d.pwr.sleepTo ∧
      (d.goDown m p x).1.pwr.jobs.any (fun j => j.kind == 3 && j.arg == x) = true ∧
      (d.goDown m p x).1.ul.plans = [] ∧ (d.goDown m p x).1.dl.plans = [] := by
  obtain rfl | rfl : x = 0 ∨ x = 1 := by omega
  · have hdeep : d.goDown m p 0 = d.deepActions m p := Dev.goDeep_of_ready hbase hjobs
    have hrests := Dev.rests_deepActions d m p
    obtain ⟨hsleep, hbegun⟩ := d.pwr_bedded
    rw [hdeep, hrests.pwr_eq (π := Pwr.sleepTo) fun _ => rfl, hrests.pwr_eq (π := Pwr.jobs) fun _ => rfl]
    exact ⟨fun h => absurd h (by decide), hsleep, hbegun, hrests.plans_eq⟩
  · have hrests := Dev.Rests.goWatch hbase hjobs
    obtain ⟨hulKept, hdlKept⟩ := hrests.plans_eq
    have hbegun : (d.begin 3 1).pwr.jobs = [⟨3, 1, d.now⟩] := by rw [Dev.begin, hjobs, List.nil_append]
    have hwatch : d.goDown m p 1 = (d.goWatch, []) := rfl
    rw [hwatch]
    dsimp only
    rw [hrests.pwr_eq (π := Pwr.sleepTo) fun _ => rfl, hrests.pwr_eq (π := Pwr.jobs) fun _ => rfl, hbegun]
    exact ⟨fun _ => rfl, rfl, by simp, hulKept.trans hul, hdlKept.trans hdl⟩

/-- The device no longer asked to go to sleep. -/
def Dev.unasked (d : Dev) : Dev := { d with pwr := { d.pwr with sleepTo := none } }

/-- A SLEEP entry that nothing holds discards the plans, and the device goes down. -/
theorem Dev.sleepNow_of_free {x : Nat} (hsleep : d.pwr.sleepTo = some x) (hx : 4 ≤ x) (hactive : d.a P.pwrActiveMask = 0)
    (hbringing : d.bringing = 0) (hjobs : d.pwr.jobs = []) (hwin : d.col.win = none) (hsen : d.sen.win = none) (hheld : d.ephHeld = false) :
    d.sleepNow m p = ((d.unasked.discardAllPlans.goDown m p (x % 4)).1.noteIdle, (d.unasked.discardAllPlans.goDown m p (x % 4)).2) := by
  have hup : d.goingUp = false := by rw [Dev.goingUp, hjobs]; rfl
  unfold Dev.sleepNow
  rw [hsleep]
  dsimp only
  rw [hactive, hbringing, hup, hwin, hsen, hheld, if_neg (by decide), decide_eq_true hx]
  rfl

theorem claim_sleepTakeEffect : Claims.sleepTakeEffect := by
  intro s dt x hsleep hx hx4 hactive hbringing hjobs hbase hwin hsen hheld
  have hpwr : (s.at_ dt).pwr = s.dev.pwr := s.arrive_pwr dt
  have hfree := Dev.sleepNow_of_free (d := s.at_ dt) (m := s.mem) (p := (s.arrive dt).places) (x := x) (by rw [hpwr, hsleep]) hx4
    ((s.a_at dt (by decide)).trans hactive) (by rw [Dev.bringing, hpwr]; exact hbringing) (by rw [hpwr, hjobs])
    (by rw [State.col_at, hwin]) (by rw [State.at_, State.arrive_sen, hsen]) hheld
  have hrests := Dev.rests_discardAllPlans (s.at_ dt).unasked
  obtain ⟨hul, hdl⟩ := hrests.plans_eq
  obtain ⟨hmem, hnone, hbegun, hulNone, hdlNone⟩ := Dev.goDown_of_ready (d := (s.at_ dt).unasked.discardAllPlans) (m := s.mem)
    (p := (s.arrive dt).places) ((hrests.pwr_eq (π := Pwr.base) fun _ => rfl).trans (by rw [← hbase, ← hpwr]; rfl))
    ((hrests.pwr_eq (π := Pwr.jobs) fun _ => rfl).trans (by rw [← hjobs, ← hpwr]; rfl)) hul hdl hx
  rw [does_onAll (f := fun d m p => d.sleepNow m p) rfl, hfree, State.leave_pwr, State.leave_ul, State.leave_dl]
  refine ⟨fun h => ?_, hnone.trans (hrests.pwr_eq (π := Pwr.sleepTo) fun _ => rfl), hbegun, hulNone, hdlNone⟩
  rw [State.leave_mem]
  dsimp only
  rw [hmem h]
  rfl

/-- Settles O33, clause by clause: the end of a window and SLEEP go through what `Dev.deepActions` and `Dev.goWatch` leave of the power
state, the Collimation state and the plans (`Dev.Rests`). -/
theorem collimationRuns : Obligations.CollimationRuns :=
  ⟨claim_collimRelease, claim_collimDelayWalkStep, claim_collimWindowEnd, claim_sleepTakeEffect⟩

end Sys2Proof.Machine
end
